-- ==== Sys2Proof/Word.lean ====
section
/-! DEFINITION. The word types of the GRN-9640 (R6, R7, R9), the sparse table that holds its memories, and the few
conversions every file uses. -/

namespace Sys2Proof

/-- A byte (R7). -/
abbrev Byte := BitVec 8

/-- A 32-bit register or descriptor word (R9). -/
abbrev Word := BitVec 32

/-- A 64-bit register, table word, instruction or time (R45). -/
abbrev DWord := BitVec 64

/-- A sparse table: pairs of a key and a value, keys strictly rising; a key not listed holds the table's default. -/
abbrev Tbl (α : Type) := List (Nat × α)

end Sys2Proof
end

