-- ==== Sys2Proof/Syntax.lean ====
section
/-! DEFINITION. The commands of the GRN-9640: one constructor per row of the table of operations and events, with its operands. -/

namespace Sys2Proof


/-- What the receive array measured of a stream over the non-erased samples of a cell (R167), in 1/16 dBFS at the feed: the mean power, the mean power
of every block of 16 samples, and whether a sample reached the 10-bit limit. -/
structure CenMeas where
  stream : Nat
  mean : Int
  blocks : List Int
  clip : Bool
  deriving DecidableEq, Repr

/-- A firing of a detector (R146): the window it serves (the number of none for the census), the stream, the first-chip time, the index of the sequence
that fired, the level in 0.25 dB, the despread SNR of the port in 0.5 dB, the in-channel power over the preamble in 1/16 dBFS at the feed, the
carrier phase, and the 16-sample mean power at the detector input in 0.25 dBFS. -/
structure Firing where
  win : Nat
  stream : Nat
  t1 : DWord
  q : Nat
  level : Nat
  psnr : Nat
  rssi : Int
  phase : Nat
  power : Int
  deriving DecidableEq, Repr

/-- What the correlator of a firing measured (R162): the despread SNR of the port in 0.5 dB, the in-channel power over the preamble in 1/16 dBFS at the
feed, and the carrier phase. -/
structure FirstLook where
  psnr : Nat
  rssi : Int
  phase : Nat
  deriving DecidableEq, Repr

/-- A heartbeat that comes due (R77): its path, and what arrives on it: a sequence number and whether its parity is right. -/
structure Heartbeat where
  pathY : Bool
  got : Option (Nat × Bool)
  deriving DecidableEq, Repr

/-- A JESD204C link and the CRC-12 errors that its lanes have shown since the last such report (R171). -/
structure LinkSeen where
  n : Nat
  crc : Nat
  deriving DecidableEq, Repr

/-- A class 2 sensor, by its bit of CAUSE; for TAMPER_IN_0 and TAMPER_IN_1 (5 and 6) the level that the pin has had and for how many AON_CLK cycles
(R361, R362). -/
structure Tamper where
  sensor : Nat
  level : Bool
  cycles : Nat
  deriving DecidableEq, Repr

/-- An edge of a FC_IN pin (R387): the new level, and the CORE_CLK cycle of the beat in which it comes. -/
structure FcEdge where
  level : Bool
  cyc : Nat
  deriving DecidableEq, Repr

/-- An edge of an interrupt source (R493): the new unfiltered level, and for how many cycles it has held. -/
structure SrcEdge where
  high : Bool
  held : Nat
  deriving DecidableEq, Repr

/-- What a patrol read meets (R520): the errors it finds, by word of the line, and those that have come up by themselves since: a unit of R523, a word,
and what it differs by over c_0 to c_9. -/
structure PatrolErrs where
  errs : List (Nat × List Nat)
  strikes : List (Nat × Nat × List Nat)
  deriving DecidableEq, Repr

/-- What a read of the on-die scrub meets (R521): the errors it finds, by unit and word, and those that have come up by themselves since. -/
structure OndieErrs where
  errs : List (Nat × Nat × List Nat)
  strikes : List (Nat × Nat × List Nat)
  deriving DecidableEq, Repr

/-- The D2H descriptor in host memory that a command fills (R413): its ADDR and BUFLEN. -/
structure D2hDesc where
  addr : Nat
  buflen : Nat
  deriving DecidableEq, Repr

/-- An H2D descriptor in host memory (R412). `zero` is bytes 14 and 15. -/
structure H2dDesc where
  addr : Nat
  len : Nat
  flags : Nat
  cfofs : Nat
  zero : Nat
  tref : Nat
  tag : Nat
  deriving DecidableEq, Repr

/-- What a HELLO carries (R447): the origin's position, MAS_DOMAIN_ID, whether it is MEMBER, the master it follows, its count of present devices,
and for each port its wrap state and proposed UNWRAP_SF. -/
structure Hello where
  origin : Nat
  domain : Nat
  member : Bool
  master : Nat
  count : Nat
  wrapE : Bool
  wrapW : Bool
  unwrapE : Option Nat
  unwrapW : Option Nat
  deriving DecidableEq, Repr


/-- What internal reset release meets (R438, R534, R538, R563, R565, R366, R471): CHAIN_POS, GiB of DRAM per channel, TEST_EN, which tamper sensors are
tripped, which PA_EN_n pads the board holds low (R196), which channels train, whether the exit from self-refresh failed, whether the SFDP tables of the boot flash give it 8D-8D-8D, and, when a
reset cuts the boot ROM's copy short, after how many sectors. -/
structure BoardAt where
  chain : Nat
  gib : Nat
  testEn : Bool
  tripped : Nat
  padLow : Nat
  up0 : Bool
  up1 : Bool
  srFail : Bool
  octal : Bool
  cut : Option Nat
  deriving DecidableEq, Repr

/-- A configuration request (R407, R409, R503, R540): a read of the Vendor and Device ID, of the Class Code and Revision ID, or of the Subsystem
IDs; and writes of Bus Master Enable, of the power state (D3hot) and PME_En, of MSI-X Enable and Function Mask, and of the Function Level
Reset bit. -/
inductive CfgReq where
  | readVendor
  | readClass
  | readSubsystem
  | command (busMaster : Bool)
  | power (d3hot pmeEn : Bool)
  | msix (enable mask : Bool)
  | flr
  deriving DecidableEq, Repr

/-- The commands, in the order of the table; each constructor is one row. -/
inductive Instr where
  /-- REG_WRITE (R11): A write to a register that has no row of its own stores its fields by access type, or is ignored with WR_IGN or WR_REJECT where a rule forbids it. -/
  | regWrite (bar : Nat) (off : Nat) (val : Word)
  /-- COUNTER_READ_CLEAR (R12): A read of a read-to-clear counter or field returns its value and clears it, keeping any coinciding hardware update. -/
  | counterReadClear (off : Nat)
  /-- PAIR_LO_READ (R13): A read of a NAME_LO register latches NAME_HI for a later read. -/
  | pairLoRead (off : Nat)
  /-- ACCESS_SIZE_ERROR (R9): A register access of a size other than aligned 32 bits completes without effect and logs an access error. -/
  | accessSizeError (off : Nat) (write : Bool)
  /-- UNASSIGNED_ACCESS (R30): An access to an unassigned BAR0 offset reads zero or is ignored, and logs an access error. -/
  | unassignedAccess (req : Nat) (off : Nat) (write : Bool)
  /-- BAR2_ACCESS (R408): A PCIe access through the DRAM window reads or writes DRAM, completing as Unsupported Request beyond installed DRAM and dropping writes to Grove areas while Grove is enabled. -/
  | bar2Access (write : Bool) (off : Nat) (len : Nat) (data : List Byte)
  /-- CONFIG_REQUEST (R540): A PCIe configuration request is served, or completes with Request Retry Status until the boot sequence ends. -/
  | configRequest (req : CfgReq)
  /-- MBX_RING (R35): A write of RING submits the mailbox command when the phase is IDLE or DONE, or sets DB_REJECT otherwise. -/
  | mbxRing
  /-- MBX_ABORT (R38): A write of ABORT in phase BUSY moves the phase to ABORTING. -/
  | mbxAbort
  /-- MBX_COMPLETE (R40): The steward completes a mailbox command, setting STATUS, results, DONE and phase DONE together and raising the completion source when enabled. -/
  | mbxComplete
  /-- MBX_TIMEOUT (R37): TMO_MS after RING without completion, the hardware completes the command with TIMEOUT. -/
  | mbxTimeout
  /-- MBX_ABORT_TIMEOUT (R38): 10 ms after ABORT without completion, the hardware completes the command with ABORTED. -/
  | mbxAbortTimeout
  /-- PING (R43): Mailbox command that echoes its argument words. -/
  | ping
  /-- GET_FW_INFO (R43): Mailbox command that returns the steward firmware version, build, rollback count and record version. -/
  | getFwInfo
  /-- GET_HEALTH (R43): Mailbox command that returns running cores, watchdog restarts, pending joins and unread log entries. -/
  | getHealth
  /-- STEWARD_WATCHDOG_EXPIRY (R32): A steward watchdog expires and all four steward cores restart, clearing READY. -/
  | stewardWatchdogExpiry
  /-- STEWARD_READY (R539): Steward firmware finishes initialisation, applies configuration records, sets READY and ends Request Retry Status. -/
  | stewardReady
  /-- CELL_BOUNDARY (R46): HTIME advances into a new cell and the Hoop issues the cell boundary pulse with everything scheduled on it. -/
  | cellBoundary
  /-- PPS_EDGE (R50): A PPS_IN rising edge is time-stamped and accepted as a measurement or discarded by the acceptance windows. -/
  | ppsEdge (t : DWord)
  /-- PPS_WINDOW_CLOSE (R50): An acceptance window closes without an accepted edge and counts as one missing edge. -/
  | ppsWindowClose
  /-- PTP_SUBMIT (R51): A write of HOOP_PTP_OFS_HI submits a PTP measurement, discarded with PTP_STALE when over 1 s old. -/
  | ptpSubmit (val : Word)
  /-- PTP_SOURCE_LOST (R51): No PTP measurement accepted for 4 s, so the PTP source counts as lost. -/
  | ptpSourceLost
  /-- REFCLK_LOSS (R54): REFCLK misses an edge for 1 µs or drifts beyond 50 ppm, REF_OK clears and HTIME runs on the Hoop clock. -/
  | refclkLoss
  /-- REFCLK_RESTORE (R54): REFCLK returns within tolerance, REF_OK sets and the DSP_CLK PLL begins its slewed relock. -/
  | refclkRestore
  /-- DSP_RELOCK (R138): The DSP_CLK PLL completes its slew back onto REFCLK and DSP_HOLD clears. -/
  | dspRelock
  /-- HOLD_MAX_EXPIRY (R56): HOLD_MAX superframes elapse in HOLDOVER and the Hoop moves to UNLOCKED. -/
  | holdMaxExpiry
  /-- PSRC_WRITE (R56): A write of HOOP_CTL that changes PSRC moves LOCK to UNLOCKED for re-evaluation. -/
  | psrcWrite (val : Word)
  /-- FORCE_SW (R80): A write of FORCE_SW starts Hoop failover at once. -/
  | forceSw
  /-- REARM (R80): A write of REARM releases a FAILED Hoop copy from reset to become standby. -/
  | rearm
  /-- PROOF_NOW (R81): A write of PROOF_NOW requests a proof run in the next cell. -/
  | proofNow
  /-- PROOF_RUN (R81): The standby runs one cell in lockstep from a checkpoint, comparing outputs and HTIME every cycle. -/
  | proofRun
  /-- PROOF_RUN_END (R81): At the end of the proof cell the standby returns to READY, or to SUSPECT or FAILED on mismatch. -/
  | proofRunEnd (mism : Bool)
  /-- HOOP_INTERNAL_FAULT (R77): The active Hoop copy meets a PLL, parity or checkpoint fault and stops its heartbeats. -/
  | hoopInternalFault
  /-- HEARTBEAT_MISS (R77): A heartbeat path misses a heartbeat and sets HB_X_MISS or HB_Y_MISS. -/
  | heartbeatMiss (h : Heartbeat)
  /-- FAILOVER_START (R78): Both heartbeat paths have missed 4 heartbeats, the outputs freeze and the standby loads the latest checkpoint. -/
  | failoverStart
  /-- FAILOVER_GAP_END (R78): After exactly 1,024 cycles the new active copy drives the outputs and issues the gap's strobes flagged LATE. -/
  | failoverGapEnd (flaw : Bool)
  /-- WARP_DATA_LOAD (R84): A read of HOOP_WARP_DATA_0 loads all eight words of the addressed descriptor. -/
  | warpDataLoad (n : Nat)
  /-- WARP_DATA_STORE (R84): A write of HOOP_WARP_DATA_7 stores all eight words of the addressed descriptor, or is ignored with WR_IGN. -/
  | warpDataStore (n : Nat) (val : Word)
  /-- EPOCH_COMMIT (R69): A write of COMMIT starts validation of the pending epoch. -/
  | epochCommit
  /-- EPOCH_CANCEL (R72): A write of CANCEL abandons validation or an armed or held epoch before the freeze point. -/
  | epochCancel
  /-- EPOCH_VALIDATION_DONE (R69): Validation ends with the digest computed and the state ARMED, or REFUSED with a reason. -/
  | epochValidationDone
  /-- FREEZE_POINT (R70): At the start of cell 255 of ACT_SF − 1 the armed epoch is frozen or held. -/
  | freezePoint
  /-- EPOCH_ACTIVATION (R73): At ACT_SF the banks and tables named in SWAP exchange roles and the pending epoch, count and digest become active. -/
  | epochActivation
  /-- GROUP_LIST_READ (R62): The Hoop reads the group list entries for the next superframe from DRAM, marking poisoned or out-of-range entries GRPERR. -/
  | groupListRead (idx : Nat)
  /-- SLOT_STROBE (R64): At T_s the Hoop issues one strobe for an occupied descriptor, with its slip and flags. -/
  | slotStrobe (idx : Nat) (sf : Nat)
  /-- QUEUED_WEAVE_START (R253): A strand that becomes free takes the oldest queued strobe and starts its weave two beats later. -/
  | queuedWeaveStart (k : Nat)
  /-- HANDOVER_START (R268): A busy strand starts its pending handover weave 2 beats after its weave ends. -/
  | handoverStart (k : Nat)
  /-- WDOG_EXPIRY (R265): A weave still running WDOG ticks after its slot end faults with WDOG. -/
  | wdogExpiry (k : Nat)
  /-- HOVR_LONG_EXPIRY (R265): A handover weave not retired within 512 beats faults with HOVR_LONG. -/
  | hovrLongExpiry (k : Nat)
  /-- SYSREF_EDGE (R135): A SYSREF edge aligns the LEMC of newly enabled links or sets SYSREF_ERR when off phase. -/
  | sysrefEdge (phase : Nat)
  /-- RX_LINK_ENABLE (R135): A change of a JESD204C link's EN starts its validity test and realignment. -/
  | rxLinkEnable (n : Nat) (val : Word)
  /-- JESD_LINK_UP (R135): A valid, enabled, aligned link with all lanes locked comes up at a LEMC edge and its feeds resume at the next cell. -/
  | jesdLinkUp (x : LinkSeen)
  /-- JESD_LINK_DOWN (R137): A lane loses lock, the link goes down and its feeds deliver erased samples. -/
  | jesdLinkDown (x : LinkSeen) (emb : Bool)
  /-- RXA_ENABLE (R170): A write of RXA_CTL EN starts or stops RXA, resetting every AGC or aborting every lane. -/
  | rxaEnable (en : Bool)
  /-- RXA_FLUSH (R171): A write of FLUSH makes every lane not IDLE post ABORTED and release. -/
  | rxaFlush
  /-- AGC_UPDATE (R140): At the end of its measurement interval a stream's AGC updates its gain and mode. -/
  | agcUpdate (stream : Nat) (power : Int)
  /-- DETECTION (R146): A detector fires on a stream and the allocator handles the detection in order of level. -/
  | detection (win : Nat) (stream : Nat) (t1 : DWord) (q : Nat) (level : Nat) (est : FirstLook) (power : Int) (also : List Firing)
  /-- LANE_SFD_END (R153): A lane reaches the end of the SFD and tests it, releasing on failure. -/
  | laneSfdEnd (lane : Nat) (ok : Bool) (snr : Nat) (cfo : Nat)
  /-- LANE_HEADER_END (R153): A lane decodes the header (and echo block) and passes, fails, or mismatches KIND. -/
  | laneHeaderEnd (lane : Nat) (r0 : Nat) (r1 : Nat) (e0 : Nat) (e1 : Nat) (snr : Nat) (cfo : Nat)
  /-- CODEWORD_DECODE_START (R156): A received codeword starts decoding under earliest-deadline-first, with iterations cut to fit P. -/
  | codewordDecodeStart (lane : Nat) (r : Nat)
  /-- CODEWORD_DECODED (R155): A decoder finishes a codeword and writes the decoded bytes to the frame buffer. -/
  | codewordDecoded (lane : Nat) (r : Nat) (iters : Nat) (data : Nat)
  /-- RX_RECORD_POST (R157): A receive record posts at its fixed instant into its window queue. -/
  | rxRecordPost
  /-- RING_ENTRY_WRITE (R263): A visible receive or transmit record is written into a free entry of the strand's record ring. -/
  | ringEntryWrite (k : Nat)
  /-- HEARD_UPDATE (R327): The updater records the transmitter of an OK record in the heard table. -/
  | heardUpdate
  /-- SHIP_HDR_RECEIVE (R160): A shipped header is offered to a matching XC window, joining a lane or taking a remote-only lane. -/
  | shipHdrReceive (origin : Nat) (body : List Byte)
  /-- SHIP_LLR_RECEIVE (R161): Shipped LLRs are added to their lane's codeword, or discarded as late. -/
  | shipLlrReceive (origin : Nat) (body : List Byte)
  /-- SHIP_FRAME_RECEIVE (R458): A shipped decoded frame is matched to an XC lane for use at P. -/
  | shipFrameReceive (origin : Nat) (body : List Byte)
  /-- CENSUS_BLOCK_WRITE (R166): RXA writes the census block of a cell to the DRAM ring and advances RXA_CEN_WR. -/
  | censusBlockWrite (meas : List CenMeas)
  /-- CENSUS_BLOCK_LOST (R169): A census block not written by the end of cell c + 2 is discarded and CEN_LOST sets. -/
  | censusBlockLost
  /-- TX_PORT_ENABLE (R173): Setting a TX port's EN tests the port and brings up its link, or refuses it. -/
  | txPortEnable (n : Nat) (val : Word)
  /-- TX_LINK_DOWN (R185): A TX port's link goes down, pins are held high and affected transmissions post LINK_DOWN. -/
  | txLinkDown (n : Nat)
  /-- TX_LINK_UP (R172): A TX port's JESD204C link comes up. -/
  | txLinkUp (n : Nat)
  /-- TRANSMISSION_START (R184): The pin sequence of a port's transmissions begins: switch, PA enable and first samples. -/
  | transmissionStart (h : Nat) (n : Nat) (clipped : Nat)
  /-- TRANSMISSION_END (R184): The radiated interval ends and the PA enable and antenna switch return after their lags. -/
  | transmissionEnd (h : Nat) (n : Nat)
  /-- TX_RECORD_POST (R182): A transmit record posts 64 cycles after the radiated interval with the outcome and charge. -/
  | txRecordPost
  /-- TXC_ENABLE (R201): A write of TXC_CTL EN starts TXC or acts as FLUSH and refuses TXARM. -/
  | txcEnable (en : Bool)
  /-- TXC_FLUSH (R201): A write of FLUSH aborts every armed transmission whose interval has not ended. -/
  | txcFlush
  /-- DWELL_LOCK (R189): A write of DWELL_LOCK locks the airtime tables and CLR_CTL until reset. -/
  | dwellLock
  /-- CLR_REQ_RISE (R193): CLR_REQ rises, the PA gate forces PA_EN high, the capture is stamped and clearing becomes active. -/
  | clrReqRise
  /-- CLR_REQ_FALL (R195): CLR_REQ falls and the PA gate opens. -/
  | clrReqFall
  /-- CLEARING_END (R194): Clearing ends at the later of synchronised low and MIN_HOLD, and CLR_END sets. -/
  | clearingEnd
  /-- ACK_FAULT_CHECK (R196): CLR_ACK still low 2 cycles into a request sets ACK_FAULT. -/
  | ackFaultCheck
  /-- GATE_SELF_TEST (R199): At a qualifying cell start TXC tests the PA gate and sample gate of a port over 8 CLR_CLK cycles. -/
  | gateSelfTest (n : Nat) (gateOk : Bool) (smpOk : Bool) (rise : Bool)
  /-- BEACON_PREPARE (R208): At cell 255 the beacon builder samples the beacon of the next superframe and arms its transmissions. -/
  | beaconPrepare
  /-- SEEN_FLUSH (R231): A write of SEEN_FLUSH starts emptying the seen cache. -/
  | seenFlush
  /-- SEEN_FLUSH_DONE (R231): The seen-cache flush completes within 8,192 cycles. -/
  | seenFlushDone
  /-- END (R264): Instruction that ends the weave, discarding late records and freeing buffers, key holders and locks. -/
  | iEnd (k : Nat)
  /-- NOP (R284): Instruction with no effect. -/
  | iNop (k : Nat)
  /-- BR (R285): Instruction that branches to IMM[12:0]. -/
  | iBr (k : Nat)
  /-- BRL (R285): Instruction that branches and writes the return index. -/
  | iBrl (k : Nat)
  /-- JR (R285): Instruction that branches to RA, faulting above 8,191. -/
  | iJr (k : Nat)
  /-- TIME (R247): Instruction that reads HTIME at the start of its issue beat. -/
  | iTime (k : Nat)
  /-- TWAIT (R262): Instruction that waits until HTIME reaches RA. -/
  | iTwait (k : Nat)
  /-- TWAIT_COMPLETE (R262): The first beat at or after the TWAIT target arrives and the strand continues. -/
  | twaitComplete (k : Nat)
  /-- EVWAIT (R287): Instruction that waits for enabled events or a timeout. -/
  | iEvwait (k : Nat)
  /-- EVWAIT_RETURN (R261): An enabled event is present or the timeout passes, EVWAIT writes the events found and clears a returned doorbell. -/
  | evwaitReturn (k : Nat)
  /-- TKWAIT (R286): Instruction that waits for the tickets in its mask. -/
  | iTkwait (k : Nat)
  /-- TKWAIT_COMPLETE (R257): The latest delivery of the awaited tickets arrives and the strand continues. -/
  | tkwaitComplete (k : Nat)
  /-- SIG (R288): Instruction that sets doorbells of the engine's strands and optionally SIG to the host. -/
  | iSig (k : Nat)
  /-- RREL (R289): Instruction that frees the oldest record ring entry. -/
  | iRrel (k : Nat)
  /-- SYSR (R290): Instruction that reads a selected system value. -/
  | iSysr (k : Nat)
  /-- FBFREE (R289): Instruction that releases a held frame buffer. -/
  | iFbfree (k : Nat)
  /-- ADD (R284): Register addition. -/
  | iAdd (k : Nat)
  /-- SUB (R284): Register subtraction. -/
  | iSub (k : Nat)
  /-- AND (R284): Register bitwise and. -/
  | iAnd (k : Nat)
  /-- OR (R284): Register bitwise or. -/
  | iOr (k : Nat)
  /-- XOR (R284): Register bitwise exclusive or. -/
  | iXor (k : Nat)
  /-- SHL (R284): Register shift left. -/
  | iShl (k : Nat)
  /-- SHR (R284): Register logical shift right. -/
  | iShr (k : Nat)
  /-- SRA (R291): Register arithmetic shift right. -/
  | iSra (k : Nat)
  /-- MIN (R284): Signed minimum. -/
  | iMin (k : Nat)
  /-- MAX (R284): Signed maximum. -/
  | iMax (k : Nat)
  /-- MINU (R284): Unsigned minimum. -/
  | iMinu (k : Nat)
  /-- MAXU (R284): Unsigned maximum. -/
  | iMaxu (k : Nat)
  /-- SEL (R293): Select RA or RB by a predicate. -/
  | iSel (k : Nat)
  /-- MUL (R284): Low 64 bits of a product, due in 2 beats. -/
  | iMul (k : Nat)
  /-- MULHU (R284): High 64 bits of an unsigned product. -/
  | iMulhu (k : Nat)
  /-- DIV (R291): Unsigned division, due in 18 beats. -/
  | iDiv (k : Nat)
  /-- DIVS (R291): Signed division rounding toward zero. -/
  | iDivs (k : Nat)
  /-- REM (R291): Unsigned remainder. -/
  | iRem (k : Nat)
  /-- CMP (R293): Register comparison into a predicate. -/
  | iCmp (k : Nat)
  /-- CMPI (R293): Immediate comparison into a predicate. -/
  | iCmpi (k : Nat)
  /-- TSTB (R293): Copy one register bit into a predicate. -/
  | iTstb (k : Nat)
  /-- PAND (R293): Predicate and. -/
  | iPand (k : Nat)
  /-- POR (R293): Predicate or. -/
  | iPor (k : Nat)
  /-- PXOR (R293): Predicate exclusive or. -/
  | iPxor (k : Nat)
  /-- PANDN (R293): Predicate and-not. -/
  | iPandn (k : Nat)
  /-- ADDI (R284): Add a sign-extended immediate. -/
  | iAddi (k : Nat)
  /-- ANDI (R284): And with an immediate. -/
  | iAndi (k : Nat)
  /-- ORI (R284): Or with an immediate. -/
  | iOri (k : Nat)
  /-- XORI (R284): Exclusive or with an immediate. -/
  | iXori (k : Nat)
  /-- SHLI (R284): Shift left by an immediate. -/
  | iShli (k : Nat)
  /-- SHRI (R284): Logical shift right by an immediate. -/
  | iShri (k : Nat)
  /-- SRAI (R291): Arithmetic shift right by an immediate. -/
  | iSrai (k : Nat)
  /-- MOVI (R284): Load a sign-extended immediate. -/
  | iMovi (k : Nat)
  /-- MOVHI (R284): Load an immediate into the high half. -/
  | iMovhi (k : Nat)
  /-- EXTR (R292): Extract a bit field. -/
  | iExtr (k : Nat)
  /-- INS (R292): Insert a bit field. -/
  | iIns (k : Nat)
  /-- MULI (R284): Multiply by a sign-extended immediate. -/
  | iMuli (k : Nat)
  /-- LDB (R294): Load one byte from data memory. -/
  | iLdb (k : Nat)
  /-- LDH (R294): Load two bytes from data memory. -/
  | iLdh (k : Nat)
  /-- LDW (R294): Load four bytes from data memory. -/
  | iLdw (k : Nat)
  /-- LD (R294): Load eight bytes from data memory. -/
  | iLd (k : Nat)
  /-- LDSB (R294): Load one byte sign-extended. -/
  | iLdsb (k : Nat)
  /-- LDSH (R294): Load two bytes sign-extended. -/
  | iLdsh (k : Nat)
  /-- LDSW (R294): Load four bytes sign-extended. -/
  | iLdsw (k : Nat)
  /-- STB (R294): Store one byte to data memory. -/
  | iStb (k : Nat)
  /-- STH (R294): Store two bytes to data memory. -/
  | iSth (k : Nat)
  /-- STW (R294): Store four bytes to data memory. -/
  | iStw (k : Nat)
  /-- STD (R294): Store eight bytes to data memory. -/
  | iStd (k : Nat)
  /-- TLD (R295): Load a shared table word, due in 8 beats. -/
  | iTld (k : Nat)
  /-- TST (R295): Store a shared table word. -/
  | iTst (k : Nat)
  /-- CTXLD (R296): Instruction that loads an endpoint record, deciding hit or miss and taking a lock at issue. -/
  | iCtxld (k : Nat)
  /-- CTXLD_DELIVERY (R296): The record and status of a CTXLD are delivered at 24 or 640 beats. -/
  | ctxldDelivery (k : Nat) (tk : Nat)
  /-- CTXST (R297): Instruction that writes an endpoint record into the cache and optionally unlocks it. -/
  | iCtxst (k : Nat)
  /-- CTXST_DELIVERY (R297): The status of a CTXST is delivered 4 beats after issue. -/
  | ctxstDelivery (k : Nat) (tk : Nat)
  /-- KEYREQ (R353): Instruction that requests a node or slot key, checking it and deciding its class at issue. -/
  | iKeyreq (k : Nat)
  /-- KEYREQ_DELIVERY (R298): KEYREQ delivers its status, filling or emptying its key holder. -/
  | keyreqDelivery (k : Nat) (tk : Nat)
  /-- SEAL (R300): Instruction that seals a frame into a new frame buffer. -/
  | iSeal (k : Nat)
  /-- SEAL_DELIVERY (R300): SEAL delivers its buffer handle or failure status. -/
  | sealDelivery (k : Nat) (tk : Nat)
  /-- OPEN (R301): Instruction that authenticates and decrypts a frame buffer into data memory. -/
  | iOpen (k : Nat)
  /-- OPEN_DELIVERY (R301): OPEN delivers the opened frame and its status. -/
  | openDelivery (k : Nat) (tk : Nat)
  /-- QPUSH (R303): Instruction that pushes an item into an up queue, stalling without space. -/
  | iQpush (k : Nat)
  /-- QPUSH_STALL_COMPLETE (R384): A stalled QPUSH finds space in a later beat, places its item and completes. -/
  | qpushStallComplete (k : Nat)
  /-- QTRY (R303): Instruction that pushes an item only if space exists. -/
  | iQtry (k : Nat)
  /-- QPOP (R304): Instruction that pops or inspects the head item of a down queue. -/
  | iQpop (k : Nat)
  /-- QPOP_DELIVERY (R304): QPOP delivers the item and status 6 beats after issue. -/
  | qpopDelivery (k : Nat) (tk : Nat)
  /-- SEEN (R305): Instruction that looks up and inserts a flood key in the seen cache. -/
  | iSeen (k : Nat)
  /-- SEEN_DELIVERY (R305): SEEN delivers its HIT status 10 beats after issue. -/
  | seenDelivery (k : Nat) (tk : Nat)
  /-- RXARM (R307): Instruction that opens a receive window, accepted or refused in 3 beats. -/
  | iRxarm (k : Nat)
  /-- TXARM (R178): Instruction that arms a transmission, accepted or refused in 3 beats. -/
  | iTxarm (k : Nat)
  /-- WFT_DOORBELL (R261): A host write of WFT_DB_n sets the doorbells of the named strands. -/
  | wftDoorbell (n : Nat) (val : Word)
  /-- STRAND_ENABLE_WRITE (R270): A write of STRAND_EN enables or disables strands and releases stopped ones. -/
  | strandEnableWrite (n : Nat) (val : Word)
  /-- INSTR_WORD_LOAD (R271): A read of WFT_IDATA_LO loads the addressed instruction word. -/
  | instrWordLoad (n : Nat) (hi : Bool)
  /-- INSTR_WORD_STORE (R271): A write of WFT_IDATA_HI stores the instruction word, or is ignored with WR_IGN. -/
  | instrWordStore (n : Nat) (val : Word)
  /-- DMEM_HOST_ACCESS (R249): A host access through WFT_DDATA_n reads or writes a data-memory word after the strand accesses of its beat. -/
  | dmemHostAccess (n : Nat) (write : Bool) (val : Word)
  /-- TABLE_WORD_LOAD (R271): A read of WFT_TBL_DATA_LO loads the addressed shared table word. -/
  | tableWordLoad (hi : Bool)
  /-- TABLE_WORD_STORE (R250): A write of WFT_TBL_DATA_HI stores the shared table word after the strand stores of its beat. -/
  | tableWordStore (val : Word)
  /-- GRV_ENABLE (R322): Setting GRV_CTL EN starts journal replay. -/
  | grvEnable
  /-- GRV_REPLAY_DONE (R322): Journal replay ends and READY sets. -/
  | grvReplayDone
  /-- GRV_DISABLE (R331): Clearing EN writes back every dirty line, releases every lock and invalidates the cache. -/
  | grvDisable
  /-- GRV_DRAIN_DONE (R330): The write-backs of EN = 0 or FLUSH end and DRAINING clears. -/
  | grvDrainDone
  /-- WRITEBACK (R321): A dirty line leaves the write-back queue through the journal to its home address. -/
  | writeback
  /-- GRV_INIT (R323): INIT writes every record FREE, record 0 SELF, and clears map and journal. -/
  | grvInit
  /-- GRV_INIT_DONE (R323): INIT completes. -/
  | grvInitDone
  /-- GRV_RECHK (R323): RECHK recomputes every CHK and rebuilds the map and GRV_USED. -/
  | grvRechk
  /-- GRV_RECHK_DONE (R323): RECHK completes. -/
  | grvRechkDone
  /-- GRV_FLUSH (R323): FLUSH writes back every line dirty at the write. -/
  | grvFlush
  /-- SWEEP_VISIT (R326): The sweeper visits an ACTIVE record and marks it SILENT when silent too long. -/
  | sweepVisit (idx : Nat) (last : Bool)
  /-- HRD_CLEAR (R330): A write of HRD_CLEAR invalidates every heard entry. -/
  | hrdClear
  /-- HRD_INDEX_LOAD (R330): A write of GRV_HRD_IDX loads the indexed heard entry. -/
  | hrdIndexLoad (val : Word)
  /-- HRD_KEY_LOOKUP (R330): A write of GRV_HRD_KEY looks up an address and loads the entry when found. -/
  | hrdKeyLookup (val : Word)
  /-- HA_READ (R329): Host-access READ of a record from the cache or DRAM. -/
  | haRead
  /-- HA_WRITE (R329): Host-access WRITE of a record image under R314, refused when locked. -/
  | haWrite
  /-- HA_ALLOC_ANY (R325): Host-access ALLOC_ANY registers an endpoint at the lowest FREE index. -/
  | haAllocAny
  /-- HA_ALLOC_AT (R325): Host-access ALLOC_AT registers an endpoint at a given index. -/
  | haAllocAt
  /-- HA_RELEASE (R329): Host-access RELEASE writes a record FREE and clears its map bit. -/
  | haRelease
  /-- HA_BAD_OP (R329): Host-access OP 5–7 completes with BAD_OP. -/
  | haBadOp (op : Nat)
  /-- HA_COMPLETE (R329): A host-access operation completes, BUSY clears and HA_DONE sets. -/
  | haComplete
  /-- JOIN_REQ_ADMIT (R325): Steward core 1 opens a JOIN_REQ and records declarations or replies DISABLED. -/
  | joinReqAdmit (idx : Nat) (pkind : Nat) (payload : List Byte) (slot : Bool) (retryFull : Nat) (retryOff : Nat) (acked : Bool)
  /-- ROUTE_REPORT_PROCESS (R328): Steward core 2 takes a ROUTE_REPORT and adopts the best parent. -/
  | routeReportProcess (x : Nat) (payload : List Byte)
  /-- HWD_GET_STATE (R369): Mailbox command returning HWD_STATE. -/
  | hwdGetState
  /-- HWD_EXTEND (R370): Mailbox command extending MREG_2–7. -/
  | hwdExtend
  /-- HWD_GET_IDENTITY (R369): Mailbox command returning SID and FID public keys. -/
  | hwdGetIdentity
  /-- HWD_GET_FID_CERT (R369): Mailbox command returning the FID certificate. -/
  | hwdGetFidCert
  /-- HWD_QUOTE (R342): Mailbox command writing an FID-signed quote to DRAM. -/
  | hwdQuote
  /-- HWD_SLOT_LOAD (R346): Mailbox command loading and verifying a slot's pending half from a transport blob. -/
  | hwdSlotLoad
  /-- HWD_SLOT_DERIVE (R346): Mailbox command deriving a slot's pending half by the KDF. -/
  | hwdSlotDerive
  /-- HWD_SLOT_COMMIT (R347): Mailbox command arming a slot swap NOW, AT_SF or WITH_EPOCH. -/
  | hwdSlotCommit
  /-- HWD_SLOT_CANCEL (R349): Mailbox command discarding a pending half. -/
  | hwdSlotCancel
  /-- HWD_SLOT_ERASE (R370): Mailbox command emptying every half of a slot. -/
  | hwdSlotErase
  /-- HWD_SLOT_EXPORT (R350): Mailbox command wrapping an active half into a storage blob. -/
  | hwdSlotExport
  /-- HWD_SLOT_IMPORT (R350): Mailbox command loading a pending half from a storage blob. -/
  | hwdSlotImport
  /-- HWD_SET_WRAP (R370): Mailbox command naming or unsetting the wrap slot of a WSEL. -/
  | hwdSetWrap
  /-- HWD_WRAP (R370): Mailbox command rewrapping a transport blob into a working-key blob. -/
  | hwdWrap
  /-- HWD_WRAP_BATCH (R370): Mailbox command wrapping or rewrapping a batch of blobs in DRAM. -/
  | hwdWrapBatch (n : Nat)
  /-- HWD_SIGN (R370): Mailbox command signing a digest with an Ed448 slot. -/
  | hwdSign
  /-- HWD_VERIFY (R370): Mailbox command verifying an Ed448 signature. -/
  | hwdVerify
  /-- HWD_CACHE_FLUSH (R357): Mailbox command invalidating the whole working-key cache. -/
  | hwdCacheFlush
  /-- HWD_TAMPER_CLEAR (R368): Mailbox command clearing the AON tamper latch and cause. -/
  | hwdTamperClear
  /-- TIN_CFG_LOCK (R362): A write of LOCK freezes HWD_TIN_CFG until the next cold start. -/
  | tinCfgLock (val : Word)
  /-- UNWRAP_CREDIT_ADD (R356): At each 250-cycle grid point the unwrap credit count rises by one below 64. -/
  | unwrapCreditAdd
  /-- CLASS1_EVENT (R364): A class 1 sensor trips and Heartwood abandons operations, clears holders and cache, and enters ALARM. -/
  | class1Event (sensor : Nat)
  /-- ALARM_END (R364): Every class 1 sensor has been in range 33 AON cycles and the state returns to NORMAL. -/
  | alarmEnd
  /-- CLASS2_EVENT (R365): A class 2 sensor trips, every key and identity is zeroised and the state becomes ZEROISED. -/
  | class2Event (x : Tamper)
  /-- QUEUE_ENABLE (R376): Setting a queue's EN enables it empty, or refuses it. -/
  | queueEnable (n : Nat) (val : Word)
  /-- QUEUE_DISABLE (R377): Clearing a queue's EN discards its contents and fails waiting pushes. -/
  | queueDisable (n : Nat) (val : Word)
  /-- WATERMARK_WRITE (R388): A write of PLQ_WM_n re-decides the watermark state the next cycle. -/
  | watermarkWrite (n : Nat) (val : Word)
  /-- FC_IN_CHANGE (R387): An FC_IN pin changes level and pauses or releases its queues. -/
  | fcInChange (p : Nat) (e : FcEdge)
  /-- UPQ_HOST_READ (R416): The DMA reader takes an up-queue item into a posted D2H descriptor. -/
  | upqHostRead (q : Nat) (cut : Bool) (desc : D2hDesc)
  /-- DECOMPRESS_ITEM (R428): The decompressor takes an IPHC item, decompresses and routes it or raises an exception. -/
  | decompressItem (q : Nat) (desc : D2hDesc)
  /-- UPQ_STEWARD_READ (R415): A steward core takes an item from a STEWARD-mode up queue. -/
  | upqStewardRead (q : Nat) (cut : Bool)
  /-- SHP_ADMISSION (R398): A downlink packet is admitted to its shaper context, spilled to context 0 or dropped. -/
  | shpAdmission (dst : Nat) (pkind : Nat) (ctx : Nat) (payload : List Byte)
  /-- SHP_ENABLE (R401): Setting SHP_CTL EN fills every enabled bucket and sets LAST. -/
  | shpEnable
  /-- SHP_DISABLE (R401): Clearing SHP_CTL EN discards every held packet and empties the wheels. -/
  | shpDisable
  /-- SHP_CTX_READ (R404): Context operation READ snapshots a context's configuration and state. -/
  | shpCtxRead
  /-- SHP_CTX_WRITE (R395): Context operation WRITE stages a configuration and schedules the context. -/
  | shpCtxWrite
  /-- SHP_CTX_FLUSH (R404): Context operation FLUSH discards held packets and unschedules the context. -/
  | shpCtxFlush
  /-- SHP_CTX_BAD_OP (R403): Context operation 3 completes with BAD_OP. -/
  | shpCtxBadOp
  /-- SHP_CTX_OP_DONE (R404): A context operation completes and BUSY clears. -/
  | shpCtxOpDone
  /-- FLR (R409): A Function Level Reset resets PCI configuration, registers and DMA, abandoning every ring. -/
  | flr
  /-- DMA_DISABLE (R433): Clearing DMA_EN stops every ring as FLR does. -/
  | dmaDisable
  /-- RING_ENABLE (R433): Setting a ring's EN sets HEAD to 0, or is ignored with BAD_DESC for a bad LOG2. -/
  | ringEnable (d2h : Bool) (r : Nat) (val : Word)
  /-- H2D_TAIL_WRITE (R411): A write of an H2D TAIL posts descriptors, or is ignored with BAD_DESC when out of range. -/
  | h2dTailWrite (r : Nat) (val : Word)
  /-- D2H_TAIL_WRITE (R413): A write of a D2H TAIL posts empty buffers. -/
  | d2hTailWrite (r : Nat) (val : Word)
  /-- H2D_DESCRIPTOR_SERVE (R412): The DMA engine serves one H2D descriptor, hands the data on and writes it back. -/
  | h2dDescriptorServe (d : H2dDesc) (data : List Byte) (err : Bool) (t : DWord) (desc : D2hDesc)
  /-- RING_COALESCE_TIMEOUT (R414): COAL_T µs after the first unsignalled write-back the ring signals its vector. -/
  | ringCoalesceTimeout (d2h : Bool) (r : Nat)
  /-- ETH_FRAME_RECEIVE (R420): An Ethernet frame is filtered, time-stamped and classified to the downlink path or an exception. -/
  | ethFrameReceive (n : Nat) (frame : List Byte) (fcsOk : Bool) (t : DWord) (desc : D2hDesc)
  /-- ETH_LINK_UP (R432): An Ethernet port's link comes up. -/
  | ethLinkUp (n : Nat)
  /-- ETH_LINK_DOWN (R432): An Ethernet port's link goes down. -/
  | ethLinkDown (n : Nat)
  /-- PCIE_LINK_CHANGE (R545): The PCIe link goes down or up and the DMA rings stop or resume. -/
  | pcieLinkChange (up : Bool) (width : Nat) (speed : Nat)
  /-- BGH_ENT_WRITE (R426): A write of BGH_ENT_DATA writes a Bough entry and its DRAM shadow atomically. -/
  | bghEntWrite (val : Word)
  /-- BGH_ENT_READ (R431): A read of BGH_ENT_DATA returns the on-die entry and advances AUTO_INC. -/
  | bghEntRead
  /-- BGH_NH_STORE (R431): A write of BGH_NH_HI stores a next-hop entry. -/
  | bghNhStore (val : Word)
  /-- FENCE (R425): A write of FENCE waits for every lookup started before it. -/
  | fence
  /-- FENCE_DONE (R425): Every earlier lookup has completed and FENCE reads 0. -/
  | fenceDone
  /-- BGH_LOAD (R426): LOAD copies the whole shadow onto the die while EN is 0. -/
  | bghLoad
  /-- BGH_LOAD_DONE (R426): The shadow load completes. -/
  | bghLoadDone
  /-- BGH_SCRUB_COMPARE (R426): Every INTERVAL cycles the scrubber compares one entry with its shadow, repairing and logging a mismatch. -/
  | bghScrubCompare
  /-- CNP_ENABLE (R463): Setting CNP_CTL EN starts the ports wrapped, or clearing it takes both links down. -/
  | cnpEnable (val : Word)
  /-- CNP_LINK_UP (R436): A Canopy port gains block lock and deskew and its link comes up. -/
  | cnpLinkUp (west : Bool)
  /-- CNP_LINK_DOWN (R436): A Canopy port loses lock and its link goes down. -/
  | cnpLinkDown (west : Bool)
  /-- FLIT_RECEIVE (R440): A flit arrives, is checked, removed or forwarded after 116 cycles, and consumed locally when addressed. -/
  | flitReceive (west : Bool) (flit : List Byte)
  /-- CNP_CREDIT_EARN (R441): Every INS_DIV slots a ring earns one DATA credit. -/
  | cnpCreditEarn (west : Bool)
  /-- LOCAL_FLIT_SEND (R441): A local flit is inserted into a free slot once it has credit. -/
  | localFlitSend (west : Bool) (t : DWord)
  /-- DREQ_RECEIVE (R442): A DREQ is stamped and answered with a DRESP. -/
  | dreqReceive (west : Bool) (t2 : DWord)
  /-- DRESP_RECEIVE (R442): A DRESP completes a delay exchange and updates CNP_DLY. -/
  | drespReceive (west : Bool) (t2 : DWord) (t3 : DWord) (t4 : DWord)
  /-- MARK_RECEIVE (R444): A MARK is stamped and, when the best of the cell, gives a phase measurement. -/
  | markReceive (west : Bool) (stamp : DWord) (hops : Nat) (body : List Byte)
  /-- MARK_WINDOW_CLOSE (R444): The 64 µs window closes without a usable MARK, counting a missed mark. -/
  | markWindowClose
  /-- HELLO_RECEIVE (R447): A HELLO updates presence, distances, neighbour and conflict state. -/
  | helloReceive (west : Bool) (hops : Nat) (own : Bool) (h : Hello)
  /-- PORT_UNWRAP (R449): At UNWRAP_SF both ends unwrap and a joining device becomes MEMBER. -/
  | portUnwrap (west : Bool)
  /-- MESSAGE_REASSEMBLED (R454): The destination completes a message and checks its tag, or drops it. -/
  | messageReassembled (origin : Nat)
  /-- DL_PKT_RECEIVE (R459): A DL_PKT resumes at the Grove test or goes to the shaper on the home device. -/
  | dlPktReceive (body : List Byte) (desc : D2hDesc)
  /-- DIGEST_RECEIVE (R460): A peer DIGEST message is stored for comparison. -/
  | digestReceive (origin : Nat) (body : List Byte)
  /-- UPD_STAGE_BEGIN (R468): Mailbox command starting a new journal half and staging. -/
  | updStageBegin (bad : Bool)
  /-- UPD_STAGE_WRITE (R485): Mailbox command writing image data into the staging slot. -/
  | updStageWrite (bad : Bool)
  /-- UPD_STAGE_FINISH (R470): Mailbox command verifying the staged image and writing STAGED. -/
  | updStageFinish
  /-- UPD_STAGE_CANCEL (R469): Mailbox command withdrawing a staged image. -/
  | updStageCancel
  /-- UPD_CFG_LIST (R485): Mailbox command listing live configuration records. -/
  | updCfgList
  /-- UPD_CFG_READ (R485): Mailbox command reading a configuration record to DRAM. -/
  | updCfgRead
  /-- UPD_CFG_WRITE (R475): Mailbox command appending a host configuration record. -/
  | updCfgWrite (bad : Bool)
  /-- UPD_CFG_DELETE (R475): Mailbox command deleting a host configuration record. -/
  | updCfgDelete (bad : Bool)
  /-- UPD_SEED_START (R482): Mailbox command verifying a manifest and image and starting a Seedfall session. -/
  | updSeedStart
  /-- UPD_SEED_STOP (R485): Mailbox command stopping the Seedfall session. -/
  | updSeedStop
  /-- UPD_SEED_COUNT (R485): Mailbox command returning Seedfall state and counters. -/
  | updSeedCount
  /-- SEED_ITEM_ADMIT (R482): The encoder admits the next manifest or SYMBOLS packet once its context has room. -/
  | seedItemAdmit
  /-- SEED_REPORT_PROCESS (R484): Steward core 2 applies a node REPORT to its record and the session counters. -/
  | seedReportProcess (idx : Nat) (session : Nat) (state : Nat)
  /-- UPD_FL_READ (R488): Recovery flash command reading 256 bytes into the page buffer. -/
  | updFlRead
  /-- UPD_FL_PROGRAM (R488): Recovery flash command programming one page from the buffer. -/
  | updFlProgram
  /-- UPD_FL_ERASE (R488): Recovery flash command erasing a 64 KiB sector. -/
  | updFlErase
  /-- UPD_FL_NOP (R488): Recovery flash command 3, no operation. -/
  | updFlNop
  /-- UPD_FL_DONE (R489): A recovery flash command completes and FL_DONE sets. -/
  | updFlDone (bad : Bool)
  /-- ICU_SOURCE_EDGE (R494): A filtered source rising edge increments COUNT, making it pending. -/
  | icuSourceEdge (n : Nat) (e : SrcEdge)
  /-- ICU_SRC_WRITE (R496): A write of ICU_SRC_n configures a source, stores COUNT, or is ignored for a reserved target. -/
  | icuSrcWrite (n : Nat) (val : Word)
  /-- ICU_CLAIM (R499): A read of ICU_CLAIM_k claims the presented source. -/
  | icuClaim (k : Nat)
  /-- ICU_DONE (R500): A write of ICU_DONE_k completes the claimed source, with rearm. -/
  | icuDone (k : Nat) (val : Word)
  /-- ENGINE_CLAIM_STORE (R502): A strand store to the claim byte claims for its engine and the claim word follows 2 beats later. -/
  | engineClaimStore (k : Nat)
  /-- ENGINE_DONE_STORE (R502): A strand store to the done byte completes the engine's claimed source. -/
  | engineDoneStore (k : Nat)
  /-- TARGET_WAKE (R504): A sleeping wakeable target wakes and presentation to it resumes. -/
  | targetWake (k : Nat) (awake : Bool)
  /-- TMR_GO (R509): A write of TMR_GO starts or restarts the named timers. -/
  | tmrGo (val : Word)
  /-- TMR_STOP (R509): A write of TMR_STOP stops the named timers. -/
  | tmrStop (val : Word)
  /-- TMR_GO_AT_ARM (R509): A write of TMR_GO_AT_HI arms a start at GO_AT. -/
  | tmrGoAtArm (val : Word)
  /-- TMR_GO_AT_CANCEL (R509): A write of CANCEL removes the armed start. -/
  | tmrGoAtCancel
  /-- TMR_GO_AT_START (R509): The armed timers start at GO_AT, or after a Hoop gap with LATE. -/
  | tmrGoAtStart
  /-- TIMER_TICK (R506): A running timer advances one step, setting OVFF and MATCHF and updating its output. -/
  | timerTick (n : Nat)
  /-- TMR_CAPTURE (R510): A capture trigger stores the count in TMR_CAP_n. -/
  | tmrCapture (trig : Nat)
  /-- TMR_CNT_READ (R508): A read of an even timer count latches its linked odd half. -/
  | tmrCntRead (n : Nat)
  /-- PATROL_READ (R520): Every SCRUB_INT cycles a channel reads and decodes one DRAM line, correcting or poisoning. -/
  | patrolRead (ch : Nat) (x : PatrolErrs)
  /-- CE_WRITEBACK (R518): A queued corrected word is written back to DRAM, or dropped when overwritten. -/
  | ceWriteback
  /-- ONDIE_SCRUB_READ (R521): Every 64 cycles each protected on-die RAM reads and treats one word. -/
  | ondieScrubRead (x : OndieErrs)
  /-- TABLE_CHECK_COMPARE (R525): Every 256 cycles the checker compares one active table word with its shadow. -/
  | tableCheckCompare
  /-- RAS_LOG_RD_WRITE (R522): A write of RAS_LOG_RD marks entries read, or is ignored outside RD to WR. -/
  | rasLogRdWrite (val : Word)
  /-- RAS_LOG_SEL_WRITE (R527): A write of RAS_LOG_SEL loads an entry into RAS_LOG_DATA. -/
  | rasLogSelWrite (val : Word)
  /-- AON_POR (R533): VDD_AON rises and the whole device including the AON domain resets. -/
  | aonPor
  /-- PWR_GOOD_RISE (R533): PWR_GOOD rises and a COLD reset runs. -/
  | pwrGoodRise
  /-- PWR_GOOD_FALL (R531): PWR_GOOD falls for 1 µs or more before power-down. -/
  | pwrGoodFall
  /-- SYS_RST (R532): SYS_RST_n held low requests a WARM reset. -/
  | sysRst (low : Bool)
  /-- SW_RST (R550): A write of SW_RST requests a WARM reset. -/
  | swRst (val : Word)
  /-- PERST (R533): PERST# causes a WARM or PCIE reset by PERST_SCOPE. -/
  | perst (low : Bool)
  /-- BROWN_OUT (R546): VDD_CORE below 0.80 V for 1 µs causes a COLD reset. -/
  | brownOut
  /-- THERMAL_TRIP (R546): Tj at 120 °C for 1 ms asserts THERM_TRIP_n and causes a COLD reset. -/
  | thermalTrip
  /-- RAIL_OUT_OF_TOLERANCE (R546): A rail outside tolerance for 1 µs sets its bit and SUPPLY. -/
  | railOutOfTolerance (rail : Nat) (ok : Bool)
  /-- TEMP_CONVERSION (R546): A junction temperature reading updates PWR_TEMP and raises TEMP_ALARM at ALARM_THR. -/
  | tempConversion (t : Int)
  /-- INTERNAL_RESET_RELEASE (R534): After the hold time and SYSCLK PLL lock internal reset is released, HTIME starts and the boot ROM runs. -/
  | internalResetRelease (w : BoardAt)
  /-- PLL_LOCK (R536): A PLL other than the SYSCLK PLLs locks to its reference. -/
  | pllLock (i : Nat)
  /-- DSP_SLEW_DONE (R537): DSP_CLK completes its slew from fallback onto REFCLK and DSP_SRC sets. -/
  | dspSlewDone
  /-- STANDBY_REQUEST (R548): A write of REQ = 1 enters STANDBY within 1 ms, or is refused with STBY_REFUSED. -/
  | standbyRequest (val : Word)
  /-- RUN_REQUEST (R548): A write of REQ = 0, or a source presented to a steward, returns the device to RUN. -/
  | runRequest (val : Option Word)
  /-- SLEEP_REQUEST (R549): A write of REQ = 2 puts DRAM in self-refresh and drives SLP_REQ high. -/
  | sleepRequest (val : Word)
  /-- WAKE (R549): A WAKE_n falling edge or RTC alarm in SLEEP drives SLP_REQ low for a SLEEP_EXIT reset. -/
  | wake (alarm : Bool)
  /-- GPIO_EVENT (R567): A GPIO edge or level under EVMODE sets its event bit. -/
  | gpioEvent (n : Nat) (level : Bool)
  /-- GPIO_CFG_WRITE (R567): A write of SYS_GPIO_CFG_n changes a pin's function, pull or event mode the next cycle. -/
  | gpioCfgWrite (n : Nat) (val : Word)
  /-- SPI_TRANSFER (R566): A write of SYS_SPI_DATA_i starts a transfer, or is ignored while BUSY. -/
  | spiTransfer (i : Nat) (val : Word)
  /-- SPI_DONE (R567): An SPI transfer ends, DONE sets and source 246 + i is raised when enabled. -/
  | spiDone (i : Nat) (val : Word)
  /-- I2C_CMD (R566): A write of SYS_I2C_CMD_i runs one byte step, or is ignored while BUSY. -/
  | i2cCmd (i : Nat) (val : Word)
  /-- I2C_STEP_DONE (R567): An I²C byte step ends, possibly with NACK or ARB_LOST, and DONE sets. -/
  | i2cStepDone (i : Nat) (byte : Byte) (nack : Bool) (arb : Bool)
  /-- UART_DATA_WRITE (R566): A write of SYS_UART_DATA queues a byte, or is dropped with TX_OVF. -/
  | uartDataWrite (val : Word)
  /-- UART_DATA_READ (R566): A read of SYS_UART_DATA pops a byte from the receive FIFO. -/
  | uartDataRead
  /-- UART_RX_FRAME (R566): A received UART frame enters the receive FIFO, or is lost or framing-flagged. -/
  | uartRxFrame (byte : Byte) (stop : Bool)
  /-- UART_TX_FRAME_DONE (R566): A UART frame finishes sending and the next starts, pausing under CTS. -/
  | uartTxFrameDone
  /-- RXARM_DELIVERY (R307): The status of an RXARM, with its window handle or refusal code, is delivered to the strand 3 beats after issue. -/
  | rxarmDelivery (k : Nat) (tk : Nat)
  /-- TXARM_DELIVERY (R178): The status of a TXARM, with its transmission handle or refusal code, is delivered to the strand at the acceptance instant 3 beats after issue. -/
  | txarmDelivery (k : Nat) (tk : Nat)
  /-- PLL_LOCK_LOSS (R536): A PLL other than the Hoop PLLs loses lock, for example when its reference clock disappears; its PWR_PLL_ST bit clears and source 7 is raised. -/
  | pllLockLoss (i : Nat)
  /-- AON_CRYSTAL_START (R536): The AON crystal completes start-up and AON_CLK moves from the internal RC oscillator to the crystal, setting RTC_VALID and XTAL. -/
  | aonCrystalStart
  /-- UART_CTS_CHANGE (R567): UART_CTS_n changes level, pausing transmission between frames or letting a paused transmission resume. -/
  | uartCtsChange (level : Bool)
  /-- HRD_CLEAR_DONE (R330): Invalidation of every heard entry completes within 300 µs and HRD_CLEAR reads 0. -/
  | hrdClearDone
  /-- CA_PARITY_ALERT (R551): A DRAM reports a command or address parity error on ALERT_n; CA_PARITY sets in DDRC_EVT and source 8 is raised when it is enabled. -/
  | caParityAlert
  /-- ENCODER_BLOCK_PREPARED (R478): The RaptorQ encoder finishes preparing a source block, within 50 ms, and its symbols become available; the session moves from PREPARING to SENDING. -/
  | encoderBlockPrepared
  deriving DecidableEq, Repr

end Sys2Proof
end

