-- ==== Sys2Proof/Decode.lean ====
section
/-! DEFINITION. The command a word of the opcode table's bits spells. -/

namespace Sys2Proof

/-- No row of the opcode table gives its command any bits: a command comes to the block as an access, a pin event or a bus event, never as a
word, so no word spells one (log entry 6). The 64-bit words of the Weft engines are read by `Sys2Proof.Machine.Block.iword` and the fields of
WeftCore.lean. -/
def decodeTableWord (_nbits _w : Nat) : Option Instr := none

end Sys2Proof
end

