-- ==== Sys2Proof/Config.lean ====
section
/-! DEFINITION. What the spec leaves open, as constants without a body: nothing in Lean can see their value, so a claim
about the machine holds whatever they are. Fresh free values are applied to the counter `clk.free` of the state. -/

namespace Sys2Proof

/-- A value the spec leaves open, one per reading of the counter (log entry 2). -/
opaque Config.freeNat : Nat → Nat

/-- A signed value the spec leaves open, one per reading of the counter (log entry 2). -/
opaque Config.freeInt : Nat → Int

/-- Bytes the spec leaves open, one per reading of the counter and position (log entry 2). -/
opaque Config.freeByte : Nat → Nat → Byte

/-- The root secret (R335): 32 bytes of OTP programmed by Sybema, by index. -/
opaque Config.rootSecret : Nat → Byte

/-- The Sybema public key in the boot ROM (R465): 57 bytes, by index. -/
opaque Config.romKey : Nat → Byte

/-- The repair symbol of T bytes that RFC 6330 gives for a source block of K symbols and an ESI (R478). -/
opaque Config.raptorRepair : List Byte → Nat → Nat → Nat → List Byte

/-- The VER a firmware (its FWVER) supports for a record TYPE (R476). -/
opaque Config.cfgVer : Nat → Nat → Nat

/-- How a firmware converts the body of a record of TYPE and VER; none where the conversion fails (R476). -/
opaque Config.cfgMigrate : Nat → Nat → Nat → List Byte → Option (List Byte)

/-- The next value of a 16-bit LFSR of the Grove, whose polynomial the spec does not give (R316, R327, R542). -/
opaque Config.lfsrNext : BitVec 16 → BitVec 16

/-- The number of boundary cells of the test access port (R564). -/
opaque Config.boundaryCells : Nat

/-- Which of a number of candidates an LFSR value draws (R316, R327). -/
opaque Config.lfsrPick : BitVec 16 → Nat → Nat

end Sys2Proof
end

