-- ==== Sys2Proof/Machine/RegMap.lean ====
section
/-! DEFINITION. The register map of BAR0: one row per register (or group of numbered registers) of the offset tables of the spec
(R4, R33, R83, R171, R201, R242, R270, R330, R373, R402, R403, R431-R433, R462, R488, R505, R512, R527, R550, R551, R566), with its
offset, its reset value and the access type of every bit (R11), and one named field per field those tables give. -/

namespace Sys2Proof.Machine

/-- A row of the register map: `count` registers at `base`, `stride` bytes apart, with their reset value and, bit by bit, the access type of
R11. A bit in none of the masks is RO or reserved: a write leaves it as it is (R10, R11). -/
structure RegRow where
  base : Nat
  stride : Nat
  count : Nat
  reset : BitVec 32
  rw : BitVec 32
  w1c : BitVec 32
  w1s : BitVec 32
  rc : BitVec 32
  wo : BitVec 32
  deriving DecidableEq, Repr

/-- A field of a register: bits `hi` down to `lo` of the register at `base`, or of the n-th of a numbered group `stride` bytes apart (R7). -/
structure Fld where
  base : Nat
  stride : Nat
  hi : Nat
  lo : Nat
  deriving DecidableEq, Repr

/-- The registers of the block at BAR0 offset 0x0. -/
def regRows0 : List RegRow := [
  ⟨0x0, 0, 1, 0x9640b000, 0x0, 0x0, 0x0, 0x0, 0x0⟩,  -- SYS_CHIP_ID (R33)
  ⟨0x1000, 0, 1, 0x0, 0xffffffff, 0x0, 0x0, 0x0, 0x0⟩,  -- SYS_MBX_CMD (R33)
  ⟨0x1004, 0, 1, 0x0, 0x0, 0x0, 0x3, 0x0, 0x0⟩,  -- SYS_MBX_DB (R33)
  ⟨0x1008, 0, 1, 0x0, 0x0, 0x0, 0x0, 0x0, 0x0⟩,  -- SYS_MBX_STATUS (R33)
  ⟨0x100c, 0, 1, 0x0, 0x10000, 0x700, 0x0, 0x0, 0x0⟩,  -- SYS_MBX_STATE (R33)
  ⟨0x1010, 0, 1, 0x3e8, 0xffff, 0x0, 0x0, 0x0, 0x0⟩,  -- SYS_MBX_TMO (R33)
  ⟨0x1100, 4, 64, 0x0, 0xffffffff, 0x0, 0x0, 0x0, 0x0⟩,  -- SYS_MBX_ARG (R33)
  ⟨0x1200, 4, 64, 0x0, 0x0, 0x0, 0x0, 0x0, 0x0⟩,  -- SYS_MBX_RES (R33)
  ⟨0x4000, 4, 2, 0x0, 0x0, 0x0, 0x0, 0x0, 0x0⟩,  -- SYS_GPIO_IN (R566)
  ⟨0x4008, 0, 1, 0x0, 0xffffffff, 0x0, 0x0, 0x0, 0x0⟩,  -- SYS_GPIO_OUT_0 (R566)
  ⟨0x400c, 0, 1, 0x0, 0xffff, 0x0, 0x0, 0x0, 0x0⟩,  -- SYS_GPIO_OUT_1: GPIO_32–47 (R566)
  ⟨0x4010, 0, 1, 0x0, 0xffffffff, 0x0, 0x0, 0x0, 0x0⟩,  -- SYS_GPIO_OE_0 (R566)
  ⟨0x4014, 0, 1, 0x0, 0xffff, 0x0, 0x0, 0x0, 0x0⟩,  -- SYS_GPIO_OE_1: GPIO_32–47 (R566)
  ⟨0x4018, 0, 1, 0x0, 0x0, 0xffffffff, 0x0, 0x0, 0x0⟩,  -- SYS_GPIO_EVT_0 (R566)
  ⟨0x401c, 0, 1, 0x0, 0x0, 0xffff, 0x0, 0x0, 0x0⟩,  -- SYS_GPIO_EVT_1: GPIO_32–47 (R566)
  ⟨0x4020, 0, 1, 0x0, 0xffffffff, 0x0, 0x0, 0x0, 0x0⟩,  -- SYS_GPIO_IE_0 (R566)
  ⟨0x4024, 0, 1, 0x0, 0xffff, 0x0, 0x0, 0x0, 0x0⟩,  -- SYS_GPIO_IE_1: GPIO_32–47 (R566)
  ⟨0x4100, 4, 48, 0x0, 0x337, 0x0, 0x0, 0x0, 0x0⟩,  -- SYS_GPIO_CFG (R566)
  ⟨0x5000, 256, 2, 0x20020, 0xc0ff33bf, 0x0, 0x0, 0x0, 0x0⟩,  -- SYS_SPI_CTL (R566)
  ⟨0x5004, 256, 2, 0x0, 0xffffffff, 0x0, 0x0, 0x0, 0x0⟩,  -- SYS_SPI_DATA (R566)
  ⟨0x5008, 256, 2, 0x0, 0x0, 0x5, 0x0, 0x0, 0x0⟩,  -- SYS_SPI_ST (R566)
  ⟨0x5400, 256, 2, 0x0, 0xc0000003, 0x0, 0x0, 0x0, 0x0⟩,  -- SYS_I2C_CTL (R566)
  ⟨0x5404, 256, 2, 0x0, 0xfff, 0x0, 0x0, 0x0, 0x0⟩,  -- SYS_I2C_CMD (R566)
  ⟨0x5408, 256, 2, 0x0, 0x0, 0x1d, 0x0, 0x0, 0x0⟩,  -- SYS_I2C_ST (R566)
  ⟨0x5800, 0, 1, 0x100, 0xc0ffffff, 0x0, 0x0, 0x0, 0x0⟩,  -- SYS_UART_CTL (R566)
  ⟨0x5804, 0, 1, 0x0, 0xff, 0x0, 0x0, 0x0, 0x0⟩,  -- SYS_UART_DATA (R566)
  ⟨0x5808, 0, 1, 0x0, 0x0, 0x1f, 0x0, 0x0, 0x0⟩,  -- SYS_UART_ST (R566)
  ⟨0x580c, 0, 1, 0x0, 0x1f, 0x0, 0x0, 0x0, 0x0⟩]  -- SYS_UART_IE (R566)

/-- The registers of the block at BAR0 offset 0x10000. -/
def regRows10000 : List RegRow := [
  ⟨0x10000, 0, 1, 0x2, 0x312, 0x0, 0x1, 0x0, 0x0⟩,  -- PWR_CTL (R550)
  ⟨0x10004, 0, 1, 0xff0000, 0x0, 0x0, 0x0, 0x0, 0x0⟩,  -- PWR_STAT (R550)
  ⟨0x10008, 0, 1, 0x0, 0x0, 0xf, 0x0, 0x0, 0x0⟩,  -- PWR_EVT (R550)
  ⟨0x1000c, 0, 1, 0x0, 0xf, 0x0, 0x0, 0x0, 0x0⟩,  -- PWR_IE (R550)
  ⟨0x10010, 0, 1, 0x1f, 0x0, 0x0, 0x0, 0x0, 0x0⟩,  -- PWR_PLL_ST (R550)
  ⟨0x10014, 0, 1, 0x0, 0x0, 0x0, 0x0, 0x0, 0x0⟩,  -- PWR_RST_CAUSE (R550)
  ⟨0x10018, 0, 1, 0x8000, 0x0, 0x0, 0x0, 0x0, 0x0⟩,  -- PWR_TEMP (R550)
  ⟨0x1001c, 0, 1, 0x5f0, 0xffff, 0x0, 0x0, 0x0, 0x0⟩,  -- PWR_TEMP_THR (R550)
  ⟨0x10020, 0, 1, 0x0, 0x0, 0xff, 0x0, 0x0, 0x0⟩,  -- PWR_SUPPLY_EVT (R550)
  ⟨0x10030, 0, 1, 0x0, 0x0, 0x0, 0x0, 0x0, 0x0⟩,  -- PWR_RTC_LO (R550)
  ⟨0x10034, 0, 1, 0x0, 0x0, 0x0, 0x0, 0x0, 0x0⟩,  -- PWR_RTC_HI (R550)
  ⟨0x10038, 0, 1, 0x0, 0xffffffff, 0x0, 0x0, 0x0, 0x0⟩,  -- PWR_RTC_ALM_LO (R550)
  ⟨0x1003c, 0, 1, 0x0, 0xffff, 0x0, 0x0, 0x0, 0x0⟩]  -- PWR_RTC_ALM_HI (R550)

/-- The registers of the block at BAR0 offset 0x20000. -/
def regRows20000 : List RegRow := [
  ⟨0x20000, 0, 1, 0x20, 0x3f, 0x0, 0x0, 0x0, 0x0⟩,  -- ICU_RESCUE (R505)
  ⟨0x20004, 0, 1, 0x0, 0x0, 0x7, 0x0, 0x0, 0x0⟩,  -- ICU_EVT (R505)
  ⟨0x20008, 0, 1, 0x0, 0x7, 0x0, 0x0, 0x0, 0x0⟩,  -- ICU_IE (R505)
  ⟨0x20080, 4, 8, 0x0, 0x0, 0x0, 0x0, 0x0, 0x0⟩,  -- ICU_PEND (R505)
  ⟨0x20100, 16, 37, 0x0, 0x8000ffc1, 0x0, 0x0, 0x0, 0x0⟩,  -- ICU_TGT_CFG (R505)
  ⟨0x20104, 16, 37, 0x1ff01ff, 0x0, 0x0, 0x0, 0x0, 0x0⟩,  -- ICU_TGT_ST (R505)
  ⟨0x20108, 16, 37, 0x1ff, 0x0, 0x0, 0x0, 0xc0ff01ff, 0x0⟩,  -- ICU_CLAIM (R505)
  ⟨0x2010c, 16, 37, 0x0, 0x0, 0x0, 0x0, 0x0, 0x1ff⟩,  -- ICU_DONE (R505)
  ⟨0x20400, 4, 256, 0x20000000, 0xe0ff3fff, 0x0, 0x0, 0x0, 0x0⟩]  -- ICU_SRC (R505)

/-- The registers of the block at BAR0 offset 0x30000. -/
def regRows30000 : List RegRow := [
  ⟨0x30000, 0, 1, 0x0, 0x0, 0x0, 0x0, 0x0, 0xffffffff⟩,  -- TMR_GO (R512)
  ⟨0x30004, 0, 1, 0x0, 0x0, 0x0, 0x0, 0x0, 0xffffffff⟩,  -- TMR_STOP (R512)
  ⟨0x30008, 0, 1, 0x0, 0x0, 0x0, 0x0, 0x0, 0x0⟩,  -- TMR_RUN (R512)
  ⟨0x3000c, 0, 1, 0x0, 0xffffffff, 0x0, 0x0, 0x0, 0x0⟩,  -- TMR_GO_MASK (R512)
  ⟨0x30010, 0, 1, 0x0, 0xffffffff, 0x0, 0x0, 0x0, 0x0⟩,  -- TMR_GO_AT_LO (R512)
  ⟨0x30014, 0, 1, 0x0, 0xffffffff, 0x0, 0x0, 0x0, 0x0⟩,  -- TMR_GO_AT_HI (R512)
  ⟨0x30018, 0, 1, 0x0, 0x0, 0x6, 0x8, 0x0, 0x0⟩,  -- TMR_GO_ST (R512)
  ⟨0x3001c, 0, 1, 0x0, 0x0, 0x0, 0x0, 0x0, 0x0⟩,  -- TMR_IRQ_ST (R512)
  ⟨0x30100, 32, 32, 0x0, 0x8f1f3700, 0x0, 0x0, 0x0, 0x0⟩,  -- TMR_CFG (R512)
  ⟨0x30104, 32, 32, 0x1, 0xffffffff, 0x0, 0x0, 0x0, 0x0⟩,  -- TMR_TOP (R512)
  ⟨0x30108, 32, 32, 0x0, 0xffffffff, 0x0, 0x0, 0x0, 0x0⟩,  -- TMR_MATCH (R512)
  ⟨0x3010c, 32, 32, 0x0, 0x0, 0x0, 0x0, 0x0, 0x0⟩,  -- TMR_CNT (R512)
  ⟨0x30110, 32, 32, 0x0, 0x0, 0x0, 0x0, 0x0, 0x0⟩,  -- TMR_CAP (R512)
  ⟨0x30114, 32, 32, 0x0, 0x0, 0xf, 0x0, 0x0, 0x0⟩]  -- TMR_FLAG (R512)

/-- The registers of the block at BAR0 offset 0x40000. -/
def regRows40000 : List RegRow := [
  ⟨0x40000, 0, 1, 0x0, 0x0, 0x0, 0x0, 0x0, 0x0⟩,  -- HOOP_HTIME_LO (R83)
  ⟨0x40004, 0, 1, 0x0, 0x0, 0x0, 0x0, 0x0, 0x0⟩,  -- HOOP_HTIME_HI (R83)
  ⟨0x40008, 0, 1, 0x1c000000, 0x0, 0x0, 0x0, 0x0, 0x0⟩,  -- HOOP_STATE (R83)
  ⟨0x4000c, 0, 1, 0x8, 0x3f, 0x0, 0x700, 0x0, 0x0⟩,  -- HOOP_CTL (R83)
  ⟨0x40010, 0, 1, 0x10064, 0xffffffff, 0x0, 0x0, 0x0, 0x0⟩,  -- HOOP_SYNC_CFG (R83)
  ⟨0x40014, 0, 1, 0x3840, 0xffffffff, 0x0, 0x0, 0x0, 0x0⟩,  -- HOOP_HOLD_MAX (R83)
  ⟨0x40018, 0, 1, 0x0, 0x0, 0x0, 0x0, 0x0, 0x0⟩,  -- HOOP_PHASE_ERR (R83)
  ⟨0x4001c, 0, 1, 0x0, 0x0, 0x0, 0x0, 0x0, 0x0⟩,  -- HOOP_FREQ_ERR (R83)
  ⟨0x40020, 0, 1, 0x0, 0x0, 0x0, 0x0, 0x0, 0xffffffff⟩,  -- HOOP_PTP_OFS_LO (R83)
  ⟨0x40024, 0, 1, 0x0, 0x0, 0x0, 0x0, 0x0, 0xffffffff⟩,  -- HOOP_PTP_OFS_HI (R83)
  ⟨0x40028, 0, 1, 0x0, 0x0, 0x0, 0x0, 0x0, 0xffffffff⟩,  -- HOOP_PTP_STAMP_LO (R83)
  ⟨0x4002c, 0, 1, 0x0, 0x0, 0x0, 0x0, 0x0, 0xffffffff⟩,  -- HOOP_PTP_STAMP_HI (R83)
  ⟨0x40040, 0, 1, 0x0, 0x0, 0x0, 0x0, 0x0, 0x0⟩,  -- HOOP_EPOCH_ACT (R83)
  ⟨0x40044, 0, 1, 0x0, 0xf0fffff, 0x0, 0x0, 0x0, 0x0⟩,  -- HOOP_EPOCH_PEND (R83)
  ⟨0x40048, 0, 1, 0x0, 0xffffffff, 0x0, 0x0, 0x0, 0x0⟩,  -- HOOP_ACT_SF (R83)
  ⟨0x4004c, 0, 1, 0x0, 0x0, 0x0, 0x3, 0x0, 0x0⟩,  -- HOOP_EPOCH_CTL (R83)
  ⟨0x40050, 0, 1, 0x0, 0x0, 0x100, 0x0, 0x0, 0x0⟩,  -- HOOP_EPOCH_ST (R83)
  ⟨0x40054, 0, 1, 0x0, 0x3ffff, 0x0, 0x0, 0x0, 0x0⟩,  -- HOOP_WARP_COUNT (R83)
  ⟨0x40058, 0, 1, 0x0, 0x0, 0x0, 0x0, 0x0, 0x0⟩,  -- HOOP_WARP_ACT_COUNT (R83)
  ⟨0x40060, 0, 1, 0x0, 0xc001ffff, 0x0, 0x0, 0x0, 0x0⟩,  -- HOOP_WARP_ADDR (R83)
  ⟨0x40080, 4, 8, 0x0, 0xffffffff, 0x0, 0x0, 0x0, 0x0⟩,  -- HOOP_WARP_DATA (R83)
  ⟨0x40100, 4, 16, 0x0, 0x0, 0x0, 0x0, 0x0, 0x0⟩,  -- HOOP_DIGEST_ACT (R83)
  ⟨0x40140, 4, 16, 0x0, 0x0, 0x0, 0x0, 0x0, 0x0⟩,  -- HOOP_DIGEST_PEND (R83)
  ⟨0x40180, 0, 1, 0x10e10, 0xffffff, 0x0, 0x0, 0x0, 0x0⟩,  -- HOOP_RED_CFG (R83)
  ⟨0x40184, 0, 1, 0x0, 0x0, 0x0, 0x0, 0x0, 0x0⟩,  -- HOOP_RED_ST (R83)
  ⟨0x40188, 0, 1, 0x0, 0x0, 0xffff, 0x0, 0x0, 0x0⟩,  -- HOOP_EVT (R83)
  ⟨0x4018c, 0, 1, 0x0, 0xffff, 0x0, 0x0, 0x0, 0x0⟩,  -- HOOP_IE (R83)
  ⟨0x40190, 0, 1, 0x0, 0x0, 0x0, 0x0, 0xffffffff, 0x0⟩,  -- HOOP_LATE_CNT (R83)
  ⟨0x40194, 0, 1, 0x0, 0x0, 0x0, 0x0, 0xffffffff, 0x0⟩]  -- HOOP_SLIP_MAX (R83)

/-- The registers of the block at BAR0 offset 0x80000. -/
def regRows80000 : List RegRow := [
  ⟨0x80000, 0, 1, 0x0, 0x1, 0x0, 0x10, 0x0, 0x0⟩,  -- RXA_CTL (R171)
  ⟨0x80004, 0, 1, 0x0, 0x0, 0x0, 0x0, 0x0, 0x0⟩,  -- RXA_STAT (R171)
  ⟨0x80008, 0, 1, 0x0, 0x0, 0x3fff, 0x0, 0x0, 0x0⟩,  -- RXA_EVT (R171)
  ⟨0x8000c, 0, 1, 0x0, 0x3fff, 0x0, 0x0, 0x0, 0x0⟩,  -- RXA_IE (R171)
  ⟨0x80010, 0, 1, 0x1f440418, 0xffffffff, 0x0, 0x0, 0x0, 0x0⟩,  -- RXA_POOL_CFG (R171)
  ⟨0x80014, 0, 1, 0x0, 0x0, 0x0, 0x0, 0x3ff0000, 0x0⟩,  -- RXA_POOL_ST (R171)
  ⟨0x80018, 0, 1, 0x100000aa, 0xffff00ff, 0x0, 0x0, 0x0, 0x0⟩,  -- RXA_DEC_CFG (R171)
  ⟨0x8001c, 0, 1, 0x80007d0, 0xffffffff, 0x0, 0x0, 0x0, 0x0⟩,  -- RXA_CAS_CFG (R171)
  ⟨0x80020, 0, 1, 0x30, 0xff, 0x0, 0x0, 0x0, 0x0⟩,  -- RXA_AGC_CFG (R171)
  ⟨0x80024, 0, 1, 0x0, 0x3, 0x0, 0x0, 0x0, 0x0⟩,  -- RXA_SYSREF_CFG (R171)
  ⟨0x80028, 0, 1, 0x0, 0x0, 0x0, 0x0, 0x7ff0000, 0x0⟩,  -- RXA_WIN_ST (R171)
  ⟨0x8002c, 0, 1, 0x0, 0xffffff, 0x0, 0x0, 0x0, 0x0⟩,  -- RXA_LANE_POL (R171)
  ⟨0x80040, 0, 1, 0x0, 0x0, 0x0, 0x0, 0xffffffff, 0x0⟩,  -- RXA_CNT_DET (R171)
  ⟨0x80044, 0, 1, 0x0, 0x0, 0x0, 0x0, 0xffffffff, 0x0⟩,  -- RXA_CNT_JOIN (R171)
  ⟨0x80048, 0, 1, 0x0, 0x0, 0x0, 0x0, 0xffffffff, 0x0⟩,  -- RXA_CNT_LATEJOIN (R171)
  ⟨0x8004c, 0, 1, 0x0, 0x0, 0x0, 0x0, 0xffffffff, 0x0⟩,  -- RXA_CNT_POOLDROP (R171)
  ⟨0x80050, 0, 1, 0x0, 0x0, 0x0, 0x0, 0xffffffff, 0x0⟩,  -- RXA_CNT_PREEMPT (R171)
  ⟨0x80054, 0, 1, 0x0, 0x0, 0x0, 0x0, 0xffffffff, 0x0⟩,  -- RXA_CNT_SFDFAIL (R171)
  ⟨0x80058, 0, 1, 0x0, 0x0, 0x0, 0x0, 0xffffffff, 0x0⟩,  -- RXA_CNT_HDRFAIL (R171)
  ⟨0x8005c, 0, 1, 0x0, 0x0, 0x0, 0x0, 0xffffffff, 0x0⟩,  -- RXA_CNT_CRCFAIL (R171)
  ⟨0x80060, 0, 1, 0x0, 0x0, 0x0, 0x0, 0xffffffff, 0x0⟩,  -- RXA_CNT_OK (R171)
  ⟨0x80064, 0, 1, 0x0, 0x0, 0x0, 0x0, 0xffffffff, 0x0⟩,  -- RXA_CNT_ITERCUT (R171)
  ⟨0x80068, 0, 1, 0x0, 0x0, 0x0, 0x0, 0xffffffff, 0x0⟩,  -- RXA_CNT_DECOVR (R171)
  ⟨0x8006c, 0, 1, 0x0, 0x0, 0x0, 0x0, 0xffffffff, 0x0⟩,  -- RXA_CNT_NOBUF (R171)
  ⟨0x80070, 0, 1, 0x0, 0x0, 0x0, 0x0, 0xffffffff, 0x0⟩,  -- RXA_CNT_LATESHIP (R171)
  ⟨0x80080, 0, 1, 0x0, 0x1, 0x0, 0x0, 0x0, 0x0⟩,  -- RXA_CEN_CTL (R171)
  ⟨0x80084, 0, 1, 0x2, 0x1ffff, 0x0, 0x0, 0x0, 0x0⟩,  -- RXA_CEN_DEPTH (R171)
  ⟨0x80088, 0, 1, 0x0, 0xffffffc0, 0x0, 0x0, 0x0, 0x0⟩,  -- RXA_CEN_BASE_LO (R171)
  ⟨0x8008c, 0, 1, 0x0, 0xffffffff, 0x0, 0x0, 0x0, 0x0⟩,  -- RXA_CEN_BASE_HI (R171)
  ⟨0x80090, 0, 1, 0x0, 0x0, 0x0, 0x0, 0x0, 0x0⟩,  -- RXA_CEN_WR (R171)
  ⟨0x80100, 16, 8, 0x0, 0xffcf, 0x0, 0x0, 0x0, 0x0⟩,  -- RXA_LINK_CFG (R171)
  ⟨0x80104, 16, 8, 0x0, 0xffffff, 0x0, 0x0, 0x0, 0x0⟩,  -- RXA_LINK_LANES (R171)
  ⟨0x80108, 16, 8, 0x0, 0x0, 0x0, 0x0, 0x0, 0x0⟩,  -- RXA_LINK_ST (R171)
  ⟨0x8010c, 16, 8, 0x0, 0x0, 0x0, 0x0, 0xffffffff, 0x0⟩,  -- RXA_LINK_ERR (R171)
  ⟨0x80200, 4, 8, 0xf9c04410, 0xffff77ff, 0x0, 0x0, 0x0, 0x0⟩,  -- RXA_BAND (R171)
  ⟨0x80400, 8, 64, 0x0, 0x773f0f, 0x0, 0x0, 0x0, 0x0⟩,  -- RXA_FEED (R171)
  ⟨0x80404, 8, 64, 0x0, 0xffffffff, 0x0, 0x0, 0x0, 0x0⟩,  -- RXA_FEED_NCO (R171)
  ⟨0x80800, 16, 32, 0x0, 0xffffff, 0x0, 0x0, 0x0, 0x0⟩,  -- RXA_PORT_DLY (R171)
  ⟨0x80804, 16, 32, 0x0, 0xffff, 0x0, 0x0, 0x0, 0x0⟩]  -- RXA_PORT_GAIN (R171)

/-- The registers of the block at BAR0 offset 0x100000. -/
def regRows100000 : List RegRow := [
  ⟨0x100000, 0, 1, 0x0, 0x1, 0x0, 0x6, 0x0, 0x0⟩,  -- TXC_CTL (R201)
  ⟨0x100004, 0, 1, 0x0, 0x0, 0x0, 0x0, 0x0, 0x0⟩,  -- TXC_STAT (R201)
  ⟨0x100008, 0, 1, 0x0, 0x0, 0x3ff, 0x0, 0x0, 0x0⟩,  -- TXC_EVT (R201)
  ⟨0x10000c, 0, 1, 0x0, 0x3ff, 0x0, 0x0, 0x0, 0x0⟩,  -- TXC_IE (R201)
  ⟨0x100010, 0, 1, 0x133303d7, 0xffffffff, 0x0, 0x0, 0x0, 0x0⟩,  -- TXC_BLK_MARG (R201)
  ⟨0x100014, 0, 1, 0x0, 0x0, 0x0, 0x0, 0xffff0000, 0x0⟩,  -- TXC_ARM_ST (R201)
  ⟨0x100040, 0, 1, 0x0, 0x0, 0x0, 0x0, 0xffffffff, 0x0⟩,  -- TXC_CNT_SENT (R201)
  ⟨0x100044, 0, 1, 0x0, 0x0, 0x0, 0x0, 0xffffffff, 0x0⟩,  -- TXC_CNT_REFUSED (R201)
  ⟨0x100048, 0, 1, 0x0, 0x0, 0x0, 0x0, 0xffffffff, 0x0⟩,  -- TXC_CNT_DUTY (R201)
  ⟨0x10004c, 0, 1, 0x0, 0x0, 0x0, 0x0, 0xffffffff, 0x0⟩,  -- TXC_CNT_CLEARED (R201)
  ⟨0x100050, 0, 1, 0x0, 0x0, 0x0, 0x0, 0xffffffff, 0x0⟩,  -- TXC_CNT_SUPPR (R201)
  ⟨0x100054, 0, 1, 0x0, 0x0, 0x0, 0x0, 0xffffffff, 0x0⟩,  -- TXC_CNT_CLIP (R201)
  ⟨0x100100, 32, 8, 0x0, 0xe71, 0x0, 0x0, 0x0, 0x0⟩,  -- TXC_PORT_CFG (R201)
  ⟨0x100104, 32, 8, 0x0, 0xffffffff, 0x0, 0x0, 0x0, 0x0⟩,  -- TXC_PORT_NCO (R201)
  ⟨0x100108, 32, 8, 0x0, 0xffffff, 0x0, 0x0, 0x0, 0x0⟩,  -- TXC_PORT_DLY (R201)
  ⟨0x10010c, 32, 8, 0x3d70800, 0xffffffff, 0x0, 0x0, 0x0, 0x0⟩,  -- TXC_PORT_PA (R201)
  ⟨0x100110, 32, 8, 0x3d703d7, 0xffffffff, 0x0, 0x0, 0x0, 0x0⟩,  -- TXC_PORT_TRSW (R201)
  ⟨0x100114, 32, 8, 0x0, 0xffffffff, 0x0, 0x0, 0x0, 0x0⟩,  -- TXC_BLANK (R201)
  ⟨0x100118, 32, 8, 0x0, 0x0, 0x0, 0x0, 0x0, 0x0⟩,  -- TXC_PORT_ST (R201)
  ⟨0x101000, 4, 64, 0x0, 0xffffffff, 0x0, 0x0, 0x0, 0x0⟩,  -- TXC_REGION_PEND (R201)
  ⟨0x101100, 4, 64, 0x0, 0x0, 0x0, 0x0, 0x0, 0x0⟩,  -- TXC_REGION_ACT (R201)
  ⟨0x102000, 4, 512, 0x0, 0xffffffff, 0x0, 0x0, 0x0, 0x0⟩,  -- TXC_DWELL_PEND (R201)
  ⟨0x102800, 4, 512, 0x0, 0x0, 0x0, 0x0, 0x0, 0x0⟩,  -- TXC_DWELL_ACT (R201)
  ⟨0x103000, 4, 512, 0x0, 0x0, 0x0, 0x0, 0x0, 0x0⟩,  -- TXC_USED (R201)
  ⟨0x108000, 0, 1, 0xff10, 0xffffff1f, 0x0, 0x0, 0x0, 0x0⟩,  -- CLR_CTL (R201)
  ⟨0x108004, 0, 1, 0x0, 0x0, 0x0, 0x0, 0x0, 0x0⟩,  -- CLR_STAT (R201)
  ⟨0x108008, 0, 1, 0x0, 0x0, 0x1f, 0x0, 0x0, 0x0⟩,  -- CLR_EVT (R201)
  ⟨0x10800c, 0, 1, 0x0, 0x1f, 0x0, 0x0, 0x0, 0x0⟩,  -- CLR_IE (R201)
  ⟨0x108010, 0, 1, 0x0, 0x0, 0x0, 0x0, 0xffffffff, 0x0⟩,  -- CLR_CNT (R201)
  ⟨0x108014, 0, 1, 0x0, 0x0, 0x0, 0x0, 0xffff, 0x0⟩,  -- CLR_TEST_ST (R201)
  ⟨0x108018, 0, 1, 0x0, 0x0, 0x0, 0x0, 0x0, 0x0⟩,  -- CLR_LAST_LO (R201)
  ⟨0x10801c, 0, 1, 0x0, 0x0, 0x0, 0x0, 0x0, 0x0⟩,  -- CLR_LAST_HI (R201)
  ⟨0x108020, 0, 1, 0x0, 0x0, 0x0, 0x0, 0xffffffff, 0x0⟩]  -- CLR_TIME (R201)

/-- The registers of the block at BAR0 offset 0x140000. -/
def regRows140000 : List RegRow := [
  ⟨0x140000, 0, 1, 0x0, 0x1, 0x0, 0x2, 0x0, 0x0⟩,  -- MAS_CTL (R242)
  ⟨0x140004, 0, 1, 0x0, 0xf3f, 0x0, 0x0, 0x0, 0x0⟩,  -- MAS_BCN_CTL (R242)
  ⟨0x140008, 0, 1, 0x0, 0xffffffff, 0x0, 0x0, 0x0, 0x0⟩,  -- MAS_DOMAIN_ID (R242)
  ⟨0x14000c, 0, 1, 0x0, 0x0, 0xff, 0x0, 0x0, 0x0⟩,  -- MAS_EVT (R242)
  ⟨0x140010, 0, 1, 0x0, 0xff, 0x0, 0x0, 0x0, 0x0⟩,  -- MAS_IE (R242)
  ⟨0x140014, 0, 1, 0x0, 0x0, 0x0, 0x0, 0x0, 0x0⟩,  -- MAS_BCN_ST (R242)
  ⟨0x140018, 0, 1, 0x0, 0xffffffff, 0x0, 0x0, 0x0, 0x0⟩,  -- MAS_SYNC_BASE (R242)
  ⟨0x140020, 0, 1, 0x40, 0xffff, 0x0, 0x0, 0x0, 0x0⟩,  -- MAS_SEEN_CFG (R242)
  ⟨0x140024, 0, 1, 0x0, 0x0, 0x0, 0x0, 0x0, 0x0⟩,  -- MAS_SEEN_ST (R242)
  ⟨0x140030, 0, 1, 0x0, 0x0, 0x0, 0x0, 0xffffffff, 0x0⟩,  -- MAS_CNT_SEEN_HIT (R242)
  ⟨0x140034, 0, 1, 0x0, 0x0, 0x0, 0x0, 0xffffffff, 0x0⟩,  -- MAS_CNT_SEEN_MISS (R242)
  ⟨0x140038, 0, 1, 0x0, 0x0, 0x0, 0x0, 0xffffffff, 0x0⟩,  -- MAS_CNT_SEEN_EVICT (R242)
  ⟨0x140040, 0, 1, 0x0, 0x0, 0x0, 0x0, 0xffffffff, 0x0⟩,  -- MAS_CNT_BCN_SENT (R242)
  ⟨0x140044, 0, 1, 0x0, 0x0, 0x0, 0x0, 0xffffffff, 0x0⟩,  -- MAS_CNT_BCN_LOST (R242)
  ⟨0x140100, 8, 8, 0x0, 0xffff0007, 0x0, 0x0, 0x0, 0x0⟩,  -- MAS_BCN_BAND (R242)
  ⟨0x140104, 8, 8, 0x0, 0xbfbf, 0x0, 0x0, 0x0, 0x0⟩,  -- MAS_BCN_CH (R242)
  ⟨0x140200, 16, 8, 0x0, 0x80ffffff, 0x0, 0x0, 0x0, 0x0⟩,  -- MAS_ANN_CTL (R242)
  ⟨0x140204, 16, 8, 0x0, 0xffffffff, 0x0, 0x0, 0x0, 0x0⟩,  -- MAS_ANN_D0 (R242)
  ⟨0x140208, 16, 8, 0x0, 0xffffff, 0x0, 0x0, 0x0, 0x0⟩]  -- MAS_ANN_D1 (R242)

/-- The registers of the block at BAR0 offset 0x200000. -/
def regRows200000 : List RegRow := [
  ⟨0x200000, 65536, 32, 0xf, 0x10f, 0x0, 0x0, 0x0, 0x0⟩,  -- WFT_CTL (R270)
  ⟨0x200004, 65536, 32, 0x0, 0x0, 0x0, 0x0, 0x0, 0x0⟩,  -- WFT_STAT (R270)
  ⟨0x200008, 65536, 32, 0x0, 0x0, 0x307, 0x0, 0x0, 0x0⟩,  -- WFT_EVT (R270)
  ⟨0x20000c, 65536, 32, 0x0, 0x307, 0x0, 0x0, 0x0, 0x0⟩,  -- WFT_IE (R270)
  ⟨0x200010, 65536, 32, 0x0, 0x0, 0x0, 0xf, 0x0, 0x0⟩,  -- WFT_DB (R270)
  ⟨0x200014, 65536, 32, 0x80, 0xffff, 0x0, 0x0, 0x0, 0x0⟩,  -- WFT_WDOG (R270)
  ⟨0x200018, 65536, 32, 0x0, 0x0, 0x0, 0x0, 0x0, 0x0⟩,  -- WFT_FAULT (R270)
  ⟨0x20001c, 65536, 32, 0x0, 0x0, 0x0, 0x0, 0x0, 0x0⟩,  -- WFT_OVR (R270)
  ⟨0x200040, 65536, 32, 0x0, 0x0, 0x0, 0x0, 0xffffffff, 0x0⟩,  -- WFT_CNT_WEAVE (R270)
  ⟨0x200044, 65536, 32, 0x0, 0x0, 0x0, 0x0, 0xffffffff, 0x0⟩,  -- WFT_CNT_QUEUED (R270)
  ⟨0x200048, 65536, 32, 0x0, 0x0, 0x0, 0x0, 0xffffffff, 0x0⟩,  -- WFT_CNT_OVR (R270)
  ⟨0x20004c, 65536, 32, 0x0, 0x0, 0x0, 0x0, 0xffffffff, 0x0⟩,  -- WFT_CNT_STALL (R270)
  ⟨0x200050, 65536, 32, 0x0, 0x0, 0x0, 0x0, 0xffffffff, 0x0⟩,  -- WFT_CNT_FAULT (R270)
  ⟨0x200054, 65536, 32, 0x0, 0x0, 0x0, 0x0, 0xffffffff, 0x0⟩,  -- WFT_CNT_ORPHAN (R270)
  ⟨0x200058, 65536, 32, 0x0, 0x0, 0x0, 0x0, 0xffff, 0x0⟩,  -- WFT_QDLY_MAX (R270)
  ⟨0x200100, 65536, 32, 0x0, 0xc0001fff, 0x0, 0x0, 0x0, 0x0⟩,  -- WFT_IADDR (R270)
  ⟨0x200104, 65536, 32, 0x0, 0xffffffff, 0x0, 0x0, 0x0, 0x0⟩,  -- WFT_IDATA_LO (R270)
  ⟨0x200108, 65536, 32, 0x0, 0xffffffff, 0x0, 0x0, 0x0, 0x0⟩,  -- WFT_IDATA_HI (R270)
  ⟨0x200110, 65536, 32, 0x0, 0x8000fffc, 0x0, 0x0, 0x0, 0x0⟩,  -- WFT_DADDR (R270)
  ⟨0x200114, 65536, 32, 0x0, 0xffffffff, 0x0, 0x0, 0x0, 0x0⟩,  -- WFT_DDATA (R270)
  ⟨0x200800, 0, 1, 0xffffffff, 0xffffffff, 0x0, 0x0, 0x0, 0x0⟩,  -- WFT_SWAP_EN (R270)
  ⟨0x200804, 0, 1, 0x0, 0x8007ffff, 0x0, 0x0, 0x0, 0x0⟩,  -- WFT_TBL_ADDR (R270)
  ⟨0x200808, 0, 1, 0x0, 0xffffffff, 0x0, 0x0, 0x0, 0x0⟩,  -- WFT_TBL_DATA_LO (R270)
  ⟨0x20080c, 0, 1, 0x0, 0xffffffff, 0x0, 0x0, 0x0, 0x0⟩]  -- WFT_TBL_DATA_HI (R270)

/-- The registers of the block at BAR0 offset 0x400000. -/
def regRows400000 : List RegRow := [
  ⟨0x400000, 0, 1, 0x0, 0x3b, 0x0, 0x1e00, 0x0, 0x0⟩,  -- GRV_CTL (R330)
  ⟨0x400004, 0, 1, 0x0, 0x0, 0x0, 0x0, 0x0, 0x0⟩,  -- GRV_STAT (R330)
  ⟨0x400008, 0, 1, 0x0, 0x0, 0x1ff, 0x0, 0x0, 0x0⟩,  -- GRV_EVT (R330)
  ⟨0x40000c, 0, 1, 0x0, 0x1ff, 0x0, 0x0, 0x0, 0x0⟩,  -- GRV_IE (R330)
  ⟨0x400010, 0, 1, 0x0, 0xffffffff, 0x0, 0x0, 0x0, 0x0⟩,  -- GRV_DIR_BASE (R330)
  ⟨0x400014, 0, 1, 0x0, 0xffc00000, 0x0, 0x0, 0x0, 0x0⟩,  -- GRV_MAP_BASE_LO (R330)
  ⟨0x400018, 0, 1, 0x0, 0xffffffff, 0x0, 0x0, 0x0, 0x0⟩,  -- GRV_MAP_BASE_HI (R330)
  ⟨0x40001c, 0, 1, 0x0, 0xfffc0000, 0x0, 0x0, 0x0, 0x0⟩,  -- GRV_JRNL_BASE_LO (R330)
  ⟨0x400020, 0, 1, 0x0, 0xffffffff, 0x0, 0x0, 0x0, 0x0⟩,  -- GRV_JRNL_BASE_HI (R330)
  ⟨0x400030, 0, 1, 0x0, 0x0, 0x0, 0x0, 0x0, 0x0⟩,  -- GRV_USED (R330)
  ⟨0x400034, 0, 1, 0x0, 0x0, 0x0, 0x0, 0x0, 0x0⟩,  -- GRV_LOCKS (R330)
  ⟨0x400038, 0, 1, 0x3000040, 0xff00ffff, 0x0, 0x0, 0x0, 0x0⟩,  -- GRV_SWEEP_CFG (R330)
  ⟨0x40003c, 0, 1, 0xe100600, 0xffffffff, 0x0, 0x0, 0x0, 0x0⟩,  -- GRV_RL_CFG (R330)
  ⟨0x400040, 0, 1, 0x0, 0x7, 0x0, 0x0, 0x0, 0x0⟩,  -- GRV_HA_CMD (R330)
  ⟨0x400044, 0, 1, 0x0, 0x1ffffff, 0x0, 0x0, 0x0, 0x0⟩,  -- GRV_HA_IDX (R330)
  ⟨0x400048, 0, 1, 0x0, 0x0, 0x0, 0x0, 0x0, 0x0⟩,  -- GRV_HA_ST (R330)
  ⟨0x400080, 4, 32, 0x0, 0xffffffff, 0x0, 0x0, 0x0, 0x0⟩,  -- GRV_HA_DATA (R330)
  ⟨0x400100, 0, 1, 0x0, 0xffff, 0x0, 0x0, 0x0, 0x0⟩,  -- GRV_HRD_IDX (R330)
  ⟨0x400104, 0, 1, 0x0, 0xfffffff, 0x0, 0x0, 0x0, 0x0⟩,  -- GRV_HRD_KEY (R330)
  ⟨0x400108, 0, 1, 0x0, 0x0, 0x0, 0x0, 0x0, 0x0⟩,  -- GRV_HRD_ST (R330)
  ⟨0x400120, 4, 8, 0x0, 0x0, 0x0, 0x0, 0x0, 0x0⟩,  -- GRV_HRD_DATA (R330)
  ⟨0x400200, 0, 1, 0x0, 0x0, 0x0, 0x0, 0xffffffff, 0x0⟩,  -- GRV_CNT_HIT (R330)
  ⟨0x400204, 0, 1, 0x0, 0x0, 0x0, 0x0, 0xffffffff, 0x0⟩,  -- GRV_CNT_MISS (R330)
  ⟨0x400208, 0, 1, 0x0, 0x0, 0x0, 0x0, 0xffffffff, 0x0⟩,  -- GRV_CNT_SETFULL (R330)
  ⟨0x40020c, 0, 1, 0x0, 0x0, 0x0, 0x0, 0xffffffff, 0x0⟩,  -- GRV_CNT_BUSY (R330)
  ⟨0x400210, 0, 1, 0x0, 0x0, 0x0, 0x0, 0xffffffff, 0x0⟩,  -- GRV_CNT_LOCKFAIL (R330)
  ⟨0x400214, 0, 1, 0x0, 0x0, 0x0, 0x0, 0xffffffff, 0x0⟩,  -- GRV_CNT_WB (R330)
  ⟨0x400218, 0, 1, 0x0, 0x0, 0x0, 0x0, 0xffffffff, 0x0⟩,  -- GRV_CNT_POISON (R330)
  ⟨0x40021c, 0, 1, 0x0, 0x0, 0x0, 0x0, 0xffffffff, 0x0⟩,  -- GRV_CNT_SILENT (R330)
  ⟨0x400220, 0, 1, 0x0, 0x0, 0x0, 0x0, 0xffffffff, 0x0⟩,  -- GRV_CNT_HRD_INS (R330)
  ⟨0x400224, 0, 1, 0x0, 0x0, 0x0, 0x0, 0xffffffff, 0x0⟩,  -- GRV_CNT_HRD_EVICT (R330)
  ⟨0x400228, 0, 1, 0x0, 0x0, 0x0, 0x0, 0xffffffff, 0x0⟩]  -- GRV_CNT_HRD_SKIP (R330)

/-- The registers of the block at BAR0 offset 0x480000. -/
def regRows480000 : List RegRow := [
  ⟨0x480000, 0, 1, 0x0, 0x0, 0x0, 0x0, 0x0, 0x0⟩,  -- HWD_STATE (R373)
  ⟨0x480004, 0, 1, 0x0, 0x0, 0xff, 0x0, 0x0, 0x0⟩,  -- HWD_EVT (R373)
  ⟨0x480008, 0, 1, 0x0, 0xff, 0x0, 0x0, 0x0, 0x0⟩,  -- HWD_IE (R373)
  ⟨0x48000c, 0, 1, 0x0, 0x0, 0x0, 0x0, 0x0, 0x0⟩,  -- HWD_WRAP_CFG (R373)
  ⟨0x480010, 0, 1, 0x40, 0x0, 0x0, 0x0, 0x0, 0x0⟩,  -- HWD_CREDIT (R373)
  ⟨0x480014, 0, 1, 0x0, 0x0, 0x0, 0x0, 0x0, 0x0⟩,  -- HWD_CACHE_ST (R373)
  ⟨0x480018, 0, 1, 0x400, 0xff0f, 0x0, 0x80000000, 0x0, 0x0⟩,  -- HWD_TIN_CFG (R373)
  ⟨0x480040, 0, 1, 0x0, 0x0, 0x0, 0x0, 0xffffffff, 0x0⟩,  -- HWD_CNT_HIT (R373)
  ⟨0x480044, 0, 1, 0x0, 0x0, 0x0, 0x0, 0xffffffff, 0x0⟩,  -- HWD_CNT_UNWRAP (R373)
  ⟨0x480048, 0, 1, 0x0, 0x0, 0x0, 0x0, 0xffffffff, 0x0⟩,  -- HWD_CNT_AUTHFAIL (R373)
  ⟨0x48004c, 0, 1, 0x0, 0x0, 0x0, 0x0, 0xffffffff, 0x0⟩,  -- HWD_CNT_BUSY (R373)
  ⟨0x480050, 0, 1, 0x0, 0x0, 0x0, 0x0, 0xffffffff, 0x0⟩,  -- HWD_CNT_CIPHER (R373)
  ⟨0x480054, 0, 1, 0x0, 0x0, 0x0, 0x0, 0xffffffff, 0x0⟩,  -- HWD_CNT_MICFAIL (R373)
  ⟨0x480058, 0, 1, 0x0, 0x0, 0x0, 0x0, 0xffffffff, 0x0⟩,  -- HWD_CNT_CLASS1 (R373)
  ⟨0x480100, 16, 64, 0x0, 0x0, 0x0, 0x0, 0x0, 0x0⟩,  -- HWD_SLOT (R373)
  ⟨0x480104, 16, 64, 0x0, 0x0, 0x0, 0x0, 0x0, 0x0⟩,  -- HWD_SLOT_GEN (R373)
  ⟨0x480108, 16, 64, 0x0, 0x0, 0x0, 0x0, 0x0, 0x0⟩,  -- HWD_SLOT_PGEN (R373)
  ⟨0x48010c, 16, 64, 0x0, 0x0, 0x0, 0x0, 0x0, 0x0⟩,  -- HWD_SLOT_AT (R373)
  ⟨0x480800, 4, 128, 0x0, 0x0, 0x0, 0x0, 0x0, 0x0⟩]  -- HWD_MREG (R373)

/-- The registers of the block at BAR0 offset 0x500000. -/
def regRows500000 : List RegRow := [
  ⟨0x500000, 0, 1, 0x0, 0xffffff, 0x0, 0x0, 0x0, 0x0⟩,  -- PLQ_FC_CTL (R402)
  ⟨0x500004, 0, 1, 0x0, 0x0, 0xf, 0x0, 0x0, 0x0⟩,  -- PLQ_EVT (R402)
  ⟨0x500008, 0, 1, 0x0, 0xf, 0x0, 0x0, 0x0, 0x0⟩,  -- PLQ_IE (R402)
  ⟨0x50000c, 0, 1, 0x0, 0x0, 0x0, 0x0, 0x0, 0x0⟩,  -- PLQ_RST_LAST (R402)
  ⟨0x500010, 0, 1, 0x0, 0x0, 0x0, 0x0, 0x0, 0x0⟩,  -- PLQ_FC_ST (R402)
  ⟨0x500020, 0, 1, 0x0, 0x0, 0x0, 0x0, 0xffffffff, 0x0⟩,  -- PLQ_CNT_PUSH (R402)
  ⟨0x500024, 0, 1, 0x0, 0x0, 0x0, 0x0, 0xffffffff, 0x0⟩,  -- PLQ_CNT_POP (R402)
  ⟨0x500028, 0, 1, 0x0, 0x0, 0x0, 0x0, 0xffffffff, 0x0⟩,  -- PLQ_CNT_FULL (R402)
  ⟨0x50002c, 0, 1, 0x0, 0x0, 0x0, 0x0, 0xffffffff, 0x0⟩,  -- PLQ_CNT_RESET (R402)
  ⟨0x500100, 4, 8, 0x0, 0x0, 0x0, 0x0, 0x0, 0x0⟩,  -- PLQ_WM_ST (R402)
  ⟨0x500120, 4, 8, 0x0, 0x0, 0x0, 0x0, 0x0, 0x0⟩,  -- PLQ_PAUSE_ST (R402)
  ⟨0x501000, 16, 256, 0x0, 0x7fffdfff, 0x0, 0x0, 0x0, 0x0⟩,  -- PLQ_CFG (R402)
  ⟨0x501004, 16, 256, 0x0, 0x1fff1fff, 0x0, 0x0, 0x0, 0x0⟩,  -- PLQ_WM (R402)
  ⟨0x501008, 16, 256, 0x0, 0x0, 0x0, 0x0, 0x0, 0x0⟩,  -- PLQ_FILL (R402)
  ⟨0x50100c, 16, 256, 0x0, 0x0, 0x0, 0x0, 0x0, 0x0⟩,  -- PLQ_ITEMS (R402)
  ⟨0x502000, 4, 128, 0x0, 0xffffffff, 0x0, 0x0, 0x0, 0x0⟩,  -- PLQ_FCO_MASK (R402)
  ⟨0x502200, 4, 64, 0x0, 0xffffffff, 0x0, 0x0, 0x0, 0x0⟩]  -- PLQ_FCI_MASK (R402)

/-- The registers of the block at BAR0 offset 0x580000. -/
def regRows580000 : List RegRow := [
  ⟨0x580000, 0, 1, 0x0, 0x1, 0x0, 0x0, 0x0, 0x0⟩,  -- SHP_CTL (R403)
  ⟨0x580004, 0, 1, 0x0, 0x0, 0xf, 0x0, 0x0, 0x0⟩,  -- SHP_EVT (R403)
  ⟨0x580008, 0, 1, 0x0, 0xf, 0x0, 0x0, 0x0, 0x0⟩,  -- SHP_IE (R403)
  ⟨0x580010, 0, 1, 0x0, 0xfffff800, 0x0, 0x0, 0x0, 0x0⟩,  -- SHP_POOL_BASE_LO (R403)
  ⟨0x580014, 0, 1, 0x0, 0xffffffff, 0x0, 0x0, 0x0, 0x0⟩,  -- SHP_POOL_BASE_HI (R403)
  ⟨0x580018, 0, 1, 0x0, 0x1fffff, 0x0, 0x0, 0x0, 0x0⟩,  -- SHP_POOL_COUNT (R403)
  ⟨0x58001c, 0, 1, 0x0, 0x0, 0x0, 0x0, 0x0, 0x0⟩,  -- SHP_POOL_FREE (R403)
  ⟨0x580020, 0, 1, 0x0, 0x0, 0x0, 0x0, 0x0, 0x0⟩,  -- SHP_CELL_LO (R403)
  ⟨0x580024, 0, 1, 0x0, 0x0, 0x0, 0x0, 0x0, 0x0⟩,  -- SHP_CELL_HI (R403)
  ⟨0x580030, 0, 1, 0x0, 0xffff, 0x0, 0x0, 0x0, 0x0⟩,  -- SHP_CTX_IDX (R403)
  ⟨0x580034, 0, 1, 0x0, 0x3, 0x0, 0x0, 0x0, 0x0⟩,  -- SHP_CTX_CMD (R403)
  ⟨0x580038, 0, 1, 0x0, 0x0, 0x0, 0x0, 0x0, 0x0⟩,  -- SHP_CTX_ST (R403)
  ⟨0x580040, 0, 1, 0x0, 0xffffffff, 0x0, 0x0, 0x0, 0x0⟩,  -- SHP_CTX_CFG_0 (R403)
  ⟨0x580044, 0, 1, 0x0, 0xffffffff, 0x0, 0x0, 0x0, 0x0⟩,  -- SHP_CTX_CFG_1 (R403)
  ⟨0x580048, 0, 1, 0x0, 0xc0ff00ff, 0x0, 0x0, 0x0, 0x0⟩,  -- SHP_CTX_CFG_2 (R403)
  ⟨0x58004c, 0, 1, 0x0, 0xffff, 0x0, 0x0, 0x0, 0x0⟩,  -- SHP_CTX_CFG_3 (R403)
  ⟨0x580050, 0, 1, 0x0, 0x0, 0x0, 0x0, 0x0, 0x0⟩,  -- SHP_CTX_TOK_LO (R403)
  ⟨0x580054, 0, 1, 0x0, 0x0, 0x0, 0x0, 0x0, 0x0⟩,  -- SHP_CTX_TOK_HI (R403)
  ⟨0x580058, 0, 1, 0x0, 0x0, 0x0, 0x0, 0x0, 0x0⟩,  -- SHP_CTX_QST (R403)
  ⟨0x58005c, 0, 1, 0x0, 0x0, 0x0, 0x0, 0x0, 0x0⟩,  -- SHP_CTX_DUE (R403)
  ⟨0x580080, 0, 1, 0x0, 0x0, 0x0, 0x0, 0xffffffff, 0x0⟩,  -- SHP_CNT_ADMIT (R403)
  ⟨0x580084, 0, 1, 0x0, 0x0, 0x0, 0x0, 0xffffffff, 0x0⟩,  -- SHP_CNT_RELEASE (R403)
  ⟨0x580088, 0, 1, 0x0, 0x0, 0x0, 0x0, 0xffffffff, 0x0⟩,  -- SHP_CNT_SPILL (R403)
  ⟨0x58008c, 0, 1, 0x0, 0x0, 0x0, 0x0, 0xffffffff, 0x0⟩,  -- SHP_CNT_DROP_POOL (R403)
  ⟨0x580090, 0, 1, 0x0, 0x0, 0x0, 0x0, 0xffffffff, 0x0⟩,  -- SHP_CNT_DROP_QMAX (R403)
  ⟨0x580094, 0, 1, 0x0, 0x0, 0x0, 0x0, 0xffffffff, 0x0⟩,  -- SHP_CNT_DROP_CFG (R403)
  ⟨0x580098, 0, 1, 0x0, 0x0, 0x0, 0x0, 0xffffffff, 0x0⟩]  -- SHP_CNT_DQ_WAIT (R403)

/-- The registers of the block at BAR0 offset 0x600000. -/
def regRows600000 : List RegRow := [
  ⟨0x600000, 0, 1, 0x0, 0x31, 0x0, 0xc, 0x0, 0x0⟩,  -- BGH_CTL (R431)
  ⟨0x600004, 0, 1, 0x0, 0x0, 0x0, 0x0, 0x0, 0x0⟩,  -- BGH_STAT (R431)
  ⟨0x600008, 0, 1, 0x0, 0x0, 0x1f, 0x0, 0x0, 0x0⟩,  -- BGH_EVT (R431)
  ⟨0x60000c, 0, 1, 0x0, 0x1f, 0x0, 0x0, 0x0, 0x0⟩,  -- BGH_IE (R431)
  ⟨0x600010, 0, 1, 0x0, 0xff000000, 0x0, 0x0, 0x0, 0x0⟩,  -- BGH_SHADOW_LO (R431)
  ⟨0x600014, 0, 1, 0x0, 0xffffffff, 0x0, 0x0, 0x0, 0x0⟩,  -- BGH_SHADOW_HI (R431)
  ⟨0x600018, 0, 1, 0x100, 0xffff, 0x0, 0x0, 0x0, 0x0⟩,  -- BGH_SCRUB_CFG (R431)
  ⟨0x60001c, 0, 1, 0x0, 0x0, 0x0, 0x0, 0x0, 0x0⟩,  -- BGH_SCRUB_PASS (R431)
  ⟨0x600020, 0, 1, 0x0, 0x0, 0x0, 0x0, 0x0, 0x0⟩,  -- BGH_MISM_IDX (R431)
  ⟨0x600024, 0, 1, 0x0, 0x0, 0x0, 0x0, 0x0, 0x0⟩,  -- BGH_MISM_DIE (R431)
  ⟨0x600028, 0, 1, 0x0, 0x0, 0x0, 0x0, 0x0, 0x0⟩,  -- BGH_MISM_SHD (R431)
  ⟨0x600030, 0, 1, 0x0, 0xffffffff, 0x0, 0x0, 0x0, 0x0⟩,  -- BGH_CTX0_LO (R431)
  ⟨0x600034, 0, 1, 0x0, 0xffffffff, 0x0, 0x0, 0x0, 0x0⟩,  -- BGH_CTX0_HI (R431)
  ⟨0x600038, 0, 1, 0x3c0, 0x1fffff, 0x0, 0x0, 0x0, 0x0⟩,  -- BGH_CFG (R431)
  ⟨0x600040, 0, 1, 0x0, 0x803fffff, 0x0, 0x0, 0x0, 0x0⟩,  -- BGH_ENT_IDX (R431)
  ⟨0x600044, 0, 1, 0x0, 0xffffffff, 0x0, 0x0, 0x0, 0x0⟩,  -- BGH_ENT_DATA (R431)
  ⟨0x600048, 0, 1, 0x0, 0xfff, 0x0, 0x0, 0x0, 0x0⟩,  -- BGH_NH_IDX (R431)
  ⟨0x60004c, 0, 1, 0x0, 0xffffffff, 0x0, 0x0, 0x0, 0x0⟩,  -- BGH_NH_LO (R431)
  ⟨0x600050, 0, 1, 0x0, 0x8001ffff, 0x0, 0x0, 0x0, 0x0⟩,  -- BGH_NH_HI (R431)
  ⟨0x600080, 4, 128, 0x0, 0xf03, 0x0, 0x0, 0x0, 0x0⟩,  -- BGH_UQ (R431)
  ⟨0x600300, 0, 1, 0x0, 0x0, 0x0, 0x0, 0xffffffff, 0x0⟩,  -- BGH_CNT_LOOKUP (R431)
  ⟨0x600304, 0, 1, 0x0, 0x0, 0x0, 0x0, 0xffffffff, 0x0⟩,  -- BGH_CNT_DROP (R431)
  ⟨0x600308, 0, 1, 0x0, 0x0, 0x0, 0x0, 0xffffffff, 0x0⟩,  -- BGH_CNT_EXC (R431)
  ⟨0x60030c, 0, 1, 0x0, 0x0, 0x0, 0x0, 0xffffffff, 0x0⟩,  -- BGH_CNT_MESH (R431)
  ⟨0x600310, 0, 1, 0x0, 0x0, 0x0, 0x0, 0xffffffff, 0x0⟩,  -- BGH_CNT_CANOPY (R431)
  ⟨0x600314, 0, 1, 0x0, 0x0, 0x0, 0x0, 0xffffffff, 0x0⟩,  -- BGH_CNT_NO_NODE (R431)
  ⟨0x600318, 0, 1, 0x0, 0x0, 0x0, 0x0, 0xffffffff, 0x0⟩]  -- BGH_CNT_POISON (R431)

/-- The registers of the block at BAR0 offset 0x680000. -/
def regRows680000 : List RegRow := [
  ⟨0x680000, 4096, 2, 0x0, 0x1d, 0x0, 0x0, 0x0, 0x0⟩,  -- ETH_CTL (R432)
  ⟨0x680004, 4096, 2, 0x0, 0x0, 0x0, 0x0, 0x0, 0x0⟩,  -- ETH_STAT (R432)
  ⟨0x680008, 4096, 2, 0x0, 0x0, 0x7, 0x0, 0x0, 0x0⟩,  -- ETH_EVT (R432)
  ⟨0x68000c, 4096, 2, 0x0, 0x7, 0x0, 0x0, 0x0, 0x0⟩,  -- ETH_IE (R432)
  ⟨0x680010, 4096, 2, 0x0, 0xffffffff, 0x0, 0x0, 0x0, 0x0⟩,  -- ETH_MAC_LO (R432)
  ⟨0x680014, 4096, 2, 0x0, 0xffff, 0x0, 0x0, 0x0, 0x0⟩,  -- ETH_MAC_HI (R432)
  ⟨0x680018, 4096, 2, 0x0, 0xffff, 0x0, 0x0, 0x0, 0x0⟩,  -- ETH_VLAN (R432)
  ⟨0x68001c, 4096, 2, 0x5f2, 0x3fff, 0x0, 0x0, 0x0, 0x0⟩,  -- ETH_MAXLEN (R432)
  ⟨0x680020, 4096, 2, 0x0, 0xffffffff, 0x0, 0x0, 0x0, 0x0⟩,  -- ETH_TS_DLY (R432)
  ⟨0x680024, 4096, 2, 0x0, 0xf, 0x0, 0x0, 0x0, 0x0⟩,  -- ETH_EXC (R432)
  ⟨0x680040, 4096, 2, 0x0, 0x0, 0x0, 0x0, 0xffffffff, 0x0⟩,  -- ETH_CNT_RX_OK (R432)
  ⟨0x680044, 4096, 2, 0x0, 0x0, 0x0, 0x0, 0xffffffff, 0x0⟩,  -- ETH_CNT_RX_BAD (R432)
  ⟨0x680048, 4096, 2, 0x0, 0x0, 0x0, 0x0, 0xffffffff, 0x0⟩,  -- ETH_CNT_RX_FILT (R432)
  ⟨0x68004c, 4096, 2, 0x0, 0x0, 0x0, 0x0, 0xffffffff, 0x0⟩,  -- ETH_CNT_RX_NODESC (R432)
  ⟨0x680050, 4096, 2, 0x0, 0x0, 0x0, 0x0, 0xffffffff, 0x0⟩]  -- ETH_CNT_TX_OK (R432)

/-- The registers of the block at BAR0 offset 0x6c0000. -/
def regRows6C0000 : List RegRow := [
  ⟨0x6c0000, 0, 1, 0x0, 0x1, 0x0, 0x0, 0x0, 0x0⟩,  -- PCI_CTL (R433)
  ⟨0x6c0004, 0, 1, 0x0, 0x0, 0x0, 0x0, 0x0, 0x0⟩,  -- PCI_STAT (R433)
  ⟨0x6c0008, 0, 1, 0x0, 0x0, 0x7, 0x0, 0x0, 0x0⟩,  -- PCI_EVT (R433)
  ⟨0x6c000c, 0, 1, 0x0, 0x7, 0x0, 0x0, 0x0, 0x0⟩,  -- PCI_IE (R433)
  ⟨0x6c0040, 0, 1, 0x0, 0x0, 0x0, 0x0, 0xffffffff, 0x0⟩,  -- PCI_CNT_D2H_LONG (R433)
  ⟨0x6c0044, 0, 1, 0x0, 0x0, 0x0, 0x0, 0xffffffff, 0x0⟩,  -- PCI_CNT_H2D_ERR (R433)
  ⟨0x6c0100, 32, 16, 0x0, 0xfffff000, 0x0, 0x0, 0x0, 0x0⟩,  -- PCI_H2D_BASE_LO (R433)
  ⟨0x6c0104, 32, 16, 0x0, 0xffffffff, 0x0, 0x0, 0x0, 0x0⟩,  -- PCI_H2D_BASE_HI (R433)
  ⟨0x6c0108, 32, 16, 0x0, 0x87ff001f, 0x0, 0x0, 0x0, 0x0⟩,  -- PCI_H2D_CFG (R433)
  ⟨0x6c010c, 32, 16, 0x0, 0xffff, 0x0, 0x0, 0x0, 0x0⟩,  -- PCI_H2D_TAIL (R433)
  ⟨0x6c0110, 32, 16, 0x0, 0x0, 0x0, 0x0, 0x0, 0x0⟩,  -- PCI_H2D_HEAD (R433)
  ⟨0x6c0114, 32, 16, 0x0, 0xffffffff, 0x0, 0x0, 0x0, 0x0⟩,  -- PCI_H2D_COAL (R433)
  ⟨0x6c0400, 32, 16, 0x0, 0xfffff000, 0x0, 0x0, 0x0, 0x0⟩,  -- PCI_D2H_BASE_LO (R433)
  ⟨0x6c0404, 32, 16, 0x0, 0xffffffff, 0x0, 0x0, 0x0, 0x0⟩,  -- PCI_D2H_BASE_HI (R433)
  ⟨0x6c0408, 32, 16, 0x0, 0x87ff001f, 0x0, 0x0, 0x0, 0x0⟩,  -- PCI_D2H_CFG (R433)
  ⟨0x6c040c, 32, 16, 0x0, 0xffff, 0x0, 0x0, 0x0, 0x0⟩,  -- PCI_D2H_TAIL (R433)
  ⟨0x6c0410, 32, 16, 0x0, 0x0, 0x0, 0x0, 0x0, 0x0⟩,  -- PCI_D2H_HEAD (R433)
  ⟨0x6c0414, 32, 16, 0x0, 0xffffffff, 0x0, 0x0, 0x0, 0x0⟩]  -- PCI_D2H_COAL (R433)

/-- The registers of the block at BAR0 offset 0x700000. -/
def regRows700000 : List RegRow := [
  ⟨0x700000, 0, 1, 0x800000, 0xff13ff7, 0x0, 0x0, 0x0, 0x0⟩,  -- CNP_CTL (R462)
  ⟨0x700004, 0, 1, 0x0, 0x0, 0x0, 0x0, 0x0, 0x0⟩,  -- CNP_STAT (R462)
  ⟨0x700008, 0, 1, 0x0, 0x0, 0xfff, 0x0, 0x0, 0x0⟩,  -- CNP_EVT (R462)
  ⟨0x70000c, 0, 1, 0x0, 0xfff, 0x0, 0x0, 0x0, 0x0⟩,  -- CNP_IE (R462)
  ⟨0x700010, 0, 1, 0x0, 0x0, 0x0, 0x0, 0x0, 0x0⟩,  -- CNP_PORT_E (R462)
  ⟨0x700014, 0, 1, 0x0, 0x0, 0x0, 0x0, 0x0, 0x0⟩,  -- CNP_PORT_W (R462)
  ⟨0x700018, 0, 1, 0x0, 0x0, 0x0, 0x0, 0x0, 0x0⟩,  -- CNP_DLY_E (R462)
  ⟨0x70001c, 0, 1, 0x0, 0x0, 0x0, 0x0, 0x0, 0x0⟩,  -- CNP_DLY_W (R462)
  ⟨0x700020, 0, 1, 0x0, 0xffff, 0x0, 0x0, 0x0, 0x0⟩,  -- CNP_ASYM_E (R462)
  ⟨0x700024, 0, 1, 0x0, 0xffff, 0x0, 0x0, 0x0, 0x0⟩,  -- CNP_ASYM_W (R462)
  ⟨0x700028, 0, 1, 0x0, 0x0, 0x0, 0x0, 0x0, 0x0⟩,  -- CNP_OFS (R462)
  ⟨0x70002c, 0, 1, 0x0, 0x0, 0x0, 0x0, 0x0, 0x0⟩,  -- CNP_DIG_ST (R462)
  ⟨0x700040, 0, 1, 0x0, 0x0, 0x0, 0x0, 0xffffffff, 0x0⟩,  -- CNP_CNT_MARK (R462)
  ⟨0x700044, 0, 1, 0x0, 0x0, 0x0, 0x0, 0xffffffff, 0x0⟩,  -- CNP_CNT_MISS (R462)
  ⟨0x700048, 0, 1, 0x0, 0x0, 0x0, 0x0, 0xffffffff, 0x0⟩,  -- CNP_CNT_CRC_E (R462)
  ⟨0x70004c, 0, 1, 0x0, 0x0, 0x0, 0x0, 0xffffffff, 0x0⟩,  -- CNP_CNT_CRC_W (R462)
  ⟨0x700050, 0, 1, 0x0, 0x0, 0x0, 0x0, 0xffffffff, 0x0⟩,  -- CNP_CNT_TX_MSG (R462)
  ⟨0x700054, 0, 1, 0x0, 0x0, 0x0, 0x0, 0xffffffff, 0x0⟩,  -- CNP_CNT_RX_MSG (R462)
  ⟨0x700058, 0, 1, 0x0, 0x0, 0x0, 0x0, 0xffffffff, 0x0⟩,  -- CNP_CNT_DROP (R462)
  ⟨0x700100, 8, 8, 0x0, 0xffffffff, 0x0, 0x0, 0x0, 0x0⟩,  -- CNP_EXPP_LO (R462)
  ⟨0x700104, 8, 8, 0x0, 0xffffffff, 0x0, 0x0, 0x0, 0x0⟩,  -- CNP_EXPP_HI (R462)
  ⟨0x700140, 8, 8, 0x0, 0xffffffff, 0x0, 0x0, 0x0, 0x0⟩,  -- CNP_EXPA_LO (R462)
  ⟨0x700144, 8, 8, 0x0, 0xffffffff, 0x0, 0x0, 0x0, 0x0⟩]  -- CNP_EXPA_HI (R462)

/-- The registers of the block at BAR0 offset 0x780000. -/
def regRows780000 : List RegRow := [
  ⟨0x780000, 0, 1, 0x0, 0x0, 0x0, 0x0, 0x0, 0x0⟩,  -- UPD_BOOT_ST (R488)
  ⟨0x780004, 0, 1, 0x0, 0x0, 0x0, 0x0, 0x0, 0x0⟩,  -- UPD_ROLL (R488)
  ⟨0x780008, 0, 1, 0x0, 0x0, 0x0, 0x0, 0x0, 0x0⟩,  -- UPD_MAIN_VER (R488)
  ⟨0x78000c, 0, 1, 0x0, 0x0, 0x0, 0x0, 0x0, 0x0⟩,  -- UPD_STG_ST (R488)
  ⟨0x780010, 0, 1, 0x0, 0x0, 0x0, 0x0, 0x0, 0x0⟩,  -- UPD_STG_VER (R488)
  ⟨0x780014, 0, 1, 0x0, 0x0, 0xff, 0x0, 0x0, 0x0⟩,  -- UPD_EVT (R488)
  ⟨0x780018, 0, 1, 0x0, 0xff, 0x0, 0x0, 0x0, 0x0⟩,  -- UPD_IE (R488)
  ⟨0x78001c, 0, 1, 0x0, 0x0, 0x0, 0x0, 0x0, 0x0⟩,  -- UPD_CFG_ST (R488)
  ⟨0x780020, 0, 1, 0x0, 0x0, 0x0, 0x0, 0x0, 0x0⟩,  -- UPD_SEED_ST (R488)
  ⟨0x780024, 0, 1, 0x0, 0x0, 0x0, 0x0, 0x0, 0x0⟩,  -- UPD_SEED_ITEMS (R488)
  ⟨0x780030, 0, 1, 0x0, 0x0, 0x0, 0x0, 0x0, 0x0⟩,  -- UPD_SEED_CNT_RX (R488)
  ⟨0x780034, 0, 1, 0x0, 0x0, 0x0, 0x0, 0x0, 0x0⟩,  -- UPD_SEED_CNT_DONE (R488)
  ⟨0x780038, 0, 1, 0x0, 0x0, 0x0, 0x0, 0x0, 0x0⟩,  -- UPD_SEED_CNT_APPL (R488)
  ⟨0x78003c, 0, 1, 0x0, 0x0, 0x0, 0x0, 0x0, 0x0⟩,  -- UPD_SEED_CNT_FAIL (R488)
  ⟨0x780100, 0, 1, 0x0, 0xffffffff, 0x0, 0x0, 0x0, 0x0⟩,  -- UPD_FL_ADDR (R488)
  ⟨0x780104, 0, 1, 0x0, 0x3, 0x0, 0x0, 0x0, 0x0⟩,  -- UPD_FL_CMD (R488)
  ⟨0x780200, 4, 64, 0x0, 0xffffffff, 0x0, 0x0, 0x0, 0x0⟩]  -- UPD_FL_DATA (R488)

/-- The registers of the block at BAR0 offset 0x7c0000. -/
def regRows7C0000 : List RegRow := [
  ⟨0x7c0000, 0, 1, 0x2, 0x3b, 0x0, 0x0, 0x0, 0x0⟩,  -- RAS_CTL (R527)
  ⟨0x7c0004, 0, 1, 0x0, 0x0, 0x1f, 0x0, 0x0, 0x0⟩,  -- RAS_EVT (R527)
  ⟨0x7c0008, 0, 1, 0x0, 0xf, 0x0, 0x0, 0x0, 0x0⟩,  -- RAS_IE (R527)
  ⟨0x7c0010, 0, 1, 0x9d29, 0xffffff, 0x0, 0x0, 0x0, 0x0⟩,  -- RAS_SCRUB_INT (R527)
  ⟨0x7c0014, 0, 1, 0x0, 0x0, 0x0, 0x0, 0x0, 0x0⟩,  -- RAS_SCRUB_PASS (R527)
  ⟨0x7c0020, 0, 1, 0x0, 0x0, 0x0, 0x0, 0xffffffff, 0x0⟩,  -- RAS_CE_CNT (R527)
  ⟨0x7c0024, 0, 1, 0x0, 0xffffffff, 0x0, 0x0, 0x0, 0x0⟩,  -- RAS_CE_THR (R527)
  ⟨0x7c0028, 0, 1, 0x0, 0x0, 0x0, 0x0, 0xffffffff, 0x0⟩,  -- RAS_UE_CNT (R527)
  ⟨0x7c002c, 0, 1, 0x0, 0x0, 0x0, 0x0, 0xffffffff, 0x0⟩,  -- RAS_LOST_CNT (R527)
  ⟨0x7c0030, 0, 1, 0x0, 0x0, 0x0, 0x0, 0x0, 0x0⟩,  -- RAS_LOG_WR (R527)
  ⟨0x7c0034, 0, 1, 0x0, 0xffff, 0x0, 0x0, 0x0, 0x0⟩,  -- RAS_LOG_RD (R527)
  ⟨0x7c0038, 0, 1, 0x0, 0xffff, 0x0, 0x0, 0x0, 0x0⟩,  -- RAS_LOG_SEL (R527)
  ⟨0x7c0040, 4, 8, 0x0, 0x0, 0x0, 0x0, 0x0, 0x0⟩,  -- RAS_LOG_DATA (R527)
  ⟨0x7c0060, 0, 1, 0x0, 0xff800000, 0x0, 0x0, 0x0, 0x0⟩,  -- RAS_TCHK_BASE_LO (R527)
  ⟨0x7c0064, 0, 1, 0x0, 0xffffffff, 0x0, 0x0, 0x0, 0x0⟩,  -- RAS_TCHK_BASE_HI (R527)
  ⟨0x7c0068, 0, 1, 0x0, 0x0, 0x0, 0x0, 0x0, 0x0⟩,  -- RAS_TCHK_PASS (R527)
  ⟨0x7c0100, 4, 16, 0x0, 0x0, 0x0, 0x0, 0xffffffff, 0x0⟩]  -- RAS_UNIT_CE (R527)

/-- The registers of the block at BAR0 offset 0x800000. -/
def regRows800000 : List RegRow := [
  ⟨0x800000, 0, 1, 0x0, 0x0, 0x0, 0x0, 0x0, 0x0⟩,  -- DDRC_CFG (R551)
  ⟨0x800004, 0, 1, 0x0, 0x0, 0x7, 0x0, 0x0, 0x0⟩,  -- DDRC_EVT (R551)
  ⟨0x800008, 0, 1, 0x0, 0x7, 0x0, 0x0, 0x0, 0x0⟩]  -- DDRC_IE (R551)

abbrev SYS_CHIP_ID.all : Fld := ⟨0x0, 0, 31, 0⟩
abbrev SYS_CHIP_ID.PART : Fld := ⟨0x0, 0, 31, 16⟩
abbrev SYS_CHIP_ID.REV : Fld := ⟨0x0, 0, 15, 8⟩
abbrev SYS_CHIP_ID.GRADE : Fld := ⟨0x0, 0, 7, 4⟩
abbrev SYS_MBX_CMD.all : Fld := ⟨0x1000, 0, 31, 0⟩
abbrev SYS_MBX_CMD.TAG : Fld := ⟨0x1000, 0, 31, 24⟩
abbrev SYS_MBX_CMD.ARG_LEN : Fld := ⟨0x1000, 0, 23, 16⟩
abbrev SYS_MBX_CMD.OPCODE : Fld := ⟨0x1000, 0, 15, 0⟩
abbrev SYS_MBX_DB.all : Fld := ⟨0x1004, 0, 31, 0⟩
abbrev SYS_MBX_DB.ABORT : Fld := ⟨0x1004, 0, 1, 1⟩
abbrev SYS_MBX_DB.RING : Fld := ⟨0x1004, 0, 0, 0⟩
abbrev SYS_MBX_STATUS.all : Fld := ⟨0x1008, 0, 31, 0⟩
abbrev SYS_MBX_STATUS.TAG : Fld := ⟨0x1008, 0, 31, 24⟩
abbrev SYS_MBX_STATUS.RES_LEN : Fld := ⟨0x1008, 0, 23, 16⟩
abbrev SYS_MBX_STATUS.STATUS : Fld := ⟨0x1008, 0, 15, 0⟩
abbrev SYS_MBX_STATE.all : Fld := ⟨0x100c, 0, 31, 0⟩
abbrev SYS_MBX_STATE.DONE_IE : Fld := ⟨0x100c, 0, 16, 16⟩
abbrev SYS_MBX_STATE.STW_UP : Fld := ⟨0x100c, 0, 15, 12⟩
abbrev SYS_MBX_STATE.WR_REJECT : Fld := ⟨0x100c, 0, 10, 10⟩
abbrev SYS_MBX_STATE.DB_REJECT : Fld := ⟨0x100c, 0, 9, 9⟩
abbrev SYS_MBX_STATE.DONE : Fld := ⟨0x100c, 0, 8, 8⟩
abbrev SYS_MBX_STATE.PHASE : Fld := ⟨0x100c, 0, 2, 1⟩
abbrev SYS_MBX_STATE.READY : Fld := ⟨0x100c, 0, 0, 0⟩
abbrev SYS_MBX_TMO.all : Fld := ⟨0x1010, 0, 31, 0⟩
abbrev SYS_MBX_TMO.TMO_MS : Fld := ⟨0x1010, 0, 15, 0⟩
abbrev SYS_MBX_ARG.all : Fld := ⟨0x1100, 4, 31, 0⟩
abbrev SYS_MBX_RES.all : Fld := ⟨0x1200, 4, 31, 0⟩
abbrev SYS_GPIO_IN.all : Fld := ⟨0x4000, 4, 31, 0⟩
abbrev SYS_GPIO_OUT.all : Fld := ⟨0x4008, 4, 31, 0⟩
abbrev SYS_GPIO_OE.all : Fld := ⟨0x4010, 4, 31, 0⟩
abbrev SYS_GPIO_EVT.all : Fld := ⟨0x4018, 4, 31, 0⟩
abbrev SYS_GPIO_IE.all : Fld := ⟨0x4020, 4, 31, 0⟩
abbrev SYS_GPIO_CFG.all : Fld := ⟨0x4100, 4, 31, 0⟩
abbrev SYS_GPIO_CFG.FUNC : Fld := ⟨0x4100, 4, 9, 8⟩
abbrev SYS_GPIO_CFG.PULL : Fld := ⟨0x4100, 4, 5, 4⟩
abbrev SYS_GPIO_CFG.EVMODE : Fld := ⟨0x4100, 4, 2, 0⟩
abbrev SYS_SPI_CTL.all : Fld := ⟨0x5000, 256, 31, 0⟩
abbrev SYS_SPI_CTL.EN : Fld := ⟨0x5000, 256, 31, 31⟩
abbrev SYS_SPI_CTL.DONE_IE : Fld := ⟨0x5000, 256, 30, 30⟩
abbrev SYS_SPI_CTL.DIV : Fld := ⟨0x5000, 256, 23, 16⟩
abbrev SYS_SPI_CTL.MODE : Fld := ⟨0x5000, 256, 13, 12⟩
abbrev SYS_SPI_CTL.CS : Fld := ⟨0x5000, 256, 9, 8⟩
abbrev SYS_SPI_CTL.CS_HOLD : Fld := ⟨0x5000, 256, 7, 7⟩
abbrev SYS_SPI_CTL.LEN : Fld := ⟨0x5000, 256, 5, 0⟩
abbrev SYS_SPI_DATA.all : Fld := ⟨0x5004, 256, 31, 0⟩
abbrev SYS_SPI_ST.all : Fld := ⟨0x5008, 256, 31, 0⟩
abbrev SYS_SPI_ST.BUSY : Fld := ⟨0x5008, 256, 31, 31⟩
abbrev SYS_SPI_ST.WR_IGN : Fld := ⟨0x5008, 256, 2, 2⟩
abbrev SYS_SPI_ST.DONE : Fld := ⟨0x5008, 256, 0, 0⟩
abbrev SYS_I2C_CTL.all : Fld := ⟨0x5400, 256, 31, 0⟩
abbrev SYS_I2C_CTL.EN : Fld := ⟨0x5400, 256, 31, 31⟩
abbrev SYS_I2C_CTL.DONE_IE : Fld := ⟨0x5400, 256, 30, 30⟩
abbrev SYS_I2C_CTL.SPEED : Fld := ⟨0x5400, 256, 1, 0⟩
abbrev SYS_I2C_CMD.all : Fld := ⟨0x5404, 256, 31, 0⟩
abbrev SYS_I2C_CMD.START : Fld := ⟨0x5404, 256, 11, 11⟩
abbrev SYS_I2C_CMD.STOP : Fld := ⟨0x5404, 256, 10, 10⟩
abbrev SYS_I2C_CMD.READ : Fld := ⟨0x5404, 256, 9, 9⟩
abbrev SYS_I2C_CMD.ACK : Fld := ⟨0x5404, 256, 8, 8⟩
abbrev SYS_I2C_CMD.BYTE : Fld := ⟨0x5404, 256, 7, 0⟩
abbrev SYS_I2C_ST.all : Fld := ⟨0x5408, 256, 31, 0⟩
abbrev SYS_I2C_ST.BUSY : Fld := ⟨0x5408, 256, 31, 31⟩
abbrev SYS_I2C_ST.BYTE : Fld := ⟨0x5408, 256, 23, 16⟩
abbrev SYS_I2C_ST.WR_IGN : Fld := ⟨0x5408, 256, 4, 4⟩
abbrev SYS_I2C_ST.ARB_LOST : Fld := ⟨0x5408, 256, 3, 3⟩
abbrev SYS_I2C_ST.NACK : Fld := ⟨0x5408, 256, 2, 2⟩
abbrev SYS_I2C_ST.DONE : Fld := ⟨0x5408, 256, 0, 0⟩
abbrev SYS_UART_CTL.all : Fld := ⟨0x5800, 0, 31, 0⟩
abbrev SYS_UART_CTL.EN : Fld := ⟨0x5800, 0, 31, 31⟩
abbrev SYS_UART_CTL.RTSCTS : Fld := ⟨0x5800, 0, 30, 30⟩
abbrev SYS_UART_CTL.DIV : Fld := ⟨0x5800, 0, 23, 0⟩
abbrev SYS_UART_DATA.all : Fld := ⟨0x5804, 0, 31, 0⟩
abbrev SYS_UART_DATA.VALID : Fld := ⟨0x5804, 0, 8, 8⟩
abbrev SYS_UART_DATA.BYTE : Fld := ⟨0x5804, 0, 7, 0⟩
abbrev SYS_UART_ST.all : Fld := ⟨0x5808, 0, 31, 0⟩
abbrev SYS_UART_ST.RXLEV : Fld := ⟨0x5808, 0, 30, 24⟩
abbrev SYS_UART_ST.TXLEV : Fld := ⟨0x5808, 0, 22, 16⟩
abbrev SYS_UART_ST.TX_OVF : Fld := ⟨0x5808, 0, 4, 4⟩
abbrev SYS_UART_ST.RX_OVR : Fld := ⟨0x5808, 0, 3, 3⟩
abbrev SYS_UART_ST.FRAME : Fld := ⟨0x5808, 0, 2, 2⟩
abbrev SYS_UART_ST.TXE : Fld := ⟨0x5808, 0, 1, 1⟩
abbrev SYS_UART_ST.RXAV : Fld := ⟨0x5808, 0, 0, 0⟩
abbrev SYS_UART_IE.all : Fld := ⟨0x580c, 0, 31, 0⟩
abbrev PWR_CTL.all : Fld := ⟨0x10000, 0, 31, 0⟩
abbrev PWR_CTL.REQ : Fld := ⟨0x10000, 0, 9, 8⟩
abbrev PWR_CTL.SEC_KEEP : Fld := ⟨0x10000, 0, 4, 4⟩
abbrev PWR_CTL.PERST_SCOPE : Fld := ⟨0x10000, 0, 1, 1⟩
abbrev PWR_CTL.SW_RST : Fld := ⟨0x10000, 0, 0, 0⟩
abbrev PWR_STAT.all : Fld := ⟨0x10004, 0, 31, 0⟩
abbrev PWR_STAT.RAILS : Fld := ⟨0x10004, 0, 23, 16⟩
abbrev PWR_STAT.RTC_VALID : Fld := ⟨0x10004, 0, 9, 9⟩
abbrev PWR_STAT.TEMP_VALID : Fld := ⟨0x10004, 0, 8, 8⟩
abbrev PWR_STAT.STATE : Fld := ⟨0x10004, 0, 1, 0⟩
abbrev PWR_EVT.all : Fld := ⟨0x10008, 0, 31, 0⟩
abbrev PWR_EVT.STBY_REFUSED : Fld := ⟨0x10008, 0, 3, 3⟩
abbrev PWR_EVT.STATE_CHG : Fld := ⟨0x10008, 0, 2, 2⟩
abbrev PWR_EVT.SUPPLY : Fld := ⟨0x10008, 0, 1, 1⟩
abbrev PWR_EVT.TEMP_ALARM : Fld := ⟨0x10008, 0, 0, 0⟩
abbrev PWR_IE.all : Fld := ⟨0x1000c, 0, 31, 0⟩
abbrev PWR_PLL_ST.all : Fld := ⟨0x10010, 0, 31, 0⟩
abbrev PWR_PLL_ST.XTAL : Fld := ⟨0x10010, 0, 10, 10⟩
abbrev PWR_PLL_ST.CNP : Fld := ⟨0x10010, 0, 9, 9⟩
abbrev PWR_PLL_ST.ETH : Fld := ⟨0x10010, 0, 8, 8⟩
abbrev PWR_PLL_ST.PCIE : Fld := ⟨0x10010, 0, 7, 7⟩
abbrev PWR_PLL_ST.DSP_SRC : Fld := ⟨0x10010, 0, 6, 6⟩
abbrev PWR_PLL_ST.DSP : Fld := ⟨0x10010, 0, 5, 5⟩
abbrev PWR_PLL_ST.SYS : Fld := ⟨0x10010, 0, 4, 0⟩
abbrev PWR_RST_CAUSE.all : Fld := ⟨0x10014, 0, 31, 0⟩
abbrev PWR_RST_CAUSE.PCIE_RST : Fld := ⟨0x10014, 0, 23, 16⟩
abbrev PWR_RST_CAUSE.CAUSE : Fld := ⟨0x10014, 0, 15, 8⟩
abbrev PWR_RST_CAUSE.KIND : Fld := ⟨0x10014, 0, 2, 0⟩
abbrev PWR_TEMP.all : Fld := ⟨0x10018, 0, 31, 0⟩
abbrev PWR_TEMP.TJ : Fld := ⟨0x10018, 0, 15, 0⟩
abbrev PWR_TEMP_THR.all : Fld := ⟨0x1001c, 0, 31, 0⟩
abbrev PWR_TEMP_THR.ALARM_THR : Fld := ⟨0x1001c, 0, 15, 0⟩
abbrev PWR_SUPPLY_EVT.all : Fld := ⟨0x10020, 0, 31, 0⟩
abbrev PWR_SUPPLY_EVT.RAILS : Fld := ⟨0x10020, 0, 7, 0⟩
abbrev PWR_RTC_LO.all : Fld := ⟨0x10030, 0, 31, 0⟩
abbrev PWR_RTC_HI.all : Fld := ⟨0x10034, 0, 31, 0⟩
abbrev PWR_RTC_HI.HI : Fld := ⟨0x10034, 0, 15, 0⟩
abbrev PWR_RTC_ALM_LO.all : Fld := ⟨0x10038, 0, 31, 0⟩
abbrev PWR_RTC_ALM_HI.all : Fld := ⟨0x1003c, 0, 31, 0⟩
abbrev PWR_RTC_ALM_HI.HI : Fld := ⟨0x1003c, 0, 15, 0⟩
abbrev ICU_RESCUE.all : Fld := ⟨0x20000, 0, 31, 0⟩
abbrev ICU_RESCUE.TGT : Fld := ⟨0x20000, 0, 5, 0⟩
abbrev ICU_EVT.all : Fld := ⟨0x20004, 0, 31, 0⟩
abbrev ICU_EVT.RESCUE_BLOCKED : Fld := ⟨0x20004, 0, 2, 2⟩
abbrev ICU_EVT.DONE_ERR : Fld := ⟨0x20004, 0, 1, 1⟩
abbrev ICU_EVT.WR_IGN : Fld := ⟨0x20004, 0, 0, 0⟩
abbrev ICU_IE.all : Fld := ⟨0x20008, 0, 31, 0⟩
abbrev ICU_PEND.all : Fld := ⟨0x20080, 4, 31, 0⟩
abbrev ICU_TGT_CFG.all : Fld := ⟨0x20100, 16, 31, 0⟩
abbrev ICU_TGT_CFG.WAKEABLE : Fld := ⟨0x20100, 16, 31, 31⟩
abbrev ICU_TGT_CFG.AREA : Fld := ⟨0x20100, 16, 15, 6⟩
abbrev ICU_TGT_CFG.AREA_EN : Fld := ⟨0x20100, 16, 0, 0⟩
abbrev ICU_TGT_ST.all : Fld := ⟨0x20104, 16, 31, 0⟩
abbrev ICU_TGT_ST.CLAIMED : Fld := ⟨0x20104, 16, 31, 31⟩
abbrev ICU_TGT_ST.ASLEEP : Fld := ⟨0x20104, 16, 30, 30⟩
abbrev ICU_TGT_ST.WAKE : Fld := ⟨0x20104, 16, 29, 29⟩
abbrev ICU_TGT_ST.CSRC : Fld := ⟨0x20104, 16, 24, 16⟩
abbrev ICU_TGT_ST.PSRC : Fld := ⟨0x20104, 16, 8, 0⟩
abbrev ICU_CLAIM.all : Fld := ⟨0x20108, 16, 31, 0⟩
abbrev ICU_CLAIM.VALID : Fld := ⟨0x20108, 16, 31, 31⟩
abbrev ICU_CLAIM.AGAIN : Fld := ⟨0x20108, 16, 30, 30⟩
abbrev ICU_CLAIM.COUNT : Fld := ⟨0x20108, 16, 23, 16⟩
abbrev ICU_CLAIM.SRC : Fld := ⟨0x20108, 16, 8, 0⟩
abbrev ICU_DONE.all : Fld := ⟨0x2010c, 16, 31, 0⟩
abbrev ICU_DONE.SRC : Fld := ⟨0x2010c, 16, 8, 0⟩
abbrev ICU_SRC.all : Fld := ⟨0x20400, 4, 31, 0⟩
abbrev ICU_SRC.EN : Fld := ⟨0x20400, 4, 31, 31⟩
abbrev ICU_SRC.REARM : Fld := ⟨0x20400, 4, 30, 30⟩
abbrev ICU_SRC.POL : Fld := ⟨0x20400, 4, 29, 29⟩
abbrev ICU_SRC.FILT : Fld := ⟨0x20400, 4, 23, 16⟩
abbrev ICU_SRC.TARGET : Fld := ⟨0x20400, 4, 13, 8⟩
abbrev ICU_SRC.COUNT : Fld := ⟨0x20400, 4, 7, 0⟩
abbrev TMR_GO.all : Fld := ⟨0x30000, 0, 31, 0⟩
abbrev TMR_STOP.all : Fld := ⟨0x30004, 0, 31, 0⟩
abbrev TMR_RUN.all : Fld := ⟨0x30008, 0, 31, 0⟩
abbrev TMR_GO_MASK.all : Fld := ⟨0x3000c, 0, 31, 0⟩
abbrev TMR_GO_AT_LO.all : Fld := ⟨0x30010, 0, 31, 0⟩
abbrev TMR_GO_AT_HI.all : Fld := ⟨0x30014, 0, 31, 0⟩
abbrev TMR_GO_ST.all : Fld := ⟨0x30018, 0, 31, 0⟩
abbrev TMR_GO_ST.CANCEL : Fld := ⟨0x30018, 0, 3, 3⟩
abbrev TMR_GO_ST.LATE : Fld := ⟨0x30018, 0, 2, 2⟩
abbrev TMR_GO_ST.PAST : Fld := ⟨0x30018, 0, 1, 1⟩
abbrev TMR_GO_ST.ARMED : Fld := ⟨0x30018, 0, 0, 0⟩
abbrev TMR_IRQ_ST.all : Fld := ⟨0x3001c, 0, 31, 0⟩
abbrev TMR_CFG.all : Fld := ⟨0x30100, 32, 31, 0⟩
abbrev TMR_CFG.LINK : Fld := ⟨0x30100, 32, 31, 31⟩
abbrev TMR_CFG.PSC : Fld := ⟨0x30100, 32, 27, 24⟩
abbrev TMR_CFG.CAPSEL : Fld := ⟨0x30100, 32, 20, 16⟩
abbrev TMR_CFG.OUTMODE : Fld := ⟨0x30100, 32, 13, 12⟩
abbrev TMR_CFG.OVF_IE : Fld := ⟨0x30100, 32, 10, 10⟩
abbrev TMR_CFG.MATCH_IE : Fld := ⟨0x30100, 32, 9, 9⟩
abbrev TMR_CFG.CAP_IE : Fld := ⟨0x30100, 32, 8, 8⟩
abbrev TMR_TOP.all : Fld := ⟨0x30104, 32, 31, 0⟩
abbrev TMR_MATCH.all : Fld := ⟨0x30108, 32, 31, 0⟩
abbrev TMR_CNT.all : Fld := ⟨0x3010c, 32, 31, 0⟩
abbrev TMR_CAP.all : Fld := ⟨0x30110, 32, 31, 0⟩
abbrev TMR_FLAG.all : Fld := ⟨0x30114, 32, 31, 0⟩
abbrev TMR_FLAG.DIR : Fld := ⟨0x30114, 32, 4, 4⟩
abbrev TMR_FLAG.CAP_OVR : Fld := ⟨0x30114, 32, 3, 3⟩
abbrev TMR_FLAG.CAPF : Fld := ⟨0x30114, 32, 2, 2⟩
abbrev TMR_FLAG.MATCHF : Fld := ⟨0x30114, 32, 1, 1⟩
abbrev TMR_FLAG.OVFF : Fld := ⟨0x30114, 32, 0, 0⟩
abbrev HOOP_HTIME_LO.all : Fld := ⟨0x40000, 0, 31, 0⟩
abbrev HOOP_HTIME_HI.all : Fld := ⟨0x40004, 0, 31, 0⟩
abbrev HOOP_STATE.all : Fld := ⟨0x40008, 0, 31, 0⟩
abbrev HOOP_STATE.TQ : Fld := ⟨0x40008, 0, 28, 26⟩
abbrev HOOP_STATE.STBY : Fld := ⟨0x40008, 0, 25, 24⟩
abbrev HOOP_STATE.ACTIVE : Fld := ⟨0x40008, 0, 23, 23⟩
abbrev HOOP_STATE.CNP_OK : Fld := ⟨0x40008, 0, 6, 6⟩
abbrev HOOP_STATE.PTP_OK : Fld := ⟨0x40008, 0, 5, 5⟩
abbrev HOOP_STATE.PPS_OK : Fld := ⟨0x40008, 0, 4, 4⟩
abbrev HOOP_STATE.REF_OK : Fld := ⟨0x40008, 0, 3, 3⟩
abbrev HOOP_STATE.LOCK : Fld := ⟨0x40008, 0, 2, 0⟩
abbrev HOOP_CTL.all : Fld := ⟨0x4000c, 0, 31, 0⟩
abbrev HOOP_CTL.PROOF_NOW : Fld := ⟨0x4000c, 0, 10, 10⟩
abbrev HOOP_CTL.REARM : Fld := ⟨0x4000c, 0, 9, 9⟩
abbrev HOOP_CTL.FORCE_SW : Fld := ⟨0x4000c, 0, 8, 8⟩
abbrev HOOP_CTL.HOLD_EN : Fld := ⟨0x4000c, 0, 5, 5⟩
abbrev HOOP_CTL.BCN_OVR : Fld := ⟨0x4000c, 0, 4, 4⟩
abbrev HOOP_CTL.STEP_EN : Fld := ⟨0x4000c, 0, 3, 3⟩
abbrev HOOP_CTL.PTP_PORT : Fld := ⟨0x4000c, 0, 2, 2⟩
abbrev HOOP_CTL.PSRC : Fld := ⟨0x4000c, 0, 1, 0⟩
abbrev HOOP_SYNC_CFG.all : Fld := ⟨0x40010, 0, 31, 0⟩
abbrev HOOP_SYNC_CFG.STEP_THR : Fld := ⟨0x40010, 0, 31, 16⟩
abbrev HOOP_SYNC_CFG.LOCK_THR : Fld := ⟨0x40010, 0, 15, 0⟩
abbrev HOOP_HOLD_MAX.all : Fld := ⟨0x40014, 0, 31, 0⟩
abbrev HOOP_PHASE_ERR.all : Fld := ⟨0x40018, 0, 31, 0⟩
abbrev HOOP_FREQ_ERR.all : Fld := ⟨0x4001c, 0, 31, 0⟩
abbrev HOOP_PTP_OFS_LO.all : Fld := ⟨0x40020, 0, 31, 0⟩
abbrev HOOP_PTP_OFS_HI.all : Fld := ⟨0x40024, 0, 31, 0⟩
abbrev HOOP_PTP_STAMP_LO.all : Fld := ⟨0x40028, 0, 31, 0⟩
abbrev HOOP_PTP_STAMP_HI.all : Fld := ⟨0x4002c, 0, 31, 0⟩
abbrev HOOP_EPOCH_ACT.all : Fld := ⟨0x40040, 0, 31, 0⟩
abbrev HOOP_EPOCH_ACT.H : Fld := ⟨0x40040, 0, 19, 16⟩
abbrev HOOP_EPOCH_ACT.EPOCH : Fld := ⟨0x40040, 0, 15, 0⟩
abbrev HOOP_EPOCH_PEND.all : Fld := ⟨0x40044, 0, 31, 0⟩
abbrev HOOP_EPOCH_PEND.SWAP : Fld := ⟨0x40044, 0, 27, 24⟩
abbrev HOOP_EPOCH_PEND.H : Fld := ⟨0x40044, 0, 19, 16⟩
abbrev HOOP_EPOCH_PEND.EPOCH : Fld := ⟨0x40044, 0, 15, 0⟩
abbrev HOOP_ACT_SF.all : Fld := ⟨0x40048, 0, 31, 0⟩
abbrev HOOP_EPOCH_CTL.all : Fld := ⟨0x4004c, 0, 31, 0⟩
abbrev HOOP_EPOCH_CTL.CANCEL : Fld := ⟨0x4004c, 0, 1, 1⟩
abbrev HOOP_EPOCH_CTL.COMMIT : Fld := ⟨0x4004c, 0, 0, 0⟩
abbrev HOOP_EPOCH_ST.all : Fld := ⟨0x40050, 0, 31, 0⟩
abbrev HOOP_EPOCH_ST.BAD_INDEX : Fld := ⟨0x40050, 0, 28, 12⟩
abbrev HOOP_EPOCH_ST.WR_IGN : Fld := ⟨0x40050, 0, 8, 8⟩
abbrev HOOP_EPOCH_ST.REASON : Fld := ⟨0x40050, 0, 7, 4⟩
abbrev HOOP_EPOCH_ST.ST : Fld := ⟨0x40050, 0, 2, 0⟩
abbrev HOOP_WARP_COUNT.all : Fld := ⟨0x40054, 0, 31, 0⟩
abbrev HOOP_WARP_COUNT.COUNT : Fld := ⟨0x40054, 0, 17, 0⟩
abbrev HOOP_WARP_ACT_COUNT.all : Fld := ⟨0x40058, 0, 31, 0⟩
abbrev HOOP_WARP_ACT_COUNT.COUNT : Fld := ⟨0x40058, 0, 17, 0⟩
abbrev HOOP_WARP_ADDR.all : Fld := ⟨0x40060, 0, 31, 0⟩
abbrev HOOP_WARP_ADDR.BANK_SEL : Fld := ⟨0x40060, 0, 31, 31⟩
abbrev HOOP_WARP_ADDR.AUTO_INC : Fld := ⟨0x40060, 0, 30, 30⟩
abbrev HOOP_WARP_ADDR.INDEX : Fld := ⟨0x40060, 0, 16, 0⟩
abbrev HOOP_WARP_DATA.all : Fld := ⟨0x40080, 4, 31, 0⟩
abbrev HOOP_DIGEST_ACT.all : Fld := ⟨0x40100, 4, 31, 0⟩
abbrev HOOP_DIGEST_PEND.all : Fld := ⟨0x40140, 4, 31, 0⟩
abbrev HOOP_RED_CFG.all : Fld := ⟨0x40180, 0, 31, 0⟩
abbrev HOOP_RED_CFG.PROOF_CELL : Fld := ⟨0x40180, 0, 23, 16⟩
abbrev HOOP_RED_CFG.PROOF_PERIOD : Fld := ⟨0x40180, 0, 15, 0⟩
abbrev HOOP_RED_ST.all : Fld := ⟨0x40184, 0, 31, 0⟩
abbrev HOOP_RED_ST.HB_Y_OK : Fld := ⟨0x40184, 0, 17, 17⟩
abbrev HOOP_RED_ST.HB_X_OK : Fld := ⟨0x40184, 0, 16, 16⟩
abbrev HOOP_RED_ST.PROOF_FAILS : Fld := ⟨0x40184, 0, 15, 8⟩
abbrev HOOP_RED_ST.FAILOVERS : Fld := ⟨0x40184, 0, 7, 0⟩
abbrev HOOP_EVT.all : Fld := ⟨0x40188, 0, 31, 0⟩
abbrev HOOP_EVT.PTP_STALE : Fld := ⟨0x40188, 0, 15, 15⟩
abbrev HOOP_EVT.CKPT_ERR : Fld := ⟨0x40188, 0, 14, 14⟩
abbrev HOOP_EVT.DIGEST_MISMATCH : Fld := ⟨0x40188, 0, 13, 13⟩
abbrev HOOP_EVT.EPOCH_HELD : Fld := ⟨0x40188, 0, 12, 12⟩
abbrev HOOP_EVT.EPOCH_REFUSED : Fld := ⟨0x40188, 0, 11, 11⟩
abbrev HOOP_EVT.EPOCH_ACT : Fld := ⟨0x40188, 0, 10, 10⟩
abbrev HOOP_EVT.GROUP_ERR : Fld := ⟨0x40188, 0, 9, 9⟩
abbrev HOOP_EVT.SLIP : Fld := ⟨0x40188, 0, 8, 8⟩
abbrev HOOP_EVT.LATE : Fld := ⟨0x40188, 0, 7, 7⟩
abbrev HOOP_EVT.STBY_FAILED : Fld := ⟨0x40188, 0, 6, 6⟩
abbrev HOOP_EVT.PROOF_FAIL : Fld := ⟨0x40188, 0, 5, 5⟩
abbrev HOOP_EVT.FAILOVER : Fld := ⟨0x40188, 0, 4, 4⟩
abbrev HOOP_EVT.HB_Y_MISS : Fld := ⟨0x40188, 0, 3, 3⟩
abbrev HOOP_EVT.HB_X_MISS : Fld := ⟨0x40188, 0, 2, 2⟩
abbrev HOOP_EVT.STEP : Fld := ⟨0x40188, 0, 1, 1⟩
abbrev HOOP_EVT.LOCK_CHG : Fld := ⟨0x40188, 0, 0, 0⟩
abbrev HOOP_IE.all : Fld := ⟨0x4018c, 0, 31, 0⟩
abbrev HOOP_LATE_CNT.all : Fld := ⟨0x40190, 0, 31, 0⟩
abbrev HOOP_SLIP_MAX.all : Fld := ⟨0x40194, 0, 31, 0⟩
abbrev RXA_CTL.all : Fld := ⟨0x80000, 0, 31, 0⟩
abbrev RXA_CTL.FLUSH : Fld := ⟨0x80000, 0, 4, 4⟩
abbrev RXA_CTL.EN : Fld := ⟨0x80000, 0, 0, 0⟩
abbrev RXA_STAT.all : Fld := ⟨0x80004, 0, 31, 0⟩
abbrev RXA_STAT.LINKS_UP : Fld := ⟨0x80004, 0, 15, 8⟩
abbrev RXA_STAT.SYSREF_SEEN : Fld := ⟨0x80004, 0, 2, 2⟩
abbrev RXA_STAT.DSP_HOLD : Fld := ⟨0x80004, 0, 1, 1⟩
abbrev RXA_STAT.REFCLK_OK : Fld := ⟨0x80004, 0, 0, 0⟩
abbrev RXA_EVT.all : Fld := ⟨0x80008, 0, 31, 0⟩
abbrev RXA_EVT.CEN_LOST : Fld := ⟨0x80008, 0, 13, 13⟩
abbrev RXA_EVT.LATE_SHIP : Fld := ⟨0x80008, 0, 12, 12⟩
abbrev RXA_EVT.WIN_OVF : Fld := ⟨0x80008, 0, 11, 11⟩
abbrev RXA_EVT.ARM_FULL : Fld := ⟨0x80008, 0, 10, 10⟩
abbrev RXA_EVT.NO_BUF : Fld := ⟨0x80008, 0, 9, 9⟩
abbrev RXA_EVT.DEC_OVR : Fld := ⟨0x80008, 0, 8, 8⟩
abbrev RXA_EVT.ITER_CUT : Fld := ⟨0x80008, 0, 7, 7⟩
abbrev RXA_EVT.POOL_DROP : Fld := ⟨0x80008, 0, 6, 6⟩
abbrev RXA_EVT.PREEMPT : Fld := ⟨0x80008, 0, 5, 5⟩
abbrev RXA_EVT.POOL_EMPTY : Fld := ⟨0x80008, 0, 4, 4⟩
abbrev RXA_EVT.FEED_ERR : Fld := ⟨0x80008, 0, 3, 3⟩
abbrev RXA_EVT.SYSREF_ERR : Fld := ⟨0x80008, 0, 2, 2⟩
abbrev RXA_EVT.LINK_UP : Fld := ⟨0x80008, 0, 1, 1⟩
abbrev RXA_EVT.LINK_DOWN : Fld := ⟨0x80008, 0, 0, 0⟩
abbrev RXA_IE.all : Fld := ⟨0x8000c, 0, 31, 0⟩
abbrev RXA_POOL_CFG.all : Fld := ⟨0x80010, 0, 31, 0⟩
abbrev RXA_POOL_CFG.LOC_WIN : Fld := ⟨0x80010, 0, 31, 20⟩
abbrev RXA_POOL_CFG.MAX_LPW : Fld := ⟨0x80010, 0, 19, 16⟩
abbrev RXA_POOL_CFG.JOIN_REPL : Fld := ⟨0x80010, 0, 15, 8⟩
abbrev RXA_POOL_CFG.CAP_THR : Fld := ⟨0x80010, 0, 7, 0⟩
abbrev RXA_POOL_ST.all : Fld := ⟨0x80014, 0, 31, 0⟩
abbrev RXA_POOL_ST.BUSY : Fld := ⟨0x80014, 0, 9, 0⟩
abbrev RXA_POOL_ST.PEAK : Fld := ⟨0x80014, 0, 25, 16⟩
abbrev RXA_DEC_CFG.all : Fld := ⟨0x80018, 0, 31, 0⟩
abbrev RXA_DEC_CFG.DQ_ALLOW : Fld := ⟨0x80018, 0, 31, 16⟩
abbrev RXA_DEC_CFG.ALPHA : Fld := ⟨0x80018, 0, 7, 5⟩
abbrev RXA_DEC_CFG.MAX_ITER : Fld := ⟨0x80018, 0, 4, 0⟩
abbrev RXA_CAS_CFG.all : Fld := ⟨0x8001c, 0, 31, 0⟩
abbrev RXA_CAS_CFG.CNP_WAIT : Fld := ⟨0x8001c, 0, 31, 16⟩
abbrev RXA_CAS_CFG.XC_WIN : Fld := ⟨0x8001c, 0, 15, 0⟩
abbrev RXA_AGC_CFG.all : Fld := ⟨0x80020, 0, 31, 0⟩
abbrev RXA_AGC_CFG.TARGET : Fld := ⟨0x80020, 0, 7, 0⟩
abbrev RXA_SYSREF_CFG.all : Fld := ⟨0x80024, 0, 31, 0⟩
abbrev RXA_SYSREF_CFG.SYSREF_EN : Fld := ⟨0x80024, 0, 0, 0⟩
abbrev RXA_SYSREF_CFG.CHECK : Fld := ⟨0x80024, 0, 1, 1⟩
abbrev RXA_WIN_ST.all : Fld := ⟨0x80028, 0, 31, 0⟩
abbrev RXA_WIN_ST.OPEN : Fld := ⟨0x80028, 0, 10, 0⟩
abbrev RXA_WIN_ST.REFUSED : Fld := ⟨0x80028, 0, 26, 16⟩
abbrev RXA_LANE_POL.all : Fld := ⟨0x8002c, 0, 31, 0⟩
abbrev RXA_LANE_POL.POL : Fld := ⟨0x8002c, 0, 23, 0⟩
abbrev RXA_CNT_DET.all : Fld := ⟨0x80040, 0, 31, 0⟩
abbrev RXA_CNT_JOIN.all : Fld := ⟨0x80044, 0, 31, 0⟩
abbrev RXA_CNT_LATEJOIN.all : Fld := ⟨0x80048, 0, 31, 0⟩
abbrev RXA_CNT_POOLDROP.all : Fld := ⟨0x8004c, 0, 31, 0⟩
abbrev RXA_CNT_PREEMPT.all : Fld := ⟨0x80050, 0, 31, 0⟩
abbrev RXA_CNT_SFDFAIL.all : Fld := ⟨0x80054, 0, 31, 0⟩
abbrev RXA_CNT_HDRFAIL.all : Fld := ⟨0x80058, 0, 31, 0⟩
abbrev RXA_CNT_CRCFAIL.all : Fld := ⟨0x8005c, 0, 31, 0⟩
abbrev RXA_CNT_OK.all : Fld := ⟨0x80060, 0, 31, 0⟩
abbrev RXA_CNT_ITERCUT.all : Fld := ⟨0x80064, 0, 31, 0⟩
abbrev RXA_CNT_DECOVR.all : Fld := ⟨0x80068, 0, 31, 0⟩
abbrev RXA_CNT_NOBUF.all : Fld := ⟨0x8006c, 0, 31, 0⟩
abbrev RXA_CNT_LATESHIP.all : Fld := ⟨0x80070, 0, 31, 0⟩
abbrev RXA_CEN_CTL.all : Fld := ⟨0x80080, 0, 31, 0⟩
abbrev RXA_CEN_CTL.CEN_EN : Fld := ⟨0x80080, 0, 0, 0⟩
abbrev RXA_CEN_DEPTH.all : Fld := ⟨0x80084, 0, 31, 0⟩
abbrev RXA_CEN_DEPTH.DEPTH : Fld := ⟨0x80084, 0, 16, 0⟩
abbrev RXA_CEN_BASE_LO.all : Fld := ⟨0x80088, 0, 31, 0⟩
abbrev RXA_CEN_BASE_LO.BASE : Fld := ⟨0x80088, 0, 31, 6⟩
abbrev RXA_CEN_BASE_HI.all : Fld := ⟨0x8008c, 0, 31, 0⟩
abbrev RXA_CEN_WR.all : Fld := ⟨0x80090, 0, 31, 0⟩
abbrev RXA_CEN_WR.WR : Fld := ⟨0x80090, 0, 16, 0⟩
abbrev RXA_LINK_CFG.all : Fld := ⟨0x80100, 16, 31, 0⟩
abbrev RXA_LINK_CFG.RBD : Fld := ⟨0x80100, 16, 15, 8⟩
abbrev RXA_LINK_CFG.RATE : Fld := ⟨0x80100, 16, 7, 6⟩
abbrev RXA_LINK_CFG.L_M1 : Fld := ⟨0x80100, 16, 3, 1⟩
abbrev RXA_LINK_CFG.EN : Fld := ⟨0x80100, 16, 0, 0⟩
abbrev RXA_LINK_LANES.all : Fld := ⟨0x80104, 16, 31, 0⟩
abbrev RXA_LINK_LANES.MASK : Fld := ⟨0x80104, 16, 23, 0⟩
abbrev RXA_LINK_ST.all : Fld := ⟨0x80108, 16, 31, 0⟩
abbrev RXA_LINK_ST.ALIGNED : Fld := ⟨0x80108, 16, 4, 4⟩
abbrev RXA_LINK_ST.EMB_LOCK : Fld := ⟨0x80108, 16, 3, 3⟩
abbrev RXA_LINK_ST.SH_LOCK : Fld := ⟨0x80108, 16, 2, 2⟩
abbrev RXA_LINK_ST.CFG_ERR : Fld := ⟨0x80108, 16, 1, 1⟩
abbrev RXA_LINK_ST.UP : Fld := ⟨0x80108, 16, 0, 0⟩
abbrev RXA_LINK_ERR.all : Fld := ⟨0x8010c, 16, 31, 0⟩
abbrev RXA_BAND.all : Fld := ⟨0x80200, 4, 31, 0⟩
abbrev RXA_BAND.BUSY_THR : Fld := ⟨0x80200, 4, 31, 16⟩
abbrev RXA_BAND.CEN_SF : Fld := ⟨0x80200, 4, 14, 12⟩
abbrev RXA_BAND.DET_SYMS : Fld := ⟨0x80200, 4, 10, 8⟩
abbrev RXA_BAND.DET_THR : Fld := ⟨0x80200, 4, 7, 0⟩
abbrev RXA_FEED.all : Fld := ⟨0x80400, 8, 31, 0⟩
abbrev RXA_FEED.ERR : Fld := ⟨0x80400, 8, 31, 31⟩
abbrev RXA_FEED.CONV : Fld := ⟨0x80400, 8, 22, 20⟩
abbrev RXA_FEED.LINK : Fld := ⟨0x80400, 8, 18, 16⟩
abbrev RXA_FEED.BASE : Fld := ⟨0x80400, 8, 13, 8⟩
abbrev RXA_FEED.BAND : Fld := ⟨0x80400, 8, 3, 1⟩
abbrev RXA_FEED.EN : Fld := ⟨0x80400, 8, 0, 0⟩
abbrev RXA_FEED_NCO.all : Fld := ⟨0x80404, 8, 31, 0⟩
abbrev RXA_PORT_DLY.all : Fld := ⟨0x80800, 16, 31, 0⟩
abbrev RXA_PORT_DLY.DLY : Fld := ⟨0x80800, 16, 23, 0⟩
abbrev RXA_PORT_GAIN.all : Fld := ⟨0x80804, 16, 31, 0⟩
abbrev RXA_PORT_GAIN.GAIN : Fld := ⟨0x80804, 16, 15, 0⟩
abbrev TXC_CTL.all : Fld := ⟨0x100000, 0, 31, 0⟩
abbrev TXC_CTL.DWELL_LOCK : Fld := ⟨0x100000, 0, 2, 2⟩
abbrev TXC_CTL.FLUSH : Fld := ⟨0x100000, 0, 1, 1⟩
abbrev TXC_CTL.EN : Fld := ⟨0x100000, 0, 0, 0⟩
abbrev TXC_STAT.all : Fld := ⟨0x100004, 0, 31, 0⟩
abbrev TXC_STAT.STOPPED : Fld := ⟨0x100004, 0, 23, 16⟩
abbrev TXC_STAT.LINKS : Fld := ⟨0x100004, 0, 15, 8⟩
abbrev TXC_STAT.PA : Fld := ⟨0x100004, 0, 7, 0⟩
abbrev TXC_EVT.all : Fld := ⟨0x100008, 0, 31, 0⟩
abbrev TXC_EVT.PWR_CLAMP : Fld := ⟨0x100008, 0, 9, 9⟩
abbrev TXC_EVT.WR_IGN : Fld := ⟨0x100008, 0, 8, 8⟩
abbrev TXC_EVT.LOCK_KEPT : Fld := ⟨0x100008, 0, 7, 7⟩
abbrev TXC_EVT.LINK_UP : Fld := ⟨0x100008, 0, 6, 6⟩
abbrev TXC_EVT.LINK_DOWN : Fld := ⟨0x100008, 0, 5, 5⟩
abbrev TXC_EVT.CLIP : Fld := ⟨0x100008, 0, 4, 4⟩
abbrev TXC_EVT.DUTY : Fld := ⟨0x100008, 0, 3, 3⟩
abbrev TXC_EVT.SUPPRESSED : Fld := ⟨0x100008, 0, 2, 2⟩
abbrev TXC_EVT.CLEARED : Fld := ⟨0x100008, 0, 1, 1⟩
abbrev TXC_EVT.REFUSED : Fld := ⟨0x100008, 0, 0, 0⟩
abbrev TXC_IE.all : Fld := ⟨0x10000c, 0, 31, 0⟩
abbrev TXC_BLK_MARG.all : Fld := ⟨0x100010, 0, 31, 0⟩
abbrev TXC_BLK_MARG.POST : Fld := ⟨0x100010, 0, 31, 16⟩
abbrev TXC_BLK_MARG.PRE : Fld := ⟨0x100010, 0, 15, 0⟩
abbrev TXC_ARM_ST.all : Fld := ⟨0x100014, 0, 31, 0⟩
abbrev TXC_ARM_ST.ARMED : Fld := ⟨0x100014, 0, 8, 0⟩
abbrev TXC_ARM_ST.REFUSED : Fld := ⟨0x100014, 0, 31, 16⟩
abbrev TXC_CNT_SENT.all : Fld := ⟨0x100040, 0, 31, 0⟩
abbrev TXC_CNT_REFUSED.all : Fld := ⟨0x100044, 0, 31, 0⟩
abbrev TXC_CNT_DUTY.all : Fld := ⟨0x100048, 0, 31, 0⟩
abbrev TXC_CNT_CLEARED.all : Fld := ⟨0x10004c, 0, 31, 0⟩
abbrev TXC_CNT_SUPPR.all : Fld := ⟨0x100050, 0, 31, 0⟩
abbrev TXC_CNT_CLIP.all : Fld := ⟨0x100054, 0, 31, 0⟩
abbrev TXC_PORT_CFG.all : Fld := ⟨0x100100, 32, 31, 0⟩
abbrev TXC_PORT_CFG.ERR : Fld := ⟨0x100100, 32, 31, 31⟩
abbrev TXC_PORT_CFG.POL : Fld := ⟨0x100100, 32, 11, 11⟩
abbrev TXC_PORT_CFG.RATE : Fld := ⟨0x100100, 32, 10, 9⟩
abbrev TXC_PORT_CFG.BAND : Fld := ⟨0x100100, 32, 6, 4⟩
abbrev TXC_PORT_CFG.EN : Fld := ⟨0x100100, 32, 0, 0⟩
abbrev TXC_PORT_NCO.all : Fld := ⟨0x100104, 32, 31, 0⟩
abbrev TXC_PORT_DLY.all : Fld := ⟨0x100108, 32, 31, 0⟩
abbrev TXC_PORT_DLY.DLY : Fld := ⟨0x100108, 32, 23, 0⟩
abbrev TXC_PORT_PA.all : Fld := ⟨0x10010c, 32, 31, 0⟩
abbrev TXC_PORT_PA.LAG : Fld := ⟨0x10010c, 32, 31, 16⟩
abbrev TXC_PORT_PA.LEAD : Fld := ⟨0x10010c, 32, 15, 0⟩
abbrev TXC_PORT_TRSW.all : Fld := ⟨0x100110, 32, 31, 0⟩
abbrev TXC_PORT_TRSW.LAG : Fld := ⟨0x100110, 32, 31, 16⟩
abbrev TXC_PORT_TRSW.LEAD : Fld := ⟨0x100110, 32, 15, 0⟩
abbrev TXC_BLANK.all : Fld := ⟨0x100114, 32, 31, 0⟩
abbrev TXC_PORT_ST.all : Fld := ⟨0x100118, 32, 31, 0⟩
abbrev TXC_PORT_ST.ALIGNED : Fld := ⟨0x100118, 32, 2, 2⟩
abbrev TXC_PORT_ST.LINK_UP : Fld := ⟨0x100118, 32, 1, 1⟩
abbrev TXC_PORT_ST.ACTIVE : Fld := ⟨0x100118, 32, 0, 0⟩
abbrev TXC_REGION_PEND.all : Fld := ⟨0x101000, 4, 31, 0⟩
abbrev TXC_REGION_ACT.all : Fld := ⟨0x101100, 4, 31, 0⟩
abbrev TXC_DWELL_PEND.all : Fld := ⟨0x102000, 4, 31, 0⟩
abbrev TXC_DWELL_ACT.all : Fld := ⟨0x102800, 4, 31, 0⟩
abbrev TXC_USED.all : Fld := ⟨0x103000, 4, 31, 0⟩
abbrev TXC_USED.SUM : Fld := ⟨0x103000, 4, 27, 0⟩
abbrev CLR_CTL.all : Fld := ⟨0x108000, 0, 31, 0⟩
abbrev CLR_CTL.MIN_HOLD : Fld := ⟨0x108000, 0, 31, 16⟩
abbrev CLR_CTL.PORTMASK : Fld := ⟨0x108000, 0, 15, 8⟩
abbrev CLR_CTL.FAIL_STOP : Fld := ⟨0x108000, 0, 4, 4⟩
abbrev CLR_CTL.TEST_LOG2 : Fld := ⟨0x108000, 0, 3, 0⟩
abbrev CLR_STAT.all : Fld := ⟨0x108004, 0, 31, 0⟩
abbrev CLR_STAT.PA_RB : Fld := ⟨0x108004, 0, 23, 16⟩
abbrev CLR_STAT.ACK : Fld := ⟨0x108004, 0, 2, 2⟩
abbrev CLR_STAT.ACTIVE : Fld := ⟨0x108004, 0, 1, 1⟩
abbrev CLR_STAT.REQ : Fld := ⟨0x108004, 0, 0, 0⟩
abbrev CLR_EVT.all : Fld := ⟨0x108008, 0, 31, 0⟩
abbrev CLR_EVT.ACK_FAULT : Fld := ⟨0x108008, 0, 4, 4⟩
abbrev CLR_EVT.TEST_FAIL_SMP : Fld := ⟨0x108008, 0, 3, 3⟩
abbrev CLR_EVT.TEST_FAIL_PA : Fld := ⟨0x108008, 0, 2, 2⟩
abbrev CLR_EVT.CLR_END : Fld := ⟨0x108008, 0, 1, 1⟩
abbrev CLR_EVT.CLR_START : Fld := ⟨0x108008, 0, 0, 0⟩
abbrev CLR_IE.all : Fld := ⟨0x10800c, 0, 31, 0⟩
abbrev CLR_CNT.all : Fld := ⟨0x108010, 0, 31, 0⟩
abbrev CLR_TEST_ST.all : Fld := ⟨0x108014, 0, 31, 0⟩
abbrev CLR_TEST_ST.SMP_FAIL : Fld := ⟨0x108014, 0, 31, 24⟩
abbrev CLR_TEST_ST.PA_FAIL : Fld := ⟨0x108014, 0, 23, 16⟩
abbrev CLR_TEST_ST.SKIPPED : Fld := ⟨0x108014, 0, 15, 0⟩
abbrev CLR_LAST_LO.all : Fld := ⟨0x108018, 0, 31, 0⟩
abbrev CLR_LAST_HI.all : Fld := ⟨0x10801c, 0, 31, 0⟩
abbrev CLR_TIME.all : Fld := ⟨0x108020, 0, 31, 0⟩
abbrev MAS_CTL.all : Fld := ⟨0x140000, 0, 31, 0⟩
abbrev MAS_CTL.SEEN_FLUSH : Fld := ⟨0x140000, 0, 1, 1⟩
abbrev MAS_CTL.BCN_EN : Fld := ⟨0x140000, 0, 0, 0⟩
abbrev MAS_BCN_CTL.all : Fld := ⟨0x140004, 0, 31, 0⟩
abbrev MAS_BCN_CTL.SEQ_OFS : Fld := ⟨0x140004, 0, 15, 12⟩
abbrev MAS_BCN_CTL.SEQ_OFS_PEND : Fld := ⟨0x140004, 0, 11, 8⟩
abbrev MAS_BCN_CTL.BKSLOT : Fld := ⟨0x140004, 0, 5, 0⟩
abbrev MAS_DOMAIN_ID.all : Fld := ⟨0x140008, 0, 31, 0⟩
abbrev MAS_EVT.all : Fld := ⟨0x14000c, 0, 31, 0⟩
abbrev MAS_EVT.SEQ_OFS_CHG : Fld := ⟨0x14000c, 0, 7, 7⟩
abbrev MAS_EVT.SYNC_STEP : Fld := ⟨0x14000c, 0, 6, 6⟩
abbrev MAS_EVT.SEEN_EVICT : Fld := ⟨0x14000c, 0, 5, 5⟩
abbrev MAS_EVT.ANN_DONE : Fld := ⟨0x14000c, 0, 4, 4⟩
abbrev MAS_EVT.BCN_CLEARED : Fld := ⟨0x14000c, 0, 3, 3⟩
abbrev MAS_EVT.BCN_KEY_FAIL : Fld := ⟨0x14000c, 0, 2, 2⟩
abbrev MAS_EVT.BCN_WITHHELD : Fld := ⟨0x14000c, 0, 1, 1⟩
abbrev MAS_EVT.BCN_REFUSED : Fld := ⟨0x14000c, 0, 0, 0⟩
abbrev MAS_IE.all : Fld := ⟨0x140010, 0, 31, 0⟩
abbrev MAS_BCN_ST.all : Fld := ⟨0x140014, 0, 31, 0⟩
abbrev MAS_BCN_ST.TXSTAT : Fld := ⟨0x140014, 0, 15, 8⟩
abbrev MAS_BCN_ST.RESULT : Fld := ⟨0x140014, 0, 7, 0⟩
abbrev MAS_SYNC_BASE.all : Fld := ⟨0x140018, 0, 31, 0⟩
abbrev MAS_SEEN_CFG.all : Fld := ⟨0x140020, 0, 31, 0⟩
abbrev MAS_SEEN_CFG.LIFETIME : Fld := ⟨0x140020, 0, 15, 0⟩
abbrev MAS_SEEN_ST.all : Fld := ⟨0x140024, 0, 31, 0⟩
abbrev MAS_SEEN_ST.VALID : Fld := ⟨0x140024, 0, 16, 0⟩
abbrev MAS_CNT_SEEN_HIT.all : Fld := ⟨0x140030, 0, 31, 0⟩
abbrev MAS_CNT_SEEN_MISS.all : Fld := ⟨0x140034, 0, 31, 0⟩
abbrev MAS_CNT_SEEN_EVICT.all : Fld := ⟨0x140038, 0, 31, 0⟩
abbrev MAS_CNT_BCN_SENT.all : Fld := ⟨0x140040, 0, 31, 0⟩
abbrev MAS_CNT_BCN_LOST.all : Fld := ⟨0x140044, 0, 31, 0⟩
abbrev MAS_BCN_BAND.all : Fld := ⟨0x140100, 8, 31, 0⟩
abbrev MAS_BCN_BAND.TX_PORTS : Fld := ⟨0x140100, 8, 31, 24⟩
abbrev MAS_BCN_BAND.ATTEN : Fld := ⟨0x140100, 8, 23, 16⟩
abbrev MAS_BCN_BAND.SF_CODE : Fld := ⟨0x140100, 8, 2, 0⟩
abbrev MAS_BCN_CH.all : Fld := ⟨0x140104, 8, 31, 0⟩
abbrev MAS_BCN_CH.EN1 : Fld := ⟨0x140104, 8, 15, 15⟩
abbrev MAS_BCN_CH.CH1 : Fld := ⟨0x140104, 8, 13, 8⟩
abbrev MAS_BCN_CH.EN0 : Fld := ⟨0x140104, 8, 7, 7⟩
abbrev MAS_BCN_CH.CH0 : Fld := ⟨0x140104, 8, 5, 0⟩
abbrev MAS_ANN_CTL.all : Fld := ⟨0x140200, 16, 31, 0⟩
abbrev MAS_ANN_CTL.EN : Fld := ⟨0x140200, 16, 31, 31⟩
abbrev MAS_ANN_CTL.REPEAT : Fld := ⟨0x140200, 16, 23, 8⟩
abbrev MAS_ANN_CTL.KIND : Fld := ⟨0x140200, 16, 7, 0⟩
abbrev MAS_ANN_D0.all : Fld := ⟨0x140204, 16, 31, 0⟩
abbrev MAS_ANN_D1.all : Fld := ⟨0x140208, 16, 31, 0⟩
abbrev MAS_ANN_D1.D : Fld := ⟨0x140208, 16, 23, 0⟩
abbrev WFT_CTL.all : Fld := ⟨0x200000, 65536, 31, 0⟩
abbrev WFT_CTL.FAULT_STOP : Fld := ⟨0x200000, 65536, 8, 8⟩
abbrev WFT_CTL.STRAND_EN : Fld := ⟨0x200000, 65536, 3, 0⟩
abbrev WFT_STAT.all : Fld := ⟨0x200004, 65536, 31, 0⟩
abbrev WFT_STAT.RETIRING : Fld := ⟨0x200004, 65536, 20, 20⟩
abbrev WFT_STAT.QUEUE : Fld := ⟨0x200004, 65536, 19, 16⟩
abbrev WFT_STAT.STOPPED : Fld := ⟨0x200004, 65536, 11, 8⟩
abbrev WFT_STAT.HOVR : Fld := ⟨0x200004, 65536, 7, 4⟩
abbrev WFT_STAT.BUSY : Fld := ⟨0x200004, 65536, 3, 0⟩
abbrev WFT_EVT.all : Fld := ⟨0x200008, 65536, 31, 0⟩
abbrev WFT_EVT.HANDOVER_DONE : Fld := ⟨0x200008, 65536, 9, 9⟩
abbrev WFT_EVT.SIG : Fld := ⟨0x200008, 65536, 8, 8⟩
abbrev WFT_EVT.WR_IGN : Fld := ⟨0x200008, 65536, 2, 2⟩
abbrev WFT_EVT.OVERRUN : Fld := ⟨0x200008, 65536, 1, 1⟩
abbrev WFT_EVT.FAULT : Fld := ⟨0x200008, 65536, 0, 0⟩
abbrev WFT_IE.all : Fld := ⟨0x20000c, 65536, 31, 0⟩
abbrev WFT_DB.all : Fld := ⟨0x200010, 65536, 31, 0⟩
abbrev WFT_DB.DB : Fld := ⟨0x200010, 65536, 3, 0⟩
abbrev WFT_WDOG.all : Fld := ⟨0x200014, 65536, 31, 0⟩
abbrev WFT_WDOG.WDOG : Fld := ⟨0x200014, 65536, 15, 0⟩
abbrev WFT_FAULT.all : Fld := ⟨0x200018, 65536, 31, 0⟩
abbrev WFT_FAULT.VALID : Fld := ⟨0x200018, 65536, 31, 31⟩
abbrev WFT_FAULT.STRAND : Fld := ⟨0x200018, 65536, 30, 29⟩
abbrev WFT_FAULT.CODE : Fld := ⟨0x200018, 65536, 28, 24⟩
abbrev WFT_FAULT.BANK : Fld := ⟨0x200018, 65536, 13, 13⟩
abbrev WFT_FAULT.PC : Fld := ⟨0x200018, 65536, 12, 0⟩
abbrev WFT_OVR.all : Fld := ⟨0x20001c, 65536, 31, 0⟩
abbrev WFT_OVR.VALID : Fld := ⟨0x20001c, 65536, 31, 31⟩
abbrev WFT_OVR.INDEX : Fld := ⟨0x20001c, 65536, 16, 0⟩
abbrev WFT_CNT_WEAVE.all : Fld := ⟨0x200040, 65536, 31, 0⟩
abbrev WFT_CNT_QUEUED.all : Fld := ⟨0x200044, 65536, 31, 0⟩
abbrev WFT_CNT_OVR.all : Fld := ⟨0x200048, 65536, 31, 0⟩
abbrev WFT_CNT_STALL.all : Fld := ⟨0x20004c, 65536, 31, 0⟩
abbrev WFT_CNT_FAULT.all : Fld := ⟨0x200050, 65536, 31, 0⟩
abbrev WFT_CNT_ORPHAN.all : Fld := ⟨0x200054, 65536, 31, 0⟩
abbrev WFT_QDLY_MAX.all : Fld := ⟨0x200058, 65536, 31, 0⟩
abbrev WFT_QDLY_MAX.DLY : Fld := ⟨0x200058, 65536, 15, 0⟩
abbrev WFT_IADDR.all : Fld := ⟨0x200100, 65536, 31, 0⟩
abbrev WFT_IADDR.BANK_SEL : Fld := ⟨0x200100, 65536, 31, 31⟩
abbrev WFT_IADDR.AUTO_INC : Fld := ⟨0x200100, 65536, 30, 30⟩
abbrev WFT_IADDR.INDEX : Fld := ⟨0x200100, 65536, 12, 0⟩
abbrev WFT_IDATA_LO.all : Fld := ⟨0x200104, 65536, 31, 0⟩
abbrev WFT_IDATA_HI.all : Fld := ⟨0x200108, 65536, 31, 0⟩
abbrev WFT_DADDR.all : Fld := ⟨0x200110, 65536, 31, 0⟩
abbrev WFT_DADDR.AUTO_INC : Fld := ⟨0x200110, 65536, 31, 31⟩
abbrev WFT_DADDR.ADDR : Fld := ⟨0x200110, 65536, 15, 2⟩
abbrev WFT_DDATA.all : Fld := ⟨0x200114, 65536, 31, 0⟩
abbrev WFT_SWAP_EN.all : Fld := ⟨0x200800, 0, 31, 0⟩
abbrev WFT_TBL_ADDR.all : Fld := ⟨0x200804, 0, 31, 0⟩
abbrev WFT_TBL_ADDR.AUTO_INC : Fld := ⟨0x200804, 0, 31, 31⟩
abbrev WFT_TBL_ADDR.INDEX : Fld := ⟨0x200804, 0, 18, 0⟩
abbrev WFT_TBL_DATA_LO.all : Fld := ⟨0x200808, 0, 31, 0⟩
abbrev WFT_TBL_DATA_HI.all : Fld := ⟨0x20080c, 0, 31, 0⟩
abbrev GRV_CTL.all : Fld := ⟨0x400000, 0, 31, 0⟩
abbrev GRV_CTL.HRD_CLEAR : Fld := ⟨0x400000, 0, 12, 12⟩
abbrev GRV_CTL.FLUSH : Fld := ⟨0x400000, 0, 11, 11⟩
abbrev GRV_CTL.RECHK : Fld := ⟨0x400000, 0, 10, 10⟩
abbrev GRV_CTL.INIT : Fld := ⟨0x400000, 0, 9, 9⟩
abbrev GRV_CTL.SWEEP_EN : Fld := ⟨0x400000, 0, 5, 5⟩
abbrev GRV_CTL.HRD_REPL : Fld := ⟨0x400000, 0, 4, 4⟩
abbrev GRV_CTL.HRD_EN : Fld := ⟨0x400000, 0, 3, 3⟩
abbrev GRV_CTL.REPL : Fld := ⟨0x400000, 0, 1, 1⟩
abbrev GRV_CTL.EN : Fld := ⟨0x400000, 0, 0, 0⟩
abbrev GRV_STAT.all : Fld := ⟨0x400004, 0, 31, 0⟩
abbrev GRV_STAT.SWEEP_RUN : Fld := ⟨0x400004, 0, 3, 3⟩
abbrev GRV_STAT.DRAINING : Fld := ⟨0x400004, 0, 2, 2⟩
abbrev GRV_STAT.REPLAYING : Fld := ⟨0x400004, 0, 1, 1⟩
abbrev GRV_STAT.READY : Fld := ⟨0x400004, 0, 0, 0⟩
abbrev GRV_EVT.all : Fld := ⟨0x400008, 0, 31, 0⟩
abbrev GRV_EVT.WR_IGN : Fld := ⟨0x400008, 0, 8, 8⟩
abbrev GRV_EVT.JRNL_DROP : Fld := ⟨0x400008, 0, 7, 7⟩
abbrev GRV_EVT.REPLAYED : Fld := ⟨0x400008, 0, 6, 6⟩
abbrev GRV_EVT.HA_DONE : Fld := ⟨0x400008, 0, 5, 5⟩
abbrev GRV_EVT.HRD_EVICT : Fld := ⟨0x400008, 0, 4, 4⟩
abbrev GRV_EVT.SILENT : Fld := ⟨0x400008, 0, 3, 3⟩
abbrev GRV_EVT.BUSY : Fld := ⟨0x400008, 0, 2, 2⟩
abbrev GRV_EVT.SET_FULL : Fld := ⟨0x400008, 0, 1, 1⟩
abbrev GRV_EVT.POISON : Fld := ⟨0x400008, 0, 0, 0⟩
abbrev GRV_IE.all : Fld := ⟨0x40000c, 0, 31, 0⟩
abbrev GRV_DIR_BASE.all : Fld := ⟨0x400010, 0, 31, 0⟩
abbrev GRV_MAP_BASE_LO.all : Fld := ⟨0x400014, 0, 31, 0⟩
abbrev GRV_MAP_BASE_LO.BASE : Fld := ⟨0x400014, 0, 31, 22⟩
abbrev GRV_MAP_BASE_HI.all : Fld := ⟨0x400018, 0, 31, 0⟩
abbrev GRV_JRNL_BASE_LO.all : Fld := ⟨0x40001c, 0, 31, 0⟩
abbrev GRV_JRNL_BASE_LO.BASE : Fld := ⟨0x40001c, 0, 31, 18⟩
abbrev GRV_JRNL_BASE_HI.all : Fld := ⟨0x400020, 0, 31, 0⟩
abbrev GRV_USED.all : Fld := ⟨0x400030, 0, 31, 0⟩
abbrev GRV_USED.USED : Fld := ⟨0x400030, 0, 25, 0⟩
abbrev GRV_LOCKS.all : Fld := ⟨0x400034, 0, 31, 0⟩
abbrev GRV_LOCKS.LOCKS : Fld := ⟨0x400034, 0, 9, 0⟩
abbrev GRV_SWEEP_CFG.all : Fld := ⟨0x400038, 0, 31, 0⟩
abbrev GRV_SWEEP_CFG.SILENT_N : Fld := ⟨0x400038, 0, 31, 24⟩
abbrev GRV_SWEEP_CFG.PERIOD : Fld := ⟨0x400038, 0, 15, 0⟩
abbrev GRV_RL_CFG.all : Fld := ⟨0x40003c, 0, 31, 0⟩
abbrev GRV_RL_CFG.AGE : Fld := ⟨0x40003c, 0, 31, 16⟩
abbrev GRV_RL_CFG.HYST : Fld := ⟨0x40003c, 0, 15, 8⟩
abbrev GRV_RL_CFG.RL_EN : Fld := ⟨0x40003c, 0, 7, 7⟩
abbrev GRV_RL_CFG.RLQ : Fld := ⟨0x40003c, 0, 6, 0⟩
abbrev GRV_HA_CMD.all : Fld := ⟨0x400040, 0, 31, 0⟩
abbrev GRV_HA_CMD.OP : Fld := ⟨0x400040, 0, 2, 0⟩
abbrev GRV_HA_IDX.all : Fld := ⟨0x400044, 0, 31, 0⟩
abbrev GRV_HA_IDX.IDX : Fld := ⟨0x400044, 0, 24, 0⟩
abbrev GRV_HA_ST.all : Fld := ⟨0x400048, 0, 31, 0⟩
abbrev GRV_HA_ST.BUSY : Fld := ⟨0x400048, 0, 31, 31⟩
abbrev GRV_HA_ST.STATUS : Fld := ⟨0x400048, 0, 7, 0⟩
abbrev GRV_HA_DATA.all : Fld := ⟨0x400080, 4, 31, 0⟩
abbrev GRV_HRD_IDX.all : Fld := ⟨0x400100, 0, 31, 0⟩
abbrev GRV_HRD_IDX.IDX : Fld := ⟨0x400100, 0, 15, 0⟩
abbrev GRV_HRD_KEY.all : Fld := ⟨0x400104, 0, 31, 0⟩
abbrev GRV_HRD_KEY.KEY : Fld := ⟨0x400104, 0, 27, 0⟩
abbrev GRV_HRD_ST.all : Fld := ⟨0x400108, 0, 31, 0⟩
abbrev GRV_HRD_ST.FOUND : Fld := ⟨0x400108, 0, 31, 31⟩
abbrev GRV_HRD_ST.IDX : Fld := ⟨0x400108, 0, 15, 0⟩
abbrev GRV_HRD_DATA.all : Fld := ⟨0x400120, 4, 31, 0⟩
abbrev GRV_CNT_HIT.all : Fld := ⟨0x400200, 0, 31, 0⟩
abbrev GRV_CNT_MISS.all : Fld := ⟨0x400204, 0, 31, 0⟩
abbrev GRV_CNT_SETFULL.all : Fld := ⟨0x400208, 0, 31, 0⟩
abbrev GRV_CNT_BUSY.all : Fld := ⟨0x40020c, 0, 31, 0⟩
abbrev GRV_CNT_LOCKFAIL.all : Fld := ⟨0x400210, 0, 31, 0⟩
abbrev GRV_CNT_WB.all : Fld := ⟨0x400214, 0, 31, 0⟩
abbrev GRV_CNT_POISON.all : Fld := ⟨0x400218, 0, 31, 0⟩
abbrev GRV_CNT_SILENT.all : Fld := ⟨0x40021c, 0, 31, 0⟩
abbrev GRV_CNT_HRD_INS.all : Fld := ⟨0x400220, 0, 31, 0⟩
abbrev GRV_CNT_HRD_EVICT.all : Fld := ⟨0x400224, 0, 31, 0⟩
abbrev GRV_CNT_HRD_SKIP.all : Fld := ⟨0x400228, 0, 31, 0⟩
abbrev HWD_STATE.all : Fld := ⟨0x480000, 0, 31, 0⟩
abbrev HWD_STATE.CAUSE : Fld := ⟨0x480000, 0, 23, 16⟩
abbrev HWD_STATE.LATCH : Fld := ⟨0x480000, 0, 7, 7⟩
abbrev HWD_STATE.ROOT_OFF : Fld := ⟨0x480000, 0, 6, 6⟩
abbrev HWD_STATE.ST : Fld := ⟨0x480000, 0, 2, 0⟩
abbrev HWD_EVT.all : Fld := ⟨0x480004, 0, 31, 0⟩
abbrev HWD_EVT.WR_IGN : Fld := ⟨0x480004, 0, 7, 7⟩
abbrev HWD_EVT.UNWRAP_BUSY : Fld := ⟨0x480004, 0, 6, 6⟩
abbrev HWD_EVT.AUTH_FAIL : Fld := ⟨0x480004, 0, 5, 5⟩
abbrev HWD_EVT.SWAP_DROP : Fld := ⟨0x480004, 0, 4, 4⟩
abbrev HWD_EVT.SWAP : Fld := ⟨0x480004, 0, 3, 3⟩
abbrev HWD_EVT.ALARM_END : Fld := ⟨0x480004, 0, 2, 2⟩
abbrev HWD_EVT.CLASS2 : Fld := ⟨0x480004, 0, 1, 1⟩
abbrev HWD_EVT.CLASS1 : Fld := ⟨0x480004, 0, 0, 0⟩
abbrev HWD_IE.all : Fld := ⟨0x480008, 0, 31, 0⟩
abbrev HWD_WRAP_CFG.all : Fld := ⟨0x48000c, 0, 31, 0⟩
abbrev HWD_WRAP_CFG.W1_VALID : Fld := ⟨0x48000c, 0, 15, 15⟩
abbrev HWD_WRAP_CFG.WRAP_SLOT_1 : Fld := ⟨0x48000c, 0, 13, 8⟩
abbrev HWD_WRAP_CFG.W0_VALID : Fld := ⟨0x48000c, 0, 7, 7⟩
abbrev HWD_WRAP_CFG.WRAP_SLOT_0 : Fld := ⟨0x48000c, 0, 5, 0⟩
abbrev HWD_CREDIT.all : Fld := ⟨0x480010, 0, 31, 0⟩
abbrev HWD_CREDIT.CREDIT : Fld := ⟨0x480010, 0, 6, 0⟩
abbrev HWD_CACHE_ST.all : Fld := ⟨0x480014, 0, 31, 0⟩
abbrev HWD_CACHE_ST.VALID : Fld := ⟨0x480014, 0, 15, 0⟩
abbrev HWD_TIN_CFG.all : Fld := ⟨0x480018, 0, 31, 0⟩
abbrev HWD_TIN_CFG.LOCK : Fld := ⟨0x480018, 0, 31, 31⟩
abbrev HWD_TIN_CFG.TIN_FILT : Fld := ⟨0x480018, 0, 15, 8⟩
abbrev HWD_TIN_CFG.EN1 : Fld := ⟨0x480018, 0, 3, 3⟩
abbrev HWD_TIN_CFG.POL1 : Fld := ⟨0x480018, 0, 2, 2⟩
abbrev HWD_TIN_CFG.EN0 : Fld := ⟨0x480018, 0, 1, 1⟩
abbrev HWD_TIN_CFG.POL0 : Fld := ⟨0x480018, 0, 0, 0⟩
abbrev HWD_CNT_HIT.all : Fld := ⟨0x480040, 0, 31, 0⟩
abbrev HWD_CNT_UNWRAP.all : Fld := ⟨0x480044, 0, 31, 0⟩
abbrev HWD_CNT_AUTHFAIL.all : Fld := ⟨0x480048, 0, 31, 0⟩
abbrev HWD_CNT_BUSY.all : Fld := ⟨0x48004c, 0, 31, 0⟩
abbrev HWD_CNT_CIPHER.all : Fld := ⟨0x480050, 0, 31, 0⟩
abbrev HWD_CNT_MICFAIL.all : Fld := ⟨0x480054, 0, 31, 0⟩
abbrev HWD_CNT_CLASS1.all : Fld := ⟨0x480058, 0, 31, 0⟩
abbrev HWD_SLOT.all : Fld := ⟨0x480100, 16, 31, 0⟩
abbrev HWD_SLOT.ACT_MASK : Fld := ⟨0x480100, 16, 31, 24⟩
abbrev HWD_SLOT.ACT_TYPE : Fld := ⟨0x480100, 16, 18, 16⟩
abbrev HWD_SLOT.PEND_MASK : Fld := ⟨0x480100, 16, 15, 8⟩
abbrev HWD_SLOT.AT_MODE : Fld := ⟨0x480100, 16, 6, 5⟩
abbrev HWD_SLOT.PEND_TYPE : Fld := ⟨0x480100, 16, 4, 2⟩
abbrev HWD_SLOT.PEND_ST : Fld := ⟨0x480100, 16, 1, 0⟩
abbrev HWD_SLOT_GEN.all : Fld := ⟨0x480104, 16, 31, 0⟩
abbrev HWD_SLOT_PGEN.all : Fld := ⟨0x480108, 16, 31, 0⟩
abbrev HWD_SLOT_AT.all : Fld := ⟨0x48010c, 16, 31, 0⟩
abbrev HWD_MREG.all : Fld := ⟨0x480800, 4, 31, 0⟩
abbrev PLQ_FC_CTL.all : Fld := ⟨0x500000, 0, 31, 0⟩
abbrev PLQ_FC_CTL.FCI_POL : Fld := ⟨0x500000, 0, 23, 16⟩
abbrev PLQ_FC_CTL.FCO_POL : Fld := ⟨0x500000, 0, 15, 0⟩
abbrev PLQ_EVT.all : Fld := ⟨0x500004, 0, 31, 0⟩
abbrev PLQ_EVT.CFG : Fld := ⟨0x500004, 0, 3, 3⟩
abbrev PLQ_EVT.POISON : Fld := ⟨0x500004, 0, 2, 2⟩
abbrev PLQ_EVT.WM_CHG : Fld := ⟨0x500004, 0, 1, 1⟩
abbrev PLQ_EVT.PTR_RESET : Fld := ⟨0x500004, 0, 0, 0⟩
abbrev PLQ_IE.all : Fld := ⟨0x500008, 0, 31, 0⟩
abbrev PLQ_RST_LAST.all : Fld := ⟨0x50000c, 0, 31, 0⟩
abbrev PLQ_RST_LAST.VALID : Fld := ⟨0x50000c, 0, 31, 31⟩
abbrev PLQ_RST_LAST.PTR : Fld := ⟨0x50000c, 0, 8, 8⟩
abbrev PLQ_RST_LAST.QUEUE : Fld := ⟨0x50000c, 0, 7, 0⟩
abbrev PLQ_FC_ST.all : Fld := ⟨0x500010, 0, 31, 0⟩
abbrev PLQ_FC_ST.FCI : Fld := ⟨0x500010, 0, 23, 16⟩
abbrev PLQ_FC_ST.FCO : Fld := ⟨0x500010, 0, 15, 0⟩
abbrev PLQ_CNT_PUSH.all : Fld := ⟨0x500020, 0, 31, 0⟩
abbrev PLQ_CNT_POP.all : Fld := ⟨0x500024, 0, 31, 0⟩
abbrev PLQ_CNT_FULL.all : Fld := ⟨0x500028, 0, 31, 0⟩
abbrev PLQ_CNT_RESET.all : Fld := ⟨0x50002c, 0, 31, 0⟩
abbrev PLQ_WM_ST.all : Fld := ⟨0x500100, 4, 31, 0⟩
abbrev PLQ_PAUSE_ST.all : Fld := ⟨0x500120, 4, 31, 0⟩
abbrev PLQ_CFG.all : Fld := ⟨0x501000, 16, 31, 0⟩
abbrev PLQ_CFG.ERR : Fld := ⟨0x501000, 16, 31, 31⟩
abbrev PLQ_CFG.EN : Fld := ⟨0x501000, 16, 30, 30⟩
abbrev PLQ_CFG.PAUSE : Fld := ⟨0x501000, 16, 29, 29⟩
abbrev PLQ_CFG.WM_IE : Fld := ⟨0x501000, 16, 28, 28⟩
abbrev PLQ_CFG.SIZE : Fld := ⟨0x501000, 16, 27, 14⟩
abbrev PLQ_CFG.BASE : Fld := ⟨0x501000, 16, 12, 0⟩
abbrev PLQ_WM.all : Fld := ⟨0x501004, 16, 31, 0⟩
abbrev PLQ_WM.HIGH : Fld := ⟨0x501004, 16, 28, 16⟩
abbrev PLQ_WM.LOW : Fld := ⟨0x501004, 16, 12, 0⟩
abbrev PLQ_FILL.all : Fld := ⟨0x501008, 16, 31, 0⟩
abbrev PLQ_FILL.FILL : Fld := ⟨0x501008, 16, 17, 0⟩
abbrev PLQ_ITEMS.all : Fld := ⟨0x50100c, 16, 31, 0⟩
abbrev PLQ_ITEMS.ITEMS : Fld := ⟨0x50100c, 16, 17, 0⟩
abbrev PLQ_FCO_MASK.all : Fld := ⟨0x502000, 4, 31, 0⟩
abbrev PLQ_FCI_MASK.all : Fld := ⟨0x502200, 4, 31, 0⟩
abbrev SHP_CTL.all : Fld := ⟨0x580000, 0, 31, 0⟩
abbrev SHP_CTL.EN : Fld := ⟨0x580000, 0, 0, 0⟩
abbrev SHP_EVT.all : Fld := ⟨0x580004, 0, 31, 0⟩
abbrev SHP_EVT.WR_IGN : Fld := ⟨0x580004, 0, 3, 3⟩
abbrev SHP_EVT.DQ_WAIT : Fld := ⟨0x580004, 0, 2, 2⟩
abbrev SHP_EVT.DROP : Fld := ⟨0x580004, 0, 1, 1⟩
abbrev SHP_EVT.SPILL : Fld := ⟨0x580004, 0, 0, 0⟩
abbrev SHP_IE.all : Fld := ⟨0x580008, 0, 31, 0⟩
abbrev SHP_POOL_BASE_LO.all : Fld := ⟨0x580010, 0, 31, 0⟩
abbrev SHP_POOL_BASE_LO.BASE : Fld := ⟨0x580010, 0, 31, 11⟩
abbrev SHP_POOL_BASE_HI.all : Fld := ⟨0x580014, 0, 31, 0⟩
abbrev SHP_POOL_COUNT.all : Fld := ⟨0x580018, 0, 31, 0⟩
abbrev SHP_POOL_COUNT.COUNT : Fld := ⟨0x580018, 0, 20, 0⟩
abbrev SHP_POOL_FREE.all : Fld := ⟨0x58001c, 0, 31, 0⟩
abbrev SHP_POOL_FREE.FREE : Fld := ⟨0x58001c, 0, 20, 0⟩
abbrev SHP_CELL_LO.all : Fld := ⟨0x580020, 0, 31, 0⟩
abbrev SHP_CELL_HI.all : Fld := ⟨0x580024, 0, 31, 0⟩
abbrev SHP_CELL_HI.HI : Fld := ⟨0x580024, 0, 7, 0⟩
abbrev SHP_CTX_IDX.all : Fld := ⟨0x580030, 0, 31, 0⟩
abbrev SHP_CTX_IDX.CTX : Fld := ⟨0x580030, 0, 15, 0⟩
abbrev SHP_CTX_CMD.all : Fld := ⟨0x580034, 0, 31, 0⟩
abbrev SHP_CTX_CMD.OP : Fld := ⟨0x580034, 0, 1, 0⟩
abbrev SHP_CTX_ST.all : Fld := ⟨0x580038, 0, 31, 0⟩
abbrev SHP_CTX_ST.BUSY : Fld := ⟨0x580038, 0, 31, 31⟩
abbrev SHP_CTX_ST.STATUS : Fld := ⟨0x580038, 0, 3, 0⟩
abbrev SHP_CTX_CFG_0.all : Fld := ⟨0x580040, 0, 31, 0⟩
abbrev SHP_CTX_CFG_1.all : Fld := ⟨0x580044, 0, 31, 0⟩
abbrev SHP_CTX_CFG_1.OVH : Fld := ⟨0x580044, 0, 31, 24⟩
abbrev SHP_CTX_CFG_1.DEPTH : Fld := ⟨0x580044, 0, 23, 0⟩
abbrev SHP_CTX_CFG_2.all : Fld := ⟨0x580048, 0, 31, 0⟩
abbrev SHP_CTX_CFG_2.EN : Fld := ⟨0x580048, 0, 31, 31⟩
abbrev SHP_CTX_CFG_2.ACKC : Fld := ⟨0x580048, 0, 30, 30⟩
abbrev SHP_CTX_CFG_2.AIR : Fld := ⟨0x580048, 0, 23, 16⟩
abbrev SHP_CTX_CFG_2.DQ : Fld := ⟨0x580048, 0, 7, 0⟩
abbrev SHP_CTX_CFG_3.all : Fld := ⟨0x58004c, 0, 31, 0⟩
abbrev SHP_CTX_CFG_3.QMAX : Fld := ⟨0x58004c, 0, 15, 0⟩
abbrev SHP_CTX_TOK_LO.all : Fld := ⟨0x580050, 0, 31, 0⟩
abbrev SHP_CTX_TOK_HI.all : Fld := ⟨0x580054, 0, 31, 0⟩
abbrev SHP_CTX_QST.all : Fld := ⟨0x580058, 0, 31, 0⟩
abbrev SHP_CTX_QST.SCHED : Fld := ⟨0x580058, 0, 31, 31⟩
abbrev SHP_CTX_QST.COARSE : Fld := ⟨0x580058, 0, 30, 30⟩
abbrev SHP_CTX_QST.PEND : Fld := ⟨0x580058, 0, 29, 29⟩
abbrev SHP_CTX_QST.QLEN : Fld := ⟨0x580058, 0, 15, 0⟩
abbrev SHP_CTX_DUE.all : Fld := ⟨0x58005c, 0, 31, 0⟩
abbrev SHP_CNT_ADMIT.all : Fld := ⟨0x580080, 0, 31, 0⟩
abbrev SHP_CNT_RELEASE.all : Fld := ⟨0x580084, 0, 31, 0⟩
abbrev SHP_CNT_SPILL.all : Fld := ⟨0x580088, 0, 31, 0⟩
abbrev SHP_CNT_DROP_POOL.all : Fld := ⟨0x58008c, 0, 31, 0⟩
abbrev SHP_CNT_DROP_QMAX.all : Fld := ⟨0x580090, 0, 31, 0⟩
abbrev SHP_CNT_DROP_CFG.all : Fld := ⟨0x580094, 0, 31, 0⟩
abbrev SHP_CNT_DQ_WAIT.all : Fld := ⟨0x580098, 0, 31, 0⟩
abbrev BGH_CTL.all : Fld := ⟨0x600000, 0, 31, 0⟩
abbrev BGH_CTL.REPAIR : Fld := ⟨0x600000, 0, 5, 5⟩
abbrev BGH_CTL.SCRUB_EN : Fld := ⟨0x600000, 0, 4, 4⟩
abbrev BGH_CTL.FENCE : Fld := ⟨0x600000, 0, 3, 3⟩
abbrev BGH_CTL.LOAD : Fld := ⟨0x600000, 0, 2, 2⟩
abbrev BGH_CTL.EN : Fld := ⟨0x600000, 0, 0, 0⟩
abbrev BGH_STAT.all : Fld := ⟨0x600004, 0, 31, 0⟩
abbrev BGH_STAT.SCRUB_RUN : Fld := ⟨0x600004, 0, 1, 1⟩
abbrev BGH_STAT.LOADING : Fld := ⟨0x600004, 0, 0, 0⟩
abbrev BGH_EVT.all : Fld := ⟨0x600008, 0, 31, 0⟩
abbrev BGH_EVT.NH_INVALID : Fld := ⟨0x600008, 0, 4, 4⟩
abbrev BGH_EVT.POISON : Fld := ⟨0x600008, 0, 3, 3⟩
abbrev BGH_EVT.WR_IGN : Fld := ⟨0x600008, 0, 2, 2⟩
abbrev BGH_EVT.REPAIRED : Fld := ⟨0x600008, 0, 1, 1⟩
abbrev BGH_EVT.MISMATCH : Fld := ⟨0x600008, 0, 0, 0⟩
abbrev BGH_IE.all : Fld := ⟨0x60000c, 0, 31, 0⟩
abbrev BGH_SHADOW_LO.all : Fld := ⟨0x600010, 0, 31, 0⟩
abbrev BGH_SHADOW_LO.BASE : Fld := ⟨0x600010, 0, 31, 24⟩
abbrev BGH_SHADOW_HI.all : Fld := ⟨0x600014, 0, 31, 0⟩
abbrev BGH_SCRUB_CFG.all : Fld := ⟨0x600018, 0, 31, 0⟩
abbrev BGH_SCRUB_CFG.INTERVAL : Fld := ⟨0x600018, 0, 15, 0⟩
abbrev BGH_SCRUB_PASS.all : Fld := ⟨0x60001c, 0, 31, 0⟩
abbrev BGH_MISM_IDX.all : Fld := ⟨0x600020, 0, 31, 0⟩
abbrev BGH_MISM_IDX.VALID : Fld := ⟨0x600020, 0, 31, 31⟩
abbrev BGH_MISM_IDX.IDX : Fld := ⟨0x600020, 0, 21, 0⟩
abbrev BGH_MISM_DIE.all : Fld := ⟨0x600024, 0, 31, 0⟩
abbrev BGH_MISM_SHD.all : Fld := ⟨0x600028, 0, 31, 0⟩
abbrev BGH_CTX0_LO.all : Fld := ⟨0x600030, 0, 31, 0⟩
abbrev BGH_CTX0_HI.all : Fld := ⟨0x600034, 0, 31, 0⟩
abbrev BGH_CFG.all : Fld := ⟨0x600038, 0, 31, 0⟩
abbrev BGH_CFG.SRC_CHECK : Fld := ⟨0x600038, 0, 20, 20⟩
abbrev BGH_CFG.EXC_RING : Fld := ⟨0x600038, 0, 19, 16⟩
abbrev BGH_CFG.MESH_MTU : Fld := ⟨0x600038, 0, 15, 0⟩
abbrev BGH_ENT_IDX.all : Fld := ⟨0x600040, 0, 31, 0⟩
abbrev BGH_ENT_IDX.AUTO_INC : Fld := ⟨0x600040, 0, 31, 31⟩
abbrev BGH_ENT_IDX.IDX : Fld := ⟨0x600040, 0, 21, 0⟩
abbrev BGH_ENT_DATA.all : Fld := ⟨0x600044, 0, 31, 0⟩
abbrev BGH_NH_IDX.all : Fld := ⟨0x600048, 0, 31, 0⟩
abbrev BGH_NH_IDX.IDX : Fld := ⟨0x600048, 0, 11, 0⟩
abbrev BGH_NH_LO.all : Fld := ⟨0x60004c, 0, 31, 0⟩
abbrev BGH_NH_HI.all : Fld := ⟨0x600050, 0, 31, 0⟩
abbrev BGH_NH_HI.VALID : Fld := ⟨0x600050, 0, 31, 31⟩
abbrev BGH_NH_HI.PORT : Fld := ⟨0x600050, 0, 16, 16⟩
abbrev BGH_NH_HI.MACHI : Fld := ⟨0x600050, 0, 15, 0⟩
abbrev BGH_UQ.all : Fld := ⟨0x600080, 4, 31, 0⟩
abbrev BGH_UQ.RING : Fld := ⟨0x600080, 4, 11, 8⟩
abbrev BGH_UQ.MODE : Fld := ⟨0x600080, 4, 1, 0⟩
abbrev BGH_CNT_LOOKUP.all : Fld := ⟨0x600300, 0, 31, 0⟩
abbrev BGH_CNT_DROP.all : Fld := ⟨0x600304, 0, 31, 0⟩
abbrev BGH_CNT_EXC.all : Fld := ⟨0x600308, 0, 31, 0⟩
abbrev BGH_CNT_MESH.all : Fld := ⟨0x60030c, 0, 31, 0⟩
abbrev BGH_CNT_CANOPY.all : Fld := ⟨0x600310, 0, 31, 0⟩
abbrev BGH_CNT_NO_NODE.all : Fld := ⟨0x600314, 0, 31, 0⟩
abbrev BGH_CNT_POISON.all : Fld := ⟨0x600318, 0, 31, 0⟩
abbrev ETH_CTL.all : Fld := ⟨0x680000, 4096, 31, 0⟩
abbrev ETH_CTL.PROMISC : Fld := ⟨0x680000, 4096, 4, 4⟩
abbrev ETH_CTL.MODE : Fld := ⟨0x680000, 4096, 3, 2⟩
abbrev ETH_CTL.EN : Fld := ⟨0x680000, 4096, 0, 0⟩
abbrev ETH_STAT.all : Fld := ⟨0x680004, 4096, 31, 0⟩
abbrev ETH_STAT.FEC_LOCK : Fld := ⟨0x680004, 4096, 2, 2⟩
abbrev ETH_STAT.BLOCK_LOCK : Fld := ⟨0x680004, 4096, 1, 1⟩
abbrev ETH_STAT.LINK_UP : Fld := ⟨0x680004, 4096, 0, 0⟩
abbrev ETH_EVT.all : Fld := ⟨0x680008, 4096, 31, 0⟩
abbrev ETH_EVT.RX_DROP : Fld := ⟨0x680008, 4096, 2, 2⟩
abbrev ETH_EVT.LINK_UP : Fld := ⟨0x680008, 4096, 1, 1⟩
abbrev ETH_EVT.LINK_DOWN : Fld := ⟨0x680008, 4096, 0, 0⟩
abbrev ETH_IE.all : Fld := ⟨0x68000c, 4096, 31, 0⟩
abbrev ETH_MAC_LO.all : Fld := ⟨0x680010, 4096, 31, 0⟩
abbrev ETH_MAC_HI.all : Fld := ⟨0x680014, 4096, 31, 0⟩
abbrev ETH_MAC_HI.MACHI : Fld := ⟨0x680014, 4096, 15, 0⟩
abbrev ETH_VLAN.all : Fld := ⟨0x680018, 4096, 31, 0⟩
abbrev ETH_VLAN.PCP : Fld := ⟨0x680018, 4096, 15, 13⟩
abbrev ETH_VLAN.TAG_EN : Fld := ⟨0x680018, 4096, 12, 12⟩
abbrev ETH_VLAN.VID : Fld := ⟨0x680018, 4096, 11, 0⟩
abbrev ETH_MAXLEN.all : Fld := ⟨0x68001c, 4096, 31, 0⟩
abbrev ETH_MAXLEN.LEN : Fld := ⟨0x68001c, 4096, 13, 0⟩
abbrev ETH_TS_DLY.all : Fld := ⟨0x680020, 4096, 31, 0⟩
abbrev ETH_TS_DLY.TX_DLY : Fld := ⟨0x680020, 4096, 31, 16⟩
abbrev ETH_TS_DLY.RX_DLY : Fld := ⟨0x680020, 4096, 15, 0⟩
abbrev ETH_EXC.all : Fld := ⟨0x680024, 4096, 31, 0⟩
abbrev ETH_EXC.EXC_RING : Fld := ⟨0x680024, 4096, 3, 0⟩
abbrev ETH_CNT_RX_OK.all : Fld := ⟨0x680040, 4096, 31, 0⟩
abbrev ETH_CNT_RX_BAD.all : Fld := ⟨0x680044, 4096, 31, 0⟩
abbrev ETH_CNT_RX_FILT.all : Fld := ⟨0x680048, 4096, 31, 0⟩
abbrev ETH_CNT_RX_NODESC.all : Fld := ⟨0x68004c, 4096, 31, 0⟩
abbrev ETH_CNT_TX_OK.all : Fld := ⟨0x680050, 4096, 31, 0⟩
abbrev PCI_CTL.all : Fld := ⟨0x6c0000, 0, 31, 0⟩
abbrev PCI_CTL.DMA_EN : Fld := ⟨0x6c0000, 0, 0, 0⟩
abbrev PCI_STAT.all : Fld := ⟨0x6c0004, 0, 31, 0⟩
abbrev PCI_STAT.WIDTH : Fld := ⟨0x6c0004, 0, 7, 4⟩
abbrev PCI_STAT.SPEED : Fld := ⟨0x6c0004, 0, 3, 1⟩
abbrev PCI_STAT.LINK_UP : Fld := ⟨0x6c0004, 0, 0, 0⟩
abbrev PCI_EVT.all : Fld := ⟨0x6c0008, 0, 31, 0⟩
abbrev PCI_EVT.D2H_LONG : Fld := ⟨0x6c0008, 0, 2, 2⟩
abbrev PCI_EVT.DMA_ERR : Fld := ⟨0x6c0008, 0, 1, 1⟩
abbrev PCI_EVT.BAD_DESC : Fld := ⟨0x6c0008, 0, 0, 0⟩
abbrev PCI_IE.all : Fld := ⟨0x6c000c, 0, 31, 0⟩
abbrev PCI_CNT_D2H_LONG.all : Fld := ⟨0x6c0040, 0, 31, 0⟩
abbrev PCI_CNT_H2D_ERR.all : Fld := ⟨0x6c0044, 0, 31, 0⟩
abbrev PCI_H2D_BASE_LO.all : Fld := ⟨0x6c0100, 32, 31, 0⟩
abbrev PCI_H2D_BASE_LO.BASE : Fld := ⟨0x6c0100, 32, 31, 12⟩
abbrev PCI_H2D_BASE_HI.all : Fld := ⟨0x6c0104, 32, 31, 0⟩
abbrev PCI_H2D_CFG.all : Fld := ⟨0x6c0108, 32, 31, 0⟩
abbrev PCI_H2D_CFG.EN : Fld := ⟨0x6c0108, 32, 31, 31⟩
abbrev PCI_H2D_CFG.VEC : Fld := ⟨0x6c0108, 32, 26, 16⟩
abbrev PCI_H2D_CFG.LOG2 : Fld := ⟨0x6c0108, 32, 4, 0⟩
abbrev PCI_H2D_TAIL.all : Fld := ⟨0x6c010c, 32, 31, 0⟩
abbrev PCI_H2D_TAIL.TAIL : Fld := ⟨0x6c010c, 32, 15, 0⟩
abbrev PCI_H2D_HEAD.all : Fld := ⟨0x6c0110, 32, 31, 0⟩
abbrev PCI_H2D_HEAD.HEAD : Fld := ⟨0x6c0110, 32, 15, 0⟩
abbrev PCI_H2D_COAL.all : Fld := ⟨0x6c0114, 32, 31, 0⟩
abbrev PCI_H2D_COAL.COAL_T : Fld := ⟨0x6c0114, 32, 31, 16⟩
abbrev PCI_H2D_COAL.COAL_N : Fld := ⟨0x6c0114, 32, 15, 0⟩
abbrev PCI_D2H_BASE_LO.all : Fld := ⟨0x6c0400, 32, 31, 0⟩
abbrev PCI_D2H_BASE_LO.BASE : Fld := ⟨0x6c0400, 32, 31, 12⟩
abbrev PCI_D2H_BASE_HI.all : Fld := ⟨0x6c0404, 32, 31, 0⟩
abbrev PCI_D2H_CFG.all : Fld := ⟨0x6c0408, 32, 31, 0⟩
abbrev PCI_D2H_CFG.EN : Fld := ⟨0x6c0408, 32, 31, 31⟩
abbrev PCI_D2H_CFG.VEC : Fld := ⟨0x6c0408, 32, 26, 16⟩
abbrev PCI_D2H_CFG.LOG2 : Fld := ⟨0x6c0408, 32, 4, 0⟩
abbrev PCI_D2H_TAIL.all : Fld := ⟨0x6c040c, 32, 31, 0⟩
abbrev PCI_D2H_TAIL.TAIL : Fld := ⟨0x6c040c, 32, 15, 0⟩
abbrev PCI_D2H_HEAD.all : Fld := ⟨0x6c0410, 32, 31, 0⟩
abbrev PCI_D2H_HEAD.HEAD : Fld := ⟨0x6c0410, 32, 15, 0⟩
abbrev PCI_D2H_COAL.all : Fld := ⟨0x6c0414, 32, 31, 0⟩
abbrev PCI_D2H_COAL.COAL_T : Fld := ⟨0x6c0414, 32, 31, 16⟩
abbrev PCI_D2H_COAL.COAL_N : Fld := ⟨0x6c0414, 32, 15, 0⟩
abbrev CNP_CTL.all : Fld := ⟨0x700000, 0, 31, 0⟩
abbrev CNP_CTL.INS_DIV : Fld := ⟨0x700000, 0, 27, 20⟩
abbrev CNP_CTL.CIPHER_EN : Fld := ⟨0x700000, 0, 16, 16⟩
abbrev CNP_CTL.KSLOT : Fld := ⟨0x700000, 0, 13, 8⟩
abbrev CNP_CTL.CMP_MODE : Fld := ⟨0x700000, 0, 7, 6⟩
abbrev CNP_CTL.MSRC : Fld := ⟨0x700000, 0, 5, 4⟩
abbrev CNP_CTL.FWRAP_W : Fld := ⟨0x700000, 0, 2, 2⟩
abbrev CNP_CTL.FWRAP_E : Fld := ⟨0x700000, 0, 1, 1⟩
abbrev CNP_CTL.EN : Fld := ⟨0x700000, 0, 0, 0⟩
abbrev CNP_STAT.all : Fld := ⟨0x700004, 0, 31, 0⟩
abbrev CNP_STAT.PRESENT : Fld := ⟨0x700004, 0, 31, 24⟩
abbrev CNP_STAT.MASTER_POS : Fld := ⟨0x700004, 0, 18, 16⟩
abbrev CNP_STAT.MASTER : Fld := ⟨0x700004, 0, 15, 15⟩
abbrev CNP_STAT.STATE : Fld := ⟨0x700004, 0, 11, 10⟩
abbrev CNP_STAT.WRAP_W : Fld := ⟨0x700004, 0, 9, 9⟩
abbrev CNP_STAT.WRAP_E : Fld := ⟨0x700004, 0, 8, 8⟩
abbrev CNP_STAT.POS : Fld := ⟨0x700004, 0, 2, 0⟩
abbrev CNP_EVT.all : Fld := ⟨0x700008, 0, 31, 0⟩
abbrev CNP_EVT.MSG_DROP : Fld := ⟨0x700008, 0, 11, 11⟩
abbrev CNP_EVT.AUTH_FAIL : Fld := ⟨0x700008, 0, 10, 10⟩
abbrev CNP_EVT.FLIT_CRC : Fld := ⟨0x700008, 0, 9, 9⟩
abbrev CNP_EVT.ACT_MISMATCH : Fld := ⟨0x700008, 0, 8, 8⟩
abbrev CNP_EVT.PEND_MISMATCH : Fld := ⟨0x700008, 0, 7, 7⟩
abbrev CNP_EVT.DOMAIN_MISMATCH : Fld := ⟨0x700008, 0, 6, 6⟩
abbrev CNP_EVT.POS_CONFLICT : Fld := ⟨0x700008, 0, 5, 5⟩
abbrev CNP_EVT.JOINED : Fld := ⟨0x700008, 0, 4, 4⟩
abbrev CNP_EVT.WRAP_CHG : Fld := ⟨0x700008, 0, 3, 3⟩
abbrev CNP_EVT.MASTER_CHG : Fld := ⟨0x700008, 0, 2, 2⟩
abbrev CNP_EVT.LINK_CHG : Fld := ⟨0x700008, 0, 1, 1⟩
abbrev CNP_EVT.MARK_MISS : Fld := ⟨0x700008, 0, 0, 0⟩
abbrev CNP_IE.all : Fld := ⟨0x70000c, 0, 31, 0⟩
abbrev CNP_PORT_E.all : Fld := ⟨0x700010, 0, 31, 0⟩
abbrev CNP_PORT_E.NB_VALID : Fld := ⟨0x700010, 0, 31, 31⟩
abbrev CNP_PORT_E.NB_POS : Fld := ⟨0x700010, 0, 26, 24⟩
abbrev CNP_PORT_E.HELLO_OK : Fld := ⟨0x700010, 0, 3, 3⟩
abbrev CNP_PORT_E.ADMITTED : Fld := ⟨0x700010, 0, 2, 2⟩
abbrev CNP_PORT_E.LANE_LOCK : Fld := ⟨0x700010, 0, 1, 1⟩
abbrev CNP_PORT_E.LINK_UP : Fld := ⟨0x700010, 0, 0, 0⟩
abbrev CNP_PORT_W.all : Fld := ⟨0x700014, 0, 31, 0⟩
abbrev CNP_PORT_W.NB_VALID : Fld := ⟨0x700014, 0, 31, 31⟩
abbrev CNP_PORT_W.NB_POS : Fld := ⟨0x700014, 0, 26, 24⟩
abbrev CNP_PORT_W.HELLO_OK : Fld := ⟨0x700014, 0, 3, 3⟩
abbrev CNP_PORT_W.ADMITTED : Fld := ⟨0x700014, 0, 2, 2⟩
abbrev CNP_PORT_W.LANE_LOCK : Fld := ⟨0x700014, 0, 1, 1⟩
abbrev CNP_PORT_W.LINK_UP : Fld := ⟨0x700014, 0, 0, 0⟩
abbrev CNP_DLY_E.all : Fld := ⟨0x700018, 0, 31, 0⟩
abbrev CNP_DLY_E.DLY : Fld := ⟨0x700018, 0, 23, 0⟩
abbrev CNP_DLY_W.all : Fld := ⟨0x70001c, 0, 31, 0⟩
abbrev CNP_DLY_W.DLY : Fld := ⟨0x70001c, 0, 23, 0⟩
abbrev CNP_ASYM_E.all : Fld := ⟨0x700020, 0, 31, 0⟩
abbrev CNP_ASYM_E.ASYM : Fld := ⟨0x700020, 0, 15, 0⟩
abbrev CNP_ASYM_W.all : Fld := ⟨0x700024, 0, 31, 0⟩
abbrev CNP_ASYM_W.ASYM : Fld := ⟨0x700024, 0, 15, 0⟩
abbrev CNP_OFS.all : Fld := ⟨0x700028, 0, 31, 0⟩
abbrev CNP_DIG_ST.all : Fld := ⟨0x70002c, 0, 31, 0⟩
abbrev CNP_DIG_ST.MISSING : Fld := ⟨0x70002c, 0, 23, 16⟩
abbrev CNP_DIG_ST.ACT_MM : Fld := ⟨0x70002c, 0, 15, 8⟩
abbrev CNP_DIG_ST.PEND_MM : Fld := ⟨0x70002c, 0, 7, 0⟩
abbrev CNP_CNT_MARK.all : Fld := ⟨0x700040, 0, 31, 0⟩
abbrev CNP_CNT_MISS.all : Fld := ⟨0x700044, 0, 31, 0⟩
abbrev CNP_CNT_CRC_E.all : Fld := ⟨0x700048, 0, 31, 0⟩
abbrev CNP_CNT_CRC_W.all : Fld := ⟨0x70004c, 0, 31, 0⟩
abbrev CNP_CNT_TX_MSG.all : Fld := ⟨0x700050, 0, 31, 0⟩
abbrev CNP_CNT_RX_MSG.all : Fld := ⟨0x700054, 0, 31, 0⟩
abbrev CNP_CNT_DROP.all : Fld := ⟨0x700058, 0, 31, 0⟩
abbrev CNP_EXPP_LO.all : Fld := ⟨0x700100, 8, 31, 0⟩
abbrev CNP_EXPP_HI.all : Fld := ⟨0x700104, 8, 31, 0⟩
abbrev CNP_EXPA_LO.all : Fld := ⟨0x700140, 8, 31, 0⟩
abbrev CNP_EXPA_HI.all : Fld := ⟨0x700144, 8, 31, 0⟩
abbrev UPD_BOOT_ST.all : Fld := ⟨0x780000, 0, 31, 0⟩
abbrev UPD_BOOT_ST.SECTORS : Fld := ⟨0x780000, 0, 31, 16⟩
abbrev UPD_BOOT_ST.JSTATE : Fld := ⟨0x780000, 0, 15, 8⟩
abbrev UPD_BOOT_ST.RESULT : Fld := ⟨0x780000, 0, 2, 0⟩
abbrev UPD_ROLL.all : Fld := ⟨0x780004, 0, 31, 0⟩
abbrev UPD_ROLL.ROLL : Fld := ⟨0x780004, 0, 6, 0⟩
abbrev UPD_MAIN_VER.all : Fld := ⟨0x780008, 0, 31, 0⟩
abbrev UPD_STG_ST.all : Fld := ⟨0x78000c, 0, 31, 0⟩
abbrev UPD_STG_ST.ROLL : Fld := ⟨0x78000c, 0, 15, 8⟩
abbrev UPD_STG_ST.STATE : Fld := ⟨0x78000c, 0, 1, 0⟩
abbrev UPD_STG_VER.all : Fld := ⟨0x780010, 0, 31, 0⟩
abbrev UPD_EVT.all : Fld := ⟨0x780014, 0, 31, 0⟩
abbrev UPD_EVT.FL_DONE : Fld := ⟨0x780014, 0, 7, 7⟩
abbrev UPD_EVT.WR_IGN : Fld := ⟨0x780014, 0, 6, 6⟩
abbrev UPD_EVT.SEED_REPORT : Fld := ⟨0x780014, 0, 5, 5⟩
abbrev UPD_EVT.SEED_DONE : Fld := ⟨0x780014, 0, 4, 4⟩
abbrev UPD_EVT.CFG_ERR : Fld := ⟨0x780014, 0, 3, 3⟩
abbrev UPD_EVT.CFG_MIGRATED : Fld := ⟨0x780014, 0, 2, 2⟩
abbrev UPD_EVT.STAGE_FAIL : Fld := ⟨0x780014, 0, 1, 1⟩
abbrev UPD_EVT.STAGED : Fld := ⟨0x780014, 0, 0, 0⟩
abbrev UPD_IE.all : Fld := ⟨0x780018, 0, 31, 0⟩
abbrev UPD_CFG_ST.all : Fld := ⟨0x78001c, 0, 31, 0⟩
abbrev UPD_CFG_ST.LIVE : Fld := ⟨0x78001c, 0, 31, 16⟩
abbrev UPD_CFG_ST.NEWER : Fld := ⟨0x78001c, 0, 15, 8⟩
abbrev UPD_CFG_ST.FAILED : Fld := ⟨0x78001c, 0, 7, 0⟩
abbrev UPD_SEED_ST.all : Fld := ⟨0x780020, 0, 31, 0⟩
abbrev UPD_SEED_ST.SESSION : Fld := ⟨0x780020, 0, 31, 16⟩
abbrev UPD_SEED_ST.ST : Fld := ⟨0x780020, 0, 2, 0⟩
abbrev UPD_SEED_ITEMS.all : Fld := ⟨0x780024, 0, 31, 0⟩
abbrev UPD_SEED_CNT_RX.all : Fld := ⟨0x780030, 0, 31, 0⟩
abbrev UPD_SEED_CNT_DONE.all : Fld := ⟨0x780034, 0, 31, 0⟩
abbrev UPD_SEED_CNT_APPL.all : Fld := ⟨0x780038, 0, 31, 0⟩
abbrev UPD_SEED_CNT_FAIL.all : Fld := ⟨0x78003c, 0, 31, 0⟩
abbrev UPD_FL_ADDR.all : Fld := ⟨0x780100, 0, 31, 0⟩
abbrev UPD_FL_CMD.all : Fld := ⟨0x780104, 0, 31, 0⟩
abbrev UPD_FL_CMD.BUSY : Fld := ⟨0x780104, 0, 31, 31⟩
abbrev UPD_FL_CMD.ERR : Fld := ⟨0x780104, 0, 8, 8⟩
abbrev UPD_FL_CMD.OP : Fld := ⟨0x780104, 0, 1, 0⟩
abbrev UPD_FL_DATA.all : Fld := ⟨0x780200, 4, 31, 0⟩
abbrev RAS_CTL.all : Fld := ⟨0x7c0000, 0, 31, 0⟩
abbrev RAS_CTL.TCHK_REPAIR : Fld := ⟨0x7c0000, 0, 5, 5⟩
abbrev RAS_CTL.TCHK_EN : Fld := ⟨0x7c0000, 0, 4, 4⟩
abbrev RAS_CTL.CE_LOG : Fld := ⟨0x7c0000, 0, 3, 3⟩
abbrev RAS_CTL.ONDIE_EN : Fld := ⟨0x7c0000, 0, 1, 1⟩
abbrev RAS_CTL.SCRUB_EN : Fld := ⟨0x7c0000, 0, 0, 0⟩
abbrev RAS_EVT.all : Fld := ⟨0x7c0004, 0, 31, 0⟩
abbrev RAS_EVT.WR_IGN : Fld := ⟨0x7c0004, 0, 4, 4⟩
abbrev RAS_EVT.LOG_OVF : Fld := ⟨0x7c0004, 0, 3, 3⟩
abbrev RAS_EVT.ACCESS : Fld := ⟨0x7c0004, 0, 2, 2⟩
abbrev RAS_EVT.CE_HI : Fld := ⟨0x7c0004, 0, 1, 1⟩
abbrev RAS_EVT.UE_LOG : Fld := ⟨0x7c0004, 0, 0, 0⟩
abbrev RAS_IE.all : Fld := ⟨0x7c0008, 0, 31, 0⟩
abbrev RAS_SCRUB_INT.all : Fld := ⟨0x7c0010, 0, 31, 0⟩
abbrev RAS_SCRUB_INT.INT : Fld := ⟨0x7c0010, 0, 23, 0⟩
abbrev RAS_SCRUB_PASS.all : Fld := ⟨0x7c0014, 0, 31, 0⟩
abbrev RAS_CE_CNT.all : Fld := ⟨0x7c0020, 0, 31, 0⟩
abbrev RAS_CE_THR.all : Fld := ⟨0x7c0024, 0, 31, 0⟩
abbrev RAS_UE_CNT.all : Fld := ⟨0x7c0028, 0, 31, 0⟩
abbrev RAS_LOST_CNT.all : Fld := ⟨0x7c002c, 0, 31, 0⟩
abbrev RAS_LOG_WR.all : Fld := ⟨0x7c0030, 0, 31, 0⟩
abbrev RAS_LOG_WR.SEQ : Fld := ⟨0x7c0030, 0, 15, 0⟩
abbrev RAS_LOG_RD.all : Fld := ⟨0x7c0034, 0, 31, 0⟩
abbrev RAS_LOG_RD.SEQ : Fld := ⟨0x7c0034, 0, 15, 0⟩
abbrev RAS_LOG_SEL.all : Fld := ⟨0x7c0038, 0, 31, 0⟩
abbrev RAS_LOG_SEL.SEQ : Fld := ⟨0x7c0038, 0, 15, 0⟩
abbrev RAS_LOG_DATA.all : Fld := ⟨0x7c0040, 4, 31, 0⟩
abbrev RAS_TCHK_BASE_LO.all : Fld := ⟨0x7c0060, 0, 31, 0⟩
abbrev RAS_TCHK_BASE_LO.BASE : Fld := ⟨0x7c0060, 0, 31, 23⟩
abbrev RAS_TCHK_BASE_HI.all : Fld := ⟨0x7c0064, 0, 31, 0⟩
abbrev RAS_TCHK_PASS.all : Fld := ⟨0x7c0068, 0, 31, 0⟩
abbrev RAS_UNIT_CE.all : Fld := ⟨0x7c0100, 4, 31, 0⟩
abbrev DDRC_CFG.all : Fld := ⟨0x800000, 0, 31, 0⟩
abbrev DDRC_CFG.CH1_UP : Fld := ⟨0x800000, 0, 17, 17⟩
abbrev DDRC_CFG.CH0_UP : Fld := ⟨0x800000, 0, 16, 16⟩
abbrev DDRC_CFG.GIB : Fld := ⟨0x800000, 0, 7, 0⟩
abbrev DDRC_EVT.all : Fld := ⟨0x800004, 0, 31, 0⟩
abbrev DDRC_EVT.SR_EXIT_FAIL : Fld := ⟨0x800004, 0, 2, 2⟩
abbrev DDRC_EVT.CA_PARITY : Fld := ⟨0x800004, 0, 1, 1⟩
abbrev DDRC_EVT.TRAIN_FAIL : Fld := ⟨0x800004, 0, 0, 0⟩
abbrev DDRC_IE.all : Fld := ⟨0x800008, 0, 31, 0⟩

/-- The rows of the block a BAR0 offset lies in (R29); the 32 engine windows of WFT share one list. -/
def regRowsAt (off : Nat) : List RegRow :=
  if 0x0 ≤ off ∧ off < 0x10000 then regRows0
  else if 0x10000 ≤ off ∧ off < 0x20000 then regRows10000
  else if 0x20000 ≤ off ∧ off < 0x30000 then regRows20000
  else if 0x30000 ≤ off ∧ off < 0x40000 then regRows30000
  else if 0x40000 ≤ off ∧ off < 0x80000 then regRows40000
  else if 0x80000 ≤ off ∧ off < 0x100000 then regRows80000
  else if 0x100000 ≤ off ∧ off < 0x140000 then regRows100000
  else if 0x140000 ≤ off ∧ off < 0x180000 then regRows140000
  else if 0x200000 ≤ off ∧ off < 0x400000 then regRows200000
  else if 0x400000 ≤ off ∧ off < 0x480000 then regRows400000
  else if 0x480000 ≤ off ∧ off < 0x500000 then regRows480000
  else if 0x500000 ≤ off ∧ off < 0x580000 then regRows500000
  else if 0x580000 ≤ off ∧ off < 0x600000 then regRows580000
  else if 0x600000 ≤ off ∧ off < 0x680000 then regRows600000
  else if 0x680000 ≤ off ∧ off < 0x6c0000 then regRows680000
  else if 0x6c0000 ≤ off ∧ off < 0x700000 then regRows6C0000
  else if 0x700000 ≤ off ∧ off < 0x780000 then regRows700000
  else if 0x780000 ≤ off ∧ off < 0x7c0000 then regRows780000
  else if 0x7c0000 ≤ off ∧ off < 0x800000 then regRows7C0000
  else if 0x800000 ≤ off ∧ off < 0x840000 then regRows800000
  else []

/-- A row holds the offset: one of its registers stands there. -/
def RegRow.holds (r : RegRow) (off : Nat) : Bool :=
  r.base ≤ off && (if r.stride = 0 then off == r.base else (off - r.base) % r.stride == 0 && decide ((off - r.base) / r.stride < r.count))

/-- The row of a BAR0 offset, if a register stands there. -/
def regRow? (off : Nat) : Option RegRow := (regRowsAt off).find? (·.holds off)

/-- What a register holds after reset (R14): the value its row gives; 0 at an offset with no register (R10). -/
def regReset (off : Nat) : BitVec 32 :=
  match regRow? off with
  | some r => r.reset
  | none => 0

end Sys2Proof.Machine
end

