-- ==== Sys2Proof/Machine/State.lean ====
section
/-! DEFINITION. The state of the GRN-9640: everything the spec gives the block, as plain data, and the queue of the
commands that wait. Register bits stand in `Block.regs`, keyed by their BAR0 offset; what no register shows stands in the
records below. -/

namespace Sys2Proof.Machine

/-- Why the machine stops. -/
inductive Fault where
  /-- Raised by INTERNAL_RESET_RELEASE with TEST_EN high: R565 enters a test mode whose behaviour the spec does not give. Safe: the
  model stops where the hardware goes on. -/
  | testMode
  deriving DecidableEq, Repr

/-- Why the model answers with no meaning. -/
inductive Refusal where
  /-- Raised by an arm of `exec` whose command has no meaning in the model yet. Safe: nothing can be proved of such a step. -/
  | notModelled (mnemonic : String)
  deriving DecidableEq, Repr

/-- The clocks (R8, R45, R46): beats of 4 CORE_CLK cycles since internal reset release, HTIME with the part of a unit not yet
counted, the rate correction of R52 in parts in 10^12, the number of the last cell pulsed (HTIME[63:24], R46), and the model's own
counter of free values. -/
structure Clk where
  beat : Nat
  htime : BitVec 64
  frac : Nat
  rate : Int
  cell : Nat
  free : Nat
  deriving DecidableEq, Repr

/-- What the hardware has updated in one beat, a cycle of PBUS_CLK (R12): for each register, by BAR0 offset, what it held before the first update
of the beat, and what the updates leave in a register that the cycle's access clears. -/
structure Tie where
  beat : Nat
  upd : Tbl (BitVec 32 × BitVec 32)
  deriving DecidableEq, Repr

/-- A strobe of the Hoop (R66), with the engine and entry vector its descriptor binds (R60) and the superframe of its slot. -/
structure Strobe where
  idx : Nat
  bank : Nat
  sf : Nat
  slotStart : BitVec 64
  node : Nat
  user : BitVec 32
  slip : Nat
  late : Bool
  unlocked : Bool
  grperr : Bool
  engine : Nat
  entry : Nat
  deriving DecidableEq, Repr

/-- A group list entry the Hoop has read (R62): descriptor, superframe, the word, and whether it read poisoned or out of range. -/
structure GroupEntry where
  idx : Nat
  sf : Nat
  word : BitVec 32
  err : Bool
  deriving DecidableEq, Repr

/-- The epoch state a checkpoint holds (R76): HOOP_EPOCH_ST, HOOP_EPOCH_ACT, HOOP_WARP_ACT_COUNT, the active warp bank, the superframe of the
COMMIT, whether the epoch is frozen, and the active digest. -/
structure EpochCk where
  st : BitVec 32
  act : BitVec 32
  count : BitVec 32
  bank : Nat
  commitSf : Nat
  frozen : Bool
  digAct : Option (List (BitVec 8))
  deriving DecidableEq, Repr

/-- A checkpoint (R76): the standby cycle count as beats, HTIME and its rate, the servo integral, the lock state and its counters, the epoch state,
the strobe scan position and the group entries read. -/
structure Ckpt where
  stamp : Nat
  htime : BitVec 64
  frac : Nat
  rate : Int
  integ : Int
  lock : Nat
  passRun : Nat
  failRun : Nat
  holdStart : BitVec 64
  epoch : EpochCk
  scan : Nat
  groups : List GroupEntry
  deriving DecidableEq, Repr

/-- A heartbeat path (R77): the number of the last heartbeat it missed, and how many it had then missed in a row. -/
structure HbPath where
  last : Nat
  run : Nat
  deriving DecidableEq, Repr

/-- The Hoop's discipline (R50–R57): runs of passing and failing measurements, HTIME when HOLDOVER began, the integral term, the
accepted PPS edge, the windows closed since, the last PTP measurement, missed Canopy marks, and the waiting step of R53. -/
structure HoopSync where
  passRun : Nat
  failRun : Nat
  holdStart : BitVec 64
  integ : Int
  ppsLast : Option (BitVec 64)
  ppsClosed : Nat
  ptpLast : Option (BitVec 64)
  cnpMissed : Nat
  pendStep : Option Int
  strobeFloor : BitVec 64
  lastStrobe : BitVec 64
  deriving DecidableEq, Repr

/-- The Hoop's warp, epochs and strobes (R59–R74, R84): bank 0 and 1 of 131,072 descriptors of 8 words, keyed
(bank × 131,072 + index) × 8 + word; the words loaded and held through HOOP_WARP_DATA; the digests (64 bytes; no active one stored is that of the configuration at
reset); the superframe in which a pending digest was last flagged as mismatched (R71); the freeze; and the strobe scan position (R76), the HTIME
before which every strobe has been dealt with. -/
structure HoopWarp where
  bank : Nat
  warp : Tbl (BitVec 32)
  rd : List (BitVec 32)
  wr : List (BitVec 32)
  groups : List GroupEntry
  nextCycle : Nat
  frozen : Bool
  commitSf : Nat
  digAct : Option (List (BitVec 8))
  pendMm : Option Nat
  digPend : List (BitVec 8)
  scan : Nat
  deriving DecidableEq, Repr

/-- Redundancy (R75–R82): two checkpoint buffers and which is the latest, the strobe journal, the two heartbeat paths, the HOOP cycle heartbeats
are counted from, the last heartbeat sent by an active copy that has stopped them, the gap in progress with the strobes it collects and their due
HOOP cycles, whether the outputs are frozen until reset (R82), whether a failed copy is rearmed, the cell from which a requested or repeated proof
run is due, the cell of the last proof run, and the mismatches in a row. -/
structure HoopRed where
  ckptA : Option Ckpt
  ckptB : Option Ckpt
  ckptSel : Bool
  journal : List (Nat × Nat)
  hbX : HbPath
  hbY : HbPath
  hbFrom : Nat
  hbStop : Option Nat
  gap : Bool
  gapEnd : Nat
  gapStrobes : List (Nat × Strobe)
  dead : Bool
  rearmed : Bool
  proofFrom : Option Nat
  proofCell : Option Nat
  proofMism : Nat
  deriving DecidableEq, Repr

structure Hoop where
  sync : HoopSync
  warp : HoopWarp
  red : HoopRed
  lockLog : List (BitVec 64 × Nat)
  deriving DecidableEq, Repr

/-- The Grove port of a steward core (R329): the index, the operation, the status and the record image of its last operation. -/
structure HaPort where
  idx : Nat
  op : Nat
  status : Nat
  data : List (BitVec 8)
  deriving DecidableEq, Repr

/-- Steward cores and mailbox (R31–R43): when the running command times out, when its abort times out, the result the steward
holds for its completion, the result words, the running firmware with its build and record version, the watchdog restarts since cold start,
whether configuration requests meet Request Retry Status (R540), the records whose accepted join awaits its ACK (R43, R221), and the Grove ports of the
steward cores by core (R329). -/
structure Stw where
  deadline : Option Nat
  abortAt : Option Nat
  held : Option (Nat × List (BitVec 32))
  res : List (BitVec 32)
  major : Nat
  minor : Nat
  patch : Nat
  build : Nat
  recVer : Nat
  restarts : Nat
  rrs : Bool
  joins : List Nat
  ports : Tbl HaPort
  deriving DecidableEq, Repr

/-- DRAM (R516–R519, R538): its bytes, the 64-bit words poisoned (word index to true), and the errors in the array: for a word index what its
symbols c_0 to c_9 differ by from its codeword. -/
structure Dram where
  bytes : Tbl (BitVec 8)
  poison : Tbl Bool
  err : Tbl (List Nat)
  deriving DecidableEq, Repr

/-- An entry of the error log (R523). -/
structure LogEntry where
  seq : Nat
  kind : Nat
  unit : Nat
  info : BitVec 32
  addr : BitVec 64
  htime : BitVec 64
  valA : BitVec 32
  valB : BitVec 32
  deriving DecidableEq, Repr

/-- A correction queued to be written back to DRAM (R518): the word's byte address, its corrected bytes, and whether patrol found it (R520). -/
structure CeFix where
  addr : Nat
  data : List (BitVec 8)
  patrol : Bool
  deriving DecidableEq, Repr

/-- Error protection (R517–R526): the log slots, the scan positions, the queued corrections, the last CE entry's UNIT, ADDR, and the errors in the
on-die RAMs, keyed unit × 2^32 + word; and the beat of the newest entries with their number (R522). -/
structure Ras where
  log : Tbl LogEntry
  logBeat : Nat
  logCount : Nat
  patrol0 : Nat
  patrol1 : Nat
  ondie : Nat
  tchk : Nat
  tchkWait : Bool
  fixes : List CeFix
  lastCe : Option (Nat × Nat)
  err : Tbl (List Nat)
  deriving DecidableEq, Repr

/-- What a strand waits for (R257, R260–R262). -/
inductive Wait where
  | none
  | twait (target : BitVec 64)
  | evwait (rd mask : Nat) (timeout : BitVec 64)
  | tkwait (mask : Nat)
  | ticket (tk : Nat)
  | push (queue : Nat) (item : List (BitVec 8)) (rs : Nat) (since : Nat)
  deriving DecidableEq, Repr

/-- Which unit a ticket waits for (R255). -/
inductive TkUnit where
  | ctxld | ctxst | keyreq | seal | opened | qpop | seen | rxarm | txarm
  deriving DecidableEq, Repr

/-- A key a holder or a cache entry keeps (R282, R354): its bytes and engine mask. -/
structure Key where
  bytes : List (BitVec 8)
  mask : Nat
  gen : Nat
  deriving DecidableEq, Repr

/-- A ticket awaiting delivery (R255–R258): its unit, delivery beat, status register and status, the data for data memory, the key for
its holder, and the order of issue. -/
structure Ticket where
  unit : TkUnit
  due : Nat
  rs : Nat
  status : BitVec 64
  area : Nat
  data : List (BitVec 8)
  key : Option Key
  seq : Nat
  deriving DecidableEq, Repr

/-- A synchronous result not yet due (R246, R278). -/
structure Due where
  beat : Nat
  reg : Nat
  val : BitVec 64
  deriving DecidableEq, Repr

/-- The weave a strand runs (R251, R265, R268): its bank, the superframe and bounds of its slot, the beat of its first instruction,
whether it is a handover, the bounds WDOG counts from, the descriptor words passed in w4 and w5, and whether WDOG or HOVR_LONG has been raised
for it. -/
structure Weave where
  bank : Nat
  sf : Nat
  slotEnd : BitVec 64
  first : Nat
  handover : Bool
  desc : List (BitVec 32)
  timed : Bool
  deriving DecidableEq, Repr

/-- A strand (R245, R252, R255, R263, R282, R283): registers and predicates, the program counter, the weave it runs, whether END has
issued, the beat its next instruction may issue in, what it waits for, results and tickets outstanding, the order of issue, the last
deliveries, key holders, the record ring (oldest entry and count), frame buffers held, a pending handover, whether it is stopped,
and the beat it became free in. -/
structure Strand where
  regs : Tbl (BitVec 64)
  preds : BitVec 8
  pc : Nat
  weave : Option Weave
  ending : Bool
  ready : Nat
  wait : Wait
  dues : List Due
  tks : Tbl Ticket
  seq : Nat
  lastDel : Tbl (Nat × Nat)
  kh : Tbl Key
  ringHead : Nat
  ringCount : Nat
  fbufs : List Nat
  hovr : Option (BitVec 64)
  stopped : Bool
  freeAt : Nat
  deriving DecidableEq, Repr

/-- A strobe in an engine's queue with the beat it arrived in (R253). -/
structure Queued where
  strobe : Strobe
  bank : Nat
  arrived : Nat
  deriving DecidableEq, Repr

/-- An engine (R248, R253, R266–R268): the active bank, its strobe queue, the superframe of the last swap, whether a handover of that
swap is still to retire, the doorbells set, and those SIG set at the end of beat `bellsAt` (R288). -/
structure Engine where
  bank : Nat
  queue : List Queued
  swapSf : Nat
  hovrOpen : Bool
  doorbells : BitVec 4
  bellsDue : BitVec 4
  bellsAt : Nat
  deriving DecidableEq, Repr

/-- A store to the shared table RAM (R250): word, beat, strand, the word before the beat, and whether it was
poisoned. -/
structure TblStore where
  idx : Nat
  beat : Nat
  strand : Nat
  old : BitVec 64
  oldBad : Bool
  deriving DecidableEq, Repr

/-- The Weft engines (R244–R250, R271): strands 0–127, engines 0–31, instruction words keyed (engine × 2 + bank) × 8,192 + index, data
memory keyed engine × 65,536 + address, the shared table RAM, the table stores of the latest beat, the words loaded and held
through the instruction (per engine) and table windows, and the beat and strand of the last instruction that issued (R249, R281). -/
structure Wft where
  strands : Tbl Strand
  engines : Tbl Engine
  ibank : Tbl (BitVec 64)
  dmem : Tbl (BitVec 8)
  table : Tbl (BitVec 64)
  tblStores : List TblStore
  tblPoison : Tbl Bool
  ird : Tbl (BitVec 64)
  iwr : Tbl (BitVec 32)
  trd : BitVec 64
  twr : BitVec 32
  lastBeat : Nat
  lastStrand : Nat
  deriving DecidableEq, Repr

/-- A claim word the interrupt controller will write (R502). -/
structure ClaimWord where
  strand : Nat
  due : Nat
  val : BitVec 64
  deriving DecidableEq, Repr

/-- A strand store to an event area not yet taken by the controller (R502): the strand, its beat, and whether it names the done byte with
the byte stored. -/
structure AreaStore where
  strand : Nat
  beat : Nat
  isDone : Bool
  deriving DecidableEq, Repr

/-- The interrupt controller (R493–R504): filtered levels, pulses waiting to be filtered (sources 4 and 7), wakes outstanding, steward
cores in their wait-for-event state, claimed sources by target, claim words due, strand stores waiting, and the source last presented to
the host. -/
structure Icu where
  filt : Tbl Bool
  pulse : Tbl Bool
  wakes : Tbl Bool
  wfe : Tbl Bool
  claims : Tbl Nat
  claimWords : List ClaimWord
  stores : List AreaStore
  lastHost : Option Nat
  deriving DecidableEq, Repr

/-- Input pins as they stand (R554): the clearing request, IRQ_IN_0–15, FC_IN_0–7, CHAIN_POS, GPIO_0–47, UART_CTS_n,
TEST_EN, PWR_GOOD, the PA_EN_n pads the board holds low (R196), and TAMPER_IN_0–1 (R361). -/
structure Pins where
  clrReq : Bool
  irq : BitVec 16
  fcIn : BitVec 8
  chainPos : BitVec 3
  gpio : BitVec 48
  ctsN : Bool
  testEn : Bool
  pwrGood : Bool
  padLow : BitVec 8
  tamperIn : BitVec 2
  deriving DecidableEq, Repr

/-- The states of the test access port's controller (R564, IEEE 1149.1). -/
inductive TapSt where
  | testLogicReset
  | runTestIdle
  | selectDr
  | captureDr
  | shiftDr
  | exit1Dr
  | pauseDr
  | exit2Dr
  | updateDr
  | selectIr
  | captureIr
  | shiftIr
  | exit1Ir
  | pauseIr
  | exit2Ir
  | updateIr
  deriving DecidableEq, Repr

/-- TRST_n, TMS and TDI at a rising edge of TCK. -/
structure TckEdge where
  trstN : Bool
  tms : Bool
  tdi : Bool
  deriving DecidableEq, Repr

/-- The test access port (R564): the controller's state, the instruction register and its shift register, the data register selected, the latches of
the boundary cells, TDO, and the edges of TCK that wait. -/
structure Tap where
  st : TapSt
  ir : BitVec 8
  irShift : BitVec 8
  dr : List Bool
  cells : List Bool
  tdo : Bool
  edges : List TckEdge
  deriving DecidableEq, Repr

/-- The PCIe function (R406–R410, R503): Bus Master Enable, D3hot, MSI-X Enable and Function Mask, PME_En, the sixteen-byte entries of
the MSI-X table keyed vector × 4 + word, the pending bits. -/
structure PciFn where
  busMaster : Bool
  d3hot : Bool
  msixEn : Bool
  msixMask : Bool
  pmeEn : Bool
  msix : Tbl (BitVec 32)
  pba : Tbl Bool
  deriving DecidableEq, Repr

/-- The completion of the last host access; `bytes` with the EP bit (R408). -/
inductive Resp where
  | none
  | data (v : BitVec 32)
  | bytes (l : List (BitVec 8)) (ep : Bool)
  | done
  | unsupported
  | retry
  deriving DecidableEq, Repr

/-- What a command drives out of the block. -/
inductive Output where
  | msix (vec : Nat)
  | wake (target : Nat)
  | pin (name : String) (n : Nat) (level : Bool)
  | pinAt (name : String) (n : Nat) (level : Bool) (q : Nat)
  | sampleGate (n : Nat) (closed : Bool) (q : Nat)
  | hostWrite (addr : Nat) (data : List (BitVec 8))
  | strobe (s : Strobe)
  | joinReply (addr status retry : Nat)
  | radiate (port ch sfc q : Nat) (t1 : BitVec 64) (level : Int) (symbols chips : List Nat)
  | ethFrame (port : Nat) (data : List (BitVec 8))
  | steward (data : List (BitVec 8)) (flaw : Bool)
  | cnpFlit (west : Bool) (data : List (BitVec 8))
  | cnpHello (west : Bool) (h : Hello)
  | cnpDreq (west : Bool)
  | cnpDresp (west : Bool) (t2 t3 : BitVec 64)
  | message (origin mtype : Nat) (body : List (BitVec 8))
  | spi (i cs mode period len v : Nat) (hold : Bool)
  | i2c (i speed cmd : Nat)
  | uart (v : BitVec 8)
  deriving DecidableEq, Repr

/-- A receive record a window queues (R157, R158): its 96 bytes and the beat it is visible from. -/
structure RxRec where
  bytes : List (BitVec 8)
  visible : Nat
  deriving DecidableEq, Repr

/-- A receive window (R143–R147, R158): the strand that armed it and whether its weave still runs, the channel, the ports, the range of the
first chip, the mode, whether a lane was ever granted, the records queued, and the last detection of each stream. -/
structure Window where
  strand : Nat
  live : Bool
  band : Nat
  ch : Nat
  sfc : Nat
  ports : BitVec 32
  opens : BitVec 64
  closes : BitVec 64
  ack : Bool
  mode : Nat
  home : Nat
  lateArm : Bool
  granted : Bool
  queue : List RxRec
  dets : Tbl (BitVec 64)
  deriving DecidableEq, Repr

/-- The states of a lane that is not IDLE (R148). -/
inductive LaneSt where
  | acq
  | hdr
  | pay
  | ship
  deriving DecidableEq, Repr

/-- A member of a lane (R150): the stream and what its detection measured. -/
structure Member where
  stream : Nat
  t1 : BitVec 64
  level : Nat
  psnr : Nat
  rssi : Nat
  phase : Nat
  deriving DecidableEq, Repr

/-- A codeword of a lane (R155, R156): whether its decoding has started, the iterations it may run, and whether it is decoded. -/
structure Codeword where
  started : Bool
  startQ : Nat
  allowed : Nat
  done : Bool
  deriving DecidableEq, Repr

/-- A lane that is not IDLE (R148–R161): the index of the sequence that fired (R146), its members, the port entries shipped to it, the header and echo block, the measured SNR and CFO,
the frame buffer, the post instant P in quanta, its codewords, the iterations of the last, the flags of its records, its own shipment
number, the shipments matched to it with the frame they brought, and the soft values shipped for codewords not yet started. -/
structure Lane where
  st : LaneSt
  win : Nat
  q : Nat
  t1 : BitVec 64
  level : Nat
  members : List Member
  remote : List (List (BitVec 8))
  hdr : Nat
  echo : Nat
  snr : Nat
  cfo : Nat
  fbuf : Option Nat
  p : Nat
  cws : List Codeword
  iter : Nat
  iterCut : Bool
  agcStep : Bool
  xc : Bool
  shipId : Nat
  ships : List (Nat × Nat)
  shipFrame : Option (List (BitVec 8))
  remoteOnly : Bool
  llrs : List (Nat × List (BitVec 8))
  deriving DecidableEq, Repr

/-- A record that will post at its instant (R157): in quanta, with its window, its lane if any, its RES unless it is decided at P, whether
the lane releases with it, and whether it is the record NONE. -/
structure RxPost where
  due : Nat
  win : Nat
  lane : Option Nat
  res : Option Nat
  release : Bool
  bytes : List (BitVec 8)
  deriving DecidableEq, Repr

/-- A feed that runs (R131, R132): the fields it took at its cell boundary, the cell it took effect in, and whether it is refused. -/
structure Feed where
  band : Nat
  base : Nat
  nco : BitVec 32
  link : Nat
  conv : Nat
  cell : Nat
  refused : Bool
  deriving DecidableEq, Repr

/-- The modes of an AGC (R140). -/
inductive AgcMode where
  | fast
  | slow
  | frozen
  deriving DecidableEq, Repr

/-- The AGC of a stream (R139–R142): gain code, FAST updates in a row within ±1 dB, freeze power and the mean power last measured in 0.25 dB. -/
structure Agc where
  mode : AgcMode
  gain : Nat
  run : Nat
  freeze : Int
  power : Int
  deriving DecidableEq, Repr

/-- What the census counts of a stream in a cell (R167): firings, lane grants, and whether the AGC re-froze. -/
structure CenCount where
  det : Nat
  lanes : Nat
  step : Bool
  deriving DecidableEq, Repr

/-- A time of erased samples (R137, R165, R186), in quanta: of the feeds of receive link `src` (0–7), at the release from its buffer, or of the RX
ports `ports` blanked by TX port `src` − 8, at the antenna; up to `stop`, or not ended. -/
structure Gap where
  src : Nat
  ports : BitVec 32
  start : Nat
  stop : Option Nat
  deriving DecidableEq, Repr

/-- The streams a feed produces (R131): from `first` on, `count` of them, with the feed's band and link. -/
structure StreamRun where
  first : Nat
  count : Nat
  band : Nat
  link : Nat
  deriving DecidableEq, Repr

/-- A cell whose census block is still to be written (R166–R169): its number, SEQ, whether the Hoop was unlocked in it, what was counted, the streams
that existed as it began and as it ended, and the times of erased samples. -/
structure CenCell where
  cell : Nat
  seq : Nat
  unlocked : Bool
  counts : Tbl CenCount
  before : List StreamRun
  runs : List StreamRun
  gaps : List Gap
  deriving DecidableEq, Repr

/-- The receive array (R130–R171): running feeds, link alignment and lane locks, windows, lanes, records to post, the frame buffers' bytes
keyed handle × 1,024 + offset, the AGCs, the census, the number of the next shipment, and the LEMC phase each receive link (0–7) and transmit
link (8–15) is aligned to, the times of erased samples, the streams as the present cell began, and the length of the frame in each buffer. -/
structure Rxa where
  feeds : Tbl Feed
  wins : Tbl Window
  lanes : Tbl Lane
  posts : List RxPost
  fb : Tbl (BitVec 8)
  agc : Tbl Agc
  cenNow : Tbl CenCount
  cenPend : List CenCell
  cenSeq : Nat
  cenStart : Nat
  cenLost : Bool
  shipSeq : Nat
  lemc : Tbl Nat
  gaps : List Gap
  cenFrom : List StreamRun
  fbLen : Tbl Nat
  deriving DecidableEq, Repr

/-- Whose transmission it is (R182, R264, R209): a running weave's, one whose weave has ended, or the beacon builder's. -/
inductive TxOwner where
  | strand (k : Nat)
  | orphan (k : Nat)
  | beacon
  deriving DecidableEq, Repr

/-- How a port ends a transmission (R183): not yet, in full, cut at an instant, suppressed, link down or stopped at an instant (quanta). -/
inductive PortEnd where
  | live
  | full
  | cut (t : Nat)
  | supp
  | down (t : Nat)
  | stop (t : Nat)
  deriving DecidableEq, Repr

/-- One port of a transmission: whether its PA enable has come due, how it ended, and the segment its airtime is reserved in (R188). -/
structure TxPort where
  port : Nat
  started : Bool
  ended : PortEnd
  seg : Nat
  deriving DecidableEq, Repr

/-- What a transmission sends (R176): a frame of a buffer with its TYPE, an ACK's header and echo block, or a frame's bytes. -/
inductive TxFrame where
  | buf (h typ : Nat)
  | ack (hdr echo : Nat)
  | bytes (typ : Nat) (l : List (BitVec 8))
  deriving DecidableEq, Repr

/-- An armed transmission (R176–R183): its chips, attenuation, airtime reserved, flags, and the instant its record posts (quanta). -/
structure Tx where
  owner : TxOwner
  ports : List TxPort
  band : Nat
  ch : Nat
  sfc : Nat
  mod : Nat
  code : Nat
  frame : TxFrame
  t1 : BitVec 64
  nc : Nat
  tc : Nat
  atten : Nat
  air : Nat
  clamp : Bool
  clip : Bool
  recheck : Bool
  aborted : Bool
  cutAt : BitVec 64
  due : Nat
  deriving DecidableEq, Repr

/-- A transmit record that waits for its strand's ring (R263). -/
structure TxRec where
  strand : Nat
  handle : Nat
  record : RxRec
  deriving DecidableEq, Repr

/-- The clearing port (R192–R196): the instants (quanta) of the last capture and the last fall, the instant up to which CLR_TIME has counted,
and the part of a unit not yet counted. -/
structure Clr where
  capture : Nat
  fall : Nat
  accFrom : Nat
  accPart : Nat
  deriving DecidableEq, Repr

/-- The transmit chain (R172–R200): transmissions by handle, records posted and not yet in a ring, airtime keyed (64n + k) × 16 + slot, the segment number of each band and the
cells since it began, the instant the PA enable of a port ends (quanta), the superframe each port was last tested in, and the clearing
port. -/
structure Txc where
  txs : Tbl Tx
  recs : List TxRec
  used : Tbl Nat
  segNo : Tbl Nat
  segCells : Tbl Nat
  paOff : Tbl Nat
  tested : Tbl Nat
  clr : Clr
  deriving DecidableEq, Repr

/-- A message of the Canopy (R453): its MTYPE, its destination, its body, and the flits of it sent. -/
structure Msg where
  mtype : Nat
  dest : Nat
  body : List (BitVec 8)
  deriving DecidableEq, Repr

/-- A control flit that waits for a free slot (R441, R442): MARK, HELLO, DREQ, or DRESP with t2. -/
inductive Ctl where
  | mark
  | hello
  | dreq
  | dresp (t2 : BitVec 64)
  deriving DecidableEq, Repr

/-- A message that is leaving (R453): destination, MSEQ, the index of its next flit, and the bytes not yet sent. -/
structure CnpTx where
  dest : Nat
  mseq : Nat
  fidx : Nat
  rest : List (BitVec 8)
  deriving DecidableEq, Repr

/-- A Canopy port (R441–R449), East or West: control flits waiting, the DATA credit of the ring it leaves by, the message that is leaving, the
neighbour's last HELLO and the cell it came in, the cells in a row in which the conditions of R449 have held, the superframe it proposes to
unwrap at, when its DREQ left, the last exchanges (twice d, R442) and their mean d. -/
structure CnpPort where
  ctl : List Ctl
  credit : Nat
  cur : Option CnpTx
  nb : Option Hello
  nbCell : Nat
  okRun : Nat
  prop : Option Nat
  t1 : Option (BitVec 64)
  dlys : List Int
  mean : Int
  deriving DecidableEq, Repr

/-- What is known of a position (R447): the cell of its last HELLO, its distances by the East and the West port, and the master it follows. -/
structure CnpPeer where
  cell : Nat
  distE : Option Nat
  distW : Option Nat
  master : Nat
  deriving DecidableEq, Repr

/-- A message being reassembled (R454): origin, MSEQ, the next FIDX, its bytes, HTIME when flit 0 arrived, and whether FLAST has come. -/
structure Reasm where
  origin : Nat
  mseq : Nat
  next : Nat
  bytes : List (BitVec 8)
  since : BitVec 64
  last : Bool
  deriving DecidableEq, Repr

/-- The MARK used in a cell (R444): its HOPS, whether it came by the West port (the E ring), and the discipline, rate and lock before it was
used, in case a better one of the cell follows. -/
structure MarkUse where
  hops : Nat
  west : Bool
  sync : HoopSync
  rate : Int
  lock : Nat
  deriving DecidableEq, Repr

/-- A stored DIGEST of a peer (R460): the superframe it was sent in and its body. -/
structure PeerDigest where
  sf : Nat
  body : List (BitVec 8)
  deriving DecidableEq, Repr

/-- The Canopy (R435–R463): messages waiting to leave, the next MSEQ, the ports, the positions heard, the MARK used in this cell and the MTQ last received, marks
missed in a row, cells in a row without a MARK or HELLO of another position and whether one came in this cell, whether a master is followed, the
cell of the last HELLO in position conflict, messages being reassembled, the peers' digests, the superframe from which sealed messages may
leave once the Hoop has been LOCKED, whether a backward step holds them back, the cell of the last sealed message and those sealed in it. -/
structure Cnp where
  outQ : List Msg
  mseq : Nat
  east : CnpPort
  west : CnpPort
  peers : Tbl CnpPeer
  used : Option MarkUse
  mtq : Nat
  missRun : Nat
  silent : Nat
  heard : Bool
  led : Bool
  conflict : Option Nat
  reasm : List Reasm
  digs : Tbl PeerDigest
  sealFrom : Option Nat
  sealHold : Bool
  sealCell : Nat
  sealCount : Nat
  deriving DecidableEq, Repr

/-- The border (R411–R434): the Bough tables by entry index, the next-hop entries (BGH_NH_HI:BGH_NH_LO), the scrubber's next entry, the H2D ring
served last, and the write-backs of ring 16·direction + r not yet signalled with the beat of its time-out (direction 1 is D2H). -/
structure Bdr where
  ent : Tbl (BitVec 32)
  nh : Tbl (BitVec 64)
  scrub : Nat
  rr : Nat
  coal : Tbl (Nat × Nat)
  deriving DecidableEq, Repr

/-- A line of the Grove cache (R315–R319): the record and its bytes, whether it is dirty, the beat of its last use, the strand that holds its
lock, the beat its fetch ends in, whether a word of it cannot be corrected (R317), and whether its fetch ends with no record in the way
(R316). -/
structure GLine where
  idx : Nat
  data : List (BitVec 8)
  dirty : Bool
  used : Nat
  lock : Option Nat
  fetch : Nat
  bad : Bool
  void : Bool
  deriving DecidableEq, Repr

/-- A write-back queued for the journal (R321). -/
structure WriteBack where
  idx : Nat
  image : List (BitVec 8)
  deriving DecidableEq, Repr

/-- An entry of the heard table (R327). -/
structure HeardE where
  addr : Nat
  sf : Nat
  cell : Nat
  nport : Nat
  count : Nat
  rssi : Nat
  snr : Nat
  ports : List (BitVec 8)
  deriving DecidableEq, Repr

/-- A host-access operation in progress (R329): the status it completes with, the record read, the index taken. -/
structure HaOp where
  status : Nat
  data : Option (List (BitVec 8))
  idx : Option Nat
  deriving DecidableEq, Repr

/-- The Grove (R310–R331): the cache keyed set × 16 + way, the write-back queue of 512 entries and the write-backs that wait for a place in it, with the
steps done of the oldest and the sequence number, the host-access operation, the heard table keyed set × 8 + way, OK records and their frames
that wait for it, whether a FLUSH drains, the LFSRs that draw a victim of the cache and of the heard table (R542), and of the sweeper the next
record of the pass in progress and the superframe the last pass began in (R326). -/
structure Grv where
  lines : Tbl GLine
  wb : List WriteBack
  wbWait : List WriteBack
  wbStep : Nat
  seq : Nat
  ha : Option HaOp
  heard : Tbl HeardE
  heardQ : List (List (BitVec 8) × List (BitVec 8))
  flushing : Bool
  lfsr : BitVec 16
  hrdLfsr : BitVec 16
  sweep : Option Nat
  sweepSf : Option Nat
  deriving DecidableEq, Repr

/-- A half of a persistent slot (R343): type 0 is EMPTY. -/
structure Half where
  typ : Nat
  mask : Nat
  gen : Nat
  key : List (BitVec 8)
  deriving DecidableEq, Repr

/-- A persistent slot (R343–R349): ACTIVE, PENDING or RETIRING as PEND_ST says, the mode and operand of the swap, whether it is decided, and the
superframe it takes effect in; after a swap in mode NOW its beat with the half that was ACTIVE in that beat (R348). -/
structure KSlot where
  act : Half
  other : Half
  st : Nat
  mode : Nat
  operand : Nat
  decided : Bool
  swapSf : Nat
  now : Option (Nat × Half)
  deriving DecidableEq, Repr

/-- What a Heartwood command in progress does at its completion (R347, R364, R372): nothing; MREG k extended with data; a slot's PENDING half
filled; a swap committed in a mode with its operand; a PENDING half cancelled; a slot erased; HWD_WRAP_CFG of a WSEL naming a slot or none;
the working-key cache flushed; bytes written to DRAM, which an abort leaves undefined or not begun. -/
inductive HwdFx where
  | none
  | extend (k : Nat) (d : List (BitVec 8))
  | fill (m : Nat) (h : Half)
  | commit (m mode operand : Nat)
  | cancel (m : Nat)
  | erase (m : Nat)
  | wrap (w : Nat) (m : Option Nat)
  | flush
  | write (a : Nat) (d : List (BitVec 8)) (torn : Bool)
  deriving DecidableEq, Repr

/-- An entry of the working-key cache (R354): the address, the blob's header and V, the key, and the order of its last use. -/
structure WKey where
  addr : Nat
  hdr : List (BitVec 8)
  v : List (BitVec 8)
  key : List (BitVec 8)
  used : Nat
  deriving DecidableEq, Repr

/-- A KEYREQ of the unwrap class in flight (R355, R357): its blob, the key it yields if it succeeds, the delivery beat, whether it fills the cache,
and whether it unwraps or awaits an unwrap in flight. -/
structure Unwrap where
  addr : Nat
  hdr : List (BitVec 8)
  v : List (BitVec 8)
  key : Option (List (BitVec 8))
  due : Nat
  fill : Bool
  own : Bool
  deriving DecidableEq, Repr

/-- Heartwood (R332–R374): the measurement registers, whether the identities exist, the slots, the working-key cache keyed set × 8 + way with
its use counter, the unwraps in flight, the AON tamper latch with its cause, the grid points of the unwrap credits counted (R356), the ZEROISED
or TAMPERED state to stay until the next cold start (R363; 0 for none), and what the command in progress does at its completion. -/
structure Hwd where
  mreg : List (List (BitVec 8))
  ident : Bool
  slots : Tbl KSlot
  cache : Tbl WKey
  useSeq : Nat
  unwraps : List Unwrap
  latch : Bool
  aonCause : Nat
  grid : Nat
  gone : Nat
  fx : HwdFx
  deriving DecidableEq, Repr

/-- An entry of the seen cache (R231). -/
structure SeenE where
  origin : Nat
  fseq : Nat
  since : BitVec 64
  deriving DecidableEq, Repr

/-- The MAC assists (R208–R231): the seen cache keyed set × 8 + way. -/
structure Mas where
  seen : Tbl SeenE
  ofsOld : Nat
  ofsSf : Nat
  deriving DecidableEq, Repr

/-- An item of a Plait queue (R379): its bytes, and the numbers of its wide words that cannot be corrected (R392). -/
structure QItem where
  bytes : List (BitVec 8)
  poison : List Nat
  deriving DecidableEq, Repr

/-- A Plait queue (R375–R392): its items, oldest first, both copies of the write and the read pointer in wide words (copy B complemented), and
the wide words its wide side freed in a beat; its disabling counts as such a beat (R377). -/
structure Queue where
  items : List QItem
  wpA : BitVec 18
  wpB : BitVec 18
  rpA : BitVec 18
  rpB : BitVec 18
  freedBeat : Nat
  freed : Nat
  deriving DecidableEq, Repr

/-- The Plait queues (R375–R392), and for each FC_IN pin the beat after its last edge (R387). -/
structure Plq where
  queues : Tbl Queue
  fcEdge : Tbl Nat
  deriving DecidableEq, Repr

/-- A configuration of a shaper context (R393). -/
structure ShpCfg where
  en : Bool
  rate : Nat
  depth : Nat
  ovh : Nat
  air : Nat
  ackc : Bool
  dq : Nat
  qmax : Nat
  deriving DecidableEq, Repr

/-- A packet the shaper holds (R382, R393, R400): its destination, PKIND, cost, SPILL, ENQ_CELL, payload, and pool buffer. -/
structure Packet where
  dst : Nat
  pkind : Nat
  cost : Nat
  spill : Bool
  enq : Nat
  payload : List (BitVec 8)
  buf : Nat
  deriving DecidableEq, Repr

/-- A context's place on a wheel (R396): coarse or fine, its due refill cell, and when it entered its bucket. -/
structure Sched where
  coarse : Bool
  due : Nat
  order : Nat
  deriving DecidableEq, Repr

/-- A shaper context (R393–R396): its configuration and the staged one, TOKENS, LAST, the packets held, and its place on a wheel. -/
structure ShpCtx where
  cfg : ShpCfg
  staged : Option ShpCfg
  tokens : Int
  last : Nat
  held : List Packet
  sched : Option Sched
  deriving DecidableEq, Repr

/-- The downlink shaper (R393–R404): the contexts, the refill cell count, the order of entry into the wheels, the status a context
operation in progress completes with, and whether the last write of SHP_CTX_CFG_2 and _3 set a reserved bit (R404). -/
structure Shp where
  ctxs : Tbl ShpCtx
  cell : Nat
  order : Nat
  op : Option Nat
  resv2 : Bool
  resv3 : Bool
  deriving DecidableEq, Repr

/-- A Seedfall session (R478–R482): session number, image address, F, T, Z, the shaper context, NSYM, REPAIR, FWVER, the manifest, the source block
and the ESI next to send, whether that block is prepared and the manifest sent, and the cell from which a packet dropped may be admitted again. -/
structure Seed where
  session : Nat
  img : Nat
  f : Nat
  t : Nat
  z : Nat
  ctx : Nat
  nsym : Nat
  repair : Nat
  fwver : Nat
  manifest : List (BitVec 8)
  blk : Nat
  esi : Nat
  prepared : Bool
  manSent : Bool
  retryCell : Nat
  deriving DecidableEq, Repr

/-- The UPD block (R464–R489): the boot flash (erased bytes are 0xFF), the fuses blown, the image length of the staging in progress, whether the
staging slot's content is undefined (R487), and the Seedfall session. -/
structure Upd where
  flash : Tbl (BitVec 8)
  octal : Bool
  fuses : Nat
  stgLen : Nat
  stgUndef : Bool
  seed : Option Seed
  deriving DecidableEq, Repr

/-- A timer (R506, R508, R511): TOP and MATCH as in effect, the beat of its next tick, its output, and for a timer of a linked pair the beat in which a
period last completed with the count before it. -/
structure TimerSt where
  top : Nat
  mat : Nat
  due : Nat
  out : Bool
  was : Option (Nat × Nat)
  deriving DecidableEq, Repr

/-- The timers (R506–R512): each timer, the armed GO_AT, and the first beat after its arming. -/
structure Tmr where
  timers : Tbl TimerSt
  goAt : BitVec 64
  goDue : Nat
  deriving DecidableEq, Repr

/-- A device reset in progress (R534, R535): its kind (0 AON_POR, 1 COLD, 2 WARM, 3 SLEEP_EXIT), its causes, and the beat of the request that
governs. -/
structure ResetIn where
  kind : Nat
  cause : Nat
  since : Nat
  deriving DecidableEq, Repr

/-- Power and the always-on domain (R532–R550): the device reset in progress, SYS_RST_n and PERST# as they stand (true: low), the thermal trip, SLEEP, whether the
temperature alarm is armed, the RTC as beats × Hz up to `rtcFrom`, and which free value is the rate of the internal
RC oscillator (R536), and whether VDD_SEC has left its tolerance since the last reset (R345). -/
structure Pwr where
  rst : Option ResetIn
  sysRst : Bool
  perst : Bool
  trip : Bool
  sleep : Bool
  armed : Bool
  rtcAcc : Nat
  rtcFrom : Nat
  rc : Nat
  secLost : Bool
  deriving DecidableEq, Repr

/-- The low-speed peripherals (R566, R567): the UART's transmit and receive FIFOs and the frame being sent. -/
structure Low where
  tx : List (BitVec 8)
  rx : List (BitVec 8)
  sending : Option (BitVec 8)
  deriving DecidableEq, Repr

/-- The block: everything but the queue of waiting commands. -/
structure Block where
  clk : Clk
  regs : Tbl (BitVec 32)
  tie : Tie
  loHeld : Tbl (BitVec 32)
  hiLatch : Tbl (BitVec 32)
  hoop : Hoop
  stw : Stw
  dram : Dram
  ras : Ras
  wft : Wft
  rxa : Rxa
  txc : Txc
  cnp : Cnp
  bdr : Bdr
  grv : Grv
  hwd : Hwd
  mas : Mas
  plq : Plq
  shp : Shp
  icu : Icu
  tmr : Tmr
  upd : Upd
  pwr : Pwr
  low : Low
  pins : Pins
  fn : PciFn
  tap : Tap
  resp : Resp
  out : List Output
  deriving DecidableEq, Repr

/-- The machine: the block and the commands that wait, first in, first out. -/
structure State where
  blk : Block
  pending : List Instr
  deriving DecidableEq, Repr

/-! ### Reset (R14, R541) -/

/-- The configuration space as a reset leaves it (R409; log entry 30). -/
def PciFn.fresh : PciFn :=
  { busMaster := false, d3hot := false, msixEn := false, msixMask := false, pmeEn := false, msix := [], pba := [] }

/-- A Canopy port with nothing in progress (R463; log entry 4). -/
def CnpPort.fresh : CnpPort :=
  { ctl := [], credit := 0, cur := none, nb := none, nbCell := 0, okRun := 0, prop := none, t1 := none, dlys := [], mean := 0 }

/-- The Hoop after a reset (R85). -/
def Hoop.atReset : Hoop :=
  { sync := { passRun := 0, failRun := 0, holdStart := 0, integ := 0, ppsLast := none, ppsClosed := 0, ptpLast := none,
              cnpMissed := 0, pendStep := none, strobeFloor := 0, lastStrobe := 0 },
    warp := { bank := 0, warp := [], rd := [], wr := [], groups := [], nextCycle := 0, frozen := false, commitSf := 0, digAct := none,
              pendMm := none, digPend := [], scan := 0 },
    red := { ckptA := none, ckptB := none, ckptSel := false, journal := [], hbX := ⟨0, 0⟩, hbY := ⟨0, 0⟩, hbFrom := 0, hbStop := none, gap := false,
             gapEnd := 0, gapStrobes := [], dead := false, rearmed := false, proofFrom := none, proofCell := none, proofMism := 0 },
    lockLog := [] }

/-- The input pins as the board holds them while nothing asks otherwise (log entry 34). -/
def Pins.idle : Pins :=
  { clrReq := false, irq := 0, fcIn := 0, chainPos := 0, gpio := 0, ctsN := false, testEn := false, pwrGood := true, padLow := 0, tamperIn := 0 }

/-- The test access port in Test-Logic-Reset, IDCODE selected (IEEE 1149.1; log entry 56). -/
def Tap.idle : Tap := { st := .testLogicReset, ir := 0x01, irShift := 0, dr := [], cells := [], tdo := false, edges := [] }

/-- The block with every register at its reset value and every other part as R85, R170, R202, R232, R243, R272, R331, R374, R405, R463, R513, R528
and R541 give it. DRAM, the boot flash and the Heartwood slots are as an AON_POR finds them on a blank board; the AON_POR is still asserted, so the
next INTERNAL_RESET_RELEASE starts HTIME and runs the boot ROM (R534). -/
def Block.atReset : Block :=
  { clk := { beat := 0, htime := 0, frac := 0, rate := 0, cell := 0, free := 1 },
    regs := [], tie := { beat := 0, upd := [] }, loHeld := [], hiLatch := [], hoop := Hoop.atReset,
    stw := { deadline := none, abortAt := none, held := none, res := [], major := 0, minor := 0, patch := 0, build := 0, recVer := 0, restarts := 0,
             rrs := true, joins := [], ports := [] },
    dram := { bytes := [], poison := [], err := [] },
    ras := { log := [], logBeat := 0, logCount := 0, patrol0 := 0, patrol1 := 0, ondie := 0, tchk := 0, tchkWait := false, fixes := [], lastCe := none, err := [] },
    wft := { strands := [], engines := [], ibank := [], dmem := [], table := [], tblStores := [], tblPoison := [], ird := [], iwr := [], trd := 0,
             twr := 0, lastBeat := 0, lastStrand := 0 },
    rxa := { feeds := [], wins := [], lanes := [], posts := [], fb := [], agc := [], cenNow := [], cenPend := [], cenSeq := 0, cenStart := 0,
             cenLost := false, shipSeq := 0, lemc := [], cenFrom := [], fbLen := [],
             gaps := (List.range 8).map (fun l => { src := l, ports := 0, start := 0, stop := none }) },
    txc := { txs := [], recs := [], used := [], segNo := [], segCells := [], paOff := [], tested := [],
             clr := { capture := 0, fall := 0, accFrom := 0, accPart := 0 } },
    cnp := { outQ := [], mseq := 0, east := CnpPort.fresh, west := CnpPort.fresh, peers := [], used := none, mtq := 7, missRun := 0, silent := 0,
             heard := false, led := false, conflict := none, reasm := [], digs := [], sealFrom := none, sealHold := false, sealCell := 0,
             sealCount := 0 },
    bdr := { ent := [], nh := [], scrub := 0, rr := 0, coal := [] },
    grv := { lines := [], wb := [], wbWait := [], wbStep := 0, seq := 0, ha := none, heard := [], heardQ := [], flushing := false, lfsr := 1,
             hrdLfsr := 1, sweep := none, sweepSf := none },
    hwd := { mreg := List.replicate 8 (List.replicate 64 0), ident := false, slots := [], cache := [], useSeq := 0, unwraps := [], latch := false, aonCause := 0, grid := 0, gone := 0, fx := .none },
    mas := { seen := [], ofsOld := 0, ofsSf := 0 }, plq := { queues := [], fcEdge := [] },
    shp := { ctxs := [], cell := 0, order := 0, op := none, resv2 := false, resv3 := false },
    icu := { filt := [], pulse := [], wakes := [], wfe := [], claims := [], claimWords := [], stores := [], lastHost := none },
    tmr := { timers := [], goAt := 0, goDue := 0 },
    upd := { flash := [], octal := false, fuses := 0, stgLen := 0, stgUndef := false, seed := none },
    pwr := { rst := some { kind := 0, cause := 1, since := 0 }, sysRst := false, perst := false, trip := false, sleep := false, armed := true,
             rtcAcc := 0, rtcFrom := 0, rc := 0, secLost := false },
    low := { tx := [], rx := [], sending := none }, pins := Pins.idle, fn := PciFn.fresh, tap := Tap.idle, resp := .none, out := [] }

/-- The machine after reset: the block of `Block.atReset`, and no command waiting. -/
def State.reset : State := { blk := Block.atReset, pending := [] }

end Sys2Proof.Machine
end

