-- ==== Sys2Proof/Machine/Rs.lean ====
section
/-! DEFINITION. The symbol-correcting code of DRAM and the on-die RAMs (R514, R515). -/

namespace Sys2Proof.Machine

/-! ### The code (R514, R515) -/

/-- Multiplication by α in GF(2^8) modulo 0x11D. -/
def gfAlpha (x : Nat) : Nat := if x < 128 then 2 * x else (2 * x - 256) ^^^ 0x1D

/-- x·α^j. -/
def gfPow (x : Nat) : Nat → Nat
  | 0 => x
  | j + 1 => gfAlpha (gfPow x j)

/-- The syndromes S0 and S1 of c_0 to c_9. -/
def rsS0 (c : List Nat) : Nat := c.foldl (fun s x => s ^^^ x) 0
def rsS1 (c : List Nat) : Nat := (List.range 10).foldl (fun s j => s ^^^ gfPow (c.getD j 0) j) 0

/-- The check symbols c_1 and c_0 of eight data bytes: the remainder of d(x)·x^2 modulo x^2 + 3x + 2, by Horner's rule. -/
def rsRemainder (d : List Nat) : Nat × Nat :=
  d.foldr (fun x r => let t := r.1 ^^^ x; (r.2 ^^^ (t ^^^ gfAlpha t), gfAlpha t)) (0, 0)

/-- The codeword c_0 to c_9 of eight data bytes. -/
def rsEncode (d : List Nat) : List Nat := let r := rsRemainder d; r.2 :: r.1 :: d

/-- What a read of a word finds (R515). -/
inductive RsOut where
  | clean
  | corrected (pos : Nat) (x : Nat)
  | poisoned
  | bad
  deriving DecidableEq, Repr

/-- The decoder's outcome for the syndromes (R515). -/
def rsDecide (s0 s1 : Nat) : RsOut :=
  if s0 = 0 ∧ s1 = 0 then .clean
  else if s0 = 0 ∧ s1 = 3 then .poisoned
  else if s0 = 0 then .bad
  else match (List.range 10).find? (fun j => gfPow s0 j == s1) with
    | some j => .corrected j s0
    | none => .bad

/-- The codeword that the array holds: the stored word, its poison, and the error `e` over c_0 to c_9. -/
def rsArray (d : List Byte) (poison : Bool) (e : List Nat) : List Nat :=
  let c := rsEncode (d.map BitVec.toNat)
  (List.range 10).map (fun j => c.getD j 0 ^^^ e.getD j 0 ^^^ (if poison && decide (j < 2) then 1 else 0))

/-- The data bytes of a codeword, with symbol `pos` corrected by `x`. -/
def rsData (c : List Nat) (pos x : Nat) : List Byte :=
  (List.range 8).map (fun i => BitVec.ofNat 8 (c.getD (i + 2) 0 ^^^ (if i + 2 = pos then x else 0)))

/-- Two errors together; the empty list where nothing is left. -/
def errAdd (e f : List Nat) : List Nat :=
  let s := (List.range 10).map (fun j => e.getD j 0 ^^^ f.getD j 0)
  if s.all (· == 0) then [] else s

/-- The error that a symbol in error by `x` at position `j` is. -/
def errAt (j x : Nat) : List Nat := errAdd ((List.range 10).map (fun i => if i = j then x else 0)) []

end Sys2Proof.Machine
end

