-- ==== Sys2Proof/Machine/Tbl.lean ====
section
/-! DEFINITION. Reading and writing a sparse table in its canonical form: keys strictly rising, and no entry equal to what an
unlisted key reads as. Every memory of the block is such a table. -/

namespace Sys2Proof.Machine

/-- What a table holds at key `k`; `d` gives what an unlisted key holds. -/
def Tbl.get {α : Type} (d : Nat → α) : Tbl α → Nat → α
  | [], k => d k
  | (j, v) :: t, k => if j = k then v else if k < j then d k else Tbl.get d t k

/-- The table without its entry at `k`. -/
def Tbl.erase {α : Type} : Tbl α → Nat → Tbl α
  | [], _ => []
  | (j, v) :: t, k => if j = k then t else if k < j then (j, v) :: t else (j, v) :: Tbl.erase t k

/-- The table with the entry `v` listed at `k`. -/
def Tbl.insert {α : Type} : Tbl α → Nat → α → Tbl α
  | [], k, v => [(k, v)]
  | (j, w) :: t, k, v =>
    if j = k then (k, v) :: t else if k < j then (k, v) :: (j, w) :: t else (j, w) :: Tbl.insert t k v

/-- A key above `lo`, or any key where there is no bound. -/
def keyAbove : Option Nat → Nat → Bool
  | none, _ => true
  | some l, j => decide (l < j)

/-- All keys of the table are above `lo`, rising, and no entry holds the default. -/
def Tbl.wfFrom {α : Type} [DecidableEq α] (d : Nat → α) : Option Nat → Tbl α → Bool
  | _, [] => true
  | lo, (j, v) :: t => keyAbove lo j && decide (v ≠ d j) && Tbl.wfFrom d (some j) t

/-- The canonical form. -/
def Tbl.wf {α : Type} [DecidableEq α] (d : Nat → α) (t : Tbl α) : Bool := Tbl.wfFrom d none t

/-- The entries of a list that `Tbl.get` finds above the key `lo`, without those that hold the default. -/
def Tbl.canonFrom {α : Type} [DecidableEq α] (d : Nat → α) : Option Nat → Tbl α → Tbl α
  | _, [] => []
  | lo, (j, v) :: t =>
    if keyAbove lo j then
      if v = d j then Tbl.canonFrom d (some j) t else (j, v) :: Tbl.canonFrom d (some j) t
    else Tbl.canonFrom d lo t

/-- The canonical form of a table: what each key holds is the same (`Tbl.get_canon`), and equal tables are equal lists. -/
def Tbl.canon {α : Type} [DecidableEq α] (d : Nat → α) (t : Tbl α) : Tbl α := Tbl.canonFrom d none t

/-- The table after a write of `v` at `k`: the canonical form lists no default. -/
def Tbl.put {α : Type} [DecidableEq α] (d : Nat → α) (t : Tbl α) (k : Nat) (v : α) : Tbl α :=
  if v = d k then Tbl.canon d (Tbl.insert t k v) else Tbl.insert t k v

/-- The entry of a table of records, if the key holds one. -/
def Tbl.find {α : Type} : Tbl α → Nat → Option α
  | [], _ => none
  | (j, v) :: t, k => if j = k then some v else if k < j then none else Tbl.find t k

end Sys2Proof.Machine
end

