-- ==== Sys2Proof/Machine/Ops.lean ====
section
/-! DEFINITION. The named operations every meaning is written with: registers and their fields, the clocks, the error log,
DRAM, byte orders, free values, and what a command's outcome is. -/

namespace Sys2Proof.Machine

/-- What a meaning answers. -/
abbrev Out := Host.Outcome State Fault Refusal

/-- The block as a command finds it: the completion of the last host access and what the last command drove out are over. -/
def Block.start (b : Block) : Block := { b with resp := .none, out := [] }

/-- What a byte of DRAM that nothing has written reads as: 0 (DESIGN CHOICE, log entry 1). -/
def dramDefault : Nat → Byte := fun _ => 0

/-- What an erased byte of the boot flash reads as (R464). -/
def flErased : Nat → Byte := fun _ => 0xFF

/-- Every addressed memory of the block in its canonical form: what it holds stays as it is, and blocks that hold the same are equal. -/
def Block.canon (b : Block) : Block :=
  { b with
      regs := Tbl.canon regReset b.regs
      dram := { bytes := Tbl.canon dramDefault b.dram.bytes, poison := Tbl.canon (fun _ => false) b.dram.poison,
                err := Tbl.canon (fun _ => []) b.dram.err }
      wft := { b.wft with ibank := Tbl.canon (fun _ => 0) b.wft.ibank, dmem := Tbl.canon (fun _ => 0) b.wft.dmem,
                          table := Tbl.canon (fun _ => 0) b.wft.table }
      hoop := { b.hoop with warp := { b.hoop.warp with warp := Tbl.canon (fun _ => 0) b.hoop.warp.warp } }
      bdr := { b.bdr with ent := Tbl.canon (fun _ => 0) b.bdr.ent, nh := Tbl.canon (fun _ => 0) b.bdr.nh }
      upd := { b.upd with flash := Tbl.canon flErased b.upd.flash } }

/-- A command that runs: its effect on the block is `f`, its memories are kept in their canonical form, and the queue of waiting commands is
as it was. -/
def runCmd (s : State) (f : Block → Block) : Out := .next { s with blk := (f s.blk.start).canon }

/-- Apply `f` where `c` holds. -/
def Block.when (b : Block) (c : Bool) (f : Block → Block) : Block := if c then f b else b

/-! ### Registers (R7, R9–R12) -/

/-- The number of bits of a field. -/
def Fld.width (f : Fld) : Nat := f.hi + 1 - f.lo

/-- A field of a register value. -/
def fget (v : BitVec 32) (f : Fld) : Nat := (v.toNat >>> f.lo) % 2 ^ f.width

/-- A register value with a field replaced. -/
def fput (v : BitVec 32) (f : Fld) (x : Nat) : BitVec 32 :=
  let m : BitVec 32 := BitVec.ofNat 32 ((2 ^ f.width - 1) <<< f.lo)
  (v &&& ~~~m) ||| (BitVec.ofNat 32 (x <<< f.lo) &&& m)

/-- The BAR0 offset of the n-th register that holds a field. -/
def Fld.off (f : Fld) (n : Nat) : Nat := f.base + n * f.stride

/-- What the register at a BAR0 offset holds. -/
def Block.reg (b : Block) (off : Nat) : BitVec 32 := Tbl.get regReset b.regs off

/-- The register at a BAR0 offset replaced. -/
def Block.setReg (b : Block) (off : Nat) (v : BitVec 32) : Block := { b with regs := Tbl.put regReset b.regs off v }

/-- A field of the n-th register of a group. -/
def Block.rd (b : Block) (f : Fld) (n : Nat := 0) : Nat := fget (b.reg (f.off n)) f

/-- A field of the n-th register of a group written by the hardware. -/
def Block.wr (b : Block) (f : Fld) (x : Nat) (n : Nat := 0) : Block := b.setReg (f.off n) (fput (b.reg (f.off n)) f x)

/-- A flag is set. -/
def Block.bit (b : Block) (f : Fld) (n : Nat := 0) : Bool := b.rd f n != 0

/-- The updates of the present beat (R12); those of a beat that is over are forgotten. -/
def Block.tieNow (b : Block) : Tie := if b.tie.beat = b.clk.beat then b.tie else { beat := b.clk.beat, upd := [] }

/-- What the register at an offset held before this beat's updates, and what they leave in a cleared register (R12). -/
def Block.tieAt (b : Block) (off : Nat) : BitVec 32 × BitVec 32 := (Tbl.find b.tieNow.upd off).getD (b.reg off, 0)

/-- The hardware updates the n-th register of a group in this beat: `upd` is its update, applied to a cleared register beside (R12). -/
def Block.tieNote (b : Block) (off : Nat) (upd : BitVec 32 → BitVec 32) : Block :=
  let x := b.tieAt off
  { b with tie := { b.tieNow with upd := Tbl.insert b.tieNow.upd off (x.1, upd x.2) } }

/-- The hardware sets a flag. -/
def Block.set (b : Block) (f : Fld) (n : Nat := 0) : Block := (b.tieNote (f.off n) (fun v => fput v f 1)).wr f 1 n

/-- The hardware clears a field. -/
def Block.clr (b : Block) (f : Fld) (n : Nat := 0) : Block := b.wr f 0 n

/-- A flag takes a value. -/
def Block.flag (b : Block) (f : Fld) (v : Bool) (n : Nat := 0) : Block := b.wr f v.toNat n

/-- A register value whose counter field has counted, saturating at its greatest value (R12). -/
def fcount (v : BitVec 32) (f : Fld) (k : Nat) : BitVec 32 := fput v f (min (fget v f + k) (2 ^ f.width - 1))

/-- A counter field counts, saturating at its greatest value (R12). -/
def Block.incBy (b : Block) (f : Fld) (k : Nat) (n : Nat := 0) : Block :=
  (b.tieNote (f.off n) (fun v => fcount v f k)).wr f (min (b.rd f n + k) (2 ^ f.width - 1)) n

/-- A counter field counts one. -/
def Block.inc (b : Block) (f : Fld) (n : Nat := 0) : Block := b.incBy f 1 n

/-- A field that keeps the largest value seen. -/
def Block.maxTo (b : Block) (f : Fld) (x : Nat) (n : Nat := 0) : Block :=
  (b.tieNote (f.off n) (fun v => fput v f (max (fget v f) (min x (2 ^ f.width - 1))))).wr f (max (b.rd f n) (min x (2 ^ f.width - 1))) n

/-- A 64-bit quantity held in a pair of registers (R13). -/
def Block.rd64 (b : Block) (lo hi : Fld) (n : Nat := 0) : Nat := (b.reg (lo.off n)).toNat + (b.reg (hi.off n)).toNat * 2 ^ 32

/-- A 64-bit quantity stored into a pair of registers. -/
def Block.wr64 (b : Block) (lo hi : Fld) (v : Nat) (n : Nat := 0) : Block :=
  (b.setReg (lo.off n) (BitVec.ofNat 32 v)).setReg (hi.off n) (BitVec.ofNat 32 (v / 2 ^ 32))

/-- A two's complement field value as an integer. -/
def signed (w x : Nat) : Int := if 2 * (x % 2 ^ w) < 2 ^ w then (x % 2 ^ w : Nat) else (x % 2 ^ w : Nat) - (2 ^ w : Nat)

/-- An integer as the bits of a two's complement field. -/
def unsigned (w : Nat) (x : Int) : Nat := (x % (2 ^ w : Nat)).toNat

/-- A signed field. -/
def Block.rdS (b : Block) (f : Fld) (n : Nat := 0) : Int := signed f.width (b.rd f n)

/-- An integer held within ±(2^(w−1) − 1). -/
def satSym (w : Nat) (x : Int) : Int :=
  let m : Int := (2 ^ (w - 1) : Nat) - 1
  if x > m then m else if x < -m then -m else x

/-- What an access of the host answers. -/
def Block.answer (b : Block) (r : Resp) : Block := { b with resp := r }

/-- A value the command drives out of the block. -/
def Block.emit (b : Block) (o : Output) : Block := { b with out := b.out ++ [o] }

/-! ### Byte orders (R7) -/

/-- The n bytes of a quantity, least significant first. -/
def leBytes : Nat → Nat → List Byte
  | 0, _ => []
  | n + 1, v => BitVec.ofNat 8 v :: leBytes n (v / 256)

/-- The quantity little-endian bytes hold. -/
def leNat : List Byte → Nat
  | [] => 0
  | x :: l => x.toNat + 256 * leNat l

/-- The n bytes of a quantity, most significant first. -/
def beBytes (n v : Nat) : List Byte := (leBytes n v).reverse

/-- The quantity big-endian bytes hold. -/
def beNat (l : List Byte) : Nat := leNat l.reverse

/-- The bytes of a list of words, each little-endian. -/
def wordsBytes (l : List (BitVec 32)) : List Byte := l.flatMap (fun w => leBytes 4 w.toNat)

/-- `n` bytes of a list from position `a`; bytes beyond its end read as zero. -/
def slice (l : List Byte) (a n : Nat) : List Byte := (List.range n).map (fun i => l.getD (a + i) 0)

/-- The little-endian quantity of `n` bytes at position `a`. -/
def leAt (l : List Byte) (a n : Nat) : Nat := leNat (slice l a n)

/-- A list with `d` written over it from position `a`. -/
def splice (l : List Byte) (a : Nat) (d : List Byte) : List Byte :=
  (List.range l.length).map (fun i => if a ≤ i ∧ i < a + d.length then d.getD (i - a) 0 else l.getD i 0)

/-- The words that little-endian bytes hold. -/
def bytesWords (n : Nat) (l : List Byte) : List (BitVec 32) := (List.range n).map (fun i => BitVec.ofNat 32 (leAt l (4 * i) 4))

/-- Bit `i` of a number. -/
def bitOf (x i : Nat) : Bool := x.testBit i

/-- A bit field of a number. -/
def bitsOf (x hi lo : Nat) : Nat := (x >>> lo) % 2 ^ (hi + 1 - lo)

/-- The number of set bits among the lowest `n`. -/
def popcount (n x : Nat) : Nat := ((List.range n).filter (bitOf x)).length

/-- A keyed entry inserted into a list in ascending order of key. -/
def insertKey {α : Type} (x : Nat × α) : List (Nat × α) → List (Nat × α)
  | [] => [x]
  | y :: l => if x.1 < y.1 then x :: y :: l else y :: insertKey x l

/-- A list in ascending order of key, equal keys in their order. -/
def sortKey {α : Type} (l : List (Nat × α)) : List (Nat × α) := l.foldl (fun r x => insertKey x r) []

/-- The quotient rounded up. -/
def ceilDiv (a d : Nat) : Nat := (a + d - 1) / d

/-! ### Clocks (R8, R26, R45–R47) -/

/-- HTIME units that a beat of 4 ns adds are `htNum / htDen`: 4 ns × 2^32 per second is 2^25 / 5^9, corrected by the rate (R52). -/
def htDen : Nat := 5 ^ 9 * 10 ^ 12

/-- See `htDen`. -/
def htNum (rate : Int) : Nat := ((2 ^ 25 : Nat) * ((10 ^ 12 : Nat) + rate)).toNat

/-- The clocks `n` beats later. -/
def Clk.add (c : Clk) (n : Nat) : Clk :=
  let t := c.frac + n * htNum c.rate
  { c with beat := c.beat + n, htime := c.htime + BitVec.ofNat 64 (t / htDen), frac := t % htDen }

/-- The beats until HTIME is at or past `t` (0 when it is already). -/
def Clk.beatsTo (c : Clk) (t : BitVec 64) : Nat :=
  if t.toNat ≤ c.htime.toNat then 0
  else ceilDiv ((t.toNat - c.htime.toNat) * htDen - c.frac) (max 1 (htNum c.rate))

/-- Time passes until the beat `n`, if it lies ahead. -/
def Block.toBeat (b : Block) (n : Nat) : Block := { b with clk := b.clk.add (n - b.clk.beat) }

/-- Time passes until HTIME reaches `t`, if it lies ahead. -/
def Block.toTime (b : Block) (t : BitVec 64) : Block := { b with clk := b.clk.add (b.clk.beatsTo t) }

/-- One beat passes. -/
def Block.beatTick (b : Block) : Block := { b with clk := b.clk.add 1 }

/-- The cell number HTIME[63:24] (R46). -/
def cellOf (t : BitVec 64) : Nat := t.toNat / 2 ^ 24

/-- The superframe number HTIME[63:32] (R46). -/
def sfOf (t : BitVec 64) : Nat := t.toNat / 2 ^ 32

/-- The superframe now. -/
def Block.sf (b : Block) : Nat := sfOf b.clk.htime

/-- The beats of a number of milliseconds. -/
def msBeats (n : Nat) : Nat := n * 250000

/-- Seconds and a fraction as an HTIME (R45). -/
def htAt (sf frac : Nat) : BitVec 64 := BitVec.ofNat 64 (sf * 2 ^ 32 + frac)

/-! ### Free values (log entry 2) -/

/-- The free value now due. -/
def Block.freeNat (b : Block) : Nat := Config.freeNat b.clk.free

/-- The signed free value now due. -/
def Block.freeInt (b : Block) : Int := Config.freeInt b.clk.free

/-- `n` free bytes. -/
def Block.freeBytes (b : Block) (n : Nat) : List Byte := (List.range n).map (Config.freeByte b.clk.free)

/-- The free value has been taken: the next one is another. -/
def Block.took (b : Block) : Block := { b with clk := { b.clk with free := b.clk.free + 1 } }

/-! ### The error log (R522, R523) -/

/-- The KIND values of R523. -/
def kindCE : Nat := 1
def kindUE : Nat := 2
def kindACCESS : Nat := 3
def kindPTR : Nat := 4
def kindSHADOW : Nat := 5
def kindHOOP : Nat := 6

/-- The event an entry sets (R527): UE, PTR and SHADOW set UE_LOG, ACCESS sets ACCESS. -/
def Block.logEvent (b : Block) (kind : Nat) : Block :=
  if kind = kindUE ∨ kind = kindPTR ∨ kind = kindSHADOW then b.set RAS_EVT.UE_LOG
  else if kind = kindACCESS then b.set RAS_EVT.ACCESS else b

/-- The unread entries. -/
def Block.logUsed (b : Block) : Nat := (b.rd RAS_LOG_WR.SEQ + 65536 - b.rd RAS_LOG_RD.SEQ) % 65536

/-- The entries of the present beat, one PBUS_CLK cycle, that are still unread, the newest last. -/
def Block.logNow (b : Block) : List LogEntry :=
  let k := if b.ras.logBeat = b.clk.beat then min b.ras.logCount (min 64 b.logUsed) else 0
  (List.range k).filterMap (fun i => Tbl.find b.ras.log ((b.rd RAS_LOG_WR.SEQ + 65536 - k + i) % 64))

/-- The entries of the present cycle that stand after one of `unit`: entries of one cycle stand in ascending UNIT (R522). -/
def Block.logLater (b : Block) (unit : Nat) : List LogEntry := b.logNow.filter (fun e => decide (unit < e.unit))

/-- An entry put at sequence `s`. -/
def Block.logPut (b : Block) (s : Nat) (e : LogEntry) : Block :=
  { b with ras := { b.ras with log := Tbl.insert b.ras.log (s % 64) { e with seq := s % 65536 } } }

/-- RAS_LOG_WR moves past one more entry of the present cycle. -/
def Block.logCount (b : Block) : Block :=
  let k := if b.ras.logBeat = b.clk.beat then b.ras.logCount else 0
  { b with ras := { b.ras with logBeat := b.clk.beat, logCount := k + 1 } }.wr RAS_LOG_WR.SEQ (b.rd RAS_LOG_WR.SEQ + 1)

/-- An entry is discarded (R522). -/
def Block.logLost (b : Block) : Block := (b.inc RAS_LOST_CNT.all).set RAS_EVT.LOG_OVF

/-- An entry goes before `later`, which move up by one; with the log full the last of them is discarded. -/
def Block.logInsert (b : Block) (e : LogEntry) (later : List LogEntry) (full : Bool) : Block :=
  let l := e :: (if full then later.dropLast else later)
  let w := b.rd RAS_LOG_WR.SEQ + 65536 - later.length
  let b := ((List.range l.length).zip l).foldl (fun (b : Block) x => b.logPut (w + x.1) x.2) b
  if full then b.logLost else b.logCount

/-- A report reaches the RAS block: an entry is written, or discarded when the log is full (R522). -/
def Block.log (b : Block) (kind unit : Nat) (info : BitVec 32) (addr : Nat) (valA valB : BitVec 32) : Block :=
  let w := b.rd RAS_LOG_WR.SEQ
  let e : LogEntry := { seq := w, kind := kind, unit := unit, info := info, addr := BitVec.ofNat 64 addr, htime := b.clk.htime,
                        valA := valA, valB := valB }
  let full := b.logUsed == 64
  match b.logLater unit with
  | [] => if full then b.logLost else ((b.logPut w e).logCount).logEvent kind
  | x :: l => (b.logInsert e (x :: l) full).logEvent kind

/-- The requesters of an access error (R523). -/
def reqPCIe : Nat := 0
def reqWeft : Nat := 5
def reqDMA : Nat := 6
def reqHoop : Nat := 7

/-- The causes of an access error (R523): 0 size (R9), 1 unassigned (R30), 2 Grove area write (R310), 3 beyond DRAM (R408, R62). -/
def Block.accessErr (b : Block) (requester cause addr : Nat) : Block :=
  b.log kindACCESS 16 0 addr (BitVec.ofNat 32 (requester + cause * 16)) 0

/-- A Hoop fault is logged with its HOOP_EVT bit number; VAL_B is the standby cycle count (R523). -/
def Block.logHoop (b : Block) (ev : Nat) : Block := b.log kindHOOP 12 (BitVec.ofNat 32 ev) 0 0 (BitVec.ofNat 32 (2 * b.clk.beat))

/-- A word is poisoned, or a partial write meets poison (R518, R519); `flags` is byte 3 of INFO. -/
def Block.logUE (b : Block) (unit addr : Nat) (info flags : Nat) : Block :=
  b.log kindUE unit (BitVec.ofNat 32 (info + flags * 2 ^ 24)) addr 0 0

/-! ### Reads of protected words (R515, R518, R522, R523) -/

/-- A correction is counted, raises CE_HI at the threshold, and is logged under CE_LOG unless it repeats the last CE entry's UNIT and ADDR. -/
def Block.ceReport (b : Block) (unit addr info : Nat) : Block :=
  let b := (b.inc RAS_CE_CNT.all).inc RAS_UNIT_CE.all unit
  let thr := (b.reg RAS_CE_THR.all.base).toNat
  let b := b.when (thr != 0 && (b.reg RAS_CE_CNT.all.base).toNat == thr) (fun b => b.set RAS_EVT.CE_HI)
  if !b.bit RAS_CTL.CE_LOG || b.ras.lastCe == some (unit, addr) then b
  else
    let made := b.logUsed != 64 || !(b.logLater unit).isEmpty
    ({ b with ras := { b.ras with lastCe := if made then some (unit, addr) else b.ras.lastCe } }).log kindCE unit (BitVec.ofNat 32 info) addr 0 0

/-- INFO of a UE or CE entry: the syndromes, the symbol position, the channel and subchannel, and FLAGS. -/
def ceInfo (s0 s1 pos lane flags : Nat) : Nat := s0 + s1 * 2 ^ 8 + pos * 2 ^ 16 + lane * 2 ^ 20 + flags * 2 ^ 24

/-- The decoder's read of a word that holds `d`, is poisoned or not, and has the error `e` in the array (R515, R518); `flags` is byte 3 of INFO, SCRUB for a
scrub. A correction is counted and reported; an uncorrectable word is counted, logged and poisoned with the data as read; a read of a poisoned word is
counted. `store` keeps the word as the read leaves it: its data, its poison, and the error still in the array. -/
def Block.readWord (b : Block) (unit addr lane flags : Nat) (d : List Byte) (pois : Bool) (e : List Nat)
    (store : Block → List Byte → Bool → List Nat → Block) : Block :=
  if !pois && e.all (· == 0) then b
  else
    let c := rsArray d pois e
    let s0 := rsS0 c
    let s1 := rsS1 c
    match rsDecide s0 s1 with
    | .clean => store b (rsData c 10 0) false []
    | .corrected j x => store (b.ceReport unit addr (ceInfo s0 s1 j lane flags)) (rsData c j x) false (errAt j x)
    | .poisoned => store (b.inc RAS_UE_CNT.all) (rsData c 10 0) true []
    | .bad => (store (b.inc RAS_UE_CNT.all) (rsData c 10 0) true []).logUE unit addr (ceInfo s0 s1 15 lane 0) flags

/-! ### DRAM (R516, R519, R538) -/

/-- The bytes of DRAM installed and up (R538, R551). -/
def Block.dramSize (b : Block) : Nat :=
  b.rd DDRC_CFG.GIB * 2 ^ 30 * (b.rd DDRC_CFG.CH0_UP + b.rd DDRC_CFG.CH1_UP)

/-- One byte of DRAM. -/
def Block.dramByte (b : Block) (a : Nat) : Byte := Tbl.get dramDefault b.dram.bytes a

/-- `n` bytes of DRAM at `a`. -/
def Block.dramBytes (b : Block) (a n : Nat) : List Byte := (List.range n).map (fun i => b.dramByte (a + i))

/-- A little-endian quantity in DRAM. -/
def Block.dramLe (b : Block) (a n : Nat) : Nat := leNat (b.dramBytes a n)

/-- The 64-bit word at word index `w` is poisoned. -/
def Block.wordPoisoned (b : Block) (w : Nat) : Bool := Tbl.get (fun _ => false) b.dram.poison w

/-- Some word of the range is poisoned. -/
def Block.dramPoisoned (b : Block) (a n : Nat) : Bool :=
  n != 0 && (List.range ((a + n - 1) / 8 - a / 8 + 1)).any (fun i => b.wordPoisoned (a / 8 + i))

/-- The lines of DRAM bytes replaced, whatever their poison. -/
def dramPut : Tbl Byte → Nat → List Byte → Tbl Byte
  | t, _, [] => t
  | t, a, x :: l => dramPut (Tbl.put dramDefault t a x) (a + 1) l

/-- The DDR channel of a byte address while both channels are up (R516): address bit 7. -/
def Block.dramChannel (b : Block) (a : Nat) : Nat :=
  if b.bit DDRC_CFG.CH0_UP && b.bit DDRC_CFG.CH1_UP then a / 128 % 2 else if b.bit DDRC_CFG.CH1_UP then 1 else 0

/-- The error in the array at word index `w`. -/
def Block.dramErr (b : Block) (w : Nat) : List Nat := Tbl.get (fun _ => []) b.dram.err w

/-- A correction waits for its write-back, in place of an older one of the word (R518). -/
def Block.dramFix (b : Block) (a : Nat) (d : List Byte) (patrol : Bool) : Block :=
  { b with ras := { b.ras with fixes := b.ras.fixes.filter (fun f => f.addr != a) ++ [{ addr := a, data := d, patrol := patrol }] } }

/-- The word at index `w` of DRAM is read, with `extra` an error found by this read (R515, R518): a correction waits for its write-back, and until then
the error stays in the array. -/
def Block.dramFind (b : Block) (w flags : Nat) (extra : List Nat) : Block :=
  let a := 8 * w
  let ch := b.dramChannel a
  b.readWord ch a (2 * ch + a / 64 % 2) flags (b.dramBytes a 8) (b.wordPoisoned w) (errAdd (b.dramErr w) extra) (fun b d p e =>
    let b := { b with dram := { bytes := dramPut b.dram.bytes a d, poison := Tbl.put (fun _ => false) b.dram.poison w p,
                                err := Tbl.put (fun _ => []) b.dram.err w e } }
    if e.isEmpty then b else b.dramFix a d (flags == 1))

/-- A write of one 64-bit word or a part of it (R519): a whole word is a fresh codeword and clears poison; a part is merged with the word read, and a
partial write of a poisoned word is discarded and logged with MERGE. -/
def Block.dramWriteWord (b : Block) (a : Nat) (d : List Byte) : Block :=
  let w := a / 8
  if d.length = 8 then
    { b with dram := { bytes := dramPut b.dram.bytes a d, poison := Tbl.put (fun _ => false) b.dram.poison w false,
                       err := Tbl.put (fun _ => []) b.dram.err w [] } }
  else
    let b := if (b.dramErr w).isEmpty then b else b.dramFind w 0 []
    if b.wordPoisoned w then b.logUE (b.dramChannel a) (8 * w) 0 2
    else { b with dram := { b.dram with bytes := dramPut b.dram.bytes a d, err := Tbl.put (fun _ => []) b.dram.err w [] } }

/-- A write of bytes, word by word; `fuel` is at least the number of words touched. -/
def Block.dramWriteAux (b : Block) (a : Nat) (d : List Byte) : Nat → Block
  | 0 => b
  | fuel + 1 =>
    if d.isEmpty then b
    else
      let k := 8 - a % 8
      (b.dramWriteWord a (d.take k)).dramWriteAux (a + k) (d.drop k) fuel

/-- A write of `n` bytes at `a` drops a queued correction: of a word it writes, or, where patrol found it, of a line it writes (R518, R520). -/
def CeFix.dropped (f : CeFix) (a n : Nat) : Bool :=
  let g := if f.patrol then 64 else 8
  decide (n ≠ 0 ∧ a / g ≤ f.addr / g ∧ f.addr / g ≤ (a + n - 1) / g)

/-- A write of bytes to DRAM (R519). -/
def Block.dramWrite (b : Block) (a : Nat) (d : List Byte) : Block :=
  let b := b.dramWriteAux a d (d.length + 1)
  { b with ras := { b.ras with fixes := b.ras.fixes.filter (fun f => !f.dropped a d.length) } }

/-- A read of `n` bytes of DRAM at `a` by an agent of the device (R518): every word of it with an error or poison is decoded. -/
def Block.dramTouch (b : Block) (a n : Nat) : Block :=
  let ws := b.dram.poison.map (·.1) ++ (b.dram.err.map (·.1)).filter (fun w => !b.wordPoisoned w)
  (ws.filter (fun w => decide (n ≠ 0 ∧ a / 8 ≤ w ∧ w ≤ (a + n - 1) / 8))).foldl (fun (b : Block) w => b.dramFind w 0 []) b

/-! ### On-die words (R517, R518) -/

/-- The key of word `i` of unit `u`. -/
def odKey (u i : Nat) : Nat := u * 2 ^ 32 + i

/-- The words of unit `u`, `n` of them from `i` on, that have an error in the array. -/
def Block.odErrs (b : Block) (u i n : Nat) : List Nat :=
  (b.ras.err.map (·.1)).filterMap (fun k => if odKey u i ≤ k ∧ k < odKey u i + n then some (k - odKey u 0) else none)

/-- Those words are written whole: no error is left in them (R519). -/
def Block.odClear (b : Block) (u i n : Nat) : Block :=
  { b with ras := { b.ras with err := b.ras.err.filter (fun e => decide (e.1 < odKey u i ∨ odKey u i + n ≤ e.1)) } }

/-- Word `i` of unit `u` is read, with `extra` an error found by this read; a correction is written back at once (R518). -/
def Block.odFind (b : Block) (u i flags : Nat) (extra : List Nat) (d : List Byte) (pois : Bool) (store : Block → List Byte → Bool → Block) : Block :=
  let e := errAdd (Tbl.get (fun _ => []) b.ras.err (odKey u i)) extra
  if e.isEmpty && !pois then b
  else ({ b with ras := { b.ras with err := Tbl.erase b.ras.err (odKey u i) } }).readWord u i 0 flags d pois e (fun b d p _ => store b d p)

/-! ### The mailbox (R35–R41) -/

/-- Generic statuses (R41). -/
def mbxOK : Nat := 0
def mbxBAD_OPCODE : Nat := 0x8001
def mbxBAD_LENGTH : Nat := 0x8002
def mbxTIMEOUT : Nat := 0x8003
def mbxABORTED : Nat := 0x8004
def mbxNOT_READY : Nat := 0x8005
def mbxSTEWARD_RESET : Nat := 0x8006
def mbxDENIED : Nat := 0x8007

/-- PHASE values (R33). -/
def phIDLE : Nat := 0
def phBUSY : Nat := 1
def phDONE : Nat := 2
def phABORTING : Nat := 3

/-- Completion of the mailbox command (R40): STATUS, RES_LEN, TAG and the results with DONE and PHASE DONE together; RING and ABORT
read 0 again (R33). -/
def Block.mbxComplete (b : Block) (status : Nat) (res : List (BitVec 32)) : Block :=
  let b := { b with stw := { b.stw with deadline := none, abortAt := none, held := none, res := res }, hwd := { b.hwd with fx := .none } }
  ((((((b.wr SYS_MBX_STATUS.TAG (b.rd SYS_MBX_CMD.TAG)).wr SYS_MBX_STATUS.RES_LEN res.length).wr SYS_MBX_STATUS.STATUS status).set
    SYS_MBX_STATE.DONE).wr SYS_MBX_STATE.PHASE phDONE).clr SYS_MBX_DB.RING).clr SYS_MBX_DB.ABORT

/-- The argument words of the command. -/
def Block.mbxArg (b : Block) (n : Nat) : BitVec 32 := b.reg (SYS_MBX_ARG.all.off n)

/-- A 64-bit argument in two words, the low word first. -/
def Block.mbxArg64 (b : Block) (n : Nat) : Nat := (b.mbxArg n).toNat + (b.mbxArg (n + 1)).toNat * 2 ^ 32

/-- The steward holds a result for its completion. -/
def Block.mbxHold (b : Block) (status : Nat) (res : List (BitVec 32)) : Block := { b with stw := { b.stw with held := some (status, res) } }

/-- A command is with the steward: PHASE is BUSY or ABORTING, READY is 1, the opcode is this one and no result is held yet. -/
def Block.mbxServes (b : Block) (opcode : Nat) : Bool :=
  (b.rd SYS_MBX_STATE.PHASE == phBUSY || b.rd SYS_MBX_STATE.PHASE == phABORTING) && b.bit SYS_MBX_STATE.READY
    && b.rd SYS_MBX_CMD.OPCODE == opcode && b.stw.held.isNone

/-- The steward serves a mailbox command of `opcode`: with an ARG_LEN that `len` refuses it holds BAD_LENGTH, else it does `f`
(R41, R43). Where no such command is with the steward nothing happens. -/
def Block.mbxServe (b : Block) (opcode : Nat) (len : Nat → Bool) (f : Block → Block) : Block :=
  if b.mbxServes opcode then
    if b.rd SYS_MBX_CMD.ARG_LEN ≤ 64 ∧ len (b.rd SYS_MBX_CMD.ARG_LEN) = true then f b else b.mbxHold mbxBAD_LENGTH []
  else b

end Sys2Proof.Machine
end

