-- ==== Sys2Proof/Machine/Crypto.lean ====
section
/-! DEFINITION. The published algorithms the spec names, as their standards give them: AES (FIPS 197), CCM (RFC 3610), CMAC and AES-SIV
(RFC 5297), GCM (SP 800-38D), SHAKE256 (FIPS 202) and Ed448 (RFC 8032). The spec cites them by name (R74, R118, R340, R341, R455, R466);
log entry 22. -/

namespace Sys2Proof.Machine

/-! ### AES -/

/-- The S-box, 32 entries a row. -/
def aesS0 : List Nat := [99, 124, 119, 123, 242, 107, 111, 197, 48, 1, 103, 43, 254, 215, 171, 118, 202, 130, 201, 125, 250, 89, 71, 240, 173, 212, 162, 175, 156, 164, 114, 192]

/-- See `aesS0`. -/
def aesS1 : List Nat := [183, 253, 147, 38, 54, 63, 247, 204, 52, 165, 229, 241, 113, 216, 49, 21, 4, 199, 35, 195, 24, 150, 5, 154, 7, 18, 128, 226, 235, 39, 178, 117]

/-- See `aesS0`. -/
def aesS2 : List Nat := [9, 131, 44, 26, 27, 110, 90, 160, 82, 59, 214, 179, 41, 227, 47, 132, 83, 209, 0, 237, 32, 252, 177, 91, 106, 203, 190, 57, 74, 76, 88, 207]

/-- See `aesS0`. -/
def aesS3 : List Nat := [208, 239, 170, 251, 67, 77, 51, 133, 69, 249, 2, 127, 80, 60, 159, 168, 81, 163, 64, 143, 146, 157, 56, 245, 188, 182, 218, 33, 16, 255, 243, 210]

/-- See `aesS0`. -/
def aesS4 : List Nat := [205, 12, 19, 236, 95, 151, 68, 23, 196, 167, 126, 61, 100, 93, 25, 115, 96, 129, 79, 220, 34, 42, 144, 136, 70, 238, 184, 20, 222, 94, 11, 219]

/-- See `aesS0`. -/
def aesS5 : List Nat := [224, 50, 58, 10, 73, 6, 36, 92, 194, 211, 172, 98, 145, 149, 228, 121, 231, 200, 55, 109, 141, 213, 78, 169, 108, 86, 244, 234, 101, 122, 174, 8]

/-- See `aesS0`. -/
def aesS6 : List Nat := [186, 120, 37, 46, 28, 166, 180, 198, 232, 221, 116, 31, 75, 189, 139, 138, 112, 62, 181, 102, 72, 3, 246, 14, 97, 53, 87, 185, 134, 193, 29, 158]

/-- See `aesS0`. -/
def aesS7 : List Nat := [225, 248, 152, 17, 105, 217, 142, 148, 155, 30, 135, 233, 206, 85, 40, 223, 140, 161, 137, 13, 191, 230, 66, 104, 65, 153, 45, 15, 176, 84, 187, 22]

/-- SubBytes on one byte. -/
def aesSub (x : Nat) : Nat :=
  ([aesS0, aesS1, aesS2, aesS3, aesS4, aesS5, aesS6, aesS7].getD (x / 32 % 8) []).getD (x % 32) 0

/-- Multiplication by x in GF(2^8). -/
def xtime (x : Nat) : Nat := if x < 128 then 2 * x else (2 * x - 256) ^^^ 0x1B

/-- XOR of two lists, as long as the first. -/
def xorList (a b : List Nat) : List Nat := ((List.range a.length).zip a).map (fun x => x.2 ^^^ b.getD x.1 0)

/-- The next word of the key schedule from those before it, newest first. -/
def aesNextWord (nk i rc : Nat) (ws : List (List Nat)) : List Nat :=
  let t := ws.headD []
  let t' :=
    if i % nk = 0 then xorList ((t.drop 1 ++ t.take 1).map aesSub) [rc, 0, 0, 0]
    else if nk > 6 ∧ i % nk = 4 then t.map aesSub else t
  xorList t' (ws.getD (nk - 1) [])

/-- The round constant x^(n−1). -/
def aesRcon (n : Nat) : Nat := (List.range (n - 1)).foldl (fun r _ => xtime r) 1

/-- The words of the key schedule, oldest first. -/
def aesSchedule (key : List Nat) : List (List Nat) :=
  let nk := key.length / 4
  let w0 := ((List.range nk).map (fun i => (key.drop (4 * i)).take 4)).reverse
  ((List.range (4 * (nk + 7) - nk)).foldl (fun ws j => aesNextWord nk (nk + j) (aesRcon ((nk + j) / nk)) ws :: ws) w0).reverse

/-- MixColumns on one column. -/
def aesMix (c : List Nat) : List Nat :=
  let a (i : Nat) : Nat := c.getD (i % 4) 0
  (List.range 4).map (fun i => xtime (a i) ^^^ xtime (a (i + 1)) ^^^ a (i + 1) ^^^ a (i + 2) ^^^ a (i + 3))

/-- One round; the last leaves MixColumns out. -/
def aesRound (last : Bool) (rk s : List Nat) : List Nat :=
  let s := s.map aesSub
  let s := (List.range 16).map (fun i => s.getD ((i + 4 * (i % 4)) % 16) 0)
  let s := if last then s else (List.range 4).flatMap (fun c => aesMix ((s.drop (4 * c)).take 4))
  xorList s rk

/-- AES of one block under a key of 16 or 32 bytes. -/
def aesNat (key blk : List Nat) : List Nat :=
  let ws := aesSchedule key
  let nr := key.length / 4 + 6
  let rk (r : Nat) : List Nat := ((ws.drop (4 * r)).take 4).flatten
  (List.range nr).foldl (fun s r => aesRound (r + 1 == nr) (rk (r + 1)) s) (xorList blk (rk 0))

/-- AES of one 16-byte block. -/
def aes (key blk : List Byte) : List Byte := (aesNat (key.map BitVec.toNat) (blk.map BitVec.toNat)).map (BitVec.ofNat 8)

/-- XOR of two byte lists, as long as the first. -/
def xorBytes (a b : List Byte) : List Byte := ((List.range a.length).zip a).map (fun x => x.2 ^^^ b.getD x.1 0)

/-- The 16-byte blocks of a list, the last one filled with zeros. -/
def blocks16 (l : List Byte) : List (List Byte) := (List.range (ceilDiv l.length 16)).map (fun i => slice l (16 * i) 16)

/-! ### CCM (R118): M = 8, L = 2 -/

/-- Counter block i. -/
def ccmCtr (nonce : List Byte) (i : Nat) : List Byte := [1] ++ nonce ++ beBytes 2 i

/-- The authentication field T before encryption. -/
def ccmMac (key nonce aad msg : List Byte) : List Byte :=
  let b0 : List Byte := [if aad.isEmpty then 25 else 89] ++ nonce ++ beBytes 2 msg.length
  let a := if aad.isEmpty then [] else blocks16 (beBytes 2 aad.length ++ aad)
  ((a ++ blocks16 msg).foldl (fun x blk => aes key (xorBytes blk x)) (aes key b0)).take 8

/-- The message encrypted or decrypted. -/
def ccmCrypt (key nonce msg : List Byte) : List Byte :=
  xorBytes msg ((List.range (ceilDiv msg.length 16)).flatMap (fun i => aes key (ccmCtr nonce (i + 1))))

/-- The MIC of a plaintext. -/
def ccmTag (key nonce aad msg : List Byte) : List Byte := xorBytes (ccmMac key nonce aad msg) (aes key (ccmCtr nonce 0))

/-! ### CMAC and AES-SIV -/

/-- Doubling in GF(2^128). -/
def dbl (l : List Byte) : List Byte :=
  let v := 2 * beNat l
  beBytes 16 (if v < 2 ^ 128 then v else (v - 2 ^ 128) ^^^ 0x87)

/-- AES-CMAC. -/
def cmac (key msg : List Byte) : List Byte :=
  let k1 := dbl (aes key (List.replicate 16 0))
  let n := max 1 (ceilDiv msg.length 16)
  let head := (List.range (n - 1)).map (fun i => slice msg (16 * i) 16)
  let tail := msg.drop (16 * (n - 1))
  let last := if tail.length = 16 then xorBytes tail k1 else xorBytes (slice (tail ++ [0x80]) 0 16) (dbl k1)
  aes key (xorBytes last (head.foldl (fun x blk => aes key (xorBytes blk x)) (List.replicate 16 0)))

/-- S2V over associated strings and a plaintext. -/
def s2v (key : List Byte) (ad : List (List Byte)) (p : List Byte) : List Byte :=
  let d := ad.foldl (fun d a => xorBytes (dbl d) (cmac key a)) (cmac key (List.replicate 16 0))
  if 16 ≤ p.length then cmac key (p.take (p.length - 16) ++ xorBytes (p.drop (p.length - 16)) d)
  else cmac key (xorBytes (dbl d) (slice (p ++ [0x80]) 0 16))

/-- CTR under AES-SIV from V. -/
def sivCtr (key v msg : List Byte) : List Byte :=
  let q := beNat v &&& (2 ^ 128 - 1 - 2 ^ 63 - 2 ^ 31)
  xorBytes msg ((List.range (ceilDiv msg.length 16)).flatMap (fun i => aes key (beBytes 16 ((q + i) % 2 ^ 128))))

/-- AES-SIV encryption: V and the ciphertext. The key's first half authenticates, the second encrypts. -/
def sivSeal (key : List Byte) (ad : List (List Byte)) (p : List Byte) : List Byte × List Byte :=
  let h := key.length / 2
  let v := s2v (key.take h) ad p
  (v, sivCtr (key.drop h) v p)

/-- AES-SIV decryption: the plaintext where V verifies. -/
def sivOpen (key : List Byte) (ad : List (List Byte)) (v c : List Byte) : Option (List Byte) :=
  let h := key.length / 2
  let p := sivCtr (key.drop h) v c
  if s2v (key.take h) ad p = v then some p else none

/-! ### GCM (R455): a 12-byte nonce -/

/-- Multiplication in GF(2^128) as GCM orders bits. -/
def gcmMul (x y : Nat) : Nat :=
  ((List.range 128).foldl (fun (zv : Nat × Nat) i =>
    (if bitOf x (127 - i) then zv.1 ^^^ zv.2 else zv.1,
     if zv.2 % 2 = 1 then (zv.2 / 2) ^^^ (0xE1 * 2 ^ 120) else zv.2 / 2)) (0, y)).1

/-- The ciphertext or plaintext under the counter mode of GCM. -/
def gcmCrypt (key nonce msg : List Byte) : List Byte :=
  xorBytes msg ((List.range (ceilDiv msg.length 16)).flatMap (fun i => aes key (nonce ++ beBytes 4 (i + 2))))

/-- The tag over associated data and ciphertext. -/
def gcmTag (key nonce aad c : List Byte) : List Byte :=
  let h := beNat (aes key (List.replicate 16 0))
  let s := (blocks16 aad ++ blocks16 c ++ [beBytes 8 (8 * aad.length) ++ beBytes 8 (8 * c.length)]).foldl
    (fun y blk => gcmMul (y ^^^ beNat blk) h) 0
  xorBytes (beBytes 16 s) (aes key (nonce ++ beBytes 4 1))

/-! ### SHAKE256 -/

/-- The round constants of Keccak-f[1600]. -/
def keccakRC : List Nat :=
  [0x1, 0x8082, 0x800000000000808a, 0x8000000080008000, 0x808b, 0x80000001,
   0x8000000080008081, 0x8000000000008009, 0x8a, 0x88, 0x80008009, 0x8000000a,
   0x8000808b, 0x800000000000008b, 0x8000000000008089, 0x8000000000008003, 0x8000000000008002, 0x8000000000000080,
   0x800a, 0x800000008000000a, 0x8000000080008081, 0x8000000000008080, 0x80000001, 0x8000000080008008]

/-- The rotation of lane x + 5y. -/
def keccakRot : List Nat := [0, 1, 62, 28, 27, 36, 44, 6, 55, 20, 3, 10, 43, 25, 39, 41, 45, 15, 21, 8, 18, 2, 61, 56, 14]

/-- One round on the 25 lanes. -/
def keccakRound (a : List (BitVec 64)) (rc : Nat) : List (BitVec 64) :=
  let g (l : List (BitVec 64)) (i : Nat) : BitVec 64 := l.getD i 0
  let c := (List.range 5).map (fun x => g a x ^^^ g a (x + 5) ^^^ g a (x + 10) ^^^ g a (x + 15) ^^^ g a (x + 20))
  let d := (List.range 5).map (fun x => g c ((x + 4) % 5) ^^^ (g c ((x + 1) % 5)).rotateLeft 1)
  let a := (List.range 25).map (fun i => g a i ^^^ g d (i % 5))
  -- rho and pi: lane (x, y) goes to (y, 2x + 3y)
  let b := (List.range 25).map (fun j =>
    let y' := j / 5
    let x' := j % 5
    let y := x'
    let x := (3 * y' + y) % 5
    -- 2x + 3y = y' (mod 5)  ⇔  x = 3y' + y (mod 5)
    (g a (x + 5 * y)).rotateLeft (keccakRot.getD (x + 5 * y) 0))
  let a := (List.range 25).map (fun i => g b i ^^^ (~~~(g b (i / 5 * 5 + (i + 1) % 5)) &&& g b (i / 5 * 5 + (i + 2) % 5)))
  match a with
  | l :: r => (l ^^^ BitVec.ofNat 64 rc) :: r
  | [] => []

/-- Keccak-f[1600]. -/
def keccakF (a : List (BitVec 64)) : List (BitVec 64) := keccakRC.foldl keccakRound a

/-- The lanes XORed with a block of 136 bytes. -/
def keccakAbsorb (a : List (BitVec 64)) (blk : List Byte) : List (BitVec 64) :=
  keccakF ((List.range 25).map (fun i => a.getD i 0 ^^^ BitVec.ofNat 64 (if i < 17 then leAt blk (8 * i) 8 else 0)))

/-- The message padded for SHAKE256. -/
def shakePad (m : List Byte) : List Byte :=
  let r := m.length % 136
  if r = 135 then m ++ [0x9F] else m ++ [0x1F] ++ List.replicate (134 - r) 0 ++ [0x80]

/-- `n` bytes of SHAKE256 of a message. -/
def shake256 (n : Nat) (m : List Byte) : List Byte :=
  let p := shakePad m
  let a := (List.range (p.length / 136)).foldl (fun a i => keccakAbsorb a (slice p (136 * i) 136)) (List.replicate 25 0)
  let out (a : List (BitVec 64)) : List Byte := (a.take 17).flatMap (fun l => leBytes 8 l.toNat)
  ((List.range (ceilDiv n 136)).foldl (fun (x : List (BitVec 64) × List Byte) _ => (keccakF x.1, x.2 ++ out x.1)) (a, [])).2.take n

/-! ### Ed448 -/

/-- The field prime and the group order. -/
def edP : Nat := 2 ^ 448 - 2 ^ 224 - 1
def edL : Nat := 2 ^ 446 - 13818066809895115352007386748515426880336692474882178609894547503885

/-- x^e mod p, `n` bits of e. -/
def powMod (n x e p : Nat) : Nat :=
  ((List.range n).foldl (fun (ra : Nat × Nat) i => (if bitOf e i then ra.1 * ra.2 % p else ra.1, ra.2 * ra.2 % p)) (1, x % p)).1

/-- A point in projective coordinates. -/
structure EdPt where
  x : Nat
  y : Nat
  z : Nat
  deriving DecidableEq, Repr

/-- The neutral element and the base point. -/
def edZero : EdPt := { x := 0, y := 1, z := 1 }
def edBase : EdPt :=
  { x := 224580040295924300187604334099896036246789641632564134246125461686950415467406032909029192869357953282578032075146446173674602635247710,
    y := 298819210078481492676017930443930673437544040154080242095928241372331506189835876003536878655418784733982303233503462500531545062832660,
    z := 1 }

/-- Addition of points: x² + y² = 1 − 39081 x² y². -/
def edAdd (s t : EdPt) : EdPt :=
  let p := edP
  let a := s.z * t.z % p
  let b := a * a % p
  let c := s.x * t.x % p
  let d := s.y * t.y % p
  let e := (p - 39081) * (c * d % p) % p
  let f := (b + p - e) % p
  let g := (b + e) % p
  let h := (s.x + s.y) * (t.x + t.y) % p
  { x := a * f % p * ((h + 2 * p - c - d) % p) % p, y := a * g % p * ((d + p - c) % p) % p, z := f * g % p }

/-- A multiple of a point. -/
def edMul (k : Nat) (s : EdPt) : EdPt :=
  ((List.range 456).foldl (fun (ra : EdPt × EdPt) i => (if bitOf k i then edAdd ra.1 ra.2 else ra.1, edAdd ra.2 ra.2)) (edZero, s)).1

/-- The 57 bytes of a point. -/
def edEncode (s : EdPt) : List Byte :=
  let zi := powMod 448 s.z (edP - 2) edP
  let x := s.x * zi % edP
  let y := s.y * zi % edP
  leBytes 56 y ++ [BitVec.ofNat 8 (x % 2 * 128)]

/-- The point 57 bytes encode, if any. -/
def edDecode (l : List Byte) : Option EdPt :=
  let y := leNat (l.take 56)
  let s := leAt l 56 1
  let p := edP
  if p ≤ y ∨ s % 128 ≠ 0 then none
  else
    let u := (y * y + p - 1) % p
    let v := (p - (39081 * (y * y % p) + 1) % p) % p
    let u3v := u * u % p * u % p * v % p
    let c := u3v * powMod 448 (u3v * u % p * u % p * (v * v % p) % p) ((p - 3) / 4) p % p
    let x := c
    if v * (x * x % p) % p ≠ u % p then none
    else if x = 0 ∧ s / 128 = 1 then none
    else some { x := if x % 2 = s / 128 then x else (p - x) % p, y := y, z := 1 }

/-- dom4 of pure Ed448 with an empty context. -/
def edDom : List Byte := [0x53, 0x69, 0x67, 0x45, 0x64, 0x34, 0x34, 0x38, 0, 0]

/-- The secret scalar of a 57-byte private key. -/
def edScalar (h : List Byte) : Nat :=
  let a := leNat (h.take 56)
  (a % 2 ^ 447 / 4 * 4) ||| 2 ^ 447

/-- The public key of a private key. -/
def edPublic (sk : List Byte) : List Byte := edEncode (edMul (edScalar (shake256 114 sk)) edBase)

/-- The signature of a message. -/
def edSign (sk msg : List Byte) : List Byte :=
  let h := shake256 114 sk
  let a := edScalar h
  let pk := edPublic sk
  let r := leNat (shake256 114 (edDom ++ h.drop 57 ++ msg)) % edL
  let rp := edEncode (edMul r edBase)
  let k := leNat (shake256 114 (edDom ++ rp ++ pk ++ msg)) % edL
  rp ++ leBytes 57 ((r + k * a) % edL)

/-- A signature verifies. -/
def edVerify (pk msg sig : List Byte) : Bool :=
  let rp := sig.take 57
  let s := leNat (sig.drop 57)
  if sig.length ≠ 114 ∨ edL ≤ s then false
  else
    match edDecode pk, edDecode rp with
    | some a, some r =>
      let k := leNat (shake256 114 (edDom ++ rp ++ pk ++ msg)) % edL
      edEncode (edMul (4 * s) edBase) == edEncode (edAdd (edMul 4 r) (edMul (4 * k) a))
    | _, _ => false

end Sys2Proof.Machine
end

