-- ==== Sys2Proof/Machine/Air.lean ====
section
/-! DEFINITION. The air interface as the device computes it (R86–R123): chips and instants, spreading sequences, the PHY header, the
Golay and LDPC codes, checks, frame lengths and the layout of MAC frames. -/

namespace Sys2Proof.Machine

/-! ### Instants

An instant of the air is counted in quanta of 2^-32 / (3 × 5^9) s: chips, DSP_CLK cycles, beats and HTIME units are all whole numbers of
them. -/

def qHt : Nat := 3 * 5 ^ 9
def qBeat : Nat := 3 * 2 ^ 25
def qDsp : Nat := 2 ^ 13 * 5 ^ 5

/-- The chip period of a profile (R86): 2.5 µs for L (0), 0.5 µs for H. -/
def tcQ (profile : Nat) : Nat := if profile = 0 then 15 * 2 ^ 22 * 1000 else 3 * 2 ^ 22 * 1000

/-- An HTIME as an instant. -/
def htQ (t : BitVec 64) : Nat := t.toNat * qHt

/-- The DSP_CLK sample nearest to an instant (R48): samples lie at whole numbers of DSP_CLK cycles of HTIME; of two as near the later (log entry
52). -/
def nearSample (q : Nat) : Nat := (q + qDsp / 2) / qDsp

/-- The instant of the DSP_CLK sample an armed HTIME resolves to (R48). -/
def armQ (t : BitVec 64) : Nat := nearSample (htQ t) * qDsp

/-- The present instant, at the start of the HTIME unit. -/
def Block.nowQ (b : Block) : Nat := htQ b.clk.htime

/-- Time passes until an instant, if it lies ahead. -/
def Block.toQ (b : Block) (q : Nat) : Block := b.toTime (BitVec.ofNat 64 (ceilDiv q qHt))

/-- The first beat at least 24 ns after now or the one after it, which of the two being open (R158, log entry 2). -/
def Block.visibleBeat (b : Block) : Nat := b.clk.beat + 6 + b.freeNat % 2

/-- The spreading factor of an SF_CODE 0–6 (R60, R90). -/
def sfOfCode (c : Nat) : Nat := 2 ^ (3 + c)

/-! ### Spreading (R90–R92) -/

/-- P_SF of R91, by SF_CODE. -/
def pSF (c : Nat) : Nat := [2, 2, 4, 4, 4, 4, 2].getD c 1

/-- The polynomials of R91, by SF_CODE and q. -/
def seqPoly (c q : Nat) : Nat :=
  ([[0x00B, 0x00D], [0x013, 0x019], [0x025, 0x029, 0x02F, 0x037], [0x043, 0x061, 0x067, 0x073], [0x083, 0x0C1, 0x089, 0x091],
    [0x11D, 0x12B, 0x12D, 0x14D], [0x211, 0x221]].getD c []).getD q 0

/-- Bits a_0 … of R90, newest first: n ones, then each the XOR of those the polynomial names. -/
def mSeqRev (n poly : Nat) : Nat → List Bool
  | 0 => []
  | k + 1 =>
    let l := mSeqRev n poly k
    if k < n then true :: l
    else ((List.range n).foldl (fun x i => x ^^ (bitOf poly i && l.getD (n - 1 - i) false)) false) :: l

/-- The spreading sequence (R90): true for the chip −1. -/
def spreadSeq (c q : Nat) : List Bool := (mSeqRev (3 + c) (seqPoly c q) (sfOfCode c - 1)).reverse ++ [false]

/-- The sequence index of R92. -/
def seqIndex (cell ch ofs sfc : Nat) : Nat := (cell + ch + ofs) % pSF sfc

/-! ### Checks (R98, R108, R120) -/

/-- CRC-8 of R98 over bits 0–15, from an initial value. -/
def crc8 (init x : Nat) : Nat :=
  (List.range 16).foldl (fun c i =>
    let c' := c * 2 % 256
    if bitOf c 7 != bitOf x i then c' ^^^ 7 else c') init

/-- The 24-bit header with its CRC8 (R96, R98). -/
def hdrWithCrc (h : Nat) : Nat := h % 65536 + crc8 0xFF h * 65536

/-- The 24-bit echo block with its ECRC (R120). -/
def echoWithCrc (e : Nat) : Nat := e % 65536 + crc8 0x5A e * 65536

/-- One byte into the CRC-32 of R108. -/
def crc32Byte (c : Nat) (x : Byte) : Nat :=
  (List.range 8).foldl (fun c _ => if c % 2 = 1 then (c / 2) ^^^ 0xEDB88320 else c / 2) (c ^^^ x.toNat)

/-- The CRC-32 of IEEE 802.3 (R108). -/
def crc32 (l : List Byte) : Nat := (l.foldl crc32Byte 0xFFFFFFFF) ^^^ 0xFFFFFFFF

/-- A MAC frame whose last four bytes are its FCS (R108). -/
def fcsOk (l : List Byte) : Bool := decide (4 ≤ l.length) && leAt l (l.length - 4) 4 == crc32 (l.take (l.length - 4))

/-! ### The PHY header (R96–R100) -/

def hType (h : Nat) : Nat := bitsOf h 1 0
def hLen (h : Nat) : Nat := bitsOf h 11 2
def hCode (h : Nat) : Nat := bitsOf h 14 12
def hMod (h : Nat) : Nat := bitsOf h 15 15

def tyDATA : Nat := 0
def tyACK : Nat := 1
def tyBEACON : Nat := 2
def tySHORT : Nat := 3

/-- A header a receiver keeps (R100): its CRC8 passes and LEN of a frame lies in 14–1,020. -/
def hdrOk (h : Nat) : Bool :=
  h / 65536 == crc8 0xFF h && (hType h == tyACK || (decide (14 ≤ hLen h) && decide (hLen h ≤ 1020)))

/-- An echo block whose ECRC passes (R120). -/
def echoOk (e : Nat) : Bool := e / 65536 == crc8 0x5A e

/-- The rows of B (R99), bit j of a row being column j. -/
def golayRows : List Nat :=
  [0b101000111011, 0b110100011101, 0b111010001110, 0b101101000111, 0b110110100011, 0b111011010001,
   0b111101101000, 0b101110110100, 0b100111011010, 0b100011101101, 0b110001110110, 0b011111111111]

/-- The 24 bits of the Golay codeword of u (R99): information bits 0–11, parity bits 12–23. -/
def golay (u : Nat) : Nat :=
  u % 4096 + 4096 * ((List.range 12).foldl (fun p i => if bitOf u i then p ^^^ golayRows.getD i 0 else p) 0)

/-- The two codewords of a 24-bit block (R99). -/
def golayBlock (h : Nat) : List Nat := [golay h, golay (h / 4096)]

/-- The information bits whose codeword lies within three bits of the received one (the code corrects three errors); else none. -/
def golayDecode (r : Nat) : Option Nat :=
  let r := r % 2 ^ 24
  if golay r = r then some (r % 4096) else (List.range 4096).find? (fun u => decide (popcount 24 (golay u ^^^ r) ≤ 3))

/-- A 24-bit block as decoded from its two received codewords; a half that no codeword lies near reads as the free value `d` (the spec does
not say what the decoder yields there, log entry 2). -/
def golayBlockDecode (r0 r1 d : Nat) : Nat := (golayDecode r0).getD (d % 4096) + 4096 * (golayDecode r1).getD (d / 4096 % 4096)

/-! ### The payload code (R101–R106) -/

/-- BG-A for CODE 0–3, BG-B for 4–7 (R101). -/
def isBgB (code : Nat) : Bool := decide (4 ≤ code)

/-- The lifting Z (R101). -/
def codeZ (code : Nat) : Nat := 16 * 2 ^ (code % 4)

/-- Parity rows m (R103). -/
def codeRows (code : Nat) : Nat := if isBgB code then 8 else 12

/-- Information block columns kb (R103). -/
def codeKb (code : Nat) : Nat := if isBgB code then 16 else 12

/-- Information bits K of a codeword (R101). -/
def codeK (code : Nat) : Nat := codeKb code * codeZ code

/-- Codewords C of a frame of `len` bytes (R102). -/
def numCw (code len : Nat) : Nat := ceilDiv (8 * len) (codeK code)

/-- The data bits L_r of codeword r (R102). -/
def cwLen (code len r : Nat) : Nat :=
  let c := numCw code len
  8 * len / c + (if r < 8 * len % c then 1 else 0)

/-- The first data bit of codeword r. -/
def cwStart (code len r : Nat) : Nat := (List.range r).foldl (fun a i => a + cwLen code len i) 0

/-- The coded bits transmitted up to and with codeword r (R106). -/
def codedTo (code len r : Nat) : Nat := cwStart code len (r + 1) + (r + 1) * codeRows code * codeZ code

/-- The coded bits Nb (R106). -/
def codedBits (code len : Nat) : Nat := 8 * len + numCw code len * codeRows code * codeZ code

/-- Payload symbols that `n` coded bits fill: 1 bit per symbol under BPSK, 2 under QPSK (R95). -/
def symsOf (mod n : Nat) : Nat := if mod = 0 then n else (n + 1) / 2

/-- The symbols of the payload field up to payload symbol `n`, the pilots before it included (R95). -/
def withPilots (n : Nat) : Nat := n + (n - 1) / 32

/-- The symbols of a frame (R94, R95): 108 for an ACK. -/
def frameSyms (typ code mod len : Nat) : Nat :=
  if typ = tyACK then 108 else 60 + withPilots (symsOf mod (codedBits code len))

/-- The chips of a frame (R94). -/
def frameChips (typ code mod len sfc : Nat) : Nat := frameSyms typ code mod len * sfOfCode sfc

/-- The shifts of BG-A for Z = 128 (R104); 255 marks an absent block. -/
def bgA : List (List Nat) :=
  [[57,255,3,255,94,255,255,40,255,112,255,19], [81,26,255,70,255,5,255,255,123,255,66,255],
   [255,99,44,255,17,255,108,255,255,31,255,86], [12,255,255,53,255,77,255,120,9,255,101,255],
   [255,64,255,255,38,255,91,255,58,255,2,115], [105,255,71,255,255,22,255,84,255,47,255,255],
   [255,14,255,97,125,255,36,255,255,60,88,255], [29,255,117,255,255,102,255,7,73,255,255,50],
   [255,83,255,8,61,255,255,95,255,126,255,24], [68,255,35,255,255,110,51,255,16,255,79,255],
   [255,4,255,119,255,255,74,255,42,255,33,100], [92,255,59,255,11,255,255,27,255,85,255,63]]

/-- The shifts of BG-B for Z = 128 (R105). -/
def bgB : List (List Nat) :=
  [[6,91,255,33,120,255,18,77,255,54,100,255,41,255,87,13], [110,255,25,68,255,3,96,255,49,255,15,82,255,124,37,255],
   [255,58,107,255,29,71,255,11,93,20,255,45,118,255,255,66], [39,2,255,114,80,255,55,99,255,255,62,8,255,75,21,255],
   [255,121,47,255,10,88,255,34,127,70,255,255,53,17,255,104], [84,255,63,19,255,116,28,255,5,255,90,36,255,109,48,255],
   [23,72,255,51,98,255,113,44,255,81,1,255,67,255,30,92], [255,35,86,255,57,14,255,103,60,26,255,122,9,78,255,43]]

/-- rot(v, s) of R103, as bits of a Z-bit number. -/
def rotZ (z v s : Nat) : Nat := (v >>> (s % z)) ||| ((v % 2 ^ (s % z)) <<< (z - s % z))

/-- The parity segments of a codeword's information bits `u` (filler 0 above its data bits), p[0] first (R106). -/
def ldpcParity (code u : Nat) : List Nat :=
  let z := codeZ code
  let m := codeRows code
  let x := if isBgB code then 4 else 6
  let bg := if isBgB code then bgB else bgA
  let lam := bg.map (fun row => ((List.range (codeKb code)).zip row).foldl (fun a js =>
    if js.2 = 255 then a else a ^^^ rotZ z (bitsOf u (js.1 * z + z - 1) (js.1 * z)) (js.2 * z / 128)) 0)
  let p0 := lam.foldl (fun a v => a ^^^ v) 0
  let step (acc : List Nat) (i : Nat) : List Nat :=
    let prev := acc.headD 0
    if i = 0 then (lam.getD 0 0 ^^^ rotZ z p0 1) :: acc
    else (lam.getD i 0 ^^^ prev ^^^ (if i = x then p0 else 0)) :: acc
  ((List.range (m - 1)).foldl step [p0]).reverse

/-- The bits of a number, lowest first. -/
def bitsList (n x : Nat) : List Bool := (List.range n).map (bitOf x)

/-- The coded bits of a MAC frame in transmission order (R106, R107). -/
def codedStream (code : Nat) (frame : List Byte) : List Bool :=
  let v := leNat frame
  let len := frame.length
  (List.range (numCw code len)).flatMap (fun r =>
    let n := cwLen code len r
    let u := (v >>> cwStart code len r) % 2 ^ n
    bitsList n u ++ (ldpcParity code u).flatMap (bitsList (codeZ code)))

/-- Symbols: bit 0 is b under BPSK; b0 + 2 × b1 under QPSK, plus 4 (R93). -/
def symbolsOf (mod : Nat) : List Bool → List Nat
  | [] => []
  | [x] => if mod = 0 then [x.toNat] else [x.toNat + 4]
  | x :: y :: l => if mod = 0 then x.toNat :: symbolsOf mod (y :: l) else (x.toNat + 2 * y.toNat + 4) :: symbolsOf mod l

/-- A pilot after every 32nd payload symbol that another follows (R95). -/
def addPilots (mod : Nat) (l : List Nat) : List Nat :=
  ((List.range l.length).zip l).flatMap (fun x =>
    if (x.1 + 1) % 32 = 0 ∧ x.1 + 1 < l.length then [x.2, if mod = 0 then 0 else 4] else [x.2])

/-- Preamble, SFD and the symbols of header blocks (R93, R94). -/
def headSymbols (blocks : List Nat) : List Nat :=
  List.replicate 8 0 ++ [1, 1, 0, 1] ++ (blocks.flatMap golayBlock).flatMap (fun c => (bitsList 24 c).map Bool.toNat)

/-- The symbols of a frame (R94). -/
def frameSymbols (hdr mod : Nat) (frame : List Byte) : List Nat :=
  headSymbols [hdrWithCrc hdr] ++ addPilots mod (symbolsOf mod (codedStream (hCode hdr) frame))

/-- The symbols of an ACK (R94, R120). -/
def ackSymbols (hdr echo : Nat) : List Nat := headSymbols [hdrWithCrc hdr, echoWithCrc echo]

/-- The value of a symbol (R93) as an angle in eighths of a turn. -/
def symPhase (x : Nat) : Nat := if x < 4 then 4 * (x % 2) else [1, 3, 7, 5].getD (x - 4) 0

/-- The chips of the symbols under the spreading sequence `c` (R89): x_k = d_m × c_i × j^(k mod 4), in eighths of a turn. A symbol has a multiple of four
chips, so k and i are equal modulo 4. -/
def chipsOf (c : List Bool) (symbols : List Nat) : List Nat :=
  let i4 := (List.range c.length).zip c
  symbols.flatMap (fun x => i4.map (fun e => (symPhase x + (if e.2 then 4 else 0) + 2 * (e.1 % 4)) % 8))

/-! ### MAC frames (R110–R117, R123) -/

/-- What a MAC frame carries: its payload, its frame counter, the addresses an NDIR names (R299), whether it is sealed, and the bytes before
its payload as the associated data takes them, NEXT and TTL zero (R118). -/
structure FrameInfo where
  payOff : Nat
  payLen : Nat
  fcnt : Option Nat
  dst : Option Nat
  src : Option Nat
  origin : Option Nat
  sealed : Bool
  aad : List Byte
  deriving DecidableEq, Repr

/-- An address field whose bits [31:28] are zero (R110). -/
def addrAt (l : List Byte) (a : Nat) : Option Nat := if leAt l a 4 < 2 ^ 28 then some (leAt l a 4) else none

/-- A DATA frame of `len` bytes as R113–R116 lay it out; none where they discard it. -/
def parseData (l : List Byte) (len : Nat) : Option FrameInfo :=
  let f := leAt l 0 2
  let sec := bitOf f 0
  let flood := bitOf f 2
  let route := bitOf f 3
  let dig := bitOf f 4
  let o0 := if sec then 14 else 10
  let o1 := if flood then o0 + 7 else o0
  let rctl := leAt l o1 1
  let nhop := rctl % 16
  let o2 := if route then o1 + 1 + 4 * nhop else o1
  let o3 := if dig then o2 + 6 else o2
  let tail := if sec then 12 else 4
  let ttl := leAt l (o0 + 6) 1
  if f / 256 ≠ 0 ∨ (flood && (route || bitOf f 1)) ∨ 5 ≤ bitsOf f 7 5 ∨ len < o3 + tail then none
  else if route && (nhop == 0 || decide (8 < nhop) || decide (nhop < rctl / 16)) then none
  else if flood && decide (15 < ttl) then none
  else if route && (List.range nhop).any (fun i => (addrAt l (o1 + 1 + 4 * i)).isNone) then none
  else
    match addrAt l 2, addrAt l 6, (if flood then addrAt l o0 else some 0) with
    | some dst, some src, some org =>
      let a := l.take o3
      let a := if route then splice a o1 [BitVec.ofNat 8 nhop] else a
      let a := if flood then splice a (o0 + 6) [0] else a
      some { payOff := o3, payLen := len - tail - o3, fcnt := if sec then some (leAt l 10 4) else none, dst := some dst, src := some src,
             origin := if flood then some org else none, sealed := sec, aad := a }
    | _, _, _ => none

/-- A SHORT frame (R117): always sealed. -/
def parseShort (l : List Byte) (len : Nat) : Option FrameInfo :=
  let c := leAt l 0 1
  let o := if bitOf c 1 then 15 else 9
  if 64 ≤ c ∨ 5 ≤ bitsOf c 5 3 ∨ len < o + 12 then none
  else match addrAt l 1 with
    | some n => some { payOff := o, payLen := len - 12 - o, fcnt := some (leAt l 5 4), dst := some n, src := some n, origin := none,
                       sealed := true, aad := l.take o }
    | none => none

/-- A BEACON frame (R123): plaintext empty, the nonce's counter SFN[31:0]. -/
def parseBeacon (l : List Byte) (len : Nat) : Option FrameInfo :=
  let n := leAt l 29 1
  if leAt l 0 1 ≠ 0 ∨ 8 < n ∨ len ≠ 42 + 8 * n then none
  else some { payOff := 30 + 8 * n, payLen := 0, fcnt := some (leAt l 1 4), dst := none, src := none, origin := none, sealed := true,
              aad := l.take (30 + 8 * n) }

/-- A MAC frame of a TYPE. -/
def parseFrame (typ : Nat) (l : List Byte) (len : Nat) : Option FrameInfo :=
  if typ = tyDATA then parseData l len else if typ = tySHORT then parseShort l len
  else if typ = tyBEACON then parseBeacon l len else none

/-- The interface identifier of a mesh address (R112). -/
def iidOf (a : Nat) : List Byte :=
  [0, 0, BitVec.ofNat 8 (a / 2 ^ 24 % 16), 0xFF, 0xFE, BitVec.ofNat 8 (a / 2 ^ 16), BitVec.ofNat 8 (a / 2 ^ 8), BitVec.ofNat 8 a]

/-- The mesh address of an interface identifier, if it designates one (R112). -/
def addrOfIid (l : List Byte) : Option Nat :=
  if slice l 0 2 = [0, 0] ∧ leAt l 2 1 < 16 ∧ slice l 3 2 = [0xFF, 0xFE] then
    some (leAt l 2 1 * 2 ^ 24 + leAt l 5 1 * 2 ^ 16 + leAt l 6 1 * 2 ^ 8 + leAt l 7 1)
  else none

/-- The home device of a mesh address (R110). -/
def homeOf (a : Nat) : Nat := a / 2 ^ 25 % 8

end Sys2Proof.Machine
end

