-- ==== Sys2Proof/Machine/Digest.lean ====
section
/-! DEFINITION. CONFIG_DIGEST (R74). -/

namespace Sys2Proof.Machine

/-- CONFIG_DIGEST over the epoch number, H, the descriptors' words, the instructions of the engines, and the two images (R74). -/
def configDigest (epoch h : Nat) (desc : List (BitVec 32)) (code : List (BitVec 64)) (dwell region : List (BitVec 32)) : List Byte :=
  shake256 64 ("GRNCFG01".toList.map (fun c => BitVec.ofNat 8 c.toNat) ++ leBytes 2 epoch ++ leBytes 2 h ++ leBytes 4 (desc.length / 8)
    ++ wordsBytes desc ++ code.flatMap (fun w => leBytes 8 w.toNat) ++ wordsBytes dwell ++ wordsBytes region)

/-- The active CONFIG_DIGEST: after reset, that of the all-zero configuration. -/
def Block.digestAct (b : Block) : List Byte :=
  match b.hoop.warp.digAct with
  | some d => d
  | none => configDigest 0 0 [] (List.replicate 262144 0) (List.replicate 512 0) (List.replicate 64 0)

end Sys2Proof.Machine
end

