-- ==== Sys2Proof/Machine/Shared.lean ====
section
/-! DEFINITION. What the end of a weave does outside its strand (R264, R319, R348): its windows and transmissions, its Grove locks, and the
former halves of key slots that no weave can use any more. -/

namespace Sys2Proof.Machine

/-- The engine of a strand and the strand's number in it (R244). -/
def engOf (k : Nat) : Nat := k / 4
def subOf (k : Nat) : Nat := k % 4

/-! ### Windows and locks -/

/-- RXA_POOL_ST counts the lanes not IDLE and the peak (R171); RXA_WIN_ST the windows open. -/
def Block.rxCounts (b : Block) : Block :=
  ((b.wr RXA_POOL_ST.BUSY b.rxa.lanes.length).maxTo RXA_POOL_ST.PEAK b.rxa.lanes.length).wr RXA_WIN_ST.OPEN b.rxa.wins.length

/-- A window closes when its weave has ended and no lane or record of it is left (R145, R264). -/
def Block.winSweep (b : Block) : Block :=
  { b with rxa := { b.rxa with wins := b.rxa.wins.filter (fun e =>
      e.2.live || b.rxa.lanes.any (fun l => l.2.win == e.1) || b.rxa.posts.any (fun p => p.win == e.1)) } }.rxCounts

/-- The locks held, as GRV_LOCKS shows them. -/
def Block.lockCount (b : Block) : Block := b.wr GRV_LOCKS.LOCKS (b.grv.lines.filter (fun e => e.2.lock.isSome)).length

/-- Locks of a strand released (R319). -/
def Block.unlockAll (b : Block) (k : Nat) : Block :=
  let ls : Tbl GLine := b.grv.lines.map (fun (e : Nat × GLine) => (e.1, if e.2.lock == some k then { e.2 with lock := none } else e.2))
  { b with grv := { b.grv with lines := ls } }.lockCount

/-! ### Key slots (R343–R349) -/

def Half.empty : Half := { typ := 0, mask := 0, gen := 0, key := [] }
def KSlot.empty : KSlot := { act := Half.empty, other := Half.empty, st := 0, mode := 0, operand := 0, decided := false, swapSf := 0, now := none }

/-- Slot m. -/
def Block.slot (b : Block) (m : Nat) : KSlot := Tbl.get (fun _ => KSlot.empty) b.hwd.slots m

/-- HWD_SLOT_n and its generation and swap registers show a slot (R373). -/
def Block.slotShow (b : Block) (m : Nat) : Block :=
  let s := b.slot m
  let b := b.setReg (HWD_SLOT.all.off m) (BitVec.ofNat 32 (s.act.mask * 2 ^ 24 + s.act.typ * 2 ^ 16 + s.other.mask * 2 ^ 8 + s.mode * 32
    + s.other.typ * 4 + s.st))
  ((b.setReg (HWD_SLOT_GEN.all.off m) (BitVec.ofNat 32 s.act.gen)).setReg (HWD_SLOT_PGEN.all.off m) (BitVec.ofNat 32 s.other.gen)).setReg
    (HWD_SLOT_AT.all.off m) (BitVec.ofNat 32 s.operand)

/-- Slot m replaced. -/
def Block.setSlot (b : Block) (m : Nat) (s : KSlot) : Block :=
  { b with hwd := { b.hwd with slots := Tbl.put (fun _ => KSlot.empty) b.hwd.slots m s } }.slotShow m

/-- An operation on each of the 64 slots in turn, with what the slot then holds. -/
def Block.eachSlot (b : Block) (f : Block → Nat → KSlot → Block) : Block := (List.range 64).foldl (fun b m => f b m (b.slot m)) b

/-- The slot without its PENDING or RETIRING half. -/
def KSlot.drop (s : KSlot) : KSlot := { s with other := Half.empty, st := 0, mode := 0, operand := 0, decided := false, swapSf := 0 }

/-- A weave of a superframe before `sf` runs or is queued on some engine (R348). -/
def Block.earlierWeave (b : Block) (sf : Nat) : Bool :=
  b.wft.strands.any (fun e => match e.2.weave with | some w => decide (w.sf < sf) | none => false)
    || b.wft.engines.any (fun e => e.2.queue.any (fun q => decide (q.strobe.sf < sf)))

/-- Former halves that no earlier weave can use any more are erased (R348). -/
def Block.slotRetire (b : Block) : Block :=
  b.eachSlot (fun b m x => if x.st = 3 ∧ b.earlierWeave x.swapSf = false then b.setSlot m x.drop else b)

/-! ### The end of a weave -/

/-- The windows of strand `k` take no further detections, and their records not yet in the ring are discarded and counted (R264). -/
def Block.winsOver (b : Block) (k : Nat) : Block :=
  let lost := (b.rxa.wins.filter (fun e => e.2.strand == k && e.2.live)).foldl (fun n e => n + e.2.queue.length) 0
  let ws : Tbl Window := b.rxa.wins.map (fun (e : Nat × Window) => (e.1, if e.2.strand == k then { e.2 with live := false, queue := [] } else e.2))
  ({ b with rxa := { b.rxa with wins := ws } }.incBy WFT_CNT_ORPHAN.all lost (engOf k)).winSweep

/-- The transmissions of strand `k` radiate as armed; their records posted are discarded and counted, those to come will be (R264). -/
def Block.txsOver (b : Block) (k : Nat) : Block :=
  let lost := (b.txc.recs.filter (fun e => e.strand == k)).length
  let ts : Tbl Tx := b.txc.txs.map (fun (e : Nat × Tx) => (e.1, if e.2.owner == .strand k then { e.2 with owner := .orphan k } else e.2))
  { b with txc := { b.txc with txs := ts, recs := b.txc.recs.filter (fun e => e.strand != k) } }.incBy WFT_CNT_ORPHAN.all lost (engOf k)

/-- The end of a weave of strand `k` as the other blocks see it (R264, R319). The frame buffers it holds are free with it (R283). -/
def Block.weaveOver (b : Block) (k : Nat) : Block := ((b.winsOver k).txsOver k).unlockAll k

end Sys2Proof.Machine
end

