-- ==== Sys2Proof/Machine/WeftCore.lean ====
section
/-! DEFINITION. The strands of the Weft engines: registers, results and their beats, how an instruction issues (R244–R246, R273–R276,
R278), how a weave starts, faults and ends (R251–R254, R264–R268). -/

namespace Sys2Proof.Machine

/-! ### Strands and engines as held -/

/-- A strand that has run nothing since reset (R272). -/
def Strand.fresh : Strand :=
  { regs := [], preds := 1, pc := 0, weave := none, ending := false, ready := 0, wait := .none, dues := [], tks := [], seq := 0,
    lastDel := [], kh := [], ringHead := 0, ringCount := 0, fbufs := [], hovr := none, stopped := false, freeAt := 0 }

/-- An engine as reset leaves it (R272). -/
def Engine.fresh : Engine := { bank := 0, queue := [], swapSf := 0, hovrOpen := false, doorbells := 0, bellsDue := 0, bellsAt := 0 }

/-- Strand `k` (global number, R244). -/
def Block.strand (b : Block) (k : Nat) : Strand := Tbl.get (fun _ => Strand.fresh) b.wft.strands k

/-- Strand `k` replaced. -/
def Block.setStrand (b : Block) (k : Nat) (s : Strand) : Block :=
  { b with wft := { b.wft with strands := Tbl.put (fun _ => Strand.fresh) b.wft.strands k s } }

/-- Strand `k` changed. -/
def Block.onStrand (b : Block) (k : Nat) (f : Strand → Strand) : Block := b.setStrand k (f (b.strand k))

/-- Engine `n`. -/
def Block.engine (b : Block) (n : Nat) : Engine := Tbl.get (fun _ => Engine.fresh) b.wft.engines n

/-- Engine `n` changed. -/
def Block.onEngine (b : Block) (n : Nat) (f : Engine → Engine) : Block :=
  { b with wft := { b.wft with engines := Tbl.put (fun _ => Engine.fresh) b.wft.engines n (f (b.engine n)) } }

/-- The key of an instruction word. -/
def ibKey (n bank idx : Nat) : Nat := (n * 2 + bank) * 8192 + idx

/-- An instruction word of a bank (R248). -/
def Block.iword (b : Block) (n bank idx : Nat) : BitVec 64 := Tbl.get (fun _ => 0) b.wft.ibank (ibKey n bank idx)

/-- The device is in STANDBY, in which every strand is gated (R254, R548). -/
def Block.standby (b : Block) : Bool := b.rd PWR_STAT.STATE == 1

/-! ### Registers and results -/

/-- A general register as last written; w0 reads zero (R245). -/
def Strand.w (s : Strand) (r : Nat) : BitVec 64 := if r = 0 then 0 else Tbl.get (fun _ => 0) s.regs r

/-- A general register written; a write of w0 is discarded (R245, R276). -/
def Strand.setW (s : Strand) (r : Nat) (v : BitVec 64) : Strand :=
  if r = 0 then s else { s with regs := Tbl.put (fun _ => 0) s.regs r v }

/-- A predicate; p0 reads 1 (R245). -/
def Strand.p (s : Strand) (i : Nat) : Bool := if i = 0 then true else s.preds.getLsbD i

/-- A predicate written; a write of p0 is ignored (R245, R277). -/
def Strand.setP (s : Strand) (i : Nat) (v : Bool) : Strand :=
  if i = 0 then s
  else { s with preds := (s.preds &&& ~~~(BitVec.ofNat 8 (2 ^ i))) ||| (if v then BitVec.ofNat 8 (2 ^ i) else 0) }

/-- A result joins those not yet due, in order of their beats; of two due in one beat the later-issued is written last (R246). -/
def insertDue (d : Due) : List Due → List Due
  | [] => [d]
  | x :: l => if x.beat ≤ d.beat then x :: insertDue d l else d :: x :: l

/-- A synchronous result of register `r`, due in beat `beat`. -/
def Strand.result (s : Strand) (r : Nat) (v : BitVec 64) (beat : Nat) : Strand :=
  { s with dues := insertDue { beat := beat, reg := r, val := v } s.dues }

/-- The results due in beat `n` or before are written (R246, R278). -/
def Strand.settle (s : Strand) (n : Nat) : Strand :=
  (s.dues.filter (fun d => d.beat ≤ n)).foldl (fun s d => s.setW d.reg d.val) { s with dues := s.dues.filter (fun d => n < d.beat) }

/-- The first beat in which an instruction that reads register `r` can issue, as its results stand (R246). -/
def Strand.dueOf (s : Strand) (r : Nat) : Nat := if r = 0 then 0 else (s.dues.filter (fun d => d.reg = r)).foldl (fun m d => max m d.beat) 0

/-- An asynchronous instruction awaiting delivery names the register as its status register: its result is not yet due (R278). -/
def Strand.awaits (s : Strand) (r : Nat) : Bool := r != 0 && s.tks.any (fun t => t.2.rs == r)

/-- A ticket awaits delivery (R257). -/
def Strand.tkBusy (s : Strand) (t : Nat) : Bool := (Tbl.find s.tks t).isSome

/-- The KEYREQ of a key holder awaits delivery (R282). -/
def Strand.khBusy (s : Strand) (t : Nat) : Bool :=
  match Tbl.find s.tks t with
  | some x => x.unit == .keyreq
  | none => false

/-! ### Fields of an instruction word (R273, R277) -/

def iOp (w : BitVec 64) : Nat := bitsOf w.toNat 63 56
def iPG (w : BitVec 64) : Nat := bitsOf w.toNat 55 53
def iPN (w : BitVec 64) : Bool := bitOf w.toNat 52
def iRD (w : BitVec 64) : Nat := bitsOf w.toNat 51 47
def iRA (w : BitVec 64) : Nat := bitsOf w.toNat 46 42
def iRB (w : BitVec 64) : Nat := bitsOf w.toNat 41 37
def iSUB (w : BitVec 64) : Nat := bitsOf w.toNat 34 32
def iIMM (w : BitVec 64) : BitVec 32 := BitVec.ofNat 32 w.toNat
def iTK (w : BitVec 64) : Nat := bitsOf w.toNat 36 34
def iNB (w : BitVec 64) : Bool := bitOf w.toNat 33
def iDADDR (w : BitVec 64) : Nat := bitsOf w.toNat 31 16
def iAUX (w : BitVec 64) : Nat := bitsOf w.toNat 15 0

/-- The bits of the fields an instruction uses: an instruction with a bit outside them and outside [63:52] is ILLEGAL (R275). -/
def uRD : Nat := 0x1F * 2 ^ 47
def uRA : Nat := 0x1F * 2 ^ 42
def uRB : Nat := 0x1F * 2 ^ 37
def uPD : Nat := 7 * 2 ^ 47
def uPA : Nat := 7 * 2 ^ 42
def uPB : Nat := 7 * 2 ^ 37
def uSUB : Nat := 7 * 2 ^ 32
def uTK : Nat := 7 * 2 ^ 34
def uNB : Nat := 2 ^ 33
def uIMM : Nat := 2 ^ 32 - 1
def uDADDR : Nat := 0xFFFF * 2 ^ 16

/-- No field outside `used` is non-zero (R275). -/
def onlyUses (used : Nat) (w : BitVec 64) : Bool := (w &&& ~~~(BitVec.ofNat 64 (used ||| (0xFFF * 2 ^ 52)))) == 0

/-- The opcodes of the map of R284. -/
def opcodes : List Nat :=
  [0x00, 0x01, 0x02, 0x03, 0x04, 0x05, 0x06, 0x07, 0x08, 0x09, 0x0A, 0x0B, 0x0C,
   0x10, 0x11, 0x12, 0x13, 0x14, 0x15, 0x16, 0x17, 0x18, 0x19, 0x1A, 0x1B, 0x1C, 0x20, 0x21, 0x22, 0x23, 0x24,
   0x30, 0x31, 0x32, 0x33, 0x34, 0x35, 0x36, 0x40, 0x41, 0x42, 0x43, 0x44, 0x45, 0x46, 0x47, 0x48, 0x49, 0x4A, 0x4B,
   0x50, 0x51, 0x52, 0x53, 0x54, 0x55, 0x56, 0x58, 0x59, 0x5A, 0x5B, 0x5C, 0x5D,
   0x80, 0x81, 0x84, 0x85, 0x86, 0x88, 0x89, 0x8A, 0x8C, 0x90, 0x91]

/-! ### Starting a weave -/

/-- The bits of STRAND_EN (R270). -/
def Block.strandEn (b : Block) (k : Nat) : Bool := bitOf (b.rd WFT_CTL.STRAND_EN (engOf k)) (subOf k)

/-- The strand can take a strobe (R251): enabled, free, not stopped, no handover pending. -/
def Block.strandFree (b : Block) (k : Nat) : Bool :=
  let s := b.strand k
  b.strandEn k && s.weave.isNone && !s.stopped && s.hovr.isNone && decide (s.freeAt ≤ b.clk.beat)

/-- The key of a warp descriptor word (R59). -/
def warpKey (bank idx word : Nat) : Nat := (bank * 131072 + idx) * 8 + word

/-- A word of a warp descriptor. -/
def Block.warpWord (b : Block) (bank idx word : Nat) : BitVec 32 := Tbl.get (fun _ => 0) b.hoop.warp.warp (warpKey bank idx word)

/-- Two words side by side, `hi` in [63:32]. -/
def join32 (hi lo : BitVec 32) : BitVec 64 := hi ++ lo

/-- The registers at the start of a weave (R252): w16–w31 as they were, a result not yet due in one of them still to come in its beat (R246),
w1–w5 given, the others zero, p1–p7 zero, tickets free; the record ring and the key holders are empty (R263, R282). -/
def Strand.begin (s : Strand) (wv : Weave) (entry ready : Nat) (w1 w2 w3 w4 w5 : BitVec 64) : Strand :=
  let kept := s.regs.filter (fun e => 16 ≤ e.1)
  let s := { s with regs := kept, preds := 1, pc := entry, weave := some wv, ending := false, ready := ready, wait := .none,
                    dues := s.dues.filter (fun d => 16 ≤ d.reg), tks := [], lastDel := [], kh := [], ringHead := 0, ringCount := 0, fbufs := [] }
  ((((s.setW 1 w1).setW 2 w2).setW 3 w3).setW 4 w4).setW 5 w5

/-- The instruction bank of a weave (R251, R267): the active bank for slots from the superframe of the last swap on, else the former. -/
def Engine.bankFor (e : Engine) (sf : Nat) : Nat := if e.swapSf ≤ sf then e.bank else 1 - e.bank

/-- A weave of strobe `q` starts on strand `k`, its first instruction in beat `first`, `delay` beats late (R252, R253). -/
def Block.weaveStart (b : Block) (k : Nat) (q : Queued) (first delay : Nat) : Block :=
  let st := q.strobe
  let d := (List.range 8).map (b.warpWord st.bank st.idx)
  let w (i : Nat) : BitVec 32 := d.getD i 0
  let len := bitsOf (w 0).toNat 15 8
  let wv : Weave := { bank := q.bank, sf := st.sf, first := first, handover := false, desc := d,
                      slotEnd := st.slotStart + BitVec.ofNat 64 ((len + 1) * 2 ^ 24), timed := false }
  let w2 := st.node % 2 ^ 28 + st.late.toNat * 2 ^ 28 + st.unlocked.toNat * 2 ^ 29 + st.grperr.toNat * 2 ^ 30 + st.bank * 2 ^ 32
    + st.idx * 2 ^ 33
  let w3 := st.user.toNat + min st.slip 0xFFFF * 2 ^ 32 + min delay 0xFFFF * 2 ^ 48
  (b.onStrand k (fun s => s.begin wv st.entry first st.slotStart (BitVec.ofNat 64 w2) (BitVec.ofNat 64 w3)
    (join32 (w 2) (w 0)) (join32 0 (w 1)))).inc WFT_CNT_WEAVE.all (engOf k)

/-- A handover weave starts on strand `k` (R268): instruction 0 of the engine's new bank, w1 HTIME ACT_SF:0, w2 only HANDOVER. -/
def Block.hovrStart (b : Block) (k : Nat) (act : BitVec 64) (first : Nat) : Block :=
  let e := b.engine (engOf k)
  let sf := sfOf act
  let bank := if e.swapSf = sf then e.bank else 1 - e.bank
  let wv : Weave := { bank := bank, sf := sf, first := first, handover := true, desc := [], slotEnd := 0, timed := false }
  (b.onStrand k (fun s => { (s.begin wv 0 first act (BitVec.ofNat 64 (2 ^ 31)) 0 0 0) with hovr := none })).inc WFT_CNT_WEAVE.all (engOf k)

/-- A strobe is dropped (R254). -/
def Block.strobeDrop (b : Block) (n idx : Nat) : Block :=
  ((((b.set WFT_EVT.OVERRUN n).inc WFT_CNT_OVR.all n).wr WFT_OVR.VALID 1 n).wr WFT_OVR.INDEX idx n)

/-- A strobe reaches its engine in beat `at` (R251, R253, R254); `bank` is the instruction bank of its weave. -/
def Block.dispatch (b : Block) (st : Strobe) (bank arrive : Nat) : Block :=
  let n := st.engine
  let q : Queued := { strobe := st, bank := bank, arrived := arrive }
  if b.standby || b.rd WFT_CTL.STRAND_EN n == 0 then b.strobeDrop n st.idx
  else
    match (List.range 4).find? (fun s => b.strandFree (4 * n + s)) with
    | some s => b.weaveStart (4 * n + s) q (arrive + 5) 0
    | none =>
      if 8 ≤ (b.engine n).queue.length then b.strobeDrop n st.idx
      else b.onEngine n (fun e => { e with queue := e.queue ++ [q] })

/-! ### The end of a weave -/

/-- Every enabled strand of the engine has retired its handover: HANDOVER_DONE sets (R268). -/
def Block.hovrCheck (b : Block) (n : Nat) : Block :=
  let busy := (List.range 4).any (fun s =>
    let x := b.strand (4 * n + s)
    b.strandEn (4 * n + s) && (x.hovr.isSome || (match x.weave with | some wv => wv.handover | none => false)))
  if (b.engine n).hovrOpen && !busy then (b.onEngine n (fun e => { e with hovrOpen := false })).set WFT_EVT.HANDOVER_DONE n else b

/-- A strand whose weave retires in beat `n`: nothing of the weave is kept but its registers and the results still due in them. -/
def Strand.idle (s : Strand) (n : Nat) : Strand :=
  { s with weave := none, ending := false, wait := .none, tks := [], lastDel := [], kh := [], ringHead := 0,
           ringCount := 0, fbufs := [], freeAt := n + 1 }

/-- The weave of strand `k` retires in beat `n` (R264): its windows, transmissions, buffers and locks are let go, the ring and the key
holders are emptied, and the strand is free in the beat after. -/
def Block.retire (b : Block) (k n : Nat) : Block :=
  let b := b.weaveOver k
  let b := b.onStrand k (fun s => s.idle n)
  b.slotRetire.hovrCheck (engOf k)

/-- The weave ends: it retires now, or with the last delivery of its tickets (R264). -/
def Block.weaveEnd (b : Block) (k : Nat) : Block :=
  if (b.strand k).tks.isEmpty then b.retire k b.clk.beat
  else b.onStrand k (fun s => { s with ending := true, wait := .none })

/-- The stalled beats of a strand up to now are counted (R260). -/
def Block.stallAccrue (b : Block) (k : Nat) : Block :=
  match (b.strand k).wait with
  | .push q d rs since =>
    let now := b.clk.beat
    (b.incBy WFT_CNT_STALL.all (now - since) (engOf k)).onStrand k (fun s => { s with wait := .push q d rs (max since now) })
  | _ => b

/-- The codes of R265. -/
def fILLEGAL : Nat := 1
def fDMEM_RANGE : Nat := 2
def fTBL_RANGE : Nat := 3
def fPC_RANGE : Nat := 4
def fWDOG : Nat := 5
def fHOVR_LONG : Nat := 6

/-- The bank bit of WFT_FAULT_n: 1 for the former bank (R271). -/
def Block.formerBank (b : Block) (k : Nat) : Nat :=
  match (b.strand k).weave with
  | some wv => if wv.bank = (b.engine (engOf k)).bank then 0 else 1
  | none => 0

/-- A fault ends the weave as END does (R265): counted, FAULT set, the first fault since FAULT was cleared recorded, and the strand
stopped under FAULT_STOP. The stall of a QPUSH the weave waits in is over (R260). -/
def Block.weftFault (b : Block) (k code pc : Nat) : Block :=
  let n := engOf k
  let b := b.stallAccrue k
  let rec' := code * 2 ^ 24 + subOf k * 2 ^ 29 + 2 ^ 31 + b.formerBank k * 2 ^ 13 + pc % 8192
  let b := b.when (!b.bit WFT_FAULT.VALID n) (fun b => b.wr WFT_FAULT.all rec' n)
  let b := (b.inc WFT_CNT_FAULT.all n).set WFT_EVT.FAULT n
  let b := b.when (b.bit WFT_CTL.FAULT_STOP n) (fun b => b.onStrand k (fun s => { s with stopped := true }))
  b.weaveEnd k

/-! ### Issue -/

/-- One byte of engine `n`'s data memory (R249). -/
def Block.dmemByte (b : Block) (n a : Nat) : Byte := Tbl.get (fun _ => 0) b.wft.dmem (n * 65536 + a)

/-- Bytes of an engine's data memory. -/
def Block.dmemBytes (b : Block) (n a len : Nat) : List Byte := (List.range len).map (fun i => b.dmemByte n (a + i))

/-- Bytes written to a data memory, ascending from key `a`. -/
def dmemPut : Tbl Byte → Nat → List Byte → Tbl Byte
  | t, _, [] => t
  | t, a, x :: l => dmemPut (Tbl.put (fun _ => 0) t a x) (a + 1) l

/-- Bytes written to engine `n`'s data memory (R249). -/
def Block.dmemWrite (b : Block) (n a : Nat) (d : List Byte) : Block :=
  { b with wft := { b.wft with dmem := dmemPut b.wft.dmem (n * 65536 + a) d } }

/-- Claim words due by now reach the data memory, at offset 8 + 8s of the event area (R502). -/
def Block.claimSettle (b : Block) : Block :=
  let (now, later) := b.icu.claimWords.partition (fun c => c.due ≤ b.clk.beat)
  now.foldl (fun b c => b.dmemWrite (engOf c.strand) (b.rd ICU_TGT_CFG.AREA (engOf c.strand) * 64 + 8 + 8 * subOf c.strand)
    (leBytes 8 c.val.toNat)) { b with icu := { b.icu with claimWords := later } }

/-- How an instruction reads and waits: the registers it reads (R246), the tickets it names (R257), the key holder it names (R282). -/
structure Reads where
  regs : List Nat
  tks : List Nat
  holders : List Nat := []

/-- A strand can issue: it runs a weave, END has not issued, it waits for nothing, and the device is not in STANDBY (R548). -/
def Block.canIssue (b : Block) (k : Nat) : Bool :=
  let s := b.strand k
  s.weave.isSome && !s.ending && (match s.wait with | .none => true | _ => false) && !b.standby

/-- The word strand `k` fetches next (R248). -/
def Block.fetch (b : Block) (k : Nat) : BitVec 64 :=
  match (b.strand k).weave with
  | some wv => b.iword (engOf k) wv.bank (b.strand k).pc
  | none => 0

/-- The guard of R274: p[PG] XOR PN. -/
def Strand.guard (s : Strand) (w : BitVec 64) : Bool := s.p (iPG w) ^^ iPN w

/-- The beat an instruction issues in: not before the strand's ready beat, nor before a result it reads is due (R246). -/
def Strand.issueBeat (s : Strand) (now : Nat) (regs : List Nat) : Nat :=
  regs.foldl (fun m r => max m (s.dueOf r)) (max now s.ready)

/-- Strand `k` has issued an instruction in beat `n`. -/
def Block.issuedBy (b : Block) (k n : Nat) : Block := { b with wft := { b.wft with lastBeat := n, lastStrand := k } }

/-- Strand `k` issues its next instruction, which is one of opcode `op`.
- A strand that cannot issue, or whose next instruction is another of the map, does nothing.
- A fetch past index 8,191 faults with PC_RANGE, recorded at 8,191 (R285); an undefined opcode or a field that is not `legal` faults with
  ILLEGAL whatever the guard (R275).
- With the guard false the issue beat passes and nothing else (R245, R274).
- An instruction that names a ticket or reads a status register awaiting delivery waits: nothing happens until the delivery (R257, R278).
- The accesses and requests of one beat are taken in ascending strand order (R249, R281): in the beat of the last issue no lower strand issues
  after it (log entry 8).
- Otherwise it issues: the results due are written, the pc advances, the strand is ready in the next beat, and `body` acts. -/
def Block.issue (b : Block) (k op : Nat) (legal : BitVec 64 → Bool) (reads : BitVec 64 → Reads) (body : BitVec 64 → Block → Block) : Block :=
  if !b.canIssue k then b
  else
    let s := b.strand k
    if 8192 ≤ s.pc then (b.toBeat s.ready).weftFault k fPC_RANGE 8191
    else
      let w := b.fetch k
      if iOp w ≠ op ∧ iOp w ∈ opcodes then b
      else if iOp w ≠ op ∨ legal w = false then (b.toBeat s.ready).weftFault k fILLEGAL s.pc
      else if s.guard w = false then
        (b.toBeat s.ready).onStrand k (fun s => { s with pc := s.pc + 1, ready := max b.clk.beat s.ready + 1 })
      else
        let r := reads w
        if r.regs.any s.awaits || r.tks.any s.tkBusy || r.holders.any s.khBusy then b
        else
          let n := s.issueBeat b.clk.beat r.regs
          if b.wft.lastBeat = n ∧ k < b.wft.lastStrand then b
          else body w (((b.toBeat n).claimSettle.issuedBy k n).onStrand k (fun s => { s.settle n with pc := s.pc + 1, ready := n + 1 }))

/-- The result of an instruction of latency `lat` issued now (R246). -/
def Block.result (b : Block) (k r : Nat) (v : BitVec 64) (lat : Nat) : Block := b.onStrand k (fun s => s.result r v (b.clk.beat + lat))

/-- A register as an instruction of strand `k` that issues now reads it. -/
def Block.w (b : Block) (k r : Nat) : BitVec 64 := (b.strand k).w r

/-- The index of the instruction that issues now: its pc has advanced already. -/
def Block.curPc (b : Block) (k : Nat) : Nat := (b.strand k).pc - 1

end Sys2Proof.Machine
end

