-- ==== Sys2Proof/Machine/IcuCore.lean ====
section
/-! DEFINITION. The interrupt controller's levels, presentation and sleeping targets (R491–R504). -/

namespace Sys2Proof.Machine

/-- Bit `i` of an event register is set and enabled (R491). -/
def Block.evtOn (b : Block) (evt ie : Fld) (i : Nat) (n : Nat := 0) : Bool := bitOf ((b.reg (evt.off n)) &&& (b.reg (ie.off n))).toNat i

/-- Some bit of an event register under `m` is set and enabled. -/
def Block.evtAny (b : Block) (evt ie : Fld) (m : Nat) (n : Nat := 0) : Bool :=
  (((b.reg (evt.off n)) &&& (b.reg (ie.off n))).toNat &&& m) != 0

/-- A timer has an enabled flag set (R507, R512): OVFF, MATCHF, and CAPF or CAP_OVR. -/
def Block.tmrIrq (b : Block) (t : Nat) : Bool :=
  (b.bit TMR_FLAG.OVFF t && b.bit TMR_CFG.OVF_IE t) || (b.bit TMR_FLAG.MATCHF t && b.bit TMR_CFG.MATCH_IE t)
    || ((b.bit TMR_FLAG.CAPF t || b.bit TMR_FLAG.CAP_OVR t) && b.bit TMR_CFG.CAP_IE t)

/-- The unfiltered level of source `n` (R491, R493). -/
def Block.rawLevel (b : Block) (n : Nat) : Bool :=
  if n ≤ 3 then b.evtOn RAS_EVT.all RAS_IE.all n
  else if n = 4 ∨ n = 7 then Tbl.get (fun _ => false) b.icu.pulse n
  else if n = 5 then b.evtOn PWR_EVT.all PWR_IE.all 0
  else if n = 6 then b.evtOn PWR_EVT.all PWR_IE.all 1
  else if n = 8 then b.evtAny DDRC_EVT.all DDRC_IE.all 7
  else if n = 30 then b.evtAny ICU_EVT.all ICU_IE.all 7
  else if 32 ≤ n ∧ n ≤ 47 then b.evtOn HOOP_EVT.all HOOP_IE.all (n - 32)
  else if 48 ≤ n ∧ n ≤ 59 then b.evtOn CNP_EVT.all CNP_IE.all (n - 48)
  else if 64 ≤ n ∧ n ≤ 77 then b.evtOn RXA_EVT.all RXA_IE.all (n - 64)
  else if 96 ≤ n ∧ n ≤ 105 then b.evtOn TXC_EVT.all TXC_IE.all (n - 96)
  else if 112 ≤ n ∧ n ≤ 116 then b.evtOn CLR_EVT.all CLR_IE.all (n - 112)
  else if 120 ≤ n ∧ n ≤ 127 then b.evtOn MAS_EVT.all MAS_IE.all (n - 120)
  else if 128 ≤ n ∧ n ≤ 191 then b.evtAny WFT_EVT.all WFT_IE.all (if n % 2 = 0 then 7 else 0x300) ((n - 128) / 2)
  else if 192 ≤ n ∧ n ≤ 195 then b.evtOn PLQ_EVT.all PLQ_IE.all (n - 192)
  else if 196 ≤ n ∧ n ≤ 199 then b.evtOn SHP_EVT.all SHP_IE.all (n - 196)
  else if 200 ≤ n ∧ n ≤ 208 then b.evtOn GRV_EVT.all GRV_IE.all (n - 200)
  else if n = 209 then b.evtAny BGH_EVT.all BGH_IE.all 0x1F
  else if n = 210 ∨ n = 211 then b.evtAny ETH_EVT.all ETH_IE.all 7 (n - 210)
  else if n = 212 then b.evtAny PCI_EVT.all PCI_IE.all 7
  else if 216 ≤ n ∧ n ≤ 223 then b.evtOn HWD_EVT.all HWD_IE.all (n - 216)
  else if 224 ≤ n ∧ n ≤ 239 then b.pins.irq.getLsbD (n - 224) == b.bit ICU_SRC.POL n
  else if 240 ≤ n ∧ n ≤ 243 then (List.range 8).any (fun i => b.tmrIrq (8 * (n - 240) + i))
  else if n = 244 then b.evtAny UPD_EVT.all UPD_IE.all 0xFF
  else if n = 245 then b.bit SYS_MBX_STATE.DONE && b.bit SYS_MBX_STATE.DONE_IE
  else if n = 246 ∨ n = 247 then b.bit SYS_SPI_ST.DONE (n - 246) && b.bit SYS_SPI_CTL.DONE_IE (n - 246)
  else if n = 248 ∨ n = 249 then b.bit SYS_I2C_ST.DONE (n - 248) && b.bit SYS_I2C_CTL.DONE_IE (n - 248)
  else if n = 250 then b.evtAny SYS_UART_ST.all SYS_UART_IE.all 0x1F
  else if n = 251 then b.evtAny SYS_GPIO_EVT.all SYS_GPIO_IE.all (2 ^ 32 - 1) 0 || b.evtAny SYS_GPIO_EVT.all SYS_GPIO_IE.all (2 ^ 32 - 1) 1
  else if n = 252 then b.evtAny PWR_EVT.all PWR_IE.all 0xC
  else false

/-- A source without an event register rises for one cycle (sources 4 and 7). -/
def Block.pulse (b : Block) (n : Nat) : Block := { b with icu := { b.icu with pulse := Tbl.put (fun _ => false) b.icu.pulse n true } }

/-- The filtered level of a source (R493). -/
def Block.filtered (b : Block) (n : Nat) : Bool := Tbl.get (fun _ => false) b.icu.filt n

/-- A filtered level set. -/
def Block.setFilt (b : Block) (n : Nat) (v : Bool) : Block := { b with icu := { b.icu with filt := Tbl.put (fun _ => false) b.icu.filt n v } }

/-- With FILT 0 a filtered level falls with its unfiltered level, without delay (R493; log entry 17). -/
def Block.filtFall (b : Block) (n : Nat) : Block :=
  if b.filtered n && !b.rawLevel n && b.rd ICU_SRC.FILT n == 0 then b.setFilt n false else b

/-- A source is pending (R494). -/
def Block.pendingSrc (b : Block) (n : Nat) : Bool := b.bit ICU_SRC.EN n && b.rd ICU_SRC.COUNT n != 0

/-- The source a target has claimed (R497). -/
def Block.claimOf (b : Block) (k : Nat) : Option Nat := Tbl.find b.icu.claims k

/-- Some target has claimed the source. -/
def Block.claimed (b : Block) (n : Nat) : Bool := b.icu.claims.any (fun c => c.2 == n)

/-- The steward cores are restarting (R32). -/
def Block.stwRestarting (b : Block) : Bool := b.rd SYS_MBX_STATE.STW_UP == 0

/-- A target is asleep (R503). -/
def Block.asleep (b : Block) (k : Nat) : Bool :=
  if k < 32 then
    let en := b.rd WFT_CTL.STRAND_EN k
    en == 0 || (List.range 4).all (fun s => !bitOf en s || (b.strand (4 * k + s)).stopped) || !b.bit ICU_TGT_CFG.AREA_EN k
  else if k < 36 then b.stwRestarting || Tbl.get (fun _ => false) b.icu.wfe (k - 32)
  else b.fn.d3hot || !b.fn.busMaster || !b.fn.msixEn || !b.bit PCI_STAT.LINK_UP

/-- A target can be woken (R503). -/
def Block.wakeable (b : Block) (k : Nat) : Bool :=
  if k < 32 then false
  else if k < 36 then b.bit ICU_TGT_CFG.WAKEABLE k && !b.stwRestarting
  else b.bit ICU_TGT_CFG.WAKEABLE k && b.fn.pmeEn

/-- The target a source is presented to (R496, R504): its own, or the rescue target when its own is asleep and not wakeable. -/
def Block.effTarget (b : Block) (n : Nat) : Nat :=
  let t := b.rd ICU_SRC.TARGET n
  if b.asleep t && !b.wakeable t then b.rd ICU_RESCUE.TGT else t

/-- The source presented to target `k` (R497, R504): none while it has a claim or is asleep. -/
def Block.presented (b : Block) (k : Nat) : Option Nat :=
  if (b.claimOf k).isSome || b.asleep k then none
  else (List.range 256).find? (fun n => b.pendingSrc n && b.effTarget n == k && !b.claimed n)

/-- A claim (R499): the claim word's VALID, AGAIN, COUNT and source, and the block after it. -/
def Block.claim (b : Block) (k : Nat) : (Bool × Bool × Nat × Nat) × Block :=
  match b.claimOf k with
  | some n => ((false, true, b.rd ICU_SRC.COUNT n, n), b)
  | none =>
    match b.presented k with
    | some n =>
      let c := b.rd ICU_SRC.COUNT n
      ((true, false, c, n), { (b.wr ICU_SRC.COUNT (c - 1) n) with icu := { b.icu with claims := Tbl.insert b.icu.claims k n } })
    | none => ((false, false, 0, 0x1FF), b)

/-- A completion of source `n` by target `k` (R495, R500). -/
def Block.complete (b : Block) (k n : Nat) : Block :=
  if b.claimOf k = some n then
    let b := { b with icu := { b.icu with claims := Tbl.erase b.icu.claims k } }
    let b := b.filtFall n
    if b.bit ICU_SRC.REARM n && b.filtered n && b.rd ICU_SRC.COUNT n == 0 then b.wr ICU_SRC.COUNT 1 n else b
  else b.set ICU_EVT.DONE_ERR

/-- The MSI-X table at reset: every vector masked. -/
def msixReset (k : Nat) : BitVec 32 := if k % 4 = 3 then 1 else 0

/-- An MSI-X vector is sent, or its pending bit set while the vector or the function is masked (R410, R501); nothing while MSI-X is
disabled. -/
def Block.msix (b : Block) (vec : Nat) : Block :=
  if !b.fn.msixEn || !b.fn.busMaster then b
  else if b.fn.msixMask || (Tbl.get msixReset b.fn.msix (vec * 4 + 3)).getLsbD 0 then
    { b with fn := { b.fn with pba := Tbl.put (fun _ => false) b.fn.pba vec true } }
  else b.emit (.msix vec)

/-- Pending bits of vectors no longer masked are sent and cleared (R410). -/
def Block.msixFlush (b : Block) : Block :=
  b.fn.pba.foldl (fun (b : Block) e =>
    if b.fn.msixEn && b.fn.busMaster && !b.fn.msixMask && !(Tbl.get msixReset b.fn.msix (e.1 * 4 + 3)).getLsbD 0 then
      { b with fn := { b.fn with pba := Tbl.put (fun _ => false) b.fn.pba e.1 false } }.emit (.msix e.1)
    else b) b

/-- A wake is raised to a target once (R504). -/
def Block.raiseWake (b : Block) (k : Nat) : Block :=
  if Tbl.get (fun _ => false) b.icu.wakes k then b
  else { b with icu := { b.icu with wakes := Tbl.put (fun _ => false) b.icu.wakes k true } }.emit (.wake k)

/-- The sleeping targets of a pending source (R504). -/
def Block.wakeFor (b : Block) (n : Nat) : Block :=
  if !b.pendingSrc n || b.claimed n then b
  else
    let t := b.rd ICU_SRC.TARGET n
    if !b.asleep t then b
    else if b.wakeable t then b.raiseWake t
    else
      let r := b.rd ICU_RESCUE.TGT
      if !b.asleep r then b else if b.wakeable r then b.raiseWake r else b.set ICU_EVT.RESCUE_BLOCKED

/-- Presentation is decided again (R497, R501, R504): a wake of a target that sleeps no more is over, wakes are raised, and a source newly presented to the host sends its vector. -/
def Block.icuEval (b : Block) : Block :=
  let b := { b with icu := { b.icu with wakes := b.icu.wakes.filter (fun e => b.asleep e.1) } }
  let b := (List.range 256).foldl Block.wakeFor b
  let p := b.presented 36
  if p = b.icu.lastHost then b
  else
    let b := { b with icu := { b.icu with lastHost := p } }
    match p with
    | some s => b.msix s
    | none => b

end Sys2Proof.Machine
end

