-- ==== Sys2Proof/Machine/WeftAlu.lean ====
section
/-! DEFINITION. The arithmetic, predicate and move instructions of Weft (R284, R290–R293): one meaning each over four shared shapes. -/

namespace Sys2Proof.Machine

/-- A register-register operation: RD := f RA RB, due `lat` beats after issue (R246, R284). -/
def Block.aluRR (b : Block) (k op lat : Nat) (f : BitVec 64 → BitVec 64 → BitVec 64) : Block :=
  b.issue k op (onlyUses (uRD ||| uRA ||| uRB)) (fun w => { regs := [iRA w, iRB w], tks := [] })
    (fun w b => b.result k (iRD w) (f (b.w k (iRA w)) (b.w k (iRB w))) lat)

/-- A register-immediate operation: RD := f RA IMM; `imm` are the bits of IMM it uses (R284, R291, R292). -/
def Block.aluRI (b : Block) (k op lat imm : Nat) (f : BitVec 64 → BitVec 32 → BitVec 64) : Block :=
  b.issue k op (onlyUses (uRD ||| uRA ||| imm)) (fun w => { regs := [iRA w], tks := [] })
    (fun w b => b.result k (iRD w) (f (b.w k (iRA w)) (iIMM w)) lat)

/-- A predicate operation: PD := f PA PB (R277, R293). -/
def Block.predOp (b : Block) (k op : Nat) (f : Bool → Bool → Bool) : Block :=
  b.issue k op (onlyUses (uPD ||| uPA ||| uPB)) (fun _ => { regs := [], tks := [] })
    (fun w b => b.onStrand k (fun s => s.setP (iRD w) (f (s.p (iRA w)) (s.p (iRB w)))))

/-- The conditions of R293. -/
def cond (c : Nat) (x y : BitVec 64) : Bool :=
  match c with
  | 0 => x == y
  | 1 => x != y
  | 2 => x.slt y
  | 3 => !x.slt y
  | 4 => x.ult y
  | 5 => !x.ult y
  | 6 => (x &&& y) != 0
  | _ => false

/-- IMM sign-extended and zero-extended (R284). -/
def sext (i : BitVec 32) : BitVec 64 := i.signExtend 64
def zext (i : BitVec 32) : BitVec 64 := i.zeroExtend 64

/-- The lowest six bits, as a shift amount. -/
def sh6 (x : Nat) : Nat := x % 64

/-- Unsigned and signed division and the remainder with the edges of R291. -/
def udivW (x y : BitVec 64) : BitVec 64 := if y = 0 then BitVec.allOnes 64 else x / y
def sdivW (x y : BitVec 64) : BitVec 64 := if y = 0 then BitVec.allOnes 64 else x.sdiv y
def uremW (x y : BitVec 64) : BitVec 64 := if y = 0 then x else x % y

/-- The high half of the unsigned product (R284). -/
def mulhuW (x y : BitVec 64) : BitVec 64 := BitVec.ofNat 64 (x.toNat * y.toNat / 2 ^ 64)

/-- POS and LEN of a bit field; LEN 0 means 64 (R292). -/
def fieldPos (i : BitVec 32) : Nat := bitsOf i.toNat 5 0
def fieldLen (i : BitVec 32) : Nat := if bitsOf i.toNat 13 8 = 0 then 64 else bitsOf i.toNat 13 8

/-- EXTR: bits from POS on, LEN of them (R292). -/
def extrW (x : BitVec 64) (i : BitVec 32) : BitVec 64 := (x >>> fieldPos i) &&& BitVec.ofNat 64 (2 ^ fieldLen i - 1)

/-- INS: the field of `d` replaced by the low bits of `x`; bits beyond 63 are dropped (R292). -/
def insW (d x : BitVec 64) (i : BitVec 32) : BitVec 64 :=
  let m : BitVec 64 := BitVec.ofNat 64 ((2 ^ fieldLen i - 1) * 2 ^ fieldPos i)
  (d &&& ~~~m) ||| ((x <<< fieldPos i) &&& m)


/-- ADD (R284, R291). -/
def execIAdd (k : Nat) (s : State) : Out := runCmd s (fun b => b.aluRR k 0x10 1 (fun x y => x + y))

/-- SUB (R284, R291). -/
def execISub (k : Nat) (s : State) : Out := runCmd s (fun b => b.aluRR k 0x11 1 (fun x y => x - y))

/-- AND (R284, R291). -/
def execIAnd (k : Nat) (s : State) : Out := runCmd s (fun b => b.aluRR k 0x12 1 (fun x y => x &&& y))

/-- OR (R284, R291). -/
def execIOr (k : Nat) (s : State) : Out := runCmd s (fun b => b.aluRR k 0x13 1 (fun x y => x ||| y))

/-- XOR (R284, R291). -/
def execIXor (k : Nat) (s : State) : Out := runCmd s (fun b => b.aluRR k 0x14 1 (fun x y => x ^^^ y))

/-- SHL (R284, R291). -/
def execIShl (k : Nat) (s : State) : Out := runCmd s (fun b => b.aluRR k 0x15 1 (fun x y => x <<< sh6 y.toNat))

/-- SHR (R284, R291). -/
def execIShr (k : Nat) (s : State) : Out := runCmd s (fun b => b.aluRR k 0x16 1 (fun x y => x >>> sh6 y.toNat))

/-- SRA (R284, R291). -/
def execISra (k : Nat) (s : State) : Out := runCmd s (fun b => b.aluRR k 0x17 1 (fun x y => x.sshiftRight (sh6 y.toNat)))

/-- MIN (R284, R291). -/
def execIMin (k : Nat) (s : State) : Out := runCmd s (fun b => b.aluRR k 0x18 1 (fun x y => if x.slt y then x else y))

/-- MAX (R284, R291). -/
def execIMax (k : Nat) (s : State) : Out := runCmd s (fun b => b.aluRR k 0x19 1 (fun x y => if x.slt y then y else x))

/-- MINU (R284, R291). -/
def execIMinu (k : Nat) (s : State) : Out := runCmd s (fun b => b.aluRR k 0x1A 1 (fun x y => if x.ult y then x else y))

/-- MAXU (R284, R291). -/
def execIMaxu (k : Nat) (s : State) : Out := runCmd s (fun b => b.aluRR k 0x1B 1 (fun x y => if x.ult y then y else x))

/-- MUL (R284, R291). -/
def execIMul (k : Nat) (s : State) : Out := runCmd s (fun b => b.aluRR k 0x20 2 (fun x y => x * y))

/-- MULHU (R284, R291). -/
def execIMulhu (k : Nat) (s : State) : Out := runCmd s (fun b => b.aluRR k 0x21 2 (mulhuW))

/-- DIV (R284, R291). -/
def execIDiv (k : Nat) (s : State) : Out := runCmd s (fun b => b.aluRR k 0x22 18 (udivW))

/-- DIVS (R284, R291). -/
def execIDivs (k : Nat) (s : State) : Out := runCmd s (fun b => b.aluRR k 0x23 18 (sdivW))

/-- REM (R284, R291). -/
def execIRem (k : Nat) (s : State) : Out := runCmd s (fun b => b.aluRR k 0x24 18 (uremW))

/-- SEL: RA if p[SUB] is 1, else RB (R284, R293). -/
def execISel (k : Nat) (s : State) : Out := runCmd s (fun b => 
  b.issue k 0x1C (onlyUses (uRD ||| uRA ||| uRB ||| uSUB)) (fun w => { regs := [iRA w, iRB w], tks := [] })
    (fun w b => b.result k (iRD w) (if (b.strand k).p (iSUB w) then b.w k (iRA w) else b.w k (iRB w)) 1))

/-- CMP: PD := RA cond RB; condition 7 is ILLEGAL (R293). -/
def execICmp (k : Nat) (s : State) : Out := runCmd s (fun b => 
  b.issue k 0x30 (fun w => onlyUses (uPD ||| uRA ||| uRB ||| uSUB) w && iSUB w != 7) (fun w => { regs := [iRA w, iRB w], tks := [] })
    (fun w b => b.onStrand k (fun s => s.setP (iRD w) (cond (iSUB w) (b.w k (iRA w)) (b.w k (iRB w))))))

/-- CMPI: PD := RA cond IMM, sign-extended for EQ, NE, LT and GE and zero-extended for LTU, GEU and ANY (R293). -/
def execICmpi (k : Nat) (s : State) : Out := runCmd s (fun b => 
  b.issue k 0x31 (fun w => onlyUses (uPD ||| uRA ||| uSUB ||| uIMM) w && iSUB w != 7) (fun w => { regs := [iRA w], tks := [] })
    (fun w b => b.onStrand k (fun s =>
      s.setP (iRD w) (cond (iSUB w) (b.w k (iRA w)) (if iSUB w < 4 then sext (iIMM w) else zext (iIMM w))))))

/-- TSTB: PD := RA[IMM[5:0]] (R293). -/
def execITstb (k : Nat) (s : State) : Out := runCmd s (fun b => 
  b.issue k 0x32 (onlyUses (uPD ||| uRA ||| 0x3F)) (fun w => { regs := [iRA w], tks := [] })
    (fun w b => b.onStrand k (fun s => s.setP (iRD w) ((b.w k (iRA w)).getLsbD (sh6 (iIMM w).toNat)))))

/-- PAND (R293). -/
def execIPand (k : Nat) (s : State) : Out := runCmd s (fun b => b.predOp k 0x33 (fun x y => x && y))

/-- POR (R293). -/
def execIPor (k : Nat) (s : State) : Out := runCmd s (fun b => b.predOp k 0x34 (fun x y => x || y))

/-- PXOR (R293). -/
def execIPxor (k : Nat) (s : State) : Out := runCmd s (fun b => b.predOp k 0x35 (fun x y => x ^^ y))

/-- PANDN (R293). -/
def execIPandn (k : Nat) (s : State) : Out := runCmd s (fun b => b.predOp k 0x36 (fun x y => x && !y))

/-- ADDI (R284, R291). -/
def execIAddi (k : Nat) (s : State) : Out := runCmd s (fun b => b.aluRI k 0x40 1 uIMM (fun x i => x + sext i))

/-- ANDI (R284, R291). -/
def execIAndi (k : Nat) (s : State) : Out := runCmd s (fun b => b.aluRI k 0x41 1 uIMM (fun x i => x &&& zext i))

/-- ORI (R284, R291). -/
def execIOri (k : Nat) (s : State) : Out := runCmd s (fun b => b.aluRI k 0x42 1 uIMM (fun x i => x ||| zext i))

/-- XORI (R284, R291). -/
def execIXori (k : Nat) (s : State) : Out := runCmd s (fun b => b.aluRI k 0x43 1 uIMM (fun x i => x ^^^ zext i))

/-- SHLI (R284, R291). -/
def execIShli (k : Nat) (s : State) : Out := runCmd s (fun b => b.aluRI k 0x44 1 0x3F (fun x i => x <<< sh6 i.toNat))

/-- SHRI (R284, R291). -/
def execIShri (k : Nat) (s : State) : Out := runCmd s (fun b => b.aluRI k 0x45 1 0x3F (fun x i => x >>> sh6 i.toNat))

/-- SRAI (R284, R291). -/
def execISrai (k : Nat) (s : State) : Out := runCmd s (fun b => b.aluRI k 0x46 1 0x3F (fun x i => x.sshiftRight (sh6 i.toNat)))

/-- MOVI: RD := sext(IMM) (R284). -/
def execIMovi (k : Nat) (s : State) : Out := runCmd s (fun b => 
  b.issue k 0x47 (onlyUses (uRD ||| uIMM)) (fun _ => { regs := [], tks := [] }) (fun w b => b.result k (iRD w) (sext (iIMM w)) 1))

/-- MOVHI: IMM in the high half, RA[31:0] in the low (R284). -/
def execIMovhi (k : Nat) (s : State) : Out := runCmd s (fun b => b.aluRI k 0x48 1 uIMM (fun x i => join32 i (x.truncate 32)))

/-- EXTR (R292). -/
def execIExtr (k : Nat) (s : State) : Out := runCmd s (fun b => b.aluRI k 0x49 1 0x3F3F extrW)

/-- INS: reads RD as a source too (R292). -/
def execIIns (k : Nat) (s : State) : Out := runCmd s (fun b => 
  b.issue k 0x4A (onlyUses (uRD ||| uRA ||| 0x3F3F)) (fun w => { regs := [iRD w, iRA w], tks := [] })
    (fun w b => b.result k (iRD w) (insW (b.w k (iRD w)) (b.w k (iRA w)) (iIMM w)) 1))

/-- MULI: the low half of RA × sext(IMM), due in 2 beats (R284). -/
def execIMuli (k : Nat) (s : State) : Out := runCmd s (fun b => b.aluRI k 0x4B 2 uIMM (fun x i => x * sext i))

/-- NOP (R284). -/
def execINop (k : Nat) (s : State) : Out := runCmd s (fun b => b.issue k 0x01 (onlyUses 0) (fun _ => { regs := [], tks := [] }) (fun _ b => b))

/-- TIME: RD := HTIME at the start of the issue beat (R247, R284). -/
def execITime (k : Nat) (s : State) : Out := runCmd s (fun b => 
  b.issue k 0x05 (onlyUses uRD) (fun _ => { regs := [], tks := [] }) (fun w b => b.result k (iRD w) b.clk.htime 1))

end Sys2Proof.Machine
end

