-- ==== Sys2Proof/Machine/WeftMem.lean ====
section
/-! DEFINITION. The memory instructions of Weft (R249, R250, R294, R295) and what a strand store to an event area means (R502). -/

namespace Sys2Proof.Machine

/-- The address of a MEM instruction: (RA + sext(OFS))[63:0] (R284). -/
def Block.memAddr (b : Block) (k : Nat) (w : BitVec 64) : Nat := (b.w k (iRA w) + sext (iIMM w)).toNat

/-- A strand store of `z` bytes at `a` as the interrupt controller sees it (R502): the claim byte, the done byte, or both. -/
def Block.areaStore (b : Block) (k a z : Nat) : Block :=
  let n := engOf k
  let base := b.rd ICU_TGT_CFG.AREA n * 64
  let c := decide (a ≤ base ∧ base < a + z)
  let d := decide (a ≤ base + 1 ∧ base + 1 < a + z)
  if !b.bit ICU_TGT_CFG.AREA_EN n then b
  else if c && d then b.set ICU_EVT.DONE_ERR
  else if c || d then { b with icu := { b.icu with stores := b.icu.stores ++ [{ strand := k, beat := b.clk.beat, isDone := d }] } }
  else b

/-- A load of `z` bytes, extended by `ext`; it faults where the area reaches beyond 0xFFFF (R249, R294). -/
def Block.load (b : Block) (k op z : Nat) (ext : Nat → BitVec 64) : Block :=
  b.issue k op (onlyUses (uRD ||| uRA ||| uIMM)) (fun w => { regs := [iRA w], tks := [] })
    (fun w b =>
      let a := b.memAddr k w
      if 0xFFFF - (z - 1) < a then b.weftFault k fDMEM_RANGE (b.curPc k)
      else b.result k (iRD w) (ext (leNat (b.dmemBytes (engOf k) a z))) 1)

/-- A store of the low `z` bytes of RD (R249, R294, R502). -/
def Block.store (b : Block) (k op z : Nat) : Block :=
  b.issue k op (onlyUses (uRD ||| uRA ||| uIMM)) (fun w => { regs := [iRA w, iRD w], tks := [] })
    (fun w b =>
      let a := b.memAddr k w
      if 0xFFFF - (z - 1) < a then b.weftFault k fDMEM_RANGE (b.curPc k)
      else (b.dmemWrite (engOf k) a (leBytes z (b.w k (iRD w)).toNat)).areaStore k a z)

/-- A value of `z` bytes sign-extended to 64 bits. -/
def sextBytes (z x : Nat) : BitVec 64 := BitVec.ofInt 64 (signed (8 * z) x)

/-- A shared table word (R250). -/
def Block.tblWord (b : Block) (i : Nat) : BitVec 64 := Tbl.get (fun _ => 0) b.wft.table i

/-- A shared table word stored; a whole-word write clears its poison (R519). -/
def Block.tblPut (b : Block) (i : Nat) (v : BitVec 64) : Block :=
  { b with wft := { b.wft with table := Tbl.put (fun _ => 0) b.wft.table i v, tblPoison := Tbl.put (fun _ => false) b.wft.tblPoison i false } }.odClear 6 i 1

/-- The store to a word in the present beat, if any (R250). -/
def Block.tblStoreNow (b : Block) (i : Nat) : Option TblStore := b.wft.tblStores.find? (fun t => t.idx == i && t.beat == b.clk.beat)

/-- A table word that cannot be corrected (R250, R515). -/
def Block.tblBad (b : Block) (i : Nat) : Bool := Tbl.get (fun _ => false) b.wft.tblPoison i

/-- Word `i` of the table RAM is read (R518). -/
def Block.tblFind (b : Block) (i flags : Nat) (extra : List Nat) : Block :=
  b.odFind 6 i flags extra (leBytes 8 (b.tblWord i).toNat) (b.tblBad i) (fun b d p =>
    { b with wft := { b.wft with table := Tbl.put (fun _ => 0) b.wft.table i (BitVec.ofNat 64 (leNat d)),
                                 tblPoison := Tbl.put (fun _ => false) b.wft.tblPoison i p } })

/-- What a read of a word delivers: zero where it cannot be corrected (R250, R295). -/
def Block.tblValue (b : Block) (i : Nat) : BitVec 64 := if b.tblBad i then 0 else b.tblWord i

/-- A table store by `strand` (128 for the host, which lands after all strands): of several to one word in a beat the highest is kept;
the word before the beat, zero if it was poisoned, is kept for the loads of the beat (R250, R295). -/
def Block.tblStore (b : Block) (i strand : Nat) (v : BitVec 64) : Block :=
  match b.tblStoreNow i with
  | some t =>
    if strand < t.strand then b
    else
      let l := b.wft.tblStores.map (fun x => if x.idx = i then { x with strand := strand } else x)
      { b with wft := { b.wft with tblStores := l } }.tblPut i v
  | none =>
    let e : TblStore := { idx := i, beat := b.clk.beat, strand := strand,
                          old := (b.tblFind i 0 []).tblValue i, oldBad := (b.tblFind i 0 []).tblBad i }
    let l := e :: b.wft.tblStores.filter (fun x => x.beat == b.clk.beat)
    { b with wft := { b.wft with tblStores := l } }.tblPut i v

/-- The word a TLD of this beat returns, as it stood at the start of the beat, zero where it cannot be corrected, and the block after the read
(R250, R295, R518). -/
def Block.tblLoad (b : Block) (i : Nat) : BitVec 64 × Block :=
  match b.tblStoreNow i with
  | some t => (t.old, b.when t.oldBad (fun b => b.inc RAS_UE_CNT.all))
  | none => let b := b.tblFind i 0 []; (b.tblValue i, b)

/-- TLD (R250, R295): due 8 beats after issue. -/
def execITld (k : Nat) (s : State) : Out := runCmd s (fun b =>
  b.issue k 0x5C (onlyUses (uRD ||| uRA ||| uIMM)) (fun w => { regs := [iRA w], tks := [] })
    (fun w b =>
      let a := b.memAddr k w
      if 0x400000 ≤ a then b.weftFault k fTBL_RANGE (b.curPc k)
      else
        let (v, b) := b.tblLoad (a / 8)
        b.result k (iRD w) v 8))

/-- TST (R250, R295). -/
def execITst (k : Nat) (s : State) : Out := runCmd s (fun b =>
  b.issue k 0x5D (onlyUses (uRD ||| uRA ||| uIMM)) (fun w => { regs := [iRA w, iRD w], tks := [] })
    (fun w b =>
      let a := b.memAddr k w
      if 0x400000 ≤ a then b.weftFault k fTBL_RANGE (b.curPc k) else b.tblStore (a / 8) k (b.w k (iRD w))))

/-- LDB: 1 byte(s), zero-extended (R294). -/
def execILdb (k : Nat) (s : State) : Out := runCmd s (fun b => b.load k 0x50 1 (BitVec.ofNat 64))

/-- LDH: 2 byte(s), zero-extended (R294). -/
def execILdh (k : Nat) (s : State) : Out := runCmd s (fun b => b.load k 0x51 2 (BitVec.ofNat 64))

/-- LDW: 4 byte(s), zero-extended (R294). -/
def execILdw (k : Nat) (s : State) : Out := runCmd s (fun b => b.load k 0x52 4 (BitVec.ofNat 64))

/-- LD: 8 byte(s), zero-extended (R294). -/
def execILd (k : Nat) (s : State) : Out := runCmd s (fun b => b.load k 0x53 8 (BitVec.ofNat 64))

/-- LDSB: 1 byte(s), sign-extended (R294). -/
def execILdsb (k : Nat) (s : State) : Out := runCmd s (fun b => b.load k 0x54 1 (sextBytes 1))

/-- LDSH: 2 byte(s), sign-extended (R294). -/
def execILdsh (k : Nat) (s : State) : Out := runCmd s (fun b => b.load k 0x55 2 (sextBytes 2))

/-- LDSW: 4 byte(s), sign-extended (R294). -/
def execILdsw (k : Nat) (s : State) : Out := runCmd s (fun b => b.load k 0x56 4 (sextBytes 4))

/-- STB: 1 byte(s) (R294). -/
def execIStb (k : Nat) (s : State) : Out := runCmd s (fun b => b.store k 0x58 1)

/-- STH: 2 byte(s) (R294). -/
def execISth (k : Nat) (s : State) : Out := runCmd s (fun b => b.store k 0x59 2)

/-- STW: 4 byte(s) (R294). -/
def execIStw (k : Nat) (s : State) : Out := runCmd s (fun b => b.store k 0x5A 4)

/-- STD: 8 byte(s) (R294). -/
def execIStd (k : Nat) (s : State) : Out := runCmd s (fun b => b.store k 0x5B 8)

end Sys2Proof.Machine
end

