-- ==== Sys2Proof/Machine/WeftFlow.lean ====
section
/-! DEFINITION. Branches, waits, events, doorbells and the end of a weave (R261–R265, R285–R290), the starts that wait for a strand
(R253, R268), and the watchdogs of a weave (R265). -/

namespace Sys2Proof.Machine

/-- END (R264). -/
def execIEnd (k : Nat) (s : State) : Out := runCmd s (fun b =>
  b.issue k 0x00 (onlyUses 0) (fun _ => { regs := [], tks := [] }) (fun _ b => b.weaveEnd k))

/-- BR: pc := IMM[12:0] (R285). -/
def execIBr (k : Nat) (s : State) : Out := runCmd s (fun b =>
  b.issue k 0x02 (onlyUses 0x1FFF) (fun _ => { regs := [], tks := [] })
    (fun w b => b.onStrand k (fun s => { s with pc := (iIMM w).toNat })))

/-- BRL: RD := the 13-bit index of the instruction after it; pc := IMM[12:0] (R285). -/
def execIBrl (k : Nat) (s : State) : Out := runCmd s (fun b =>
  b.issue k 0x03 (onlyUses (uRD ||| 0x1FFF)) (fun _ => { regs := [], tks := [] })
    (fun w b => (b.result k (iRD w) (BitVec.ofNat 64 ((b.strand k).pc % 8192)) 1).onStrand k (fun s => { s with pc := (iIMM w).toNat })))

/-- JR: pc := RA, PC_RANGE above 8,191 at the pc of the JR (R285). -/
def execIJr (k : Nat) (s : State) : Out := runCmd s (fun b =>
  b.issue k 0x04 (onlyUses uRA) (fun w => { regs := [iRA w], tks := [] })
    (fun w b =>
      let t := (b.w k (iRA w)).toNat
      if 8191 < t then b.weftFault k fPC_RANGE (b.curPc k) else b.onStrand k (fun s => { s with pc := t })))

/-- TWAIT: wait until HTIME reaches RA (R262, R286). -/
def execITwait (k : Nat) (s : State) : Out := runCmd s (fun b =>
  b.issue k 0x06 (onlyUses uRA) (fun w => { regs := [iRA w], tks := [] })
    (fun w b => b.onStrand k (fun s => { s with wait := .twait (s.w (iRA w)) })))

/-- The first beat at or after the TWAIT target arrives and the strand continues in it (R262). -/
def execTwaitComplete (k : Nat) (s : State) : Out := runCmd s (fun b =>
  match (b.strand k).wait with
  | .twait t =>
    let b := (b.toBeat (b.strand k).ready).toTime t
    b.onStrand k (fun s => { s with wait := .none, ready := b.clk.beat })
  | _ => b)

/-- EVWAIT: wait for events IMM[2:0] or timeout RA (R261, R287). -/
def execIEvwait (k : Nat) (s : State) : Out := runCmd s (fun b =>
  b.issue k 0x07 (onlyUses (uRD ||| uRA ||| 7)) (fun w => { regs := [iRA w], tks := [] })
    (fun w b => b.onStrand k (fun s => { s with wait := .evwait (iRD w) (iIMM w).toNat (s.w (iRA w)) })))

/-- The doorbells of engine `n` that stand: those of a SIG from the beat after its issue (R288). -/
def Block.bells (b : Block) (n : Nat) : BitVec 4 :=
  let e := b.engine n
  if e.bellsAt < b.clk.beat then e.doorbells ||| e.bellsDue else e.doorbells

/-- An engine whose doorbells from a SIG of an earlier beat stand with the others. -/
def Engine.bellsIn (e : Engine) (beat : Nat) : Engine :=
  if e.bellsAt < beat then { e with doorbells := e.doorbells ||| e.bellsDue, bellsDue := 0 } else e

/-- The events e0–e2 present for strand `k` (R261, R502): its ring holds an entry; a source is presented to the engine; its doorbell is
set. -/
def Block.events (b : Block) (k : Nat) : Nat :=
  (decide (0 < (b.strand k).ringCount)).toNat + 2 * (b.presented (engOf k)).isSome.toNat
    + 4 * ((b.bells (engOf k)).getLsbD (subOf k)).toNat

/-- EVWAIT returns with the events `ev` and whether the timeout has passed; a returned doorbell is cleared (R261, R287). -/
def Block.evReturn (b : Block) (k rd ev : Nat) (tmo : Bool) : Block :=
  let b := b.onStrand k (fun s => { (s.settle b.clk.beat).setW rd (BitVec.ofNat 64 (ev + 8 * tmo.toNat)) with wait := .none, ready := b.clk.beat })
  b.when (bitOf ev 2) (fun b => b.onEngine (engOf k) (fun e =>
    { e.bellsIn b.clk.beat with doorbells := (e.bellsIn b.clk.beat).doorbells &&& ~~~(BitVec.ofNat 4 (2 ^ subOf k)) }))

/-- EVWAIT returns: with an enabled event present at once; in the next beat, where a SIG of this beat sets its doorbell (R288); else at its
timeout; with none of these it waits on (R261, R287). -/
def execEvwaitReturn (k : Nat) (s : State) : Out := runCmd s (fun b =>
  match (b.strand k).wait with
  | .evwait rd mask timeout =>
    let b := b.toBeat (b.strand k).ready
    let never := timeout == BitVec.allOnes 64
    let past (b : Block) : Bool := !never && decide (timeout.toNat ≤ b.clk.htime.toNat)
    let ev := b.events k &&& mask
    let b' := b.toBeat (b.clk.beat + 1)
    if ev ≠ 0 ∨ past b then b.evReturn k rd ev (past b)
    else if b'.events k &&& mask ≠ 0 then b'.evReturn k rd (b'.events k &&& mask) (past b')
    else if never then b
    else
      let b := b.toTime timeout
      b.evReturn k rd (b.events k &&& mask) true
  | _ => b)

/-- TKWAIT: wait for the tickets IMM[7:0] (R257, R286). -/
def execITkwait (k : Nat) (s : State) : Out := runCmd s (fun b =>
  b.issue k 0x08 (onlyUses 0xFF) (fun _ => { regs := [], tks := [] })
    (fun w b => b.onStrand k (fun s => { s with wait := .tkwait (iIMM w).toNat })))

/-- The latest delivery of the awaited tickets has arrived, or none was awaited: the strand continues (R257). -/
def execTkwaitComplete (k : Nat) (s : State) : Out := runCmd s (fun b =>
  match (b.strand k).wait with
  | .tkwait m =>
    if (List.range 8).any (fun t => bitOf m t && (b.strand k).tkBusy t) then b
    else
      let n := max (b.strand k).ready b.clk.beat
      (b.toBeat n).onStrand k (fun s => { s with wait := .none, ready := n })
  | _ => b)

/-- Doorbells of an engine set (R261, R288). -/
def Block.ringBells (b : Block) (n : Nat) (m : BitVec 4) : Block := b.onEngine n (fun e => { e with doorbells := e.doorbells ||| m })

/-- Doorbells of an engine set at the end of the present beat (R288). -/
def Block.ringAfter (b : Block) (n : Nat) (m : BitVec 4) : Block :=
  b.onEngine n (fun e => { e.bellsIn b.clk.beat with bellsDue := (e.bellsIn b.clk.beat).bellsDue ||| m, bellsAt := b.clk.beat })

/-- SIG: doorbells IMM[3:0] of the engine's strands at the end of the beat; IMM[4] sets SIG to the host (R288). -/
def execISig (k : Nat) (s : State) : Out := runCmd s (fun b =>
  b.issue k 0x09 (onlyUses 0x1F) (fun _ => { regs := [], tks := [] })
    (fun w b => (b.ringAfter (engOf k) (BitVec.ofNat 4 (iIMM w).toNat)).when (bitOf (iIMM w).toNat 4) (fun b => b.set WFT_EVT.SIG (engOf k))))

/-- RREL: the oldest ring entry is freed; none on an empty ring (R263, R289). -/
def execIRrel (k : Nat) (s : State) : Out := runCmd s (fun b =>
  b.issue k 0x0A (onlyUses 0) (fun _ => { regs := [], tks := [] })
    (fun _ b => b.onStrand k (fun s =>
      if s.ringCount = 0 then s else { s with ringHead := (s.ringHead + 1) % 8, ringCount := s.ringCount - 1 })))

/-- The values of SYSR (R290). -/
def Block.sysValue (b : Block) (k sel : Nat) : Nat :=
  match sel with
  | 0 => k
  | 1 => b.rd CNP_STAT.POS
  | 2 => (b.reg HOOP_EPOCH_ACT.all.base).toNat
  | 3 => leNat (b.digestAct.take 4)
  | 4 => b.rd MAS_BCN_CTL.SEQ_OFS
  | _ => (b.reg MAS_DOMAIN_ID.all.base).toNat

/-- SYSR: a system value; a selector above 5 is ILLEGAL (R290). -/
def execISysr (k : Nat) (s : State) : Out := runCmd s (fun b =>
  b.issue k 0x0B (fun w => onlyUses (uRD ||| 0xFF) w && decide ((iIMM w).toNat ≤ 5)) (fun _ => { regs := [], tks := [] })
    (fun w b => b.result k (iRD w) (BitVec.ofNat 64 (b.sysValue k (iIMM w).toNat)) 1))

/-- FBFREE: a buffer the weave holds is released; another handle is left unchanged (R283, R289). -/
def execIFbfree (k : Nat) (s : State) : Out := runCmd s (fun b =>
  b.issue k 0x0C (onlyUses uRA) (fun w => { regs := [iRA w], tks := [] })
    (fun w b =>
      let h := (b.w k (iRA w)).toNat % 1024
      if (b.strand k).fbufs.contains h then
        b.onStrand k (fun s => { s with fbufs := s.fbufs.filter (· != h) })
      else b))

/-- A strand that becomes free takes the oldest queued strobe; its first instruction issues two beats after the beat it is free in, and no
earlier than five after the strobe (R28, R253). -/
def execQueuedWeaveStart (k : Nat) (s : State) : Out := runCmd s (fun b =>
  let n := engOf k
  let b := b.toBeat (b.strand k).freeAt
  match (b.engine n).queue with
  | q :: rest =>
    if b.strandFree k && !b.standby then
      let first := max ((max (b.strand k).freeAt b.clk.beat) + 2) (q.arrived + 5)
      let delay := first - (q.arrived + 5)
      let b := b.onEngine n (fun e => { e with queue := rest })
      ((b.weaveStart k q first delay).inc WFT_CNT_QUEUED.all n).maxTo WFT_QDLY_MAX.DLY delay n
    else b
  | [] => b)

/-- A busy strand's pending handover starts two beats after its weave ends (R268). -/
def execHandoverStart (k : Nat) (s : State) : Out := runCmd s (fun b =>
  match (b.strand k).hovr with
  | some act =>
    if (b.strand k).weave.isNone && !b.standby then
      let b := b.toBeat (b.strand k).freeAt
      b.hovrStart k act (max ((b.strand k).freeAt + 1) b.clk.beat)
    else b
  | none => b)

/-- The weave of strand `k` faults by its time, once (R265). -/
def Block.timeFault (b : Block) (k code : Nat) : Block :=
  (b.weftFault k code (b.strand k).pc).onStrand k (fun s => { s with weave := s.weave.map (fun w => { w with timed := true }) })

/-- A weave still running, its END issued or not, WDOG ticks after its slot end faults with WDOG (R265). -/
def execWdogExpiry (k : Nat) (s : State) : Out := runCmd s (fun b =>
  match (b.strand k).weave with
  | some wv =>
    let w := b.rd WFT_WDOG.WDOG (engOf k)
    if wv.handover || w == 0 || wv.timed then b
    else (b.toTime (wv.slotEnd + BitVec.ofNat 64 (w * 2 ^ 17))).timeFault k fWDOG
  | none => b)

/-- A handover weave not retired within 512 beats of its first instruction faults with HOVR_LONG (R265). -/
def execHovrLongExpiry (k : Nat) (s : State) : Out := runCmd s (fun b =>
  match (b.strand k).weave with
  | some wv => if wv.handover && !wv.timed then (b.toBeat (wv.first + 512)).timeFault k fHOVR_LONG else b
  | none => b)

end Sys2Proof.Machine
end

