-- ==== Sys2Proof/Machine/WeftHost.lean ====
section
/-! DEFINITION. The host's accesses to the Weft engines (R249, R250, R261, R266, R270, R271). -/

namespace Sys2Proof.Machine

/-- A weave of a superframe before the last swap runs or is queued in engine `n`: the former bank is in use (R267). -/
def Block.retiring (b : Block) (n : Nat) : Bool :=
  let e := b.engine n
  e.queue.any (fun q => decide (q.strobe.sf < e.swapSf))
    || (List.range 4).any (fun s => match (b.strand (4 * n + s)).weave with
        | some wv => !wv.handover && decide (wv.sf < e.swapSf)
        | none => false)

/-- The epoch state is VALIDATING or ARMED (R69). -/
def Block.epochBusy (b : Block) : Bool := b.rd HOOP_EPOCH_ST.ST == 1 || b.rd HOOP_EPOCH_ST.ST == 2

/-- The pending bank of engine `n` is protected (R266): its swap is being prepared, or the former bank is in use. -/
def Block.bankLocked (b : Block) (n : Nat) : Bool :=
  (b.epochBusy && bitOf (b.rd HOOP_EPOCH_PEND.SWAP) 1 && bitOf (b.reg WFT_SWAP_EN.all.base).toNat n) || b.retiring n

/-- WFT_SWAP_EN is protected (R266). -/
def Block.swapEnLocked (b : Block) : Bool := b.epochBusy || (List.range 32).any b.retiring

/-- A host write of WFT_DB_n sets the doorbells of the named strands (R261). -/
def execWftDoorbell (n : Nat) (val : Word) (s : State) : Out := runCmd s (fun b => b.ringBells (n % 32) (BitVec.ofNat 4 val.toNat))

/-- A write of WFT_CTL_n (R270): a strand whose bit is cleared finishes its weave; a bit written 1 releases a stopped strand. -/
def Block.strandCtl (b : Block) (n : Nat) (v : BitVec 32) : Block :=
  let b := b.setReg (WFT_CTL.all.off n) (v &&& 0x10F)
  (List.range 4).foldl (fun b i =>
    if bitOf v.toNat i then b.onStrand (4 * n + i) (fun s => { s with stopped := false }) else b) b
def execStrandEnableWrite (n : Nat) (val : Word) (s : State) : Out := runCmd s (fun b => b.strandCtl (n % 32) val)

/-- The index of the instruction window advances under AUTO_INC (R271). -/
def Block.iaddrStep (b : Block) (n : Nat) : Block :=
  b.when (b.bit WFT_IADDR.AUTO_INC n) (fun b => b.wr WFT_IADDR.INDEX (b.rd WFT_IADDR.INDEX n + 1) n)

/-- The instruction bank the window names (R271): 0 pending, 1 active. -/
def Block.iaddrBank (b : Block) (n : Nat) : Nat :=
  if b.bit WFT_IADDR.BANK_SEL n then (b.engine n).bank else 1 - (b.engine n).bank

/-- A read of WFT_IDATA_LO_n loads the addressed word and answers its low half; the later read of WFT_IDATA_HI_n (`hi`) answers the high
half of the word loaded, and advances the address under AUTO_INC (R271). -/
def Block.instrLoad (b : Block) (n : Nat) (hi : Bool) : Block :=
  if hi then
    let v := Tbl.get (fun _ => 0) b.wft.ird n
    (b.iaddrStep n).answer (.data (BitVec.ofNat 32 (v.toNat / 2 ^ 32)))
  else
    let v := b.iword n (b.iaddrBank n) (b.rd WFT_IADDR.INDEX n)
    { b with wft := { b.wft with ird := Tbl.put (fun _ => 0) b.wft.ird n v } }.answer (.data (BitVec.ofNat 32 v.toNat))
def execInstrWordLoad (n : Nat) (hi : Bool) (s : State) : Out := runCmd s (fun b => b.instrLoad (n % 32) hi)

/-- A write of WFT_IDATA_LO_n is held (R13, R271). -/
def Block.instrHold (b : Block) (n : Nat) (v : BitVec 32) : Block :=
  { b with wft := { b.wft with iwr := Tbl.put (fun _ => 0) b.wft.iwr n v } }

/-- A write of WFT_IDATA_HI_n stores both halves, the low one as held, into the pending bank; a store to the active bank or to a protected
bank is ignored and sets WR_IGN; the address advances under AUTO_INC (R266, R271). -/
def Block.instrStore (b : Block) (n : Nat) (v : BitVec 32) : Block :=
  let b' :=
    if b.bit WFT_IADDR.BANK_SEL n || b.bankLocked n then b.set WFT_EVT.WR_IGN n
    else
      let x := join32 v (Tbl.get (fun _ => 0) b.wft.iwr n)
      { b with wft := { b.wft with ibank := Tbl.put (fun _ => 0) b.wft.ibank (ibKey n (b.iaddrBank n) (b.rd WFT_IADDR.INDEX n)) x } }
  b'.iaddrStep n
def execInstrWordStore (n : Nat) (val : Word) (s : State) : Out := runCmd s (fun b => b.instrStore (n % 32) val)

/-- A host access of WFT_DDATA_n, a read or a write of the addressed word, after the strand accesses of its beat; WFT_DADDR_n advances
under AUTO_INC (R249, R271). -/
def Block.dmemHost (b : Block) (n : Nat) (write : Bool) (v : BitVec 32) : Block :=
  let a := 4 * b.rd WFT_DADDR.ADDR n
  let b' :=
    if write then b.dmemWrite n a (leBytes 4 v.toNat)
    else b.answer (.data (BitVec.ofNat 32 (leNat (b.dmemBytes n a 4))))
  b'.when (b.bit WFT_DADDR.AUTO_INC n) (fun b => b.wr WFT_DADDR.ADDR (b.rd WFT_DADDR.ADDR n + 1) n)
def execDmemHostAccess (n : Nat) (write : Bool) (val : Word) (s : State) : Out := runCmd s (fun b => b.dmemHost (n % 32) write val)

/-- The table index advances under AUTO_INC (R271). -/
def Block.tblStep (b : Block) : Block :=
  b.when (b.bit WFT_TBL_ADDR.AUTO_INC) (fun b => b.wr WFT_TBL_ADDR.INDEX (b.rd WFT_TBL_ADDR.INDEX + 1))

/-- A read of WFT_TBL_DATA_LO loads the addressed table word; the later read of WFT_TBL_DATA_HI (`hi`) answers its high half and advances
the address under AUTO_INC (R271). A word that cannot be corrected loads as zero and is counted (R250, R518). -/
def Block.tblHostLoad (b : Block) (hi : Bool) : Block :=
  if hi then b.tblStep.answer (.data (BitVec.ofNat 32 (b.wft.trd.toNat / 2 ^ 32)))
  else
    let i := b.rd WFT_TBL_ADDR.INDEX
    let b := b.tblFind i 0 []
    let v := b.tblValue i
    { b with wft := { b.wft with trd := v } }.answer (.data (BitVec.ofNat 32 v.toNat))
def execTableWordLoad (hi : Bool) (s : State) : Out := runCmd s (fun b => b.tblHostLoad hi)

/-- A write of WFT_TBL_DATA_LO is held (R13, R271). -/
def Block.tblHold (b : Block) (v : BitVec 32) : Block := { b with wft := { b.wft with twr := v } }

/-- A write of WFT_TBL_DATA_HI stores the table word, after the strand stores of its beat (R250, R271). -/
def Block.tblHostStore (b : Block) (v : BitVec 32) : Block := (b.tblStore (b.rd WFT_TBL_ADDR.INDEX) 128 (join32 v b.wft.twr)).tblStep
def execTableWordStore (val : Word) (s : State) : Out := runCmd s (fun b => b.tblHostStore val)

end Sys2Proof.Machine
end

