-- ==== Sys2Proof/Machine/RxaCore.lean ====
section
/-! DEFINITION. The receive array's parts (R130–R169): the region profile, feeds and links, AGC, lanes and their grants, records. -/

namespace Sys2Proof.Machine

/-! ### The active region profile (R190) -/

/-- A byte of a band's entry in the active region profile image. -/
def Block.regionByte (b : Block) (band i : Nat) : Nat :=
  bitsOf (b.reg (TXC_REGION_ACT.all.off (band * 8 + i / 4))).toNat (8 * (i % 4) + 7) (8 * (i % 4))

/-- The profile of a band: 0 L, 1 H. -/
def Block.bandProfile (b : Block) (band : Nat) : Nat := b.regionByte band 0

/-- The channel count; 0 where the band is unused. -/
def Block.bandNch (b : Block) (band : Nat) : Nat :=
  match b.regionByte band 0 with
  | 0 => min 64 (b.regionByte band 1)
  | 1 => min 16 (b.regionByte band 1)
  | _ => 0

/-- The band is used (R190). -/
def Block.bandUsed (b : Block) (band : Nat) : Bool := b.bandNch band != 0

/-- Some channel lies outside 0.45 of the sample rate `rate` around the centre (R131, R173): the outermost channels decide. -/
def Block.offCentre (b : Block) (band : Nat) (nco : BitVec 32) (rate : Nat) : Bool :=
  let h := b.bandProfile band != 0
  let sp : Int := if h then 5000000 else 600000
  let half : Int := if h then 1500000 else 300000
  let far (k : Nat) : Bool := decide ((45 : Int) * rate < 100 * ((nco.toInt + k * sp).natAbs + half))
  far 0 || far (b.bandNch band - 1)

/-! ### Links and feeds (R130–R137) -/

/-- The feeds of a link: those in effect that name it (R134). -/
def Block.linkFeeds (b : Block) (l : Nat) : List Feed := (b.rxa.feeds.map (·.2)).filter (fun f => f.link == l)

/-- k of R134 for a profile and RATE; 0 where the rate is not valid. -/
def linkK (profile rate : Nat) : Nat :=
  match profile, rate with
  | 0, 1 => 8
  | 0, 2 => 4
  | 1, 0 => 4
  | 1, 1 => 2
  | 1, 2 => 1
  | _, _ => 0

/-- A receive link is valid (R134). -/
def Block.linkValid (b : Block) (l : Nat) : Bool :=
  let mask := (b.reg (RXA_LINK_LANES.MASK.off l)).toNat % 2 ^ 24
  let n := b.rd RXA_LINK_CFG.L_M1 l + 1
  let fs := b.linkFeeds l
  let profs := fs.map (fun f => b.bandProfile f.band)
  popcount 24 mask == n
    && (List.range 8).all (fun j => j == l || (mask &&& ((b.reg (RXA_LINK_LANES.MASK.off j)).toNat % 2 ^ 24)) == 0)
    && (List.range fs.length).all (fun c => (fs.filter (fun f => f.conv == c)).length == 1)
    && profs.all (fun p => p == profs.headD 0)
    && fs.length != 0 && fs.length == n * linkK (profs.headD 0) (b.rd RXA_LINK_CFG.RATE l)

/-- The streams of a feed: its port's from BASE, one per channel. -/
def Block.feedHas (b : Block) (f : Feed) (j : Nat) : Bool := decide (f.base ≤ j ∧ j < f.base + b.bandNch f.band)

/-- Two feeds' streams overlap. -/
def Block.feedsOverlap (b : Block) (f g : Feed) : Bool :=
  decide (f.base < g.base + b.bandNch g.band ∧ g.base < f.base + b.bandNch f.band)

/-- Feed `n` is refused (R131); the other feed of the port counts while it is not refused and took effect earlier, or, where both took effect
together or are tested `again` at a region profile activation, it is feed 0. -/
def Block.feedRefused (b : Block) (n : Nat) (f : Feed) (again : Bool) : Bool :=
  let rate := if b.bandProfile f.band = 0 then 30720000 else 122880000
  let clash := match Tbl.find b.rxa.feeds (if n % 2 = 0 then n + 1 else n - 1) with
    | some g => !g.refused && (if again || g.cell == f.cell then n % 2 == 1 else decide (g.cell < f.cell)) && b.feedsOverlap f g
    | none => false
  !b.bandUsed f.band || decide (64 < f.base + b.bandNch f.band) || clash || b.offCentre f.band f.nco rate || !b.linkValid f.link

/-- The feed, band and channel of a stream that exists (R131). -/
def Block.streamOf (b : Block) (s : Nat) : Option (Nat × Nat × Nat) :=
  let p := s / 64
  let j := s % 64
  let try' (n : Nat) : Option (Nat × Nat × Nat) :=
    match Tbl.find b.rxa.feeds n with
    | some f => if !f.refused && b.feedHas f j then some (n, f.band, j - f.base) else none
    | none => none
  match try' (2 * p) with
  | some r => some r
  | none => try' (2 * p + 1)

/-- The delay from a port's antenna to its channel streams, in quanta (R136). -/
def Block.rxDelay (b : Block) (port profile : Nat) : Nat :=
  b.rd RXA_PORT_DLY.DLY port * qHt + (if profile = 0 then 3072 else 768) * qDsp

/-- The feed that provides a stream, with the cell it took effect in. -/
def Block.streamFeed (b : Block) (s : Nat) : Option (Nat × Nat) :=
  match b.streamOf s with
  | some (n, _, _) => (Tbl.find b.rxa.feeds n).map (fun f => (n, f.cell))
  | none => none

/-- The streams that exist, feed by feed. -/
def Block.runs (b : Block) : List StreamRun :=
  (b.rxa.feeds.filter (fun e => !e.2.refused)).map (fun e =>
    { first := 64 * (e.1 / 2) + e.2.base, count := b.bandNch e.2.band, band := e.2.band, link := e.2.link })

/-- The stream belongs to the run. -/
def StreamRun.has (r : StreamRun) (s : Nat) : Bool := decide (r.first ≤ s ∧ s < r.first + r.count)

/-! ### Erased samples (R137, R165, R186) -/

/-- The sequence index in force at HTIME `t` (R241): an armed epoch that activates by then brings the pending value, and before the last activation the
former one was in force. -/
def Block.seqOfsAt (b : Block) (t : BitVec 64) : Nat :=
  if sfOf t < b.mas.ofsSf then b.mas.ofsOld
  else if b.rd HOOP_EPOCH_ST.ST == 2 && decide ((b.reg HOOP_ACT_SF.all.base).toNat ≤ sfOf t) then b.rd MAS_BCN_CTL.SEQ_OFS_PEND
  else b.rd MAS_BCN_CTL.SEQ_OFS

/-- The instant of the first chip of a transmission: the sample nearest to its armed HTIME (R48, R175). -/
def Tx.t1Q (t : Tx) : Nat := armQ t.t1

/-- The radiated interval in quanta (R177). -/
def Tx.startQ (t : Tx) : Nat := t.t1Q - 4 * t.tc
def Tx.endQ (t : Tx) : Nat := t.t1Q + (t.nc + 4) * t.tc

/-- PA_LEAD and the other pin times of a port in quanta (R184). -/
def Block.paLead (b : Block) (n : Nat) : Nat := b.rd TXC_PORT_PA.LEAD n * qDsp
def Block.paLag (b : Block) (n : Nat) : Nat := b.rd TXC_PORT_PA.LAG n * qDsp
def Block.trLead (b : Block) (n : Nat) : Nat := b.rd TXC_PORT_TRSW.LEAD n * qDsp
def Block.trLag (b : Block) (n : Nat) : Nat := b.rd TXC_PORT_TRSW.LAG n * qDsp

/-- BLK_PRE and BLK_POST in quanta (R186). -/
def Block.blkPre (b : Block) : Nat := b.rd TXC_BLK_MARG.PRE * qDsp
def Block.blkPost (b : Block) : Nat := b.rd TXC_BLK_MARG.POST * qDsp

/-- The instant lies within the gap. -/
def Gap.covers (g : Gap) (q : Nat) : Bool := decide (g.start ≤ q) && (match g.stop with | some e => decide (q < e) | none => true)

/-- The gap has a part from `q` to `u`. -/
def Gap.meets (g : Gap) (q u : Nat) : Bool := decide (g.start < u) && (match g.stop with | some e => decide (q < e) | none => true)

/-- Gaps cover all of the time from `q` to `u`; `fuel` is at least the number of gaps. -/
def coveredBy (gs : List Gap) (u : Nat) : Nat → Nat → Bool
  | 0, q => decide (u ≤ q)
  | fuel + 1, q =>
    if u ≤ q then true
    else match gs.find? (fun g => g.covers q) with
      | some g => (match g.stop with | some e => coveredBy gs u fuel e | none => true)
      | none => false

/-- A time of erased samples begins. -/
def Block.gapStart (b : Block) (src : Nat) (ports : BitVec 32) (q : Nat) : Block :=
  { b with rxa := { b.rxa with gaps := b.rxa.gaps ++ [{ src := src, ports := ports, start := q, stop := none }] } }

/-- The times of erased samples from `src` end at `q`. -/
def Block.gapStop (b : Block) (src q : Nat) : Block :=
  let late (g : Gap) : Bool := g.src == src && (match g.stop with | some e => decide (q < e) | none => true)
  { b with rxa := { b.rxa with gaps := b.rxa.gaps.map (fun g => if late g then { g with stop := some q } else g) } }

/-- The blankings of transmissions whose PA enable is still to come: BLK_PRE before it they have begun (R186). -/
def Block.nextGaps (b : Block) : List Gap :=
  (b.txc.txs.map (·.2)).flatMap (fun t => (t.ports.filter (fun p => !p.started && p.ended == .live)).map (fun p =>
    { src := 8 + p.port, ports := b.reg (TXC_BLANK.all.off p.port), start := t.startQ - b.paLead p.port - b.blkPre, stop := none }))

/-- The gaps of an RX port's streams on link `l`, in antenna time: those of a link lie PORT_DLY earlier there. -/
def Block.gapsFor (b : Block) (gs : List Gap) (port l : Nat) : List Gap :=
  let d := b.rd RXA_PORT_DLY.DLY port * qHt
  gs.filterMap (fun g =>
    if 8 ≤ g.src then (if g.ports.getLsbD port then some g else none)
    else if g.src = l then some { g with start := g.start - d, stop := g.stop.map (· - d) } else none)

/-- The gaps of a stream in antenna time; one that no feed provides has no samples at all. -/
def Block.streamGaps (b : Block) (s : Nat) : List Gap :=
  match b.streamOf s with
  | some (n, _, _) => match Tbl.find b.rxa.feeds n with
    | some f => b.gapsFor (b.rxa.gaps ++ b.nextGaps) (s / 64) f.link
    | none => []
  | none => [{ src := 0, ports := 0, start := 0, stop := none }]

/-- RX port `p` is blanked now (R186). -/
def Block.portBlanked (b : Block) (p : Nat) : Bool :=
  (b.rxa.gaps ++ b.nextGaps).any (fun g => decide (8 ≤ g.src) && g.ports.getLsbD p && g.covers b.nowQ)

/-- The sample of a stream that crossed the antenna at the instant `q` is erased. -/
def Block.erasedAt (b : Block) (s q : Nat) : Bool := (b.streamGaps s).any (fun g => g.covers q)

/-- A stream delivers erased samples now, which crossed the antenna its delay earlier (R136, R137, R165). -/
def Block.streamErased (b : Block) (s : Nat) : Bool :=
  match b.streamOf s with
  | some (_, band, _) => b.erasedAt s (b.nowQ - b.rxDelay (s / 64) (b.bandProfile band))
  | none => true

/-- All the samples of a stream from `q` to `u` at the antenna are erased. -/
def Block.erasedThrough (b : Block) (s q u : Nat) : Bool :=
  let gs := b.streamGaps s
  coveredBy gs u gs.length q

/-! ### The Hoop's record of lock states -/

/-- LOCK at an instant, by the record of its changes, newest first (R162, R182). -/
def Block.lockAt (b : Block) (t : BitVec 64) : Nat :=
  match b.hoop.lockLog.find? (fun e => decide (e.1.toNat ≤ t.toNat)) with
  | some e => e.2
  | none => 0

/-- LOCK was UNLOCKED or ACQUIRING at an instant. -/
def Block.unlockedAt (b : Block) (t : BitVec 64) : Bool := decide (b.lockAt t ≤ 1)

/-- LOCK was UNLOCKED or ACQUIRING at some time from `t` to `u`. -/
def Block.unlockedIn (b : Block) (t u : BitVec 64) : Bool :=
  b.unlockedAt t || b.hoop.lockLog.any (fun e => decide (t.toNat ≤ e.1.toNat ∧ e.1.toNat < u.toNat ∧ e.2 ≤ 1))

/-! ### Windows, lanes and frame buffers -/

def Block.setWin (b : Block) (h : Nat) (w : Window) : Block := { b with rxa := { b.rxa with wins := Tbl.insert b.rxa.wins h w } }
def Block.setLane (b : Block) (n : Nat) (l : Lane) : Block := { b with rxa := { b.rxa with lanes := Tbl.insert b.rxa.lanes n l } }
def Block.onLane (b : Block) (n : Nat) (f : Lane → Lane) : Block :=
  match Tbl.find b.rxa.lanes n with
  | some l => b.setLane n (f l)
  | none => b

/-- One of a list of numbers; which one the spec leaves open (log entry 2). -/
def Block.pick (b : Block) (l : List Nat) : Nat := l.getD (b.freeNat % l.length) 0

/-- The lanes of a window. -/
def Block.winLanes (b : Block) (w : Nat) : List (Nat × Lane) := b.rxa.lanes.filter (fun e => e.2.win == w)

/-- The window covers a stream (R143): its band and channel, and its port in the mask. -/
def Block.winCovers (b : Block) (w : Window) (s : Nat) : Bool :=
  match b.streamOf s with
  | some (_, band, ch) => w.ports.getLsbD (s / 64) && w.band == band && w.ch == ch
  | none => false

/-- A lane uses a stream. -/
def Lane.uses (l : Lane) (s : Nat) : Bool := l.members.any (fun m => m.stream == s)

/-- Some lane uses the stream. -/
def Block.streamBusy (b : Block) (s : Nat) : Bool := b.rxa.lanes.any (fun e => e.2.uses s)

/-- The handle a receive record carries (R162); 0xFFFF for none. -/
def recFbuf (l : List Byte) : Nat := leAt l 26 2

/-- The transmission names a frame buffer. -/
def Tx.names (t : Tx) (h : Nat) : Bool :=
  match t.frame with
  | .buf x _ => x == h
  | _ => false

/-- Frame buffer `h` is allocated (R154, R164, R182, R283): a lane decodes into it, a record not yet in a ring carries it, a weave holds
it, or a transmission whose record has not posted names it. -/
def Block.fbufBusy (b : Block) (h : Nat) : Bool :=
  b.rxa.lanes.any (fun e => e.2.fbuf == some h)
    || b.rxa.wins.any (fun e => e.2.queue.any (fun r => recFbuf r.bytes == h))
    || b.wft.strands.any (fun e => e.2.fbufs.contains h)
    || b.txc.txs.any (fun e => e.2.names h)

/-- The frame buffers free. -/
def Block.fbufsFree (b : Block) : List Nat := (List.range 1024).filter (fun h => !b.fbufBusy h)

/-- Bytes of a frame buffer. -/
def Block.fbBytes (b : Block) (h a n : Nat) : List Byte := (List.range n).map (fun i => Tbl.get (fun _ => 0) b.rxa.fb (h * 1024 + a + i))

/-- Bytes put into a frame buffer. -/
def Block.fbWrite (b : Block) (h a : Nat) (d : List Byte) : Block :=
  { b with rxa := { b.rxa with fb := dmemPut b.rxa.fb (h * 1024 + a) d } }

/-! ### Records (R157, R158, R162) -/

/-- RES values (R163). -/
def rxOK : Nat := 0
def rxACK_OK : Nat := 1
def rxHDR_OK : Nat := 2
def rxNONE : Nat := 3
def rxSFD_FAIL : Nat := 4
def rxHDR_FAIL : Nat := 5
def rxTYPE_MISMATCH : Nat := 6
def rxCRC_FAIL : Nat := 7
def rxDEC_OVR : Nat := 8
def rxNO_BUF : Nat := 9
def rxPREEMPTED : Nat := 10
def rxSHIPPED : Nat := 11
def rxABORTED : Nat := 12
def rxECHO_FAIL : Nat := 13

/-- The strongest member of a lane: the reference port (R150); of equal levels the member that joined first (DESIGN CHOICE, log entry 52). -/
def Lane.best (l : Lane) : Option Member :=
  l.members.foldl (fun m x => match m with | some y => if y.level < x.level then some x else some y | none => some x) none

/-- A port entry of R162. -/
def portEntry (pos : Nat) (toa : BitVec 64) (m : Member) : List Byte :=
  leBytes 1 (m.stream / 64 + pos * 32) ++ leBytes 1 m.psnr
    ++ leBytes 2 (unsigned 16 (satSym 16 ((m.t1.toNat : Int) - toa.toNat))) ++ leBytes 2 m.rssi ++ leBytes 2 m.phase

/-- Insertion by descending PSNR (byte 1 of a port entry, signed). -/
def insertPsnr (e : List Byte) : List (List Byte) → List (List Byte)
  | [] => [e]
  | x :: l => if signed 8 (leAt x 1 1) < signed 8 (leAt e 1 1) then e :: x :: l else x :: insertPsnr e l

/-- The port entries of a lane: the reference port first, then the others in descending PSNR, eight at most (R162). -/
def Lane.entries (l : Lane) (pos : Nat) : List (List Byte) :=
  match l.best with
  | some m =>
    let others := ((l.members.filter (fun x => x.stream != m.stream)).map (portEntry pos l.t1)) ++ l.remote
    portEntry pos l.t1 m :: (others.foldr insertPsnr []).take 7
  | none => (l.remote.take 1) ++ ((l.remote.drop 1).foldr insertPsnr []).take 7

/-- The symbols of a lane's frame as far as its header tells (R94). -/
def Lane.symbols (l : Lane) : Nat :=
  if l.hdr = 0 then 60 else frameSyms (hType l.hdr) (hCode l.hdr) (hMod l.hdr) (hLen l.hdr)

/-- Samples of a lane's frame received so far were blanked or erased (R162, R165). -/
def Block.laneBlanked (b : Block) (l : Lane) (w : Window) : Bool :=
  let p := b.bandProfile w.band
  l.members.any (fun m =>
    let u := min (htQ l.t1 + l.symbols * sfOfCode w.sfc * tcQ p) (b.nowQ - b.rxDelay (m.stream / 64) p)
    (b.streamGaps m.stream).any (fun g => g.meets (htQ l.t1) u))

/-- A record of a lane, MORE and WIN_OVF still 0 (R162). -/
def Block.laneRecord (b : Block) (n : Nat) (l : Lane) (w : Window) (res : Nat) : List Byte :=
  let es := l.entries (b.rd CNP_STAT.POS)
  let flags := l.iterCut.toNat * 2 + l.agcStep.toNat * 4 + l.xc.toNat * 8 + w.lateArm.toNat * 16 + (b.unlockedAt l.t1).toNat * 32
    + (b.laneBlanked l w).toNat * 64
  leBytes 1 res ++ leBytes 1 flags ++ leBytes 2 n ++ leBytes 4 (if res = rxSFD_FAIL then 0 else l.hdr) ++ leBytes 8 l.t1.toNat
    ++ leBytes 4 (if w.ack then l.echo else 0) ++ leBytes 2 l.snr ++ leBytes 2 l.cfo ++ leBytes 1 l.iter ++ leBytes 1 es.length
    ++ leBytes 2 (l.fbuf.getD 0xFFFF) ++ leBytes 4 0 ++ es.flatten ++ List.replicate (64 - 8 * es.length) 0

/-- The record NONE (R157, R162). -/
def noneRecord (w : Window) : List Byte :=
  leBytes 1 rxNONE ++ leBytes 1 (w.lateArm.toNat * 16) ++ List.replicate 24 0 ++ leBytes 2 0xFFFF ++ List.replicate 68 0

/-- A record joins those that will post. -/
def Block.addPost (b : Block) (p : RxPost) : Block := { b with rxa := { b.rxa with posts := b.rxa.posts ++ [p] } }

/-- The records of a lane that have not posted are dropped. -/
def Block.dropPosts (b : Block) (n : Nat) : Block :=
  { b with rxa := { b.rxa with posts := b.rxa.posts.filter (fun p => p.lane != some n) } }

/-- A lane's record of result `res` will post at the instant `q`, as the lane then is; with `release` the lane goes IDLE with it. -/
def Block.lanePost (b : Block) (n res q : Nat) (release : Bool) : Block :=
  match Tbl.find b.rxa.lanes n with
  | some l => b.addPost { due := q, win := l.win, lane := some n, res := some res, release := release, bytes := [] }
  | none => b

def Agc.fresh : Agc := { mode := .fast, gain := 0x80, run := 0, freeze := 0, power := 0 }
def Block.agc (b : Block) (s : Nat) : Agc := Tbl.get (fun _ => Agc.fresh) b.rxa.agc s
def Block.setAgc (b : Block) (s : Nat) (a : Agc) : Block :=
  { b with rxa := { b.rxa with agc := Tbl.put (fun _ => Agc.fresh) b.rxa.agc s a } }

/-- The target power, −TARGET in steps of 0.25 dB (R139). -/
def Block.agcTarget (b : Block) : Int := -(b.rd RXA_AGC_CFG.TARGET : Int)

/-- Lanes may have released a stream: with the last of them its AGC resumes from the frozen gain, in FAST where the error of the power last measured
is above 6 dB (R140, R141). -/
def Block.agcRelease (b : Block) (s : Nat) : Block :=
  let a := b.agc s
  if b.streamBusy s || a.mode != .frozen then b
  else b.setAgc s { a with mode := if 24 < (b.agcTarget - a.power).natAbs then .fast else .slow, run := 0 }

/-- The lane goes IDLE: its streams are released (R141). -/
def Block.laneIdle (b : Block) (n : Nat) : Block :=
  let ms := match Tbl.find b.rxa.lanes n with | some l => l.members | none => []
  let b := { b with rxa := { b.rxa with lanes := Tbl.erase b.rxa.lanes n } }.rxCounts
  ms.foldl (fun b m => b.agcRelease m.stream) b

/-- A lane stops at once with `res`, its record posting 64 DSP_CLK cycles later, with no echo block (R132, R152, R157). -/
def Block.laneStop (b : Block) (n res : Nat) : Block :=
  match Tbl.find b.rxa.lanes n with
  | some l => match Tbl.find b.rxa.wins l.win with
    | some w =>
      let r := b.laneRecord n { l with echo := 0 } w res
      ((b.dropPosts n).addPost { due := b.nowQ + 64 * qDsp, win := l.win, lane := none, res := some res, release := false, bytes := r }).laneIdle n
    | none => b.laneIdle n
  | none => b

/-- Every lane that `c` names posts ABORTED. -/
def Block.abortLanes (b : Block) (c : Lane → Bool) : Block :=
  (b.rxa.lanes.filter (fun e => c e.2)).foldl (fun b e => b.laneStop e.1 rxABORTED) b

/-- A record posts into the queue of its window (R158): discarded when the window holds eight, the last of which gets WIN_OVF; a record of a
window whose weave has ended is an orphan (R264). -/
def Block.winQueue (b : Block) (h : Nat) (r : List Byte) : Block :=
  match Tbl.find b.rxa.wins h with
  | some w =>
    if !w.live then b.inc WFT_CNT_ORPHAN.all (engOf w.strand)
    else if 8 ≤ w.queue.length then
      let q := (w.queue.take 7) ++ ((w.queue.drop 7).map (fun x => { x with bytes := splice x.bytes 1 [(x.bytes.getD 1 0) ||| 0x80] }))
      (b.setWin h { w with queue := q }).set RXA_EVT.WIN_OVF
    else (b.setWin h { w with queue := w.queue ++ [{ bytes := r, visible := b.visibleBeat }] }).took
  | none => b

/-! ### AGC (R139–R142) -/

/-- A gain code kept within 0–255. -/
def gainClamp (x : Int) : Nat := (max 0 (min 255 x)).toNat

def CenCount.fresh : CenCount := { det := 0, lanes := 0, step := false }

/-- The census counts of a stream in the present cell changed. -/
def Block.cen (b : Block) (s : Nat) (f : CenCount → CenCount) : Block :=
  { b with rxa := { b.rxa with cenNow := Tbl.put (fun _ => CenCount.fresh) b.rxa.cenNow s (f (Tbl.get (fun _ => CenCount.fresh) b.rxa.cenNow s)) } }

/-- A lane is granted on a stream with a detection of power `pw` (R141, R142): the first lane freezes the gain; a new lane whose power is at
least CAP_THR above the freeze power re-freezes it at the target, and the lanes already there carry AGC_STEP. `a` is the AGC and `busy` whether lanes
held the stream as the detection's DSP_CLK cycle began: a lane captured in it releases the stream only after it. -/
def Block.agcGrant (b : Block) (s : Nat) (pw : Int) (newLane busy : Bool) (a : Agc) : Block :=
  let b := b.cen s (fun c => { c with lanes := min 255 (c.lanes + 1) })
  if !busy then b.setAgc s { a with mode := .frozen, run := 0, freeze := pw, power := pw }
  else if newLane && decide (a.freeze + b.rd RXA_POOL_CFG.CAP_THR ≤ pw) then
    let g := gainClamp (a.gain + (b.agcTarget - pw))
    let p := pw + ((g : Int) - a.gain)
    let b := b.setAgc s { a with gain := g, freeze := p, power := p }
    let ls : Tbl Lane := b.rxa.lanes.map (fun (e : Nat × Lane) => (e.1, if e.2.uses s then { e.2 with agcStep := true } else e.2))
    let b := { b with rxa := { b.rxa with lanes := ls } }
    b.cen s (fun c => { c with step := true })
  else b.setAgc s a

/-! ### Grants (R149–R152) -/

/-- A lane as a grant makes it. -/
def Lane.new (st : LaneSt) (win q level : Nat) (t1 : BitVec 64) (ms : List Member) (snr cfo : Nat) : Lane :=
  { st := st, win := win, q := q, t1 := t1, level := level, members := ms, remote := [], hdr := 0, echo := 0, snr := snr % 65536, cfo := cfo % 65536,
    fbuf := none, p := 0, cws := [], iter := 0, iterCut := false, agcStep := false, xc := false, shipId := 0, ships := [],
    shipFrame := none, remoteOnly := false, llrs := [] }

/-- A window has had a lane: its record NONE will not post. -/
def Block.winGranted (b : Block) (h : Nat) : Block :=
  match Tbl.find b.rxa.wins h with
  | some w => { (b.setWin h { w with granted := true }) with
      rxa := { (b.setWin h { w with granted := true }).rxa with
        posts := b.rxa.posts.filter (fun p => !(p.win == h && p.lane.isNone && p.res == some rxNONE)) } }
  | none => b

/-- The preemptable lane with the lowest level, the lower number where equal (R152). -/
def weakest (l : List (Nat × Lane)) : Option (Nat × Lane) :=
  (l.filter (fun e => e.2.st == .acq || e.2.st == .hdr)).foldl
    (fun m x => match m with | some y => if x.2.level < y.2.level then some x else some y | none => some x) none

/-- A place in the pool for a lane of window `h` at `level` (R151, R152): a free lane, or one won by capture; the block with the candidate
preempted, or with the loss counted. -/
def Block.laneFor (b : Block) (h level : Nat) : Option Nat × Block :=
  let free := (List.range 512).filter (fun n => (Tbl.find b.rxa.lanes n).isNone)
  let full := decide (b.rd RXA_POOL_CFG.MAX_LPW ≤ (b.winLanes h).length)
  let b := b.when free.isEmpty (fun b => b.set RXA_EVT.POOL_EMPTY)
  if !free.isEmpty && !full then (some (b.pick free), b.took)
  else
    match weakest (if full then b.winLanes h else b.rxa.lanes) with
    | some (n, l) =>
      if l.level + b.rd RXA_POOL_CFG.CAP_THR ≤ level then
        (some n, ((b.laneStop n rxPREEMPTED).inc RXA_CNT_PREEMPT.all).set RXA_EVT.PREEMPT)
      else (none, (b.inc RXA_CNT_POOLDROP.all).set RXA_EVT.POOL_DROP)
    | none => (none, (b.inc RXA_CNT_POOLDROP.all).set RXA_EVT.POOL_DROP)

/-- Two HTIME instants lie within `n` units of 1/`d` of a second. -/
def within (t u : BitVec 64) (n d : Nat) : Bool := decide (((t.toNat : Int) - u.toNat).natAbs * d ≤ n * 2 ^ 32)

end Sys2Proof.Machine
end

