-- ==== Sys2Proof/Machine/HwdCore.lean ====
section
/-! DEFINITION. Heartwood's parts (R332–R368): states, key derivation, slots and their swap, blobs, the working-key cache. -/

namespace Sys2Proof.Machine

/-- ST values (R363). -/
def hsINIT : Nat := 0
def hsNORMAL : Nat := 1
def hsALARM : Nat := 2
def hsZEROISED : Nat := 3
def hsTAMPERED : Nat := 4

/-- Heartwood serves (R363). -/
def Block.hwdNormal (b : Block) : Bool := b.rd HWD_STATE.ST == hsNORMAL

/-! ### Derivation and identity (R335–R341) -/

/-- The root secret; zeros while its read path is off (R335). -/
def Block.root (b : Block) : List Byte :=
  if b.bit HWD_STATE.ROOT_OFF then List.replicate 32 0 else (List.range 32).map Config.rootSecret

/-- The measurement register k (R336). -/
def Block.mregOf (b : Block) (k : Nat) : List Byte := b.hwd.mreg.getD k (List.replicate 64 0)

/-- Register k extended with data (R336). -/
def Block.mregExtend (b : Block) (k : Nat) (d : List Byte) : Block :=
  { b with hwd := { b.hwd with mreg := b.hwd.mreg.set k (shake256 64 (b.mregOf k ++ d)) } }

/-- ASCII of a string. -/
def ascii (s : String) : List Byte := s.toList.map (fun c => BitVec.ofNat 8 c.toNat)

/-- The KDF (R338). -/
def Block.kdf (b : Block) (msel : Nat) (label secret ctx : List Byte) (n : Nat) : List Byte :=
  shake256 n (ascii "GRNKDF01" ++ b.root ++ leBytes 1 msel ++ ((List.range 8).filter (bitOf msel)).flatMap b.mregOf
    ++ leBytes 1 label.length ++ label ++ secret ++ leBytes 2 ctx.length ++ ctx ++ leBytes 2 n)

/-- The private keys of the silicon and the firmware identity (R340). -/
def Block.sidKey (b : Block) : List Byte := b.kdf 0 (ascii "GRN-SID") [] [] 57
def Block.fidKey (b : Block) : List Byte := b.kdf 1 (ascii "GRN-FID") [] [] 57

/-- A signature over data: pure Ed448 over its SHAKE256 output of 64 bytes (R359). -/
def signData (sk d : List Byte) : List Byte := edSign sk (shake256 64 d)

/-- RES_0 of GET_FW_INFO: the steward firmware version (R42). -/
def Block.fwWord (b : Block) : Nat := b.stw.major * 2 ^ 16 + b.stw.minor * 2 ^ 8 + b.stw.patch

/-- The rollback counter (R472). -/
def Block.fwRoll (b : Block) : Nat := b.rd UPD_ROLL.ROLL

/-- The FID certificate (R341). -/
def Block.fidCert (b : Block) : List Byte :=
  let body := ascii "GRNFIDC1" ++ leBytes 4 (b.reg SYS_CHIP_ID.all.base).toNat ++ leBytes 4 b.fwWord ++ leBytes 1 b.fwRoll
    ++ edPublic b.fidKey ++ b.mregOf 0
  body ++ signData b.sidKey body

/-! ### Slots (R343–R349) -/

/-- The half a weave of superframe `sf`, or the beacon of it, receives in beat `beat` (R348): the new one from the swap superframe on once the swap is
decided, the former one before it; after a swap in mode NOW the new one from the beat after completion on. -/
def KSlot.halfFor (s : KSlot) (sf beat : Nat) : Half :=
  match s.now with
  | some (n, h) => if beat ≤ n then h else if s.st = 2 ∧ s.decided = true ∧ s.swapSf ≤ sf then s.other else s.act
  | none =>
    if s.st = 2 ∧ s.decided = true ∧ s.swapSf ≤ sf then s.other
    else if s.st = 3 ∧ sf < s.swapSf then s.other
    else s.act

/-- The swap of a slot takes place (R347, R348): the halves exchange, the former is RETIRING while a weave of an earlier superframe runs or is queued,
SWAP sets and the generation is shown. In mode NOW (`all`) the superframe is the present one, and no weave receives the former half after this
beat. -/
def Block.slotSwap (b : Block) (m : Nat) (all : Bool) : Block :=
  let s := b.slot m
  let b := b.setSlot m { act := s.other, other := s.act, st := 3, mode := 0, operand := 0, decided := false,
                         swapSf := if all then b.sf else s.swapSf, now := if all then some (b.clk.beat, s.act) else none }
  (b.set HWD_EVT.SWAP).slotRetire

/-- The decision of the AT_SF swaps of superframe `s` at the start of cell 255 before it (R347). -/
def Block.slotDecideSf (b : Block) (s : Nat) : Block :=
  b.eachSlot (fun b m x => if x.st = 2 ∧ x.mode = 1 ∧ x.operand = s then b.setSlot m { x with decided := true, swapSf := s } else b)

/-- The decision of the WITH_EPOCH swaps of an epoch that is not held (R347). -/
def Block.slotDecideEpoch (b : Block) (epoch sf : Nat) : Block :=
  b.eachSlot (fun b m x => if x.st = 2 ∧ x.mode = 2 ∧ x.operand % 65536 = epoch then b.setSlot m { x with decided := true, swapSf := sf } else b)

/-- The swaps decided for a superframe up to `s` take place at its start (R347). -/
def Block.slotSwapAt (b : Block) (s : Nat) : Block :=
  b.eachSlot (fun b m x => if x.st = 2 ∧ x.decided = true ∧ x.swapSf ≤ s then b.slotSwap m false else b)

/-- The half may serve an engine: not EMPTY, with the engine's mask bit (R344). -/
def Half.allows (h : Half) (bit : Nat) : Bool := h.typ != 0 && bitOf h.mask bit

/-- Engine mask bits (R344). -/
def mkFC : Nat := 0
def mkWRAP : Nat := 1
def mkSIGN : Nat := 2
def mkKDF : Nat := 3
def mkCNP : Nat := 4
def mkEXPORT : Nat := 5

/-- The first 8 bytes of AES_k(0^128) (R346). -/
def keyCheck (k : List Byte) : List Byte := (aes k (List.replicate 16 0)).take 8

/-! ### Blobs (R351, R352) -/

/-- KLEN of a blob. -/
def blobKlen (l : List Byte) : Nat := leAt l 2 1

/-- A blob opened under a key, bound to `target` (R351, R352). -/
def blobOpen (key l target : List Byte) : Option (List Byte) := sivOpen key [slice l 0 8, target] (slice l 8 16) (slice l 24 (blobKlen l))

/-- A blob made under a key (R351). -/
def blobSeal (key hdr target k : List Byte) : List Byte := let r := sivSeal key [hdr, target] k; hdr ++ r.1 ++ r.2

/-- The slot WSEL names (R352), if it is valid. -/
def Block.wrapSlot (b : Block) (w : Nat) : Option Nat :=
  if w = 0 then (if b.bit HWD_WRAP_CFG.W0_VALID then some (b.rd HWD_WRAP_CFG.WRAP_SLOT_0) else none)
  else if b.bit HWD_WRAP_CFG.W1_VALID then some (b.rd HWD_WRAP_CFG.WRAP_SLOT_1) else none

/-- The wrap key of a WSEL: an AES256 half with WRAP in its mask (R352, R370). -/
def Block.wrapKey (b : Block) (w : Nat) : Option (List Byte) :=
  match b.wrapSlot w with
  | some m => let h := (b.slot m).act; if h.typ = 2 ∧ h.allows mkWRAP = true then some h.key else none
  | none => none

/-! ### The working-key cache (R354–R357) -/

/-- The set of an address. -/
def wkSet (a : Nat) : Nat := (a % 4096) ^^^ (a / 2 ^ 12 % 4096) ^^^ (a / 2 ^ 24 % 16)

/-- The entry of an address with this header and V. -/
def Block.wkFind (b : Block) (a : Nat) (hdr v : List Byte) : Option (Nat × WKey) :=
  (List.range 8).findSome? (fun w => match Tbl.find b.hwd.cache (wkSet a * 8 + w) with
    | some e => if e.addr = a ∧ e.hdr = hdr ∧ e.v = v then some (wkSet a * 8 + w, e) else none
    | none => none)

/-- HWD_CACHE_ST counts the valid entries. -/
def Block.wkCount (b : Block) : Block := b.wr HWD_CACHE_ST.VALID b.hwd.cache.length

/-- An entry's use is the most recent (R354). -/
def Block.wkTouch (b : Block) (key : Nat) (e : WKey) : Block :=
  { b with hwd := { b.hwd with cache := Tbl.insert b.hwd.cache key { e with used := b.hwd.useSeq }, useSeq := b.hwd.useSeq + 1 } }

/-- An unwrap fills its entry (R355): of the same address first, then an invalid way, then the least recently used. -/
def Block.wkFill (b : Block) (a : Nat) (hdr v key : List Byte) : Block :=
  let s := wkSet a * 8
  let ways := (List.range 8).map (fun w => (s + w, Tbl.find b.hwd.cache (s + w)))
  let same := ways.find? (fun x => match x.2 with | some e => e.addr == a | none => false)
  let free := ways.find? (fun x => x.2.isNone)
  let old := ways.foldl (fun m x => match x.2 with
    | some e => (match m with | some (y : Nat × WKey) => if e.used < y.2.used then some (x.1, e) else some y | none => some (x.1, e))
    | none => m) none
  let k := match same with
    | some x => x.1
    | none => match free with
      | some x => x.1
      | none => (old.map (·.1)).getD s
  (b.wkTouch k { addr := a, hdr := hdr, v := v, key := key, used := 0 }).wkCount

/-- Cache entries that `c` names are invalidated (R357). -/
def Block.wkDrop (b : Block) (c : Nat → List Byte → Bool) : Block :=
  { b with hwd := { b.hwd with cache := b.hwd.cache.filter (fun e => !c e.2.addr e.2.hdr) } }.wkCount

/-- The entries of an address are invalidated, and unwraps in flight for it make no fill (R329, R357). -/
def Block.wkDropAddr (b : Block) (a : Nat) : Block :=
  let us : List Unwrap := b.hwd.unwraps.map (fun (u : Unwrap) => if u.addr = a then { u with fill := false } else u)
  { b with hwd := { b.hwd with unwraps := us } }.wkDrop (fun x _ => x == a)

/-! ### Tamper (R361–R365) -/

/-- The actions of a class 1 event (R364): deliveries due carry TAMPER and no data, holders and cache are cleared, PENDING halves are discarded. -/
def Block.tamperClear (b : Block) : Block :=
  let fail (t : Ticket) : Ticket := match t.unit with
    | .keyreq | .seal | .opened =>
      let m : Nat := if t.unit == .keyreq then 2 ^ 32 else 0
      { t with status := (t.status &&& BitVec.ofNat 64 m) ||| BitVec.ofNat 64 (2 ^ 63 + 6 * 2 ^ 56), data := [], key := none }
    | _ => t
  let ss : Tbl Strand := b.wft.strands.map (fun (e : Nat × Strand) => (e.1, { e.2 with kh := [], tks := e.2.tks.map (fun (t : Nat × Ticket) => (t.1, fail t.2)) }))
  let b := { b with wft := { b.wft with strands := ss } }
  let b := (b.wkDrop (fun _ _ => true))
  let b := { b with hwd := { b.hwd with unwraps := [] } }
  b.eachSlot (fun b m x => if x.st = 1 ∨ x.st = 2 then (b.setSlot m x.drop).set HWD_EVT.SWAP_DROP else b)

/-- A mailbox command of Heartwood in progress completes with TAMPERED and takes no effect (R364): those of opcodes 0x1000–0x10FF but GET_STATE and
TAMPER_CLEAR. What it was to do at its completion is not done. -/
def Block.tamperMbx (b : Block) : Block :=
  let op := b.rd SYS_MBX_CMD.OPCODE
  let busy := b.rd SYS_MBX_STATE.PHASE == phBUSY || b.rd SYS_MBX_STATE.PHASE == phABORTING
  if busy && op / 256 == 0x10 && op != 0x1000 && op != 0x1041 then { b.mbxHold 0x8101 [] with hwd := { b.hwd with fx := .none } } else b

/-- Class 1: the state becomes ALARM, from any state but ZEROISED and TAMPERED (R364, R365). -/
def Block.class1 (b : Block) (cause : Nat) : Block :=
  let b := ((b.inc HWD_CNT_CLASS1.all).set HWD_EVT.CLASS1).wr HWD_STATE.CAUSE (b.rd HWD_STATE.CAUSE ||| cause)
  let b := b.tamperClear.tamperMbx
  if b.rd HWD_STATE.ST == hsZEROISED || b.rd HWD_STATE.ST == hsTAMPERED then b else b.wr HWD_STATE.ST hsALARM

/-- Every slot half is emptied, and with them the wrap configuration (R345, R365, R374). -/
def Block.slotsLost (b : Block) : Block :=
  let b := (List.range 64).foldl (fun b m => b.setSlot m KSlot.empty) b
  b.setReg HWD_WRAP_CFG.all.base 0

/-- Class 2 (R365): the actions of class 1, and every key, identity and the root path are gone; the AON latch sets. -/
def Block.class2 (b : Block) (cause st : Nat) : Block :=
  let b := (b.tamperClear.tamperMbx).slotsLost
  let b := { b with hwd := { b.hwd with ident := false, latch := true, aonCause := b.hwd.aonCause ||| cause } }
  ((((b.set HWD_STATE.ROOT_OFF).set HWD_STATE.LATCH).wr HWD_STATE.CAUSE (b.rd HWD_STATE.CAUSE ||| cause)).wr HWD_STATE.ST st).set HWD_EVT.CLASS2

end Sys2Proof.Machine
end

