-- ==== Sys2Proof/Machine/GrvCore.lean ====
section
/-! DEFINITION. The Grove's parts (R310–R329): records, the cache and its victims, write-backs, loads and stores. -/

namespace Sys2Proof.Machine

/-! ### Records (R310–R314) -/

/-- The byte address of record i, of its map bit's byte, and of journal entry j. -/
def Block.grvRec (b : Block) (i : Nat) : Nat := (b.reg GRV_DIR_BASE.all.base).toNat * 2 ^ 32 + 128 * i
def Block.grvMap (b : Block) (i : Nat) : Nat :=
  (b.reg GRV_MAP_BASE_LO.all.base).toNat + (b.reg GRV_MAP_BASE_HI.all.base).toNat * 2 ^ 32 + i / 8
def Block.grvJrnl (b : Block) (j : Nat) : Nat :=
  (b.reg GRV_JRNL_BASE_LO.all.base).toNat + (b.reg GRV_JRNL_BASE_HI.all.base).toNat * 2 ^ 32 + 256 * j

/-- STATE values (R313). -/
def gsFREE : Nat := 0
def gsJOINING : Nat := 1
def gsACTIVE : Nat := 2
def gsSILENT : Nat := 3
def gsDISABLED : Nat := 4
def gsSELF : Nat := 5

/-- STATE[2:0] of a record image. -/
def recState (l : List Byte) : Nat := leAt l 56 1 % 8

/-- The image with another STATE[2:0]. -/
def recSetState (l : List Byte) (x : Nat) : List Byte := splice l 56 (leBytes 1 (leAt l 56 1 / 8 * 8 + x))

/-- The image with its CHK computed (R312). -/
def withChk (l : List Byte) : List Byte := let d := slice l 0 124; d ++ leBytes 4 (crc32 d)

/-- CHK is right. -/
def chkOk (l : List Byte) : Bool := leAt l 124 4 == crc32 (slice l 0 124)

/-- The FREE record: all zero except CHK. -/
def freeRecord : List Byte := withChk (List.replicate 128 0)

/-- The image stored in place of the present one by CTXST and WRITE: where either STATE is FREE or SELF the present STATE is kept (R314). -/
def stored (present image : List Byte) : List Byte :=
  let p := recState present
  let w := recState image
  withChk (if p = gsFREE ∨ p = gsSELF ∨ w = gsFREE ∨ w = gsSELF then recSetState image p else image)

/-- The mesh address of record i: this device's position and the local index (R110). -/
def Block.grvAddr (b : Block) (i : Nat) : Nat := b.rd CNP_STAT.POS * 2 ^ 25 + i

/-! ### The cache (R315–R319) -/

/-- The set of a record. -/
def grvSet (i : Nat) : Nat := (i % 8192) ^^^ (i / 8192 % 4096)

/-- The line of a way: a fetch that found no good record leaves none once it has ended (R316). -/
def Block.lineAt (b : Block) (key : Nat) : Option GLine :=
  match Tbl.find b.grv.lines key with
  | some l => if l.void && decide (l.fetch ≤ b.clk.beat) then none else some l
  | none => none

/-- The way that holds record i, or fetches it, with its key. -/
def Block.grvFind (b : Block) (i : Nat) : Option (Nat × GLine) :=
  (List.range 16).findSome? (fun w => match b.lineAt (grvSet i * 16 + w) with
    | some l => if l.idx = i then some (grvSet i * 16 + w, l) else none
    | none => none)

def Block.setLine (b : Block) (key : Nat) (l : GLine) : Block := { b with grv := { b.grv with lines := Tbl.insert b.grv.lines key l } }

/-- The write-backs queued or waiting for a place, the newest first. -/
def Block.wbAll (b : Block) : List WriteBack := (b.grv.wb ++ b.grv.wbWait).reverse

/-- The record as DRAM holds it, a queued write-back seen (R314). -/
def Block.dramRecord (b : Block) (i : Nat) : List Byte :=
  match b.wbAll.find? (fun w => w.idx == i) with
  | some w => w.image
  | none => b.dramBytes (b.grvRec i) 128

/-- The record in DRAM cannot be corrected or fails CHK (R316). -/
def Block.recordBad (b : Block) (i : Nat) : Bool :=
  match b.wbAll.find? (fun w => w.idx == i) with
  | some _ => false
  | none => b.dramPoisoned (b.grvRec i) 128 || !chkOk (b.dramRecord i)

/-- The record as the cache holds it, else as DRAM does. -/
def Block.recordNow (b : Block) (i : Nat) : List Byte :=
  match b.grvFind i with
  | some (_, l) => l.data
  | none => b.dramRecord i

/-- The record cannot be corrected, or fails CHK, where it is (R317, R329). -/
def Block.recordPoisoned (b : Block) (i : Nat) : Bool :=
  match b.grvFind i with
  | some (_, l) => l.bad
  | none => b.recordBad i

/-- Word `j` of a line is read (R518); one that cannot be corrected spoils the record (R316). -/
def Block.lineFind (b : Block) (key j flags : Nat) (extra : List Nat) : Block :=
  match Tbl.find b.grv.lines key with
  | some l => b.odFind 2 (16 * key + j) flags extra (slice l.data (8 * j) 8) false (fun b d p =>
      b.setLine key { l with data := splice l.data (8 * j) d, bad := l.bad || p })
  | none => b

/-- A line is written whole: no error is left in its words. -/
def Block.putLine (b : Block) (key : Nat) (l : GLine) : Block := (b.setLine key l).odClear 2 (16 * key) 16

/-- Record i is read where it is: in its line, else in DRAM unless a write-back of it is queued (R314, R518). -/
def Block.recordTouch (b : Block) (i : Nat) : Block :=
  match b.grvFind i with
  | some (key, l) => ((b.odErrs 2 (16 * key) 16).foldl (fun (b : Block) w => b.lineFind key (w % 16) 0 []) b).when l.bad (fun b => b.inc RAS_UE_CNT.all)
  | none => if b.wbAll.any (fun w => w.idx == i) then b else b.dramTouch (b.grvRec i) 128

/-- The record is FREE: one that cannot be corrected is not (R323). -/
def Block.recordFree (b : Block) (i : Nat) : Bool := !b.recordPoisoned i && recState (b.recordNow i) == gsFREE

/-- A write-back joins the queue of 512 entries, or waits for a place in it (R320). -/
def Block.wbQueue (b : Block) (i : Nat) (image : List Byte) : Block :=
  let w : WriteBack := { idx := i, image := image }
  if b.grv.wb.length < 512 then { b with grv := { b.grv with wb := b.grv.wb ++ [w] } }
  else { b with grv := { b.grv with wbWait := b.grv.wbWait ++ [w] } }

/-- The oldest write-back has left the queue: the one that waits longest takes the place. -/
def Block.wbPop (b : Block) : Block :=
  { b with grv := { b.grv with wb := b.grv.wb.drop 1 ++ b.grv.wbWait.take 1, wbWait := b.grv.wbWait.drop 1 } }

/-- What a miss finds in its set (R316, R317). -/
inductive Victim where
  | way (key : Nat) (old : Option GLine)
  | setFull
  | busy
  deriving DecidableEq, Repr

/-- The victim of a miss: a way that holds no record, the lowest first; else by last use, or with REPL as the LFSR draws it (R542), among
the ways not locked and with no fetch in flight (R316). -/
def Block.victim (b : Block) (i : Nat) : Victim :=
  let s := grvSet i * 16
  let now := b.clk.beat
  match (List.range 16).find? (fun w => (b.lineAt (s + w)).isNone) with
  | some w => .way (s + w) none
  | none =>
    let ways := (List.range 16).filterMap (fun w => (b.lineAt (s + w)).map (fun l => (s + w, l)))
    match ways.filter (fun x => x.2.lock.isNone && decide (x.2.fetch ≤ now)) with
    | [] => if ways.all (fun x => x.2.lock.isSome) then .setFull else .busy
    | c :: cs =>
      if b.bit GRV_CTL.REPL then
        match (c :: cs)[Config.lfsrPick b.grv.lfsr (c :: cs).length % (c :: cs).length]? with
        | some x => .way x.1 (some x.2)
        | none => .busy
      else
        let x := cs.foldl (fun m y => if y.2.used < m.2.used then y else m) c
        .way x.1 (some x.2)

/-- A way is taken for record i, or the failure code: 1 SET_FULL, 5 BUSY (R317). A dirty victim is queued for write-back. -/
def Block.takeWay (b : Block) (i : Nat) : (Nat × Nat) × Block :=
  let inFlight := (b.grv.lines.filter (fun e => decide (b.clk.beat < e.2.fetch))).length
  match b.victim i with
  | .setFull => ((1, 0), b)
  | .busy => ((5, 0), b)
  | .way key old =>
    if 256 ≤ inFlight then ((5, 0), b)
    else
      let b := b.when (b.bit GRV_CTL.REPL && old.isSome) (fun b => { b with grv := { b.grv with lfsr := Config.lfsrNext b.grv.lfsr } })
      match old with
      | some l =>
        if l.dirty && decide (512 ≤ b.grv.wb.length) then ((5, 0), b)
        else
          let b := b.when l.dirty (fun b => b.wbQueue l.idx l.data)
          ((0, key), { b with grv := { b.grv with lines := Tbl.erase b.grv.lines key } })
      | none => ((0, key), b)

/-- The locks a strand holds. -/
def Block.locksOf (b : Block) (k : Nat) : Nat := (b.grv.lines.filter (fun e => e.2.lock == some k)).length

/-- The lock failures of a CTXLD with LOCK (R296): LOCK_LIMIT 3, LOCK_HELD 4. -/
def Block.lockFails (b : Block) (k i : Nat) : List Nat :=
  let owner := (b.grvFind i).bind (fun x => x.2.lock)
  if owner = some k then []
  else (if 4 ≤ b.locksOf k ∨ 512 ≤ b.rd GRV_LOCKS.LOCKS then [3] else []) ++ (if owner.isSome then [4] else [])

/-- A record found poisoned or failing CHK is counted and reported (R330). -/
def Block.grvPoison (b : Block) : Block := (b.inc GRV_CNT_POISON.all).set GRV_EVT.POISON

/-- A CTXLD's decision in its issue beat (R296, R314, R316, R317, R319): the code (0 success), MISS, and the record, zero where it is FREE. A hit is a use
whatever its outcome; a fetch that finds no good record holds its way until it ends. Where several failures apply, which is reported is open (log
entry 2). -/
def Block.grvLoad (b : Block) (k i : Nat) (lock : Bool) : (Nat × Bool × List Byte) × Block :=
  if !b.bit GRV_STAT.READY then ((5, true, []), b)
  else
    let lf := if lock then b.lockFails k i else []
    let b := b.recordTouch i
    let give (d : List Byte) : List Byte := if recState d = gsFREE then freeRecord else d
    match b.grvFind i with
    | some (key, l) =>
      let miss := decide (b.clk.beat < l.fetch)
      let b := b.setLine key { l with used := b.clk.beat }
      if l.bad then ((b.pick (2 :: lf), miss, []), b.took)
      else if lf.isEmpty then
        ((0, miss, give l.data), (b.setLine key { l with used := b.clk.beat, lock := if lock then some k else l.lock }).lockCount)
      else ((b.pick lf, miss, []), b.took)
    | none =>
      match b.takeWay i with
      | ((0, key), b') =>
        if !lf.isEmpty then ((b.pick lf, true, []), b.took)
        else
          let bad := b.recordBad i
          let d := b.dramRecord i
          let l : GLine := { idx := i, data := d, dirty := false, used := b.clk.beat, lock := if lock && !bad then some k else none,
                             fetch := b.clk.beat + 640, bad := bad, void := bad }
          if bad then ((2, true, []), b'.putLine key l) else ((0, true, give d), (b'.putLine key l).lockCount)
      | ((c, _), _) => ((b.pick (c :: lf), true, []), b.took)

/-- A CTXST's decision in its issue beat (R297, R314, R316–R318): the code (0 success, 1 BUSY, 2 LOCK_HELD) and whether it missed. -/
def Block.grvStore (b : Block) (k i : Nat) (image : List Byte) (unlock : Bool) : (Nat × Bool) × Block :=
  if !b.bit GRV_STAT.READY then ((1, true), b)
  else
    match b.grvFind i with
    | some (key, l) =>
      if l.lock.isSome && l.lock != some k then ((2, false), b.setLine key { l with used := b.clk.beat })
      else
        let l := { l with data := stored l.data image, dirty := true, used := b.clk.beat, lock := if unlock then none else l.lock, bad := false,
                          void := false }
        ((0, false), (b.putLine key l).lockCount)
    | none =>
      match b.takeWay i with
      | ((0, key), b') =>
        let l : GLine := { idx := i, data := stored (b.dramRecord i) image, dirty := true, used := b.clk.beat, lock := none,
                           fetch := b.clk.beat + 640, bad := false, void := false }
        ((0, true), b'.putLine key l)
      | _ => ((1, true), b)

/-- A record image written by the host or a steward: into the line when resident, else through the journal (R329). -/
def Block.recordPut (b : Block) (i : Nat) (image : List Byte) : Block :=
  match b.grvFind i with
  | some (key, l) => b.putLine key { l with data := image, dirty := true, bad := false, void := false }
  | none => b.wbQueue i image

/-- Some bytes of record i written where it is, CHK with them: in its line, in a write-back that is queued, or in DRAM; nothing else of it changes
(R326). -/
def Block.recordPatch (b : Block) (i : Nat) (image : List Byte) (a n : Nat) : Block :=
  match b.grvFind i with
  | some (key, l) => b.setLine key { l with data := image, dirty := true }
  | none =>
    if b.wbAll.any (fun w => w.idx == i) then
      let on (w : WriteBack) : WriteBack := if w.idx = i then { w with image := image } else w
      { b with grv := { b.grv with wb := b.grv.wb.map on, wbWait := b.grv.wbWait.map on } }
    else (b.dramWrite (b.grvRec i + a) (slice image a n)).dramWrite (b.grvRec i + 124) (slice image 124 4)

/-- A strand holds the record's lock. -/
def Block.recordLocked (b : Block) (i : Nat) : Bool :=
  match b.grvFind i with
  | some (_, l) => l.lock.isSome
  | none => false

/-- Steward core `n` is up and serves the Grove (R32). -/
def Block.stewardUp (b : Block) (n : Nat) : Bool := b.bit SYS_MBX_STATE.READY && bitOf (b.rd SYS_MBX_STATE.STW_UP) n

/-- The port of steward core `n` shows an operation on record i with its image and status (R329). -/
def Block.stwPort (b : Block) (n op i status : Nat) (d : List Byte) : Block :=
  { b with stw := { b.stw with ports := Tbl.insert b.stw.ports n { idx := i, op := op, status := status, data := d } } }

/-- Steward core `n` reads record i to change it (R329): not while a strand holds its lock, and one that cannot be corrected is reported. -/
def Block.stwRead (b : Block) (n i : Nat) : Option (List Byte) × Block :=
  if b.recordLocked i then (none, b)
  else
    let b := b.recordTouch i
    if b.recordPoisoned i then (none, b.grvPoison.stwPort n 0 i 2 [])
    else (some (b.recordNow i), b.stwPort n 0 i 0 (b.recordNow i))

/-- Steward core `n` writes record i (R329). -/
def Block.stwWrite (b : Block) (n i : Nat) (image : List Byte) : Block := (b.recordPut i (withChk image)).stwPort n 1 i 0 (withChk image)

/-- Steward core `n` updates record i by a locked CTXLD and a CTXST through its port (R328): not where either fails. A steward's accesses are no use of the
way (R316). The flag says whether the record is updated. -/
def Block.stwUpdate (b : Block) (n i : Nat) (f : List Byte → List Byte) : Bool × Block :=
  let used := (b.grvFind i).map (fun x => x.2.used)
  match b.grvLoad (128 + n) i true with
  | ((0, _, d), b) =>
    let b := (b.grvStore (128 + n) i (f d) true).2
    let b := match b.grvFind i, used with | some (key, l), some u => b.setLine key { l with used := u } | _, _ => b
    (true, b.stwPort n 1 i 0 (withChk (f d)))
  | ((2, _, _), b) => (false, b.grvPoison.stwPort n 0 i 2 [])
  | ((_, _, _), b) => (false, b)

end Sys2Proof.Machine
end

