-- ==== Sys2Proof/Machine/Pair.lean ====
section
/-! DEFINITION. How a write stores a register's fields by access type, and how pairs are written and read (R11–R13). -/

namespace Sys2Proof.Machine

/-- The masks of the register at an offset; none for a reserved one (R10). -/
def rowMasks (off : Nat) : BitVec 32 × BitVec 32 × BitVec 32 :=
  match regRow? off with
  | some r => (r.rw ||| r.wo, r.w1c, r.w1s)
  | none => (0, 0, 0)

/-- What a register of these access masks holds after a write (R11): RW and WO bits take the value, W1C bits written 1 clear, W1S bits written 1
set, every other bit stays. -/
def accessStore (rw w1c w1s old v : BitVec 32) : BitVec 32 :=
  (((old &&& ~~~rw) ||| (v &&& rw)) &&& ~~~(v &&& w1c)) ||| (v &&& w1s)

/-- A write of the register at `off` by access type (R11). A W1C bit that the hardware set in this beat remains set (R12). -/
def Block.regStore (b : Block) (off : Nat) (v : BitVec 32) : Block :=
  let m := rowMasks off
  b.setReg off (accessStore m.1 m.2.1 m.2.2 (b.reg off) v ||| ((b.tieAt off).2 &&& m.2.1))

/-- A write of NAME_LO is held (R13). -/
def Block.loWrite (b : Block) (off : Nat) (v : BitVec 32) : Block := { b with loHeld := Tbl.insert b.loHeld off v }

/-- A write of NAME_HI takes effect with the value held for NAME_LO (R13), or with the one NAME_LO has when none is held. -/
def Block.hiWrite (b : Block) (off : Nat) (v : BitVec 32) : Block :=
  let lo := off - 4
  let b := match Tbl.find b.loHeld lo with | some x => b.regStore lo x | none => b
  { b with loHeld := Tbl.erase b.loHeld lo }.regStore off v

end Sys2Proof.Machine
end

