-- ==== Sys2Proof/Machine/TxcCore.lean ====
section
/-! DEFINITION. The transmit chain's parts (R172–R191): arming, airtime, how a port ends a transmission, records, pins, table images. -/

namespace Sys2Proof.Machine

def Block.setTx (b : Block) (h : Nat) (t : Tx) : Block := { b with txc := { b.txc with txs := Tbl.insert b.txc.txs h t } }

/-- The airtime unit, 2^-16 s, in quanta (R177). -/
def qAir : Nat := 2 ^ 16 * qHt

/-- The airtime from T1 to an instant, rounded up (R185, R198). -/
def Tx.airTo (t : Tx) (q : Nat) : Nat := min t.air (ceilDiv (q - htQ t.t1) qAir)

/-- The chips whose time lies before an instant (R197). -/
def Tx.chipsTo (t : Tx) (q : Nat) : Nat := min t.nc (ceilDiv (q - t.t1Q) t.tc)

/-- TXL of a port (R179). -/
def Block.txl (b : Block) (n tc : Nat) : Nat := 4 * tc + 2048 * qDsp + b.paLead n + b.trLead n + b.rd TXC_PORT_DLY.DLY n * qHt

/-! ### Ports (R172, R173) -/

/-- Port `n` is refused (R173). -/
def Block.portRefused (b : Block) (n : Nat) : Bool :=
  let band := b.rd TXC_PORT_CFG.BAND n
  let rate := b.rd TXC_PORT_CFG.RATE n
  rate == 3 || !b.bandUsed band || b.offCentre band (b.reg (TXC_PORT_NCO.all.off n)) (491520000 / 2 ^ rate)

/-- The ports of a mask. -/
def maskPorts (m : Nat) : List Nat := (List.range 8).filter (bitOf m)

/-! ### Airtime (R187, R188) -/

/-- The window sum of counter `k` (index 64n + k). -/
def Block.airUsed (b : Block) (c : Nat) : Nat := (List.range 16).foldl (fun a i => a + Tbl.get (fun _ => 0) b.txc.used (c * 16 + i)) 0

/-- The current segment of a band. -/
def Block.segOf (b : Block) (band : Nat) : Nat := Tbl.get (fun _ => 0) b.txc.segNo band

/-- A segment sum changed. -/
def Block.airAdd (b : Block) (c seg : Nat) (x : Int) : Block :=
  let k := c * 16 + seg % 16
  let cur : Nat := Tbl.get (fun _ => 0) b.txc.used k
  { b with txc := { b.txc with used := Tbl.put (fun _ => 0) b.txc.used k ((cur : Int) + x).toNat } }

/-- A refund to the segment the airtime was reserved in, while it is in the window (R188). -/
def Block.airRefund (b : Block) (band c seg x : Nat) : Block := if b.segOf band < seg + 16 then b.airAdd c seg (-(x : Int)) else b

/-- WINDOW_S of a band (R190). -/
def Block.windowS (b : Block) (band : Nat) : Nat := max 1 (min 3600 (b.regionByte band 8 + 256 * b.regionByte band 9))

/-- An airtime in 2^-16 s is longer than MAX_DWELL of its band (R177, R178, R190). -/
def Block.overDwell (b : Block) (band air : Nat) : Bool :=
  let m := b.regionByte band 10 + 256 * b.regionByte band 11
  m != 0 && decide (m * 2 ^ 16 < air * 1000)

/-- BUDGET of a counter (R191). -/
def Block.budget (b : Block) (c : Nat) : Nat := (b.reg (TXC_DWELL_ACT.all.off c)).toNat % 2 ^ 28

/-- A further airtime `x` would exceed the budget of counter `c` (R188). -/
def Block.overDuty (b : Block) (c x : Nat) : Bool :=
  let g := b.budget c
  g == 0 || (g != 0xFFFFFFF && decide (g < b.airUsed c + x))

/-! ### Arming (R176–R180) -/

/-- What a strand or the beacon builder asks for (R176). -/
structure TxAsk where
  owner : TxOwner
  ports : Nat
  band : Nat
  ch : Nat
  sfc : Nat
  mod : Nat
  code : Nat
  frame : TxFrame
  t1 : BitVec 64
  atten : Nat
  deriving DecidableEq, Repr

/-- The TYPE and LEN of what is sent. -/
def Block.askFrame (b : Block) (f : TxFrame) : Nat × Nat :=
  match f with
  | .buf h typ => (typ, Tbl.get (fun _ => 0) b.rxa.fbLen h)
  | .ack _ _ => (tyACK, 0)
  | .bytes typ l => (typ, l.length)

/-- The transmissions on a port, with the radiated intervals they keep until they post. -/
def Block.onPort (b : Block) (n : Nat) : List Tx := (b.txc.txs.map (·.2)).filter (fun t => t.ports.any (fun p => p.port == n))

/-- Two intervals overlap (log entry 21). -/
def overlaps (s e s' e' : Nat) : Bool := decide (s < e' ∧ s' < e)

/-- A ninth radiated interval would overlap at one instant (R178): at the start of the new one or of one that starts within it. -/
def Block.txBusy (b : Block) (n s e : Nat) : Bool :=
  let l := (b.onPort n).filter (fun t => overlaps t.startQ t.endQ s e)
  (s :: (l.map Tx.startQ).filter (fun x => s < x)).any (fun x => decide (8 ≤ (l.filter (fun t => decide (t.startQ ≤ x ∧ x < t.endQ))).length))

/-- The status of R178 of an ask accepted at HTIME `acc`. A port that R173 refuses makes it CH_INVALID whatever its link (log entry 53). -/
def Block.txStatus (b : Block) (a : TxAsk) (acc : BitVec 64) : Nat :=
  let ps := maskPorts a.ports
  let tc := tcQ (b.bandProfile a.band)
  let (typ, len) := b.askFrame a.frame
  let nc := frameChips typ a.code a.mod len a.sfc
  let air := ceilDiv (nc * tc) qAir
  let s := armQ a.t1 - 4 * tc
  let e := armQ a.t1 + (nc + 4) * tc
  if !b.bit TXC_CTL.EN || ps.any (fun n => bitOf (b.rd TXC_STAT.STOPPED) n) then 1
  else if ps.any (fun n => !b.bit TXC_PORT_ST.LINK_UP n && !b.bit TXC_PORT_CFG.ERR n) then 2
  else if ps.any (fun n => b.bit TXC_PORT_CFG.ERR n || b.rd TXC_PORT_CFG.BAND n != a.band) || decide (b.bandNch a.band ≤ a.ch) then 3
  else if ps.any (fun n => decide (htQ a.t1 < htQ acc + b.txl n tc)) then 4
  else if 256 ≤ b.txc.txs.length then 5
  else if ps.any (fun n => (b.onPort n).any (fun t => t.ch == a.ch && overlaps t.startQ t.endQ s e)) then 6
  else if ps.any (fun n => b.txBusy n s e) then 7
  else if b.overDwell a.band air then 8
  else if ps.any (fun n => b.overDuty (64 * n + a.ch) air) then 9
  else 0

/-- The transmissions armed, as TXC_ARM_ST shows them. -/
def Block.txCount (b : Block) : Block := b.wr TXC_ARM_ST.ARMED b.txc.txs.length

/-- A TXARM refused with status `st` is counted (R178, R201, R309). -/
def Block.txRefuse (b : Block) (st : Nat) : Block :=
  let b := if st = 8 ∨ st = 9 then (b.inc TXC_CNT_DUTY.all).set TXC_EVT.DUTY else (b.inc TXC_CNT_REFUSED.all).set TXC_EVT.REFUSED
  b.inc TXC_ARM_ST.REFUSED

/-- TXARM's decision (R178): its status, the handle of an accepted transmission, and the block after it. Which free handle it gets is open
(log entry 2). -/
def Block.txArm (b : Block) (a : TxAsk) (acc : BitVec 64) : Nat × Nat × Block :=
  match b.txStatus a acc with
  | 0 =>
    let tc := tcQ (b.bandProfile a.band)
    let (typ, len) := b.askFrame a.frame
    let nc := frameChips typ a.code a.mod len a.sfc
    let air := ceilDiv (nc * tc) qAir
    let least := b.regionByte a.band 2
    let seg := b.segOf a.band
    let h := b.pick ((List.range 256).filter (fun h => (Tbl.find b.txc.txs h).isNone))
    let t : Tx :=
      { owner := a.owner, ports := (maskPorts a.ports).map (fun n => { port := n, started := false, ended := .live, seg := seg }),
        band := a.band, ch := a.ch, sfc := a.sfc, mod := a.mod, code := a.code, frame := a.frame, t1 := a.t1, nc := nc, tc := tc,
        atten := max a.atten least, air := air, clamp := decide (a.atten < least), clip := false, recheck := false, aborted := false, cutAt := 0,
        due := armQ a.t1 + (nc + 4) * tc + 64 * qDsp }
    let b := (maskPorts a.ports).foldl (fun b n => b.airAdd (64 * n + a.ch) seg air) b
    (0, h, ((b.took.setTx h t).when t.clamp (fun b => b.set TXC_EVT.PWR_CLAMP)).txCount)
  | st => (st, 0, b.txRefuse st)

/-! ### Ports and pins (R184, R185) -/

/-- The internal PA enable of port `n` is asserted now. -/
def Block.paOn (b : Block) (n : Nat) : Bool := bitOf (b.rd TXC_STAT.PA) n || decide (b.nowQ < Tbl.get (fun _ => 0) b.txc.paOff n)

/-- The PA_EN_n pad reads high: the enable is not asserted or the PA gate forces it, and the board does not hold it low (R192, R196). -/
def Block.padHigh (b : Block) (n : Nat) : Bool :=
  !b.pins.padLow.getLsbD n && (!b.paOn n || (b.pins.clrReq && bitOf (b.rd CLR_CTL.PORTMASK) n))

/-- CLR_ACK (R192). -/
def Block.clrAck (b : Block) : Bool := b.pins.clrReq && (maskPorts (b.rd CLR_CTL.PORTMASK)).all b.padHigh

/-- The internal PA enable of port `n` ends at the instant `q`: the pins return, the switch TRSW_LAG later, and BLK_POST later the blanking ends (R184,
R186, R198). -/
def Block.paFall (b : Block) (n q : Nat) : Block :=
  let b := { b with txc := { b.txc with paOff := Tbl.put (fun _ => 0) b.txc.paOff n q } }.gapStop (8 + n) (q + b.blkPost)
  (((b.wr TXC_STAT.PA (b.rd TXC_STAT.PA &&& (255 ^^^ 2 ^ n))).clr TXC_PORT_ST.ACTIVE n).emit (.pinAt "PA_EN" n true q)).emit
    (.pinAt "TR_SW" n true (q + b.trLag n))

/-- No transmission started on port `n` still radiates: its PA enable ends at the instant `q` (R184, R197). -/
def Block.paSettle (b : Block) (n q : Nat) : Block :=
  if (b.onPort n).any (fun t => t.ports.any (fun p => p.port == n && p.started && p.ended == .live)) || !bitOf (b.rd TXC_STAT.PA) n then b
  else b.paFall n q

/-- How port `n` ends transmission `h`, where it is still live. -/
def Block.portEnd (b : Block) (h n : Nat) (e : PortEnd) : Block :=
  match Tbl.find b.txc.txs h with
  | some t => b.setTx h { t with ports := t.ports.map (fun p => if p.port == n && p.ended == .live then { p with ended := e } else p) }
  | none => b

/-- Every transmission of port `n` whose radiated interval has not ended posts ABORTED, with what is live on the port stopped now (R183, R200, R201). -/
def Block.portAbort (b : Block) (n : Nat) : Block :=
  let b' := b.txc.txs.foldl (fun b x =>
    if b.nowQ < x.2.endQ ∧ x.2.ports.any (fun p => p.port == n) then
      match Tbl.find (b.portEnd x.1 n (.stop b.nowQ)).txc.txs x.1 with
      | some t => (b.portEnd x.1 n (.stop b.nowQ)).setTx x.1 { t with aborted := true }
      | none => b
    else b) b
  b'.paSettle n b.nowQ

/-- What is live on port `n` when its link goes down ends there (R185), and so do the pins. -/
def Block.portDown (b : Block) (n : Nat) : Block :=
  let b' := b.txc.txs.foldl (fun b x => if b.nowQ < x.2.endQ then b.portEnd x.1 n (.down b.nowQ) else b) b
  if b.paOn n then ((b'.paFall n b.nowQ).emit (.pinAt "TR_SW" n true b.nowQ)) else b'

/-- As FLUSH: every armed transmission whose radiated interval has not ended stops (R201). -/
def Block.txFlush (b : Block) : Block := (List.range 8).foldl Block.portAbort b

/-! ### Records (R182, R183) -/

/-- The airtime a port is charged (R182, R185, R198). -/
def Tx.charge (t : Tx) (p : TxPort) : Nat :=
  match p.ended with
  | .live | .full => t.air
  | .cut q | .down q | .stop q => t.airTo q
  | .supp => 0

/-- CHIPS (R182): those radiated on the earliest-cut port, Nc when none was cut. -/
def Tx.chips (t : Tx) : Nat :=
  t.ports.foldl (fun m p => match p.ended with | .cut q => min m (t.chipsTo q) | _ => m) t.nc

/-- RES of a transmission (R183). -/
def Tx.res (t : Tx) : Nat :=
  if t.aborted then 3
  else if t.ports.any (fun p => match p.ended with | .cut _ => true | _ => false) then 1
  else if t.ports.any (fun p => p.ended == .supp) then 2
  else if t.ports.any (fun p => match p.ended with | .down _ => true | _ => false) then 4
  else 0

/-- The transmit record (R182), 96 bytes with those beyond 31 zero (R263). -/
def Block.txRecord (b : Block) (t : Tx) : List Byte :=
  let full := t.ports.foldl (fun m p => if p.ended == .full || p.ended == .live then m + 2 ^ p.port else m) 0
  let charged := t.ports.foldl (fun m p => max m (t.charge p)) 0
  leBytes 1 t.res ++ leBytes 1 (t.clamp.toNat + 2 * t.clip.toNat + 4 * (b.unlockedAt t.t1).toNat + 8 * t.recheck.toNat) ++ leBytes 1 full
    ++ leBytes 1 t.atten ++ leBytes 8 t.t1.toNat ++ leBytes 4 t.chips ++ leBytes 4 charged ++ leBytes 8 t.cutAt.toNat ++ List.replicate 68 0

/-- The reservation of a transmission becomes its charge, the difference refunded (R188). -/
def Block.txCharge (b : Block) (t : Tx) : Block :=
  t.ports.foldl (fun b p => b.airRefund t.band (64 * p.port + t.ch) p.seg (t.air - t.charge p)) b

/-! ### Table images at an activation (R181, R187, R189–R191) -/

/-- Words of two register groups exchanged. -/
def Block.swapRegs (b : Block) (f g : Fld) (n : Nat) : Block :=
  (List.range n).foldl (fun b i => let x := b.reg (f.off i); let y := b.reg (g.off i); (b.setReg (f.off i) y).setReg (g.off i) x) b

/-- A transmission fails the tables now active (R181). -/
def Block.txFails (b : Block) (t : Tx) : Bool :=
  t.ports.any (fun p => b.bit TXC_PORT_CFG.ERR p.port || b.rd TXC_PORT_CFG.BAND p.port != t.band || b.overDuty (64 * p.port + t.ch) 0)
    || decide (b.bandNch t.band ≤ t.ch) || b.overDwell t.band t.air

/-- Every transmission armed for after now is checked again; one that fails posts ABORTED with RECHECK at once (R181). Its reservation counts in the
window sums until its record posts (DESIGN CHOICE, log entry 53: R181 does not say). -/
def Block.txRecheck (b : Block) : Block :=
  b.txc.txs.foldl (fun b x =>
    if b.nowQ < htQ x.2.t1 && b.txFails x.2 then
      let b := x.2.ports.foldl (fun b p => (b.portEnd x.1 p.port (.stop b.nowQ)).paSettle p.port b.nowQ) b
      match Tbl.find b.txc.txs x.1 with
      | some t => b.setTx x.1 { t with recheck := true, aborted := true, due := b.nowQ }
      | none => b
    else b) b

/-- An epoch with SWAP bit 2 (`dwell`) or 3 (`region`) activates (R181, R189, R191): the images exchange roles unless DWELL_LOCK keeps them. -/
def Block.txcActivate (b : Block) (dwell region : Bool) : Block :=
  if !dwell && !region then b
  else if b.bit TXC_CTL.DWELL_LOCK then b.set TXC_EVT.LOCK_KEPT
  else
    let old := (List.range 8).map b.windowS
    let b := b.when dwell (fun b => b.swapRegs TXC_DWELL_PEND.all TXC_DWELL_ACT.all 512)
    let b := b.when region (fun b => b.swapRegs TXC_REGION_PEND.all TXC_REGION_ACT.all 64)
    let b := (List.range 8).foldl (fun b i =>
      if b.windowS i = old.getD i 0 then b else { b with txc := { b.txc with segCells := Tbl.put (fun _ => 0) b.txc.segCells i 0 } }) b
    let b := b.when region (fun b => (List.range 8).foldl (fun b n =>
      if b.bit TXC_PORT_CFG.EN n then b.flag TXC_PORT_CFG.ERR (b.portRefused n) n else b) b)
    b.txRecheck

/-- The airtime segments at a cell boundary (R187): each band's advances after 16 × WINDOW_S cells, its new segment empty. -/
def Block.txcAtCell (b : Block) : Block :=
  (List.range 8).foldl (fun b band =>
    let c := Tbl.get (fun _ => 0) b.txc.segCells band + 1
    if 16 * b.windowS band ≤ c then
      let seg := b.segOf band + 1
      let used := b.txc.used.filter (fun e => !(e.1 % 16 == seg % 16 && b.rd TXC_PORT_CFG.BAND (e.1 / 1024) == band))
      { b with txc := { b.txc with segNo := Tbl.put (fun _ => 0) b.txc.segNo band seg, segCells := Tbl.put (fun _ => 0) b.txc.segCells band 0,
                                    used := used } }
    else { b with txc := { b.txc with segCells := Tbl.put (fun _ => 0) b.txc.segCells band c } }) b

end Sys2Proof.Machine
end

