-- ==== Sys2Proof/Machine/PlaitCore.lean ====
section
/-! DEFINITION. The Plait queues as strands, the border path and the shaper use them (R375–R392): space, pushes, removals, watermarks and the
flow-control pins. -/

namespace Sys2Proof.Machine

/-- A queue as reset or its enabling leaves it: empty, both pointers zero (R376, R405). -/
def Queue.fresh : Queue := { items := [], wpA := 0, wpB := BitVec.allOnes 18, rpA := 0, rpB := BitVec.allOnes 18, freedBeat := 0, freed := 0 }

def Block.queue (b : Block) (q : Nat) : Queue := Tbl.get (fun _ => Queue.fresh) b.plq.queues q

/-- The wide words of an item of `n` bytes (R379). -/
def wideWords (n : Nat) : Nat := ceilDiv n 64

/-- The fill of a queue in wide words (R383). -/
def Queue.fill (q : Queue) : Nat := q.items.foldl (fun n x => n + wideWords x.bytes.length) 0

/-- The tag of wide word `i` of an item of `n` bytes (R379): ITEM_END and VBC. -/
def wideTag (n i : Nat) : Nat := if i + 1 = wideWords n then 64 + n % 64 else 0

/-- Queue `q` is enabled (R376). -/
def Block.qEnabled (b : Block) (q : Nat) : Bool := decide (q < 256) && b.bit PLQ_CFG.EN q

/-- The wide words of a queue's region. -/
def Block.qCap (b : Block) (q : Nat) : Nat := 16 * b.rd PLQ_CFG.SIZE q

/-! ### Flow control (R386–R389) -/

/-- The level of FC_IN_p that governs a decision now: before the beat that an edge governs from, either level may (R387, log entry 2). -/
def Block.fcLevel (b : Block) (p : Nat) : Bool :=
  if b.clk.beat < Tbl.get (fun _ => 0) b.plq.fcEdge p then bitOf b.freeNat p else b.pins.fcIn.getLsbD p

/-- FC_IN_p is asserted (R387). -/
def Block.fcAsserted (b : Block) (p : Nat) : Bool := b.fcLevel p != bitOf (b.rd PLQ_FC_CTL.FCI_POL) p

/-- Bit `q` of a 256-bit mask held in eight registers from `base`. -/
def Block.qMask (b : Block) (f : Fld) (p q : Nat) : Bool := bitOf (b.reg (f.off (8 * p + q / 32))).toNat (q % 32)

/-- Queue `q` is paused (R386). -/
def Block.qPaused (b : Block) (q : Nat) : Bool :=
  b.bit PLQ_CFG.PAUSE q || (List.range 8).any (fun p => b.fcAsserted p && b.qMask PLQ_FCI_MASK.all p q)

/-- The watermark state of a queue. -/
def Block.qWm (b : Block) (q : Nat) : Bool := b.qMask PLQ_WM_ST.all 0 q

/-- FC_OUT_p is asserted while a queue of its mask has watermark state 1 (R389). -/
def Block.fcOut (b : Block) (p : Nat) : Bool := (List.range 256).any (fun q => b.qWm q && b.qMask PLQ_FCO_MASK.all p q)

/-- The FC_OUT pins follow, and PLQ_FC_ST shows them (R389); `pol` is FCO_POL as it was. -/
def Block.fcDriveFrom (b : Block) (pol : Nat) : Block :=
  let old := b.rd PLQ_FC_ST.FCO ^^^ pol
  let new := (List.range 16).foldl (fun m p => if b.fcOut p then m + 2 ^ p else m) 0
  let b := b.wr PLQ_FC_ST.FCO new
  let pins := new ^^^ b.rd PLQ_FC_CTL.FCO_POL
  (List.range 16).foldl (fun b p => if bitOf old p == bitOf pins p then b else b.emit (.pin "FC_OUT" p (bitOf pins p))) b

/-- The FC_OUT pins follow a change of a watermark state or of a mask (R389). -/
def Block.fcDrive (b : Block) : Block := b.fcDriveFrom (b.rd PLQ_FC_CTL.FCO_POL)

/-- The watermark state of a queue is decided (R388). -/
def Block.wmDecide (b : Block) (q : Nat) : Block :=
  let hi := 16 * b.rd PLQ_WM.HIGH q
  let lo := 16 * b.rd PLQ_WM.LOW q
  let f := (b.queue q).fill
  let old := b.qWm q
  let new := if hi = 0 then false else if hi ≤ f then true else if f ≤ lo then false else old
  if new == old then b
  else
    let r := PLQ_WM_ST.all.off (q / 32)
    let b := b.setReg r (b.reg r ^^^ BitVec.ofNat 32 (2 ^ (q % 32)))
    (b.when (b.bit PLQ_CFG.WM_IE q) (fun b => b.set PLQ_EVT.WM_CHG)).fcDrive

/-- Queue `q` replaced; PLQ_FILL and PLQ_ITEMS show it and its watermark is decided (R388, R402). -/
def Block.setQueue (b : Block) (q : Nat) (x : Queue) : Block :=
  let b := { b with plq := { b.plq with queues := Tbl.put (fun _ => Queue.fresh) b.plq.queues q x } }
  ((b.wr PLQ_FILL.FILL x.fill q).wr PLQ_ITEMS.ITEMS x.items.length q).wmDecide q

/-! ### Pointers (R390, R391) -/

/-- The fabric logs a queue reset (R390, R523). -/
def Block.qReset (b : Block) (q : Nat) (read : Bool) (a c : BitVec 18) : Block :=
  let b := (b.setQueue q Queue.fresh).inc PLQ_CNT_RESET.all
  let b := b.setReg PLQ_RST_LAST.all.base (BitVec.ofNat 32 (2 ^ 31 + read.toNat * 256 + q))
  (b.log kindPTR 8 (BitVec.ofNat 32 read.toNat) q (a.setWidth 32) ((~~~c).setWidth 32)).set PLQ_EVT.PTR_RESET

/-- An update of the write pointer finds its copies apart: the queue is reset (R390). -/
def Block.checkWrite (b : Block) (q : Nat) : Block :=
  let x := b.queue q
  if x.wpA = ~~~x.wpB then b else b.qReset q false x.wpA x.wpB

/-- An update of the read pointer finds its copies apart; whether it did (R390). -/
def Block.checkRead (b : Block) (q : Nat) : Bool × Block :=
  let x := b.queue q
  if x.rpA = ~~~x.rpB then (false, b) else (true, b.qReset q true x.rpA x.rpB)

/-- A pointer moved on by `w` wide words in a region of `cap`. -/
def ptrMove (p : BitVec 18) (w cap : Nat) : BitVec 18 := BitVec.ofNat 18 ((p.toNat + w) % max 1 cap)

/-! ### Items in and out (R380, R383, R385, R391, R392) -/

/-- A wide word is read as zero when it cannot be corrected (R392). -/
def QItem.read (x : QItem) : List Byte := x.poison.foldl (fun d w => splice d (64 * w) (List.replicate 64 0)) x.bytes

/-- The number of the item and of its wide word that wide word `k` of the items is. -/
def itemFind : List QItem → Nat → Option (Nat × Nat)
  | [], _ => none
  | x :: l, k =>
    let n := wideWords x.bytes.length
    if k < n then some (0, k) else (itemFind l (k - n)).map (fun r => (r.1 + 1, r.2))

/-- An item of a list changed. -/
def itemSet (l : List QItem) (n : Nat) (f : QItem → QItem) : List QItem := ((List.range l.length).zip l).map (fun x => if x.1 = n then f x.2 else x.2)

/-- A wide word of an item that cannot be corrected (R392). -/
def QItem.spoil (x : QItem) (j : Nat) : QItem := { x with poison := x.poison.filter (· != j) ++ [j] }

/-- The items of queue `q` replaced by items of the same lengths. -/
def Block.setItems (b : Block) (q : Nat) (l : List QItem) : Block :=
  { b with plq := { b.plq with queues := Tbl.put (fun _ => Queue.fresh) b.plq.queues q { b.queue q with items := l } } }

/-- The wide word of the RAM that wide word `k` from a pointer of queue `q` on is (R375). -/
def Block.qWide (b : Block) (q : Nat) (p : BitVec 18) (k : Nat) : Nat := 16 * b.rd PLQ_CFG.BASE q + (p.toNat + k) % max 1 (b.qCap q)

/-- The queue and the wide word in it that wide word `w` of the RAM holds, if it holds one (R375). -/
def Block.qLocate (b : Block) (w : Nat) : Option (Nat × Nat) :=
  (List.range 256).findSome? (fun q =>
    let base := 16 * b.rd PLQ_CFG.BASE q
    let cap := b.qCap q
    if b.qEnabled q && decide (base ≤ w) && decide (w < base + cap) then
      let k := (w - base + cap - (b.queue q).rpA.toNat % cap) % cap
      if k < (b.queue q).fill then some (q, k) else none
    else none)

/-- Word `i` of the queue RAM is read, eight words to a wide word and after them a word for the tag of each (R375, R517, R518, log entry 33). One that
cannot be corrected spoils its wide word (R392). -/
def Block.qFind (b : Block) (i flags : Nat) (extra : List Nat) : Block :=
  let tag := decide (2 ^ 20 ≤ i)
  let w := if tag then i - 2 ^ 20 else i / 8
  match b.qLocate w with
  | some (q, k) =>
    match itemFind (b.queue q).items k with
    | some (n, j) =>
      let x := (b.queue q).items.getD n { bytes := [], poison := [] }
      let at' := 64 * j + 8 * (i % 8)
      let d := if tag then leBytes 8 (wideTag x.bytes.length j) else slice x.bytes at' 8
      b.odFind 7 i flags extra d false (fun b d p =>
        b.setItems q (itemSet (b.queue q).items n (fun x =>
          let x := if tag then x else { x with bytes := splice x.bytes at' d }
          if p then x.spoil j else x)))
    | none => b
  | none => b.odFind 7 i flags extra (List.replicate 8 0) false (fun b _ _ => b)

/-- The head item of queue `q` is read (R392, R518): the errors in its words are found, a word that cannot be corrected is counted at every read, and
POISON sets. Pointers that differ stop the read (R390). -/
def Block.qTouch (b : Block) (q : Nat) : Block :=
  let x := b.queue q
  match x.items with
  | i :: _ =>
    if x.rpA ≠ ~~~x.rpB then b
    else
      let ws := (List.range (wideWords i.bytes.length)).flatMap (fun k => let w := b.qWide q x.rpA k; b.odErrs 7 (8 * w) 8 ++ b.odErrs 7 (2 ^ 20 + w) 1)
      let b := ws.foldl (fun (b : Block) w => b.qFind w 0 []) (b.incBy RAS_UE_CNT.all i.poison.length)
      b.when (!(((b.queue q).items.headD i).poison.isEmpty)) (fun b => b.set PLQ_EVT.POISON)
  | [] => b

/-- An item of `n` bytes has space (R383). Space that the wide side freed in this beat is not seen (R384); the shaper sees it (`now`). -/
def Block.qSpace (b : Block) (q n : Nat) (now : Bool) : Bool :=
  let x := b.queue q
  let f := x.fill + (if !now && x.freedBeat == b.clk.beat then x.freed else 0)
  b.qEnabled q && decide (f + wideWords n ≤ b.qCap q) && !b.qPaused q

/-- Wide words of the RAM written from a pointer of queue `q` on: no error is left in them or their tags. -/
def Block.qClear (b : Block) (q : Nat) (p : BitVec 18) (n : Nat) : Block :=
  if b.ras.err.isEmpty then b
  else (List.range n).foldl (fun (b : Block) k => let w := b.qWide q p k; (b.odClear 7 (8 * w) 8).odClear 7 (2 ^ 20 + w) 1) b

/-- An item is placed (R380, R391). -/
def Block.qPlace (b : Block) (q : Nat) (d : List Byte) : Block :=
  let b := b.checkWrite q
  let x := b.queue q
  let b := b.qClear q x.wpA (wideWords d.length)
  let p := ptrMove x.wpA (wideWords d.length) (b.qCap q)
  b.setQueue q { x with items := x.items ++ [{ bytes := d, poison := [] }], wpA := p, wpB := ~~~p }

/-- The head item is read and removed (R391, R392): none when the read pointer's copies are found apart. `wide` keeps the words freed in this beat
(R384). -/
def Block.qRemove (b : Block) (q : Nat) (wide : Bool) : Option QItem × Block :=
  match b.checkRead q with
  | (true, b) => (none, b)
  | (false, b) =>
    let b := b.qTouch q
    let x := b.queue q
    match x.items with
    | i :: rest =>
      let w := wideWords i.bytes.length
      let p := ptrMove x.rpA w (b.qCap q)
      let fr := if wide then (if x.freedBeat = b.clk.beat then x.freed + w else w) else 0
      let y : Queue := { x with items := rest, rpA := p, rpB := ~~~p }
      (some i, b.setQueue q (if wide then { y with freedBeat := b.clk.beat, freed := fr } else y))
    | [] => (none, b)

/-- The statuses of QPUSH and QTRY (R303): 0 placed, 1 no space, 2 BAD_QUEUE, 3 LEN; and the block after the decision. -/
def Block.qPush (b : Block) (q : Nat) (d : List Byte) : Nat × Block :=
  if 128 ≤ q ∨ b.qEnabled q = false then (2, b)
  else if d.isEmpty then (3, b)
  else if b.qSpace q d.length false then (0, ((b.qPlace q d).inc PLQ_CNT_PUSH.all).took)
  else (1, b.took)

/-- QPOP's decision (R304): its code, the length of the head item, the bytes delivered, and the block after it. -/
def Block.qPop (b : Block) (q limit expect : Nat) (useExpect peek : Bool) : (Nat × Nat × List Byte) × Block :=
  if q < 128 ∨ b.qEnabled q = false then ((4, 0, []), b)
  else
    match (b.queue q).items with
    | [] => ((1, 0, []), b)
    | i :: _ =>
      let n := i.bytes.length
      if peek then
        let b := b.qTouch q
        ((0, n, ((b.queue q).items.headD i).read.take limit), b)
      else if limit < n then ((2, n, []), b)
      else if useExpect && n != expect then ((3, n, []), b)
      else
        match b.qRemove q false with
        | (some i, b) => ((0, n, i.read), b.inc PLQ_CNT_POP.all)
        | (none, b) => ((1, 0, []), b)

end Sys2Proof.Machine
end

