-- ==== Sys2Proof/Machine/Plait.lean ====
section
/-! DEFINITION. The commands of the Plait queues and of the downlink shaper (R375–R405). -/

namespace Sys2Proof.Machine

/-! ### Queue configuration (R376, R377, R388) -/

/-- The region of `v` (SIZE, BASE) may not be enabled for queue `n` (R376). -/
def Block.qRefused (b : Block) (n : Nat) (v : BitVec 32) : Bool :=
  let size := fget v PLQ_CFG.SIZE
  let base := fget v PLQ_CFG.BASE
  decide (size < 2) || decide (8192 < size) || decide (8192 < base + size)
    || (List.range 256).any (fun m => m != n && b.bit PLQ_CFG.EN m
        && decide (base < b.rd PLQ_CFG.BASE m + b.rd PLQ_CFG.SIZE m ∧ b.rd PLQ_CFG.BASE m < base + size))

/-- A write of PLQ_CFG_n (R376, R377): EN set enables the queue empty or is refused; EN cleared discards the contents; a change of BASE or SIZE
under EN is ignored. -/
def Block.plqCfg (b : Block) (n : Nat) (v : BitVec 32) : Block :=
  let r := PLQ_CFG.all.off n
  let was := b.bit PLQ_CFG.EN n
  let on := bitOf v.toNat 30
  let store (err en : Bool) (b : Block) : Block := ((b.setReg r (v &&& 0x3FFFDFFF)).flag PLQ_CFG.ERR err n).flag PLQ_CFG.EN en n
  if was && on then
    if (v &&& 0x0FFFDFFF) = (b.reg r &&& 0x0FFFDFFF) then store false true b else b.set PLQ_EVT.CFG
  else if on then
    if b.qRefused n v then (store true false b).set PLQ_EVT.CFG else (store false true b).setQueue n Queue.fresh
  else if was then (store false false b).setQueue n { Queue.fresh with freedBeat := b.clk.beat }
  else store (b.bit PLQ_CFG.ERR n) false b

/-- EN of PLQ_CFG_n is set (R376). -/
def execQueueEnable (n : Nat) (val : Word) (s : State) : Out := runCmd s (fun b => b.plqCfg (n % 256) (val ||| 0x40000000))

/-- EN of PLQ_CFG_n is cleared (R377). A QPUSH stalled on the queue completes with BAD_QUEUE in the next beat. -/
def execQueueDisable (n : Nat) (val : Word) (s : State) : Out := runCmd s (fun b => b.plqCfg (n % 256) (val &&& 0xBFFFFFFF))

/-- A write of PLQ_WM_n decides the watermark state again (R388). -/
def Block.plqWm (b : Block) (n : Nat) (v : BitVec 32) : Block := (b.setReg (PLQ_WM.all.off n) (v &&& 0x1FFF1FFF)).wmDecide n
def execWatermarkWrite (n : Nat) (val : Word) (s : State) : Out := runCmd s (fun b => b.plqWm (n % 256) val)

/-- FC_IN_p changes level (R386, R387): it governs from the first beat that begins four cycles or more after the edge;
before it either level may. -/
def execFcInChange (p : Nat) (e : FcEdge) (s : State) : Out := runCmd s (fun b =>
  let p := p % 8
  let m : BitVec 8 := BitVec.ofNat 8 (2 ^ p)
  { b.took with pins := { b.pins with fcIn := if e.level then b.pins.fcIn ||| m else b.pins.fcIn &&& ~~~m },
                plq := { b.plq with fcEdge := Tbl.put (fun _ => 0) b.plq.fcEdge p (b.clk.beat + (if e.cyc % 4 = 0 then 1 else 2)) } })

/-! ### Contexts (R393–R396) -/

def ShpCfg.zero : ShpCfg := { en := false, rate := 0, depth := 0, ovh := 0, air := 0, ackc := false, dq := 0, qmax := 0 }
def ShpCtx.fresh : ShpCtx := { cfg := ShpCfg.zero, staged := none, tokens := 0, last := 0, held := [], sched := none }

def Block.ctx (b : Block) (x : Nat) : ShpCtx := Tbl.get (fun _ => ShpCtx.fresh) b.shp.ctxs x
def Block.setCtx (b : Block) (x : Nat) (c : ShpCtx) : Block :=
  { b with shp := { b.shp with ctxs := Tbl.put (fun _ => ShpCtx.fresh) b.shp.ctxs x c } }

/-- A full bucket. -/
def ShpCfg.cap (c : ShpCfg) : Int := (c.depth * 65536 : Nat)

/-- The cost of a packet of `n` payload bytes (R393). -/
def ShpCfg.cost (c : ShpCfg) (n : Nat) : Nat :=
  let code := c.air / 16 % 8
  let sym := 60 + withPilots (symsOf (c.air / 8 % 2) (codedBits code (n + c.ovh))) + (if c.ackc then 108 else 0)
  ceilDiv (sym * sfOfCode (c.air % 8) * tcQ (c.air / 128)) qAir % 2 ^ 32

/-- What a release of a packet of this cost takes: no more than the bucket (R394). -/
def ShpCfg.need (c : ShpCfg) (cost : Nat) : Int := (min cost c.depth * 65536 : Nat)

/-- A packet is dropped, counted in `f`, and DROP sets (R399). -/
def Block.shpDrop (b : Block) (f : Fld) (n : Nat) : Block := if n = 0 then b else (b.incBy f n).set SHP_EVT.DROP

/-- The packets of a context are discarded (R395, R401, R404). -/
def Block.shpDiscard (b : Block) (x : Nat) : Block :=
  let c := b.ctx x
  (b.setCtx x { c with held := [] }).shpDrop SHP_CNT_DROP_CFG.all c.held.length

/-- The refill of a touch, and the staged configuration (R394, R395). -/
def Block.shpRefill (b : Block) (x : Nat) : Block :=
  let c := b.ctx x
  let n := b.shp.cell
  let e := (n + 2 ^ 40 - c.last) % 2 ^ 40
  let c := { c with tokens := min (c.tokens + (e * c.cfg.rate : Nat)) c.cfg.cap, last := n }
  match c.staged with
  | some g =>
    let full := g.en && !c.cfg.en
    let b := b.setCtx x { c with cfg := g, staged := none, tokens := min (if full then g.cap else c.tokens) g.cap }
    if c.cfg.en && !g.en then b.shpDiscard x else b
  | none => b.setCtx x c

/-- The item of a packet (R382). -/
def Packet.item (p : Packet) (x : Nat) : List Byte :=
  leBytes 4 p.dst ++ leBytes 2 x ++ leBytes 1 p.pkind ++ leBytes 1 p.spill.toNat ++ leBytes 4 p.cost ++ leBytes 4 p.enq ++ p.payload

/-- The address of a pool buffer (R400). -/
def Block.poolAddr (b : Block) (i : Nat) : Nat :=
  (b.reg SHP_POOL_BASE_LO.all.base).toNat + (b.reg SHP_POOL_BASE_HI.all.base).toNat * 2 ^ 32 + 2048 * i

/-- The down queue of a context has space for its packet; the shaper writes only an enabled queue (R383, R385). -/
def Block.dqSpace (b : Block) (c : ShpCtx) (p : Packet) : Bool := b.qSpace c.cfg.dq (16 + p.payload.length) true

/-- The release loop of a touch (R394, R399); `fuel` is the number of packets held. -/
def Block.shpRelease (b : Block) (x : Nat) : Nat → Block
  | 0 => b
  | fuel + 1 =>
    let c := b.ctx x
    match c.held with
    | [] => b
    | p :: rest =>
      if c.tokens < c.cfg.need p.cost ∨ b.dqSpace c p = false then b
      else
        let b := b.dramTouch (b.poolAddr p.buf) (16 + p.payload.length)
        if b.dramPoisoned (b.poolAddr p.buf) (16 + p.payload.length) then
          ((b.setCtx x { c with held := rest }).shpDrop SHP_CNT_DROP_POOL.all 1).shpRelease x fuel
        else
        let b := (b.setCtx x { c with held := rest, tokens := c.tokens - (p.cost * 65536 : Nat) }).qPlace c.cfg.dq (p.item x)
        (b.inc SHP_CNT_RELEASE.all).shpRelease x fuel

/-- A context is put on a wheel, in place of where it was (R396). -/
def Block.shpPut (b : Block) (x : Nat) (coarse : Bool) (due : Nat) : Block :=
  let b := b.setCtx x { b.ctx x with sched := some { coarse := coarse, due := due % 2 ^ 40, order := b.shp.order } }
  { b with shp := { b.shp with order := b.shp.order + 1 } }

/-- A context after its touch (R396). -/
def Block.shpSched (b : Block) (x : Nat) : Block :=
  let c := b.ctx x
  let n := b.shp.cell
  let b := b.setCtx x { c with sched := none }
  match c.held with
  | [] => b
  | p :: _ =>
    if !b.dqSpace c p then ((b.inc SHP_CNT_DQ_WAIT.all).set SHP_EVT.DQ_WAIT).shpPut x false (n + 1)
    else if c.cfg.rate = 0 then b
    else
      let d := ceilDiv (c.cfg.need p.cost - c.tokens).toNat c.cfg.rate
      if d ≤ 4095 then b.shpPut x false (n + d) else b.shpPut x true (n + min d (4095 * 256))

/-- The release loop and the scheduling that end a touch. -/
def Block.shpFinish (b : Block) (x : Nat) : Block := (b.shpRelease x (b.ctx x).held.length).shpSched x

/-- A touch (R394). -/
def Block.shpTouch (b : Block) (x : Nat) : Block := (b.shpRefill x).shpFinish x

/-! ### The wheels (R397) -/

/-- The contexts of a wheel due at refill cells that `c` names, in the order in which they entered. -/
def Block.shpDue (b : Block) (c : Sched → Bool) : List Nat :=
  let l := b.shp.ctxs.filterMap (fun e => match e.2.sched with | some s => if c s then some (s.order, e.1) else none | none => none)
  (sortKey l).map (·.2)

/-- A cell boundary pulse at the shaper (R394, R397). -/
def Block.shpCell (b : Block) : Block :=
  let n := (b.shp.cell + 1) % 2 ^ 40
  let b := { b with shp := { b.shp with cell := n } }
  let b := if n % 256 = 0 then
      (b.shpDue (fun s => s.coarse && s.due / 256 == n / 256)).foldl (fun (b : Block) x =>
        match (b.ctx x).sched with | some s => b.shpPut x false s.due | none => b) b
    else b
  (b.shpDue (fun s => !s.coarse && s.due == n)).foldl Block.shpTouch b

/-! ### Admission (R398–R400) -/

/-- The pool buffers held. -/
def Block.poolUsed (b : Block) : List Nat := b.shp.ctxs.flatMap (fun e => e.2.held.map (·.buf))

/-- SHP_POOL_COUNT, at most 1,048,576. -/
def Block.poolCount (b : Block) : Nat := b.rd SHP_POOL_COUNT.COUNT

/-- A packet joins context `x` or is dropped (R399, R400). Which free buffer holds it, and how it lies there, is open (log entry 2). -/
def Block.shpJoin (b : Block) (x : Nat) (spill : Bool) (dst pkind : Nat) (payload : List Byte) : Block :=
  let c := b.ctx x
  let used := b.poolUsed
  if !b.bit SHP_CTL.EN || (spill && !c.cfg.en) then b.shpDrop SHP_CNT_DROP_CFG.all 1
  else if c.cfg.qmax != 0 && c.held.length == c.cfg.qmax then b.shpDrop SHP_CNT_DROP_QMAX.all 1
  else if b.poolCount ≤ used.length then b.shpDrop SHP_CNT_DROP_POOL.all 1
  else if 2031 < payload.length then b.shpDrop SHP_CNT_DROP_CFG.all 1
  else
    let free := (List.range b.poolCount).filter (fun i => !used.contains i)
    let buf := b.pick free
    let b := (b.took).dramWrite (b.poolAddr buf) ((List.range 2048).map (Config.freeByte b.clk.free))
    let p : Packet := { dst := dst % 2 ^ 28, pkind := pkind % 8, cost := c.cfg.cost payload.length, spill := spill, enq := b.shp.cell % 2 ^ 32,
                        payload := payload, buf := buf }
    let b := (b.setCtx x { c with held := c.held ++ [p] }).inc SHP_CNT_ADMIT.all
    b.when spill (fun b => (b.inc SHP_CNT_SPILL.all).set SHP_EVT.SPILL)

/-- Admission of a packet (R398): the touch of the context named, the spill to context 0, the tests, and the release loop last. -/
def Block.shpAdmit (b : Block) (dst pkind ctx : Nat) (payload : List Byte) : Block :=
  let x := ctx % 65536
  let b := b.shpRefill x
  let spill := x == 0 || !(b.ctx x).cfg.en
  let b := b.when (spill && x != 0) (fun b => b.shpRefill 0)
  let y := if spill then 0 else x
  let b := b.shpJoin y spill dst pkind payload
  (b.when (y != x) (fun b => b.shpFinish x)).shpFinish y

/-- A downlink packet reaches the shaper (R398). -/
def execShpAdmission (dst pkind ctx : Nat) (payload : List Byte) (s : State) : Out := runCmd s (fun b => b.shpAdmit dst pkind ctx payload)

/-! ### Enable and disable (R401) -/

/-- SHP_CTL EN goes from 0 to 1. -/
def Block.shpEnable (b : Block) : Block :=
  if b.bit SHP_CTL.EN then b
  else
    let n := b.shp.cell
    b.shp.ctxs.foldl (fun (b : Block) e => let c := b.ctx e.1
      if c.cfg.en then b.setCtx e.1 { c with tokens := c.cfg.cap, last := n } else b) (b.set SHP_CTL.EN)

/-- SHP_CTL EN goes from 1 to 0: every held packet is discarded and counted, and both wheels are emptied. -/
def Block.shpDisable (b : Block) : Block :=
  if !b.bit SHP_CTL.EN then b
  else b.shp.ctxs.foldl (fun (b : Block) e => let b := b.shpDiscard e.1; b.setCtx e.1 { b.ctx e.1 with sched := none }) (b.clr SHP_CTL.EN)

def execShpEnable (s : State) : Out := runCmd s Block.shpEnable
def execShpDisable (s : State) : Out := runCmd s Block.shpDisable

/-! ### Context operations (R395, R403, R404) -/

/-- A context operation starts: while BUSY it is ignored with WR_IGN (R404). -/
def Block.shpOp (b : Block) (op : Nat) (f : Nat → Block → Nat × Block) : Block :=
  if b.bit SHP_CTX_ST.BUSY then b.set SHP_EVT.WR_IGN
  else
    let r := f (b.rd SHP_CTX_IDX.CTX) ((b.wr SHP_CTX_CMD.OP op).set SHP_CTX_ST.BUSY)
    { r.2 with shp := { r.2.shp with op := some r.1 } }

/-- READ: the active configuration and the runtime state as one snapshot. -/
def Block.shpCtxRead (b : Block) : Block := b.shpOp 0 (fun x b =>
  let c := b.ctx x
  let g := c.cfg
  let b := b.setReg SHP_CTX_CFG_0.all.base (BitVec.ofNat 32 g.rate)
  let b := b.setReg SHP_CTX_CFG_1.all.base (BitVec.ofNat 32 (g.ovh * 2 ^ 24 + g.depth))
  let b := b.setReg SHP_CTX_CFG_2.all.base (BitVec.ofNat 32 (g.en.toNat * 2 ^ 31 + g.ackc.toNat * 2 ^ 30 + g.air * 65536 + g.dq))
  let b := b.setReg SHP_CTX_CFG_3.all.base (BitVec.ofNat 32 g.qmax)
  let b := b.wr64 SHP_CTX_TOK_LO.all SHP_CTX_TOK_HI.all (unsigned 64 c.tokens)
  let coarse := match c.sched with | some s => s.coarse | none => false
  let b := b.setReg SHP_CTX_QST.all.base (BitVec.ofNat 32 (c.sched.isSome.toNat * 2 ^ 31 + coarse.toNat * 2 ^ 30 + c.staged.isSome.toNat * 2 ^ 29
    + min 65535 c.held.length))
  let due := match c.sched with | some s => s.due | none => 0
  (0, { b.setReg SHP_CTX_DUE.all.base (BitVec.ofNat 32 due) with shp := { b.shp with resv2 := false, resv3 := false } }))
def execShpCtxRead (s : State) : Out := runCmd s Block.shpCtxRead

/-- The configuration in SHP_CTX_CFG_0–3. -/
def Block.shpCfgRegs (b : Block) : ShpCfg :=
  { en := b.bit SHP_CTX_CFG_2.EN, rate := (b.reg SHP_CTX_CFG_0.all.base).toNat, depth := b.rd SHP_CTX_CFG_1.DEPTH, ovh := b.rd SHP_CTX_CFG_1.OVH,
    air := b.rd SHP_CTX_CFG_2.AIR, ackc := b.bit SHP_CTX_CFG_2.ACKC, dq := b.rd SHP_CTX_CFG_2.DQ, qmax := b.rd SHP_CTX_CFG_3.QMAX }

/-- WRITE: the configuration is staged and the context scheduled for the next refill cell, or BAD_CFG (R395, R404). -/
def Block.shpCtxWrite (b : Block) : Block := b.shpOp 1 (fun x b =>
  let g := b.shpCfgRegs
  if g.dq < 128 || g.air % 8 == 7 || b.shp.resv2 || b.shp.resv3 then (1, b)
  else (0, (b.setCtx x { b.ctx x with staged := some g }).shpPut x false (b.shp.cell + 1)))
def execShpCtxWrite (s : State) : Out := runCmd s Block.shpCtxWrite

/-- FLUSH: the context's packets are discarded, and it leaves the wheels (R404). -/
def Block.shpCtxFlush (b : Block) : Block := b.shpOp 2 (fun x b =>
  let b := b.shpDiscard x
  (0, b.setCtx x { b.ctx x with sched := none }))
def execShpCtxFlush (s : State) : Out := runCmd s Block.shpCtxFlush

/-- OP 3 completes with BAD_OP (R403). -/
def Block.shpCtxBad (b : Block) : Block := b.shpOp 3 (fun _ b => (2, b))
def execShpCtxBadOp (s : State) : Out := runCmd s Block.shpCtxBad

/-- The operation completes (R404). -/
def execShpCtxOpDone (s : State) : Out := runCmd s (fun b =>
  match b.shp.op with
  | some st => ({ b with shp := { b.shp with op := none } }.clr SHP_CTX_ST.BUSY).wr SHP_CTX_ST.STATUS st
  | none => b)

end Sys2Proof.Machine
end

