-- ==== Sys2Proof/Machine/Rxa.lean ====
section
/-! DEFINITION. The commands of the receive array (R130–R171) and the record rings of the strands (R263). -/

namespace Sys2Proof.Machine

/-! ### Links and feeds -/

/-- A SYSREF edge at `phase` DSP_CLK cycles (mod 512) aligns the enabled links not yet aligned, and under CHECK a link that is up and off its
stored phase by more than one cycle sets SYSREF_ERR (R135). Links 0–7 are the receive links, 8–15 the transmit links. -/
def execSysrefEdge (phase : Nat) (s : State) : Out := runCmd s (fun b =>
  if !b.bit RXA_SYSREF_CFG.SYSREF_EN then b
  else
    let ph := phase % 512
    let off (x : Nat) : Bool := let d := (x + 512 - ph) % 512; decide (1 < d ∧ d < 511)
    let b := b.set RXA_STAT.SYSREF_SEEN
    let enabled (i : Nat) : Bool := if i < 8 then b.bit RXA_LINK_CFG.EN i else b.bit TXC_PORT_CFG.EN (i - 8)
    let up (i : Nat) : Bool := if i < 8 then b.bit RXA_LINK_ST.UP i else b.bit TXC_PORT_ST.LINK_UP (i - 8)
    (List.range 16).foldl (fun b i =>
      match Tbl.find b.rxa.lemc i with
      | some x => if up i && b.bit RXA_SYSREF_CFG.CHECK && off x then b.set RXA_EVT.SYSREF_ERR else b
      | none =>
        if enabled i then
          let b := { b with rxa := { b.rxa with lemc := Tbl.insert b.rxa.lemc i ph } }
          if i < 8 then b.set RXA_LINK_ST.ALIGNED i else b.set TXC_PORT_ST.ALIGNED (i - 8)
        else b) b)

/-- The bit of a link in LINKS_UP follows UP. -/
def Block.linkUpBit (b : Block) (n : Nat) (up : Bool) : Block :=
  let m := b.rd RXA_STAT.LINKS_UP
  (b.flag RXA_LINK_ST.UP up n).wr RXA_STAT.LINKS_UP (if up then m ||| 2 ^ n else m &&& (255 ^^^ 2 ^ n))

/-- A receive link goes down: its feeds deliver erased samples (R137). -/
def Block.rxLinkDown (b : Block) (n : Nat) : Block :=
  if !b.bit RXA_LINK_ST.UP n then b else (((b.gapStart n 0 b.nowQ).linkUpBit n false).set RXA_EVT.LINK_DOWN)

/-- CFG_ERR of the receive links as they now test (R134): the tests do not depend on EN. -/
def Block.testLinks (b : Block) : Block := (List.range 8).foldl (fun b l => b.flag RXA_LINK_ST.CFG_ERR (!b.linkValid l) l) b

/-- A receive link is configured: where EN changes it goes down, and waits for a SYSREF edge after EN is set; the links are tested (R134, R135). -/
def Block.rxLinkEnable (b : Block) (n : Nat) (v : BitVec 32) : Block :=
  let was := b.bit RXA_LINK_CFG.EN n
  let b := b.setReg (RXA_LINK_CFG.all.off n) (v &&& 0xFFCF)
  let b :=
    if b.bit RXA_LINK_CFG.EN n == was then b
    else
      let b := (b.rxLinkDown n).clr RXA_LINK_ST.ALIGNED n
      { b with rxa := { b.rxa with lemc := Tbl.erase b.rxa.lemc n } }
  b.testLinks

/-- A write of RXA_LINK_CFG_n (R135). -/
def execRxLinkEnable (n : Nat) (val : Word) (s : State) : Out := runCmd s (fun b => b.rxLinkEnable (n % 8) val)

/-- At a LEMC edge all lanes of link `n` hold sync-header and extended-multiblock lock: a valid, enabled and aligned link comes up, its feeds
delivering samples from the next cell boundary (R135, R137; the first time too, DESIGN CHOICE, log entry 52), and the CRC-12 errors its lanes have shown count (R171). -/
def execJesdLinkUp (x : LinkSeen) (s : State) : Out := runCmd s (fun b =>
  let n := x.n % 8
  let b := ((b.set RXA_LINK_ST.SH_LOCK n).set RXA_LINK_ST.EMB_LOCK n).incBy RXA_LINK_ERR.all x.crc n
  if b.bit RXA_LINK_CFG.EN n && b.bit RXA_LINK_ST.ALIGNED n && !b.bit RXA_LINK_ST.CFG_ERR n && !b.bit RXA_LINK_ST.UP n then
    ((b.gapStop n ((cellOf b.clk.htime + 1) * 2 ^ 24 * qHt)).linkUpBit n true).set RXA_EVT.LINK_UP
  else b)

/-- A lane of link `n` loses sync-header lock or extended-multiblock lock (`emb`), and the link goes down (R137); the CRC-12 errors seen count
(R171). -/
def execJesdLinkDown (x : LinkSeen) (emb : Bool) (s : State) : Out := runCmd s (fun b =>
  let n := x.n % 8
  ((b.rxLinkDown n).incBy RXA_LINK_ERR.all x.crc n).clr (if emb then RXA_LINK_ST.EMB_LOCK else RXA_LINK_ST.SH_LOCK) n)

/-! ### Enable, flush, AGC -/

/-- EN of RXA_CTL takes a value: set, every AGC goes to FAST at code 0x80; cleared, every lane posts ABORTED (R140, R170, R171). -/
def Block.rxaEnable (b : Block) (en : Bool) : Block :=
  if en == b.bit RXA_CTL.EN then b
  else if en then { b with rxa := { b.rxa with agc := [] } }.set RXA_CTL.EN
  else (b.clr RXA_CTL.EN).abortLanes (fun _ => true)

/-- A write of EN in RXA_CTL (R170, R171). -/
def execRxaEnable (en : Bool) (s : State) : Out := runCmd s (fun b => b.rxaEnable en)

/-- FLUSH: every lane not IDLE posts ABORTED (R171). -/
def execRxaFlush (s : State) : Out := runCmd s (fun b => b.abortLanes (fun _ => true))

/-- The mean power of a stream measured over an update interval, in steps of 0.25 dBFS (R139–R141). Erased samples are not measured. While a lane
holds the stream the gain stays frozen and the power is kept; else the gain moves by the error within the step limit of the mode (log entry 20), and
the mode changes for the next update. -/
def execAgcUpdate (stream : Nat) (power : Int) (s : State) : Out := runCmd s (fun b =>
  let a := b.agc stream
  if b.streamErased stream then b
  else if b.streamBusy stream then b.setAgc stream { a with power := power }
  else
    let e := b.agcTarget - power
    let fast := a.mode == .fast
    let lim : Int := if fast then 48 else 1
    let g := gainClamp (a.gain + max (-lim) (min lim e))
    let run := if fast && decide (e.natAbs ≤ 4) then a.run + 1 else 0
    let mode' : AgcMode := if fast then (if 8 ≤ run then .slow else .fast) else if 24 < e.natAbs then .fast else .slow
    b.setAgc stream { mode := mode', gain := g, run := if mode' == .fast then run else 0, freeze := a.freeze, power := power })

/-! ### Detections -/

/-- A detection that joins no lane takes one or is lost (R151, R152); `q` is the sequence that fired. -/
def Block.detectNew (b : Block) (h q : Nat) (m : Member) (pw : Int) : Block :=
  let busy := b.streamBusy m.stream
  let a := b.agc m.stream
  match b.laneFor h m.level with
  | (some n, b) =>
    let b := b.agcGrant m.stream pw true busy a
    ((b.took.setLane n (Lane.new .acq h q m.level m.t1 [m] b.freeNat b.freeNat)).winGranted h).rxCounts
  | (none, b) => b

/-- A detection joins lane `n` (R150): as a ninth member it replaces the weakest, of equal levels the one that joined first (DESIGN CHOICE, log entry 52), when its
level is JOIN_REPL above, and that member's stream is released; else it is discarded. -/
def Block.detectJoin (b : Block) (n : Nat) (l : Lane) (m : Member) (pw : Int) : Block :=
  let put (b : Block) (ms : List Member) : Block :=
    let b := b.agcGrant m.stream pw false (b.streamBusy m.stream) (b.agc m.stream)
    let l' := { (Tbl.find b.rxa.lanes n).getD l with members := ms ++ [m] }
    match l'.best with
    | some r => b.setLane n { l' with t1 := r.t1, level := r.level }
    | none => b
  if l.members.length < 8 then put b l.members
  else
    match l.members.foldl (fun w x => match w with | some (y : Member) => if x.level < y.level then some x else some y | none => some x) none with
    | some w =>
      if w.level + b.rd RXA_POOL_CFG.JOIN_REPL ≤ m.level then
        (put b (l.members.filter (fun x => x.stream != w.stream))).agcRelease w.stream
      else b.inc RXA_CNT_JOIN.all
    | none => b

/-- The nearest of the lanes to an instant, the lower number where equal (R150). -/
def nearest (t : BitVec 64) (l : List (Nat × Lane)) : Option (Nat × Lane) :=
  let d (x : Lane) : Nat := ((x.t1.toNat : Int) - t.toNat).natAbs
  l.foldl (fun m x => match m with | some y => if d x.2 < d y.2 then some x else some y | none => some x) none

/-- The first chip lies in a window's range (R147), sample by sample (R48). -/
def Window.holds (w : Window) (t1 : BitVec 64) : Bool :=
  decide (nearSample (htQ w.opens) ≤ nearSample (htQ t1) ∧ nearSample (htQ t1) ≤ nearSample (htQ w.closes))

/-- The sequences a window is searched for (R146): those of R92 for the cells its range touches, P_SF of them at most. -/
def Block.winSeqs (b : Block) (w : Window) : List Nat :=
  let c := cellOf w.opens
  (List.range (min (cellOf w.closes + 1 - c) (pSF w.sfc))).map (fun i =>
    seqIndex ((c + i) % 256) w.ch (b.seqOfsAt (BitVec.ofNat 64 ((c + i) * 2 ^ 24))) w.sfc)

/-- The firing is one the detector can make (R146): its level reaches DET_THR, its sequence is one it correlates against, and the preamble symbols it
accumulates, the last of which ends at `e`, are not erased. -/
def Block.fires (b : Block) (f : Firing) (w : Option Window) (band ch : Nat) (e : Nat) : Bool :=
  decide (b.rd RXA_BAND.DET_THR band ≤ f.level) && !b.erasedAt f.stream e &&
  match w with
  | some w => f.q == 0 || (b.winSeqs w).contains f.q
  | none => f.q == seqIndex (cellOf f.t1 % 256) ch (b.seqOfsAt f.t1) (b.rd RXA_BAND.CEN_SF band)

/-- The RSSI of a port entry (R162): in-channel power at the feed referred to the antenna by RXA_PORT_GAIN, within 16 bits (log entry 52). -/
def Block.atAntenna (b : Block) (port : Nat) (x : Int) : Nat :=
  unsigned 16 (max (-32768) (min 32767 (x + signed 16 (b.rd RXA_PORT_GAIN.GAIN port))))

/-- A firing is taken (R146–R152), DET_SYMS symbols and the antenna-to-stream delay after its first chip. Every firing counts in the census. One outside the range
of its window or on a stream it does not cover goes no further; within a symbol of the window's last detection on the stream the detector does not
fire. -/
def Block.fire (b : Block) (f : Firing) : Block :=
  match b.streamOf f.stream with
  | some (_, band, ch) =>
    let w := Tbl.find b.rxa.wins f.win
    let p := b.bandProfile band
    let sym := sfOfCode (match w with | some w => w.sfc | none => b.rd RXA_BAND.CEN_SF band) * tcQ p
    let e := htQ f.t1 + b.rd RXA_BAND.DET_SYMS band * sym
    let b := b.toQ (e + b.rxDelay (f.stream / 64) p)
    let near := match w with
      | some w => (match Tbl.find w.dets f.stream with
        | some u => decide (((f.t1.toNat : Int) - u.toNat).natAbs * qHt ≤ sym)
        | none => false)
      | none => false
    if near || !b.fires f w band ch e then b
    else
      let b := b.cen f.stream (fun c => { c with det := min 255 (c.det + 1) })
      match w with
      | some w =>
        if !w.live || !b.winCovers w f.stream || !w.holds f.t1 then b
        else
          let b := (b.setWin f.win { w with dets := Tbl.insert w.dets f.stream f.t1 }).inc RXA_CNT_DET.all
          let m : Member := { stream := f.stream, t1 := f.t1, level := f.level % 256, psnr := f.psnr % 256, rssi := b.atAntenna (f.stream / 64) f.rssi,
                              phase := f.phase % 65536 }
          let fits := (b.winLanes f.win).filter (fun e =>
            !(e.2.members.any (fun x => x.stream / 64 == f.stream / 64)) && within f.t1 e.2.t1 (4 * b.rd RXA_POOL_CFG.LOC_WIN) (10 ^ 9))
          match nearest f.t1 (fits.filter (fun e => e.2.st == .acq)) with
          | some (n, l) => b.detectJoin n l m f.power
          | none => if fits.isEmpty then b.detectNew f.win f.q m f.power else b.inc RXA_CNT_LATEJOIN.all
      | none => b
  | none => b

/-- Insertion by descending level, then ascending stream (R149). -/
def insertFiring (x : Firing) : List Firing → List Firing
  | [] => [x]
  | y :: l => if y.level < x.level ∨ (y.level = x.level ∧ x.stream < y.stream) then x :: y :: l else y :: insertFiring x l

/-- The detectors' firings of one DSP_CLK cycle: the allocator takes them in descending order of level, of equal levels in ascending stream number
(R146–R152). One of them is given by its own operands, the others as a list. -/
def Block.firings (b : Block) (fs : List Firing) : Block :=
  if !b.bit RXA_CTL.EN then b else (fs.foldl (fun l x => insertFiring x l) []).foldl Block.fire b
def execDetection (win stream : Nat) (t1 : DWord) (q level : Nat) (est : FirstLook) (power : Int) (also : List Firing) (s : State) : Out :=
  runCmd s (fun b => b.firings (⟨win, stream, t1, q, level, est.psnr, est.rssi, est.phase, power⟩ :: also))

/-! ### Lanes -/

/-- The profile of a window's band, and the instants of a lane in quanta at the lane: `sym` symbols after its first chip (R136). -/
def Block.laneAt (b : Block) (l : Lane) (w : Window) (sym : Nat) : Nat :=
  let p := b.bandProfile w.band
  let port := match l.best with | some m => m.stream / 64 | none => 0
  htQ l.t1 + sym * sfOfCode w.sfc * tcQ p + (if l.remoteOnly then 0 else b.rxDelay port p)

/-- A lane reaches the end of the SFD: it goes on to the header, or posts SFD_FAIL 64 cycles later and releases (R153, R157). `snr` and `cfo` are
what it has measured. -/
def execLaneSfdEnd (lane : Nat) (ok : Bool) (snr cfo : Nat) (s : State) : Out := runCmd s (fun b =>
  match Tbl.find b.rxa.lanes lane with
  | some l => match Tbl.find b.rxa.wins l.win with
    | some w =>
      if l.st != .acq then b
      else
        let q := b.laneAt l w 12
        let b := (b.toQ q).setLane lane { l with st := .hdr, snr := snr % 65536, cfo := cfo % 65536 }
        if ok then b else b.lanePost lane rxSFD_FAIL (q + 64 * qDsp) true
    | none => b
  | none => b)

/-- The decoding time of I iterations of codeword r, in DSP_CLK cycles (R155). -/
def decodeCycles (code len r i : Nat) : Nat :=
  let bytes := if r + 1 = numCw code len then len else ceilDiv (cwLen code len r) 8
  96 + i * codeRows code * (codeZ code / 16 + 4) + 64 + ceilDiv bytes 8

/-- The cycles from t_p to the post instant P (R156). -/
def Block.postCycles (b : Block) (code len : Nat) (xc : Bool) : Nat :=
  b.rd RXA_DEC_CFG.DQ_ALLOW + 96 + b.rd RXA_DEC_CFG.MAX_ITER * codeRows code * (codeZ code / 16 + 4) + 64 + ceilDiv len 8
    + (if xc then b.rd RXA_CAS_CFG.CNP_WAIT else 0)

/-- The final record of a lane, its RES decided at P. -/
def Block.finalPost (b : Block) (n win q : Nat) : Block :=
  b.addPost { due := q, win := win, lane := some n, res := none, release := true, bytes := [] }

/-- Every codeword of a header still to decode. -/
def freshCws (hdr : Nat) : List Codeword :=
  List.replicate (numCw (hCode hdr) (hLen hdr)) { started := false, startQ := 0, allowed := 0, done := false }

/-- A message is sent on the Canopy, or dropped at its origin where its destination is not present (R454, R457). -/
def Block.cnpSend (b : Block) (mtype dest : Nat) (body : List Byte) : Block :=
  if bitOf (b.rd CNP_STAT.PRESENT) dest && dest != b.rd CNP_STAT.POS then
    { b with cnp := { b.cnp with outQ := b.cnp.outQ ++ [{ mtype := mtype, dest := dest, body := body }] } }
  else (b.inc CNP_CNT_DROP.all).set CNP_EVT.MSG_DROP

/-- The body of SHIP_HDR (R457). -/
def Block.shipHdr (b : Block) (l : Lane) (w : Window) : List Byte :=
  let es := l.entries (b.rd CNP_STAT.POS)
  leBytes 2 l.shipId ++ leBytes 1 w.band ++ leBytes 1 w.ch ++ leBytes 1 w.sfc ++ leBytes 1 l.level ++ leBytes 1 es.length ++ leBytes 1 0
    ++ leBytes 4 l.hdr ++ leBytes 8 l.t1.toNat ++ es.flatten

/-- The header of a lane passes with KIND FRAME (R154, R156, R157, R159). -/
def Block.headerFrame (b : Block) (n : Nat) (l : Lane) (w : Window) (q : Nat) : Block :=
  let code := hCode l.hdr
  let len := hLen l.hdr
  let tp := b.laneAt l w (frameSyms (hType l.hdr) code (hMod l.hdr) len)
  let post := q + 212 * qDsp
  if w.mode = 2 then
    let l := { l with shipId := b.rxa.shipSeq % 65536, cws := freshCws l.hdr, p := tp + 64 * qDsp }
    let b := { b with rxa := { b.rxa with shipSeq := b.rxa.shipSeq + 1 } }
    ((((b.setLane n l).lanePost n rxHDR_OK post false).lanePost n rxSHIPPED l.p true).cnpSend 1 w.home (b.shipHdr l w))
  else
    match b.fbufsFree with
    | [] => b.lanePost n rxNO_BUF post true
    | free =>
      let l := { l with fbuf := some (b.pick free), cws := freshCws l.hdr, p := tp + b.postCycles code len (w.mode = 1) * qDsp,
                        shipId := b.rxa.shipSeq % 65536 }
      let b := { b.took with rxa := { b.rxa with shipSeq := b.rxa.shipSeq + 1, fbLen := Tbl.insert b.rxa.fbLen (b.pick free) len } }
      ((b.setLane n l).lanePost n rxHDR_OK post false).finalPost n l.win l.p

/-- A lane reaches the end of its header, received as the Golay codewords `r0` and `r1` (and, for KIND ACK, of its echo block `e0`, `e1`): it is
decoded and tested (R99, R100, R120, R153, R157). -/
def execLaneHeaderEnd (lane r0 r1 e0 e1 snr cfo : Nat) (s : State) : Out := runCmd s (fun b =>
  match Tbl.find b.rxa.lanes lane with
  | some l => match Tbl.find b.rxa.wins l.win with
    | some w =>
      if l.st != .hdr || l.hdr != 0 || b.rxa.posts.any (fun p => p.lane == some lane) then b
      else
        let q := b.laneAt l w 60
        let qe := b.laneAt l w 108
        let b := b.toQ q
        let h := golayBlockDecode r0 r1 b.freeNat
        let e := golayBlockDecode e0 e1 (b.freeNat / 2 ^ 24)
        let isAck := hType h == tyACK
        let l := { l with hdr := h, snr := snr % 65536, cfo := cfo % 65536, echo := if w.ack && (isAck || !hdrOk h) then e else 0 }
        let b := b.took.setLane lane l
        if !hdrOk h then b.lanePost lane rxHDR_FAIL ((if w.ack then qe else q) + 212 * qDsp) true
        else if isAck != w.ack then b.lanePost lane rxTYPE_MISMATCH (q + 212 * qDsp) true
        else if w.ack then b.lanePost lane (if echoOk e then rxACK_OK else rxECHO_FAIL) (qe + 212 * qDsp) true
        else b.headerFrame lane l w q
    | none => b
  | none => b)

/-- The instant a codeword of a lane may start: its last coded bit received, in XC mode CNP_WAIT later (R154, R161). -/
def Block.cwReady (b : Block) (l : Lane) (w : Window) (r : Nat) : Nat :=
  b.laneAt l w (60 + withPilots (symsOf (hMod l.hdr) (codedTo (hCode l.hdr) (hLen l.hdr) r)))
    + (if w.mode = 1 then b.rd RXA_CAS_CFG.CNP_WAIT * qDsp else 0)

/-- The soft values of a codeword of a SHIP lane as bytes, six bits each (R154, R457): zero where all the samples of its symbol are erased on every
member (R137, R165), else free (log entry 2). -/
def Block.softValues (b : Block) (l : Lane) (w : Window) (r n : Nat) : List Byte :=
  let t := sfOfCode w.sfc * tcQ (b.bandProfile w.band)
  let from' := codedTo (hCode l.hdr) (hLen l.hdr) r - n
  let gone (i : Nat) : Bool :=
    let q := htQ l.t1 + (59 + withPilots (symsOf (hMod l.hdr) (from' + i + 1))) * t
    l.members.all (fun m => b.erasedThrough m.stream q (q + t))
  let raw := (List.range (ceilDiv (6 * n) 8)).map (Config.freeByte b.clk.free)
  if !b.laneBlanked l w then raw
  else leBytes raw.length ((List.range n).foldl (fun v i => if gone i then v - bitsOf v (6 * i + 5) (6 * i) * 2 ^ (6 * i) else v) (leNat raw))

/-- Codewords that decode now, of all lanes. -/
def Block.decoding (b : Block) : Nat :=
  (b.rxa.lanes.map (fun e => (e.2.cws.filter (fun c => c.started && !c.done && c.allowed != 0)).length)).foldl (· + ·) 0

/-- A codeword with an earlier deadline is ready and waits (R156). -/
def Block.earlierWaits (b : Block) (p : Nat) : Bool :=
  b.rxa.lanes.any (fun e => decide (e.2.p < p) && e.2.st == .pay && match Tbl.find b.rxa.wins e.2.win with
    | some w => ((List.range e.2.cws.length).zip e.2.cws).any (fun c => !c.2.started && decide (b.cwReady e.2 w c.1 ≤ b.nowQ))
    | none => false)

/-- The greatest number of iterations, MAX_ITER at most, that complete by P (R156). -/
def iterFit (code len r start p : Nat) : Nat → Nat
  | 0 => 0
  | i + 1 => if start + decodeCycles code len r (i + 1) * qDsp ≤ p then i + 1 else iterFit code len r start p i

/-- Codeword `r` of a lane is received and starts decoding on one of the eight decoders, earliest deadline first, with the iterations that
fit before P (R154–R156, R161); of a SHIP lane its soft values are sent instead (R457), as free bytes (log entry 2). -/
def execCodewordDecodeStart (lane r : Nat) (s : State) : Out := runCmd s (fun b =>
  match Tbl.find b.rxa.lanes lane with
  | some l => match Tbl.find b.rxa.wins l.win, l.cws[r]? with
    | some w, some c =>
      let b := b.toQ (b.cwReady l w r)
      let put (c' : Codeword) (cut : Bool) : Lane := { l with cws := l.cws.set r c', iterCut := l.iterCut || cut }
      if c.started then b
      else if l.st == .ship then
        let n := cwLen (hCode l.hdr) (hLen l.hdr) r + codeRows (hCode l.hdr) * codeZ (hCode l.hdr)
        let llr := b.softValues l w r n
        ((b.took.setLane lane (put { c with started := true } false)).cnpSend 2 w.home
          (leBytes 2 l.shipId ++ leBytes 1 r ++ leBytes 1 0 ++ leBytes 2 n ++ leBytes 2 0 ++ llr))
      else if l.st != .pay || decide (8 ≤ b.decoding) || b.earlierWaits l.p then b
      else
        let m := b.rd RXA_DEC_CFG.MAX_ITER
        let i := iterFit (hCode l.hdr) (hLen l.hdr) r b.nowQ l.p m
        (b.setLane lane (put { started := true, startQ := b.nowQ, allowed := i, done := false } (decide (i < m)))).when (decide (i < m))
          (fun b => b.set RXA_EVT.ITER_CUT)
    | _, _ => b
  | none => b)

/-- A decoder finishes codeword `r` after `iters` iterations with the information bits `data` (bit i the i-th), which are written to the frame
buffer (R155). What the soft decoding yields is outside the model: it comes with the command. -/
def execCodewordDecoded (lane r iters data : Nat) (s : State) : Out := runCmd s (fun b =>
  match Tbl.find b.rxa.lanes lane with
  | some l => match l.cws[r]?, l.fbuf with
    | some c, some h =>
      if !c.started || c.done || c.allowed == 0 then b
      else
        let code := hCode l.hdr
        let len := hLen l.hdr
        let i := max 1 (min iters c.allowed)
        let b := b.toQ (c.startQ + decodeCycles code len r i * qDsp)
        let a := cwStart code len r
        let n := cwLen code len r
        let old := leNat (b.fbBytes h 0 len)
        let v := old % 2 ^ a + (data % 2 ^ n) * 2 ^ a + (old / 2 ^ (a + n)) * 2 ^ (a + n)
        (b.fbWrite h 0 (leBytes len v)).setLane lane
          { l with cws := l.cws.set r { c with done := true }, iter := if r + 1 = numCw code len then i else l.iter }
    | _, _ => b
  | none => b)

/-! ### Posting -/

/-- The final result of a lane at P (R157, R158, R458), with the frame buffer holding the shipped frame where only that is good. -/
def Block.finalResult (b : Block) (n : Nat) (l : Lane) (w : Window) : Nat × Block :=
  let len := hLen l.hdr
  let h := l.fbuf.getD 0
  let own := l.cws.all (fun c => c.done) && fcsOk (b.fbBytes h 0 len)
  if own then ((if w.mode = 3 then rxSHIPPED else rxOK), b)
  else
    match l.shipFrame with
    | some f => (rxOK, (b.fbWrite h 0 f).setLane n l)
    | none => ((if l.cws.any (fun c => !c.started || c.allowed == 0) then rxDEC_OVR else rxCRC_FAIL), b)

/-- The counter and event of a record as it posts (R171). -/
def Block.countRes (b : Block) (res : Nat) (cut : Bool) : Block :=
  let b := match res with
    | 4 => b.inc RXA_CNT_SFDFAIL.all
    | 5 | 6 | 13 => b.inc RXA_CNT_HDRFAIL.all
    | 7 => b.inc RXA_CNT_CRCFAIL.all
    | 0 | 1 => b.inc RXA_CNT_OK.all
    | 8 => (b.inc RXA_CNT_DECOVR.all).set RXA_EVT.DEC_OVR
    | 9 => (b.inc RXA_CNT_NOBUF.all).set RXA_EVT.NO_BUF
    | _ => b
  b.when cut (fun b => b.inc RXA_CNT_ITERCUT.all)

/-- MORE of a record: another lane of its window is not IDLE (R158). -/
def Block.withMore (b : Block) (win : Nat) (lane : Option Nat) (r : List Byte) : List Byte :=
  let more := b.rxa.lanes.any (fun e => e.2.win == win && some e.1 != lane)
  splice r 1 [(r.getD 1 0) ||| (if more then 1 else 0)]

/-- A record of a lane goes on to the heard table's updater when it is OK (R327). -/
def Block.heardOffer (b : Block) (r : List Byte) (len : Nat) : Block :=
  if leAt r 0 1 != rxOK || !b.bit GRV_CTL.HRD_EN then b
  else if 64 < b.grv.heardQ.length then b.inc GRV_CNT_HRD_SKIP.all
  else { b with grv := { b.grv with heardQ := b.grv.heardQ ++ [(r, b.fbBytes (recFbuf r) 0 len)] } }

/-- The next record to post. -/
def nextPost (l : List RxPost) : Option RxPost :=
  l.foldl (fun m x => match m with | some y => if x.due < y.due then some x else some y | none => some x) none

/-- The record next due posts at its instant into its window's queue (R157, R158): HDR_OK takes the lane to PAY or SHIP, the others end it. -/
def execRxRecordPost (s : State) : Out := runCmd s (fun b =>
  match nextPost b.rxa.posts with
  | some p =>
    let b := b.toQ p.due
    let b := { b with rxa := { b.rxa with posts := b.rxa.posts.erase p } }
    match p.lane with
    | some n => match Tbl.find b.rxa.lanes n, Tbl.find b.rxa.wins p.win with
      | some l, some w =>
        let (res, b) := match p.res with | some r => (r, b) | none => b.finalResult n l w
        let r := b.laneRecord n l w res
        let b := (b.countRes res (p.res.isNone && l.iterCut))
        let b := b.winQueue p.win (b.withMore p.win p.lane r)
        let b := b.heardOffer r (hLen l.hdr)
        let b := b.when (res == rxSHIPPED && w.mode == 3) (fun b =>
          b.cnpSend 3 w.home (b.shipHdr l w ++ b.fbBytes (l.fbuf.getD 0) 0 (hLen l.hdr)))
        if p.release then (b.laneIdle n).winSweep
        else b.onLane n (fun l => { l with st := if w.mode = 2 then .ship else .pay })
      | _, _ => b
    | none =>
      ((b.countRes (p.res.getD rxNONE) false).winQueue p.win (b.withMore p.win none p.bytes)).winSweep
  | none => b)

/-! ### Record rings (R263) -/

/-- A ring entry (R263). -/
def Block.ringEntry (b : Block) (rec' : List Byte) (kind handle : Nat) : List Byte :=
  slice rec' 0 96 ++ leBytes 1 kind ++ leBytes 1 0 ++ leBytes 2 handle ++ leBytes 8 b.clk.htime.toNat ++ List.replicate 20 0

/-- The records a strand may take: of each window the oldest, and each transmission's; with the beat each is visible from, KIND and HANDLE. -/
def Block.ringCands (b : Block) (k : Nat) : List (Nat × Nat × Nat × List Byte) :=
  b.rxa.wins.filterMap (fun e => if e.2.strand == k && e.2.live then e.2.queue.head?.map (fun r => (r.visible, 0, e.1, r.bytes)) else none)
    ++ (b.txc.recs.filter (fun e => e.strand == k)).map (fun e => (e.record.visible, 1, e.handle, e.record.bytes))

/-- The next record visible to strand `k` is written into a free entry of its ring (R158, R263); among records visible from one beat on the
order is open (log entry 2). The weave then holds the frame buffer the record names (R283). -/
def execRingEntryWrite (k : Nat) (s : State) : Out := runCmd s (fun b =>
  let cs := b.ringCands k
  let st := b.strand k
  if cs.isEmpty || decide (8 ≤ st.ringCount) || st.weave.isNone then b
  else
    let v := cs.foldl (fun m c => min m c.1) (cs.headD (0, 0, 0, [])).1
    let firsts := cs.filter (fun c => c.1 == v)
    match firsts[b.freeNat % firsts.length]? with
    | some (_, kind, h, r) =>
      let b := (b.took).toBeat v
      let a := 0xF000 + 0x400 * subOf k + 128 * ((st.ringHead + st.ringCount) % 8)
      let b := b.dmemWrite (engOf k) a (b.ringEntry r kind h)
      let fb := recFbuf r
      let hold : List Nat := if kind == 0 && fb != 0xFFFF && !st.fbufs.contains fb then st.fbufs ++ [fb] else st.fbufs
      let b := b.onStrand k (fun s => { s with ringCount := s.ringCount + 1, fbufs := hold })
      if kind == 0 then
        match Tbl.find b.rxa.wins h with
        | some w => (b.setWin h { w with queue := w.queue.drop 1 }).winSweep
        | none => b
      else { b with txc := { b.txc with recs := b.txc.recs.filter (fun e => !(e.strand == k && e.handle == h && e.record.bytes == r)) } }
    | none => b)

/-! ### Shipments received (R160, R161, R458) -/

/-- The XC windows a shipment may be offered to (R160). -/
def Block.xcWindows (b : Block) (band ch sfc : Nat) (t1 : BitVec 64) : List Nat :=
  (b.rxa.wins.filter (fun e => e.2.mode == 1 && e.2.live && e.2.band == band && e.2.ch == ch && e.2.sfc == sfc
    && e.2.holds t1)).map (·.1)

/-- A shipment is discarded (R160, R161). -/
def Block.lateShip (b : Block) : Block := (b.inc RXA_CNT_LATESHIP.all).set RXA_EVT.LATE_SHIP

/-- A port entry of a shipment whose DTOA counts from `t`, its DTOA counting from `u` instead (R160, R162). -/
def rebase (t u : BitVec 64) (e : List Byte) : List Byte :=
  splice e 2 (leBytes 2 (unsigned 16 (satSym 16 (signed 16 (leAt e 2 2) + ((t.toNat : Int) - u.toNat)))))

/-- A remote-only lane (R160): granted under R151 or R152, its frame's post instant counted from T1. It posts no HDR_OK, and NO_BUF at once (DESIGN
CHOICE, log entry 52). -/
def Block.remoteLane (b : Block) (h : Nat) (w : Window) (level hdr : Nat) (t1 : BitVec 64) (es : List (List Byte)) (ship : Nat × Nat)
    (frame : Option (List Byte)) : Block :=
  match b.laneFor h level with
  | (some n, b) =>
    let l := Lane.new .pay h 0 level t1 [] b.freeNat b.freeNat
    let l := { l with hdr := hdr, remote := es, xc := true, ships := [ship], shipFrame := frame, remoteOnly := true, cws := freshCws hdr }
    let tp := b.laneAt l w (frameSyms (hType hdr) (hCode hdr) (hMod hdr) (hLen hdr))
    let l := { l with p := tp + b.postCycles (hCode hdr) (hLen hdr) true * qDsp }
    let b := b.took.winGranted h
    match b.fbufsFree with
    | [] => ((b.setLane n l).lanePost n rxNO_BUF b.nowQ true).rxCounts
    | free =>
      let b' := { b.took with rxa := { b.rxa with fbLen := Tbl.insert b.rxa.fbLen (b.pick free) (hLen hdr) } }
      ((b'.setLane n { l with fbuf := some (b.pick free) }).finalPost n h l.p).rxCounts
  | (none, b) => b

/-- A shipped header, and with SHIP_FRAME a frame, from device `origin` (R160, R458). Of several windows that match, which one takes it is open (a free
pick, log entry 52); with EN 0 no window does (R171). -/
def Block.shipOffer (b : Block) (origin : Nat) (body : List Byte) (withFrame : Bool) : Block :=
  let band := leAt body 2 1
  let ch := leAt body 3 1
  let sfc := leAt body 4 1 % 8
  let np := leAt body 6 1
  let hdr := leAt body 8 4 % 2 ^ 24
  let t1 : BitVec 64 := BitVec.ofNat 64 (leAt body 12 8)
  let es := (List.range np).map (fun i => slice body (20 + 8 * i) 8)
  let frame := if withFrame then some (slice body (20 + 8 * np) (hLen hdr)) else none
  let id := (origin, leAt body 0 2)
  match (if b.bit RXA_CTL.EN then b.xcWindows band ch sfc t1 else []) with
  | [] => b.lateShip
  | hs =>
    let h := b.pick hs
    let b := b.took
    match Tbl.find b.rxa.wins h with
    | some w =>
      match nearest t1 ((b.winLanes h).filter (fun e => e.2.hdr == hdr && (e.2.st == .pay || e.2.st == .hdr)
          && within t1 e.2.t1 (b.rd RXA_CAS_CFG.XC_WIN) (10 ^ 9))) with
      | some (n, l) =>
        b.setLane n { l with remote := l.remote ++ es.map (rebase t1 l.t1), xc := true, ships := l.ships ++ [id],
                             shipFrame := match frame with | some f => some f | none => l.shipFrame }
      | none => b.remoteLane h w (leAt body 5 1) hdr t1 es id frame
    | none => b

/-- A SHIP_HDR message arrives (R160, R457, R458). -/
def execShipHdrReceive (origin : Nat) (body : List Byte) (s : State) : Out := runCmd s (fun b => b.shipOffer origin body false)

/-- A SHIP_FRAME message arrives (R458). -/
def execShipFrameReceive (origin : Nat) (body : List Byte) (s : State) : Out := runCmd s (fun b => b.shipOffer origin body true)

/-- A SHIP_LLR message arrives: its soft values join the codeword of the lane its header was matched to, unless that has started (R161, R458). -/
def execShipLlrReceive (origin : Nat) (body : List Byte) (s : State) : Out := runCmd s (fun b =>
  let r := leAt body 2 1
  match b.rxa.lanes.find? (fun e => e.2.ships.contains (origin, leAt body 0 2)) with
  | some (n, l) => match l.cws[r]? with
    | some c => if c.started then b.lateShip else b.setLane n { l with llrs := l.llrs ++ [(r, body.drop 8)] }
    | none => b.lateShip
  | none => b.lateShip)

/-! ### Census (R166–R169) -/

/-- The block mean powers above BUSY_THR of the band, as a share of 255 (R167). -/
def busyShare (thr : Int) (l : List Int) : Nat := 255 * (l.filter (fun x => decide (thr < x))).length / l.length

/-- The record of stream `s` (R167): of one that existed as the cell ended and had samples, what was measured, at the antenna; else no data. -/
def Block.cenEntry (b : Block) (c : CenCell) (meas : List CenMeas) (s : Nat) : List Byte :=
  let n := Tbl.get (fun _ => CenCount.fresh) c.counts s
  let none' := leBytes 2 0x8000 ++ leBytes 2 0x8000 ++ leBytes 4 0
  match c.runs.find? (fun r => r.has s), meas.find? (fun m => m.stream == s) with
  | some r, some m =>
    let gs := b.gapsFor c.gaps (s / 64) r.link
    let q := c.cell * 2 ^ 24 * qHt
    let u := (c.cell + 1) * 2 ^ 24 * qHt
    if m.blocks.isEmpty || coveredBy gs u gs.length q then none'
    else
      let gain : Int := signed 16 (b.rd RXA_PORT_GAIN.GAIN (s / 64))
      let peak := m.blocks.foldl max (m.blocks.headD 0)
      let part := !(c.before.any (fun r => r.has s))
      leBytes 2 (b.atAntenna (s / 64) m.mean) ++ leBytes 2 (b.atAntenna (s / 64) peak)
        ++ leBytes 1 (busyShare (signed 16 (b.rd RXA_BAND.BUSY_THR r.band)) (m.blocks.map (· + gain)))
        ++ leBytes 1 n.det ++ leBytes 1 n.lanes
        ++ leBytes 1 (m.clip.toNat + 2 * (gs.any (fun g => g.meets q u)).toNat + 4 * n.step.toNat + 8 * part.toNat)
  | _, _ => none'

/-- The block of the oldest cell waiting is written to the ring in DRAM, trailer last, and RXA_CEN_WR advances (R166–R168); `meas` holds what
the streams with samples measured. -/
def execCensusBlockWrite (meas : List CenMeas) (s : State) : Out := runCmd s (fun b =>
  match b.rxa.cenPend with
  | c :: rest =>
    let body := (List.range 2048).flatMap (b.cenEntry c meas)
    let trailer := leBytes 8 (c.cell * 2 ^ 24) ++ leBytes 4 c.seq ++ leBytes 2 2048 ++ leBytes 2 (b.rxa.cenLost.toNat + 2 * c.unlocked.toNat)
      ++ List.replicate 48 0
    let i := b.rd RXA_CEN_WR.WR
    let base := (b.reg RXA_CEN_BASE_LO.all.base).toNat + (b.reg RXA_CEN_BASE_HI.all.base).toNat * 2 ^ 32
    let b := { b with rxa := { b.rxa with cenPend := rest, cenLost := false } }
    (b.dramWrite (base + 16448 * i) (body ++ trailer)).wr RXA_CEN_WR.WR ((i + 1) % max 2 (b.rd RXA_CEN_DEPTH.DEPTH))
  | [] => b)

/-- A block not written by the end of cell c + 2 is discarded (R169). -/
def execCensusBlockLost (s : State) : Out := runCmd s (fun b =>
  match b.rxa.cenPend with
  | c :: rest =>
    let b := b.toTime (BitVec.ofNat 64 ((c.cell + 3) * 2 ^ 24))
    { b with rxa := { b.rxa with cenPend := rest, cenLost := true } }.set RXA_EVT.CEN_LOST
  | [] => b)

/-! ### At a cell boundary and at the activation of a region profile -/

/-- The lanes of streams that have ceased to exist, or that another feed provides than in the block `a` before, post ABORTED (R132). -/
def Block.abortLost (b a : Block) : Block :=
  b.abortLanes (fun l => l.members.any (fun m => (b.streamFeed m.stream).isNone || b.streamFeed m.stream != a.streamFeed m.stream))

/-- The outcome of a feed's test. -/
def Block.feedOutcome (b : Block) (n : Nat) (f : Feed) (refused : Bool) : Block :=
  let b := { b with rxa := { b.rxa with feeds := Tbl.insert b.rxa.feeds n { f with refused := refused } } }
  (b.flag RXA_FEED.ERR refused n).when refused (fun b => b.set RXA_EVT.FEED_ERR)

/-- Every feed in effect that `c` names is tested, in ascending number (R131); another one is refused where its link is not valid any more. One
refused for its link stays so when the link is valid later (DESIGN CHOICE, log entry 52). -/
def Block.testFeeds (b : Block) (again : Bool) (c : Feed → Bool) : Block :=
  (List.range 64).foldl (fun b n => match Tbl.find b.rxa.feeds n with
    | some f => if c f then b.feedOutcome n f (b.feedRefused n f again) else if !f.refused && !b.linkValid f.link then b.feedOutcome n f true else b
    | none => b) b

/-- The changes of EN of the feeds take effect (R132): a feed set takes its fields and is tested, a feed cleared ends. -/
def Block.feedsAtCell (b : Block) : Block :=
  let a := b
  let cell := b.clk.cell
  let b := (List.range 64).foldl (fun b n =>
    let on := b.bit RXA_FEED.EN n
    match Tbl.find b.rxa.feeds n with
    | some _ => if on then b else { b with rxa := { b.rxa with feeds := Tbl.erase b.rxa.feeds n } }.clr RXA_FEED.ERR n
    | none =>
      if on then
        let f : Feed := { band := b.rd RXA_FEED.BAND n, base := b.rd RXA_FEED.BASE n, nco := b.reg (RXA_FEED_NCO.all.off n),
                          link := b.rd RXA_FEED.LINK n, conv := b.rd RXA_FEED.CONV n, cell := cell, refused := true }
        { b with rxa := { b.rxa with feeds := Tbl.insert b.rxa.feeds n f } }
      else b) b
  ((b.testFeeds false (fun f => f.cell == cell)).testLinks).abortLost a

/-- The census at the end of cell `c` (R166): a whole cell since CEN_EN was set leaves a block to write. -/
def Block.censusAtCell (b : Block) (c : Nat) : Block :=
  let b' : Block :=
    if b.bit RXA_CEN_CTL.CEN_EN && decide (b.rxa.cenStart ≤ c) then
      let e : CenCell := { cell := c, seq := b.rxa.cenSeq, counts := b.rxa.cenNow, before := b.rxa.cenFrom, runs := b.runs, gaps := b.rxa.gaps,
                           unlocked := b.unlockedIn (BitVec.ofNat 64 (c * 2 ^ 24)) (BitVec.ofNat 64 ((c + 1) * 2 ^ 24)) }
      { b with rxa := { b.rxa with cenPend := b.rxa.cenPend ++ [e], cenSeq := b.rxa.cenSeq + 1 } }
    else b
  { b' with rxa := { b'.rxa with cenNow := [] } }

/-- The streams that exist are those the present cell begins with. -/
def Block.cenBegin (b : Block) : Block := { b with rxa := { b.rxa with cenFrom := b.runs } }

/-- A write of RXA_CEN_CTL: as CEN_EN is set SEQ starts at 0 with the next whole cell (R168, R169). -/
def Block.cenCtl (b : Block) (v : BitVec 32) : Block :=
  let was := b.bit RXA_CEN_CTL.CEN_EN
  let b := b.setReg RXA_CEN_CTL.all.base (v &&& 1)
  if was || !b.bit RXA_CEN_CTL.CEN_EN then b else { b with rxa := { b.rxa with cenSeq := 0, cenStart := cellOf b.clk.htime + 1 } }

/-- Gaps that ended before cell `c` and before every lane's frame are let go. -/
def Block.gapsPrune (b : Block) (c : Nat) : Block :=
  let q := b.rxa.lanes.foldl (fun q e => min q (htQ e.2.t1)) (c * 2 ^ 24 * qHt)
  let d := 2 ^ 24 * qHt
  { b with rxa := { b.rxa with gaps := b.rxa.gaps.filter (fun g => match g.stop with | some e => decide (q < e + d) | none => true) } }

/-- The receive array at a cell boundary; `c` is the cell that ends. -/
def Block.rxaAtCell (b : Block) (c : Nat) : Block := (((b.censusAtCell c).gapsPrune c).feedsAtCell).cenBegin

/-- A region profile activates: every feed in effect is tested again (R132). In the first beat of a cell it comes with the cell's start. -/
def Block.rxaRegion (b : Block) : Block :=
  let b' := ((b.testFeeds true (fun _ => true)).testLinks).abortLost b
  if b.clk.htime.toNat % 2 ^ 24 < 18 then b'.cenBegin else b'

end Sys2Proof.Machine
end

