-- ==== Sys2Proof/Machine/Border.lean ====
section
/-! DEFINITION. Border routing: the DMA rings, the Ethernet ports, Bough, header compression and the forwarding decisions (R406–R434). -/

namespace Sys2Proof.Machine

/-! ### DMA rings (R411–R417, R433) -/

/-- A field of ring `r` of a direction: D2H or H2D. -/
def Block.ringF (b : Block) (d2h : Bool) (fh fd : Fld) (r : Nat) : Nat := if d2h then b.rd fd r else b.rd fh r
def Block.ringEn (b : Block) (d2h : Bool) (r : Nat) : Bool := b.ringF d2h PCI_H2D_CFG.EN PCI_D2H_CFG.EN r != 0
def Block.ringSize (b : Block) (d2h : Bool) (r : Nat) : Nat := 2 ^ b.ringF d2h PCI_H2D_CFG.LOG2 PCI_D2H_CFG.LOG2 r
def Block.ringHead (b : Block) (d2h : Bool) (r : Nat) : Nat := b.ringF d2h PCI_H2D_HEAD.HEAD PCI_D2H_HEAD.HEAD r
def Block.ringTail (b : Block) (d2h : Bool) (r : Nat) : Nat := b.ringF d2h PCI_H2D_TAIL.TAIL PCI_D2H_TAIL.TAIL r

/-- The address of the descriptor at HEAD. -/
def Block.ringDesc (b : Block) (d2h : Bool) (r : Nat) : Nat :=
  (if d2h then (b.reg (PCI_D2H_BASE_LO.all.off r)).toNat + (b.reg (PCI_D2H_BASE_HI.all.off r)).toNat * 2 ^ 32
   else (b.reg (PCI_H2D_BASE_LO.all.off r)).toNat + (b.reg (PCI_H2D_BASE_HI.all.off r)).toNat * 2 ^ 32) + 32 * b.ringHead d2h r

/-- The DMA engine runs: DMA_EN, a link that is up, and a function in D0 that may master the bus (R409, R433, R545). -/
def Block.dmaOn (b : Block) : Bool := b.bit PCI_CTL.DMA_EN && b.bit PCI_STAT.LINK_UP && b.fn.busMaster && !b.fn.d3hot

/-- A ring is enabled and not empty. -/
def Block.ringReady (b : Block) (d2h : Bool) (r : Nat) : Bool := b.dmaOn && b.ringEn d2h r && b.ringHead d2h r != b.ringTail d2h r

/-- The key of a ring's write-backs. -/
def coalKey (d2h : Bool) (r : Nat) : Nat := 16 * d2h.toNat + r

/-- A ring's write-backs not yet signalled, and the beat of its time-out. -/
def Block.coal (b : Block) (d2h : Bool) (r : Nat) : Nat × Nat := Tbl.get (fun _ => (0, 0)) b.bdr.coal (coalKey d2h r)
def Block.setCoal (b : Block) (d2h : Bool) (r : Nat) (x : Nat × Nat) : Block :=
  { b with bdr := { b.bdr with coal := Tbl.put (fun _ => (0, 0)) b.bdr.coal (coalKey d2h r) x } }

/-- A ring signals its vector (R410, R414). -/
def Block.ringSignal (b : Block) (d2h : Bool) (r : Nat) : Block :=
  let v := b.ringF d2h PCI_H2D_CFG.VEC PCI_D2H_CFG.VEC r
  let b := b.setCoal d2h r (0, 0)
  if v < 256 then b else b.msix v

/-- A descriptor has been written back: HEAD advances, and the write-back counts towards the signal (R411, R414). -/
def Block.ringBack (b : Block) (d2h : Bool) (r : Nat) : Block :=
  let h := (b.ringHead d2h r + 1) % b.ringSize d2h r
  let b := if d2h then b.wr PCI_D2H_HEAD.HEAD h r else b.wr PCI_H2D_HEAD.HEAD h r
  let n := b.ringF d2h PCI_H2D_COAL.COAL_N PCI_D2H_COAL.COAL_N r
  let t := b.ringF d2h PCI_H2D_COAL.COAL_T PCI_D2H_COAL.COAL_T r
  let c := b.coal d2h r
  let b := b.setCoal d2h r (c.1 + 1, if c.1 = 0 then b.clk.beat + 250 * t else c.2)
  if n != 0 && decide (n ≤ c.1 + 1) then b.ringSignal d2h r else b

/-- COAL_T µs after the first write-back not yet signalled (R414). -/
def execRingCoalesceTimeout (d2h : Bool) (r : Nat) (s : State) : Out := runCmd s (fun b =>
  let r := r % 16
  let c := b.coal d2h r
  if c.1 = 0 ∨ b.ringF d2h PCI_H2D_COAL.COAL_N PCI_D2H_COAL.COAL_N r = 0 then b else (b.toBeat c.2).ringSignal d2h r)

/-- A write of a ring's configuration (R433): setting EN sets HEAD to 0, or the write is ignored with BAD_DESC; LOG2 is kept while EN is 1. -/
def Block.ringCfg (b : Block) (d2h : Bool) (r : Nat) (v : BitVec 32) : Block :=
  let off := if d2h then PCI_D2H_CFG.all.off r else PCI_H2D_CFG.all.off r
  let v := v &&& 0x87FF001F
  if b.ringEn d2h r then b.setReg off (fput v PCI_H2D_CFG.LOG2 (b.ringF d2h PCI_H2D_CFG.LOG2 PCI_D2H_CFG.LOG2 r))
  else if fget v PCI_H2D_CFG.EN = 0 then b.setReg off v
  else if fget v PCI_H2D_CFG.LOG2 < 4 ∨ 16 < fget v PCI_H2D_CFG.LOG2 then b.set PCI_EVT.BAD_DESC
  else
    let b := (b.setReg off v).setCoal d2h r (0, 0)
    if d2h then b.clr PCI_D2H_HEAD.HEAD r else b.clr PCI_H2D_HEAD.HEAD r
def execRingEnable (d2h : Bool) (r : Nat) (val : Word) (s : State) : Out := runCmd s (fun b => b.ringCfg d2h (r % 16) (val ||| 0x80000000))

/-- A write of a TAIL, ignored with BAD_DESC out of range (R433). -/
def Block.ringTailWrite (b : Block) (d2h : Bool) (r : Nat) (v : BitVec 32) : Block :=
  let t := fget v PCI_H2D_TAIL.TAIL
  if b.ringSize d2h r ≤ t then b.set PCI_EVT.BAD_DESC
  else if d2h then b.wr PCI_D2H_TAIL.TAIL t r else b.wr PCI_H2D_TAIL.TAIL t r
def execH2dTailWrite (r : Nat) (val : Word) (s : State) : Out := runCmd s (fun b => b.ringTailWrite false (r % 16) val)
def execD2hTailWrite (r : Nat) (val : Word) (s : State) : Out := runCmd s (fun b => b.ringTailWrite true (r % 16) val)

/-- Every ring is disabled and every descriptor in flight abandoned without write-back (R409, R433). -/
def Block.ringsStop (b : Block) : Block :=
  let b := (List.range 16).foldl (fun (b : Block) r => (b.clr PCI_H2D_CFG.EN r).clr PCI_D2H_CFG.EN r) b
  { b with bdr := { b.bdr with coal := [] } }

/-- DMA_EN is cleared (R433). -/
def execDmaDisable (s : State) : Out := runCmd s (fun b => (b.clr PCI_CTL.DMA_EN).ringsStop)

/-- A Function Level Reset (R409): the configuration space, the PCI block registers and the DMA engine; the link stays as it is. -/
def Block.flr (b : Block) : Block :=
  let st := b.reg PCI_STAT.all.base
  let rs := b.regs.filter (fun e => e.1 < 0x06C0000 || 0x0700000 ≤ e.1)
  ({ b.ringsStop with regs := rs, fn := PciFn.fresh }).setReg PCI_STAT.all.base st
def execFlr (s : State) : Out := runCmd s Block.flr

/-- The PCIe link goes down or comes up with its width and speed; while it is down no ring moves (R545). -/
def execPcieLinkChange (up : Bool) (width speed : Nat) (s : State) : Out := runCmd s (fun b =>
  (if up then ((b.set PCI_STAT.LINK_UP).wr PCI_STAT.WIDTH width).wr PCI_STAT.SPEED speed
  else (b.setReg PCI_STAT.all.base 0).ringsStop).icuEval)

/-- A D2H descriptor is written back (R413). -/
def d2hBytes (desc : D2hDesc) (len kind status reason origin : Nat) (tci : Option Nat) (ts : Nat) : List Byte :=
  let tag := match tci with | some t => t % 65536 * 256 + 2 ^ 24 | none => 0
  leBytes 8 desc.addr ++ leBytes 2 len ++ leBytes 2 (2 ^ 15 + kind * 2 ^ 12 + status * 2 ^ 8 + reason * 16) ++ leBytes 4 (origin + tag)
    ++ leBytes 8 ts ++ List.replicate 8 0

/-- Where data for the host comes from: ORIGIN[7:0], its 802.1Q TCI and TS (R413). -/
structure D2hFrom where
  origin : Nat
  tci : Option Nat
  ts : Nat
  deriving DecidableEq, Repr

/-- Data goes to D2H ring `r`: none without a posted descriptor; longer than BUFLEN it is dropped, counted, and the descriptor stays (R416). -/
def Block.d2hPut (b : Block) (r kind status reason : Nat) (f : D2hFrom) (data : List Byte) (desc : D2hDesc) : Option Block :=
  if !b.ringReady true r then none
  else if desc.buflen < data.length then some ((b.inc PCI_CNT_D2H_LONG.all).set PCI_EVT.D2H_LONG)
  else
    let b := if data.isEmpty then b else b.emit (.hostWrite desc.addr data)
    let b := b.emit (.hostWrite (b.ringDesc true r) (d2hBytes desc data.length kind status reason f.origin f.tci f.ts))
    some (b.ringBack true r)

/-- KIND values of R413. -/
def dkITEM : Nat := 0
def dkIPV6 : Nat := 1
def dkETH : Nat := 2

/-! ### Bough (R423–R426, R431) -/

/-- The entries of the three tables. -/
def bghEntries : Nat := 2228224

def Block.bghEnt (b : Block) (i : Nat) : BitVec 32 := Tbl.get (fun _ => 0) b.bdr.ent i
def Block.setEnt (b : Block) (i : Nat) (v : BitVec 32) : Block := { b with bdr := { b.bdr with ent := Tbl.put (fun _ => 0) b.bdr.ent i v } }

/-- The walk from an entry of level `k`; `fuel` is the levels left. The result index of the last entry with RV (R423). -/
def Block.trieWalk (b : Block) (da : List Byte) (k : Nat) (e : BitVec 32) (best : Option Nat) : Nat → Option Nat
  | 0 => if e.getLsbD 30 then some (e.toNat % 65536) else best
  | fuel + 1 =>
    let best := if e.getLsbD 30 then some (e.toNat % 65536) else best
    if e.getLsbD 31 then
      b.trieWalk da (k + 1) (b.bghEnt (65536 + 256 * bitsOf e.toNat 28 16 + leAt da (k + 2) 1)) best fuel
    else best

/-- A lookup: the result word, or none for NO_ROUTE. -/
def Block.bghLookup (b : Block) (da : List Byte) : Option (BitVec 32) :=
  (b.trieWalk da 0 (b.bghEnt (beNat (slice da 0 2))) none 14).map (fun i => b.bghEnt (2162688 + i))

/-- The shadow's base address. -/
def Block.bghShadow (b : Block) : Nat :=
  b.rd BGH_SHADOW_LO.BASE * 2 ^ 24 + (b.reg BGH_SHADOW_HI.all.base).toNat * 2 ^ 32

/-- AUTO_INC of BGH_ENT_IDX after an access of BGH_ENT_DATA. -/
def Block.entAdvance (b : Block) : Block :=
  if b.bit BGH_ENT_IDX.AUTO_INC then b.wr BGH_ENT_IDX.IDX (b.rd BGH_ENT_IDX.IDX + 1) else b

/-- A write of BGH_ENT_DATA: entry and shadow together (R425, R426). An index beyond the tables names no entry. -/
def Block.entWrite (b : Block) (v : BitVec 32) : Block :=
  let i := b.rd BGH_ENT_IDX.IDX
  if bghEntries ≤ i then b.entAdvance
  else ((b.setEnt i v).dramWrite (b.bghShadow + 4 * i) (leBytes 4 v.toNat)).entAdvance
def execBghEntWrite (val : Word) (s : State) : Out := runCmd s (fun b => b.entWrite val)

/-- A read of BGH_ENT_DATA (R431); beyond the tables it reads a free value. -/
def Block.entRead (b : Block) : Block :=
  let i := b.rd BGH_ENT_IDX.IDX
  if bghEntries ≤ i then (b.answer (.data (BitVec.ofNat 32 b.freeNat))).took.entAdvance
  else (b.answer (.data (b.bghEnt i))).entAdvance
def execBghEntRead (s : State) : Out := runCmd s Block.entRead

/-- A write of BGH_NH_HI stores the next-hop entry (R431). -/
def Block.nhStore (b : Block) (v : BitVec 32) : Block :=
  let b := b.hiWrite BGH_NH_HI.all.base v
  let x : BitVec 64 := BitVec.ofNat 64 (b.rd64 BGH_NH_LO.all BGH_NH_HI.all)
  { b with bdr := { b.bdr with nh := Tbl.put (fun _ => 0) b.bdr.nh (b.rd BGH_NH_IDX.IDX) x } }
def execBghNhStore (val : Word) (s : State) : Out := runCmd s (fun b => b.nhStore val)

/-- FENCE reads 1 until every lookup started before it has completed (R425). -/
def Block.bghFence (b : Block) : Block := b.set BGH_CTL.FENCE
def execFence (s : State) : Out := runCmd s Block.bghFence
def execFenceDone (s : State) : Out := runCmd s (fun b => b.clr BGH_CTL.FENCE)

/-- LOAD starts while EN is 0, else is ignored with WR_IGN (R426, R431). -/
def Block.bghLoad (b : Block) : Block :=
  if b.bit BGH_CTL.EN then b.set BGH_EVT.WR_IGN else (b.set BGH_CTL.LOAD).set BGH_STAT.LOADING
def execBghLoad (s : State) : Out := runCmd s Block.bghLoad

/-- The tables the shadow holds. -/
def Block.shadowTable (b : Block) : Tbl (BitVec 32) :=
  let base := b.bghShadow
  (b.dram.bytes.filter (fun e => decide (base ≤ e.1 ∧ e.1 < base + 4 * bghEntries))).foldl (fun t e =>
    Tbl.put (fun _ => 0) t ((e.1 - base) / 4) (BitVec.ofNat 32 (b.dramLe (base + 4 * ((e.1 - base) / 4)) 4))) []

/-- The load completes: the tables are those of the shadow (R426). -/
def execBghLoadDone (s : State) : Out := runCmd s (fun b =>
  if !b.bit BGH_CTL.LOAD then b
  else
    let b := b.dramTouch b.bghShadow (4 * bghEntries)
    { (b.clr BGH_CTL.LOAD).clr BGH_STAT.LOADING with bdr := { b.bdr with ent := b.shadowTable } })

/-- The scrubber compares one entry with its shadow (R426, R523); a poisoned shadow word is counted and not compared (log entry 33). -/
def execBghScrubCompare (s : State) : Out := runCmd s (fun b =>
  if !b.bit BGH_CTL.SCRUB_EN then b
  else
    let i := b.bdr.scrub
    let b := b.dramTouch (b.bghShadow + 4 * i) 4
    let die := b.bghEnt i
    let shd := BitVec.ofNat 32 (b.dramLe (b.bghShadow + 4 * i) 4)
    let fix := b.bit BGH_CTL.REPAIR
    let b := if die = shd ∨ b.dramPoisoned (b.bghShadow + 4 * i) 4 = true then b
      else
        let b := b.setReg BGH_MISM_IDX.all.base (BitVec.ofNat 32 (2 ^ 31 + i))
        let b := (b.setReg BGH_MISM_DIE.all.base die).setReg BGH_MISM_SHD.all.base shd
        let b := (b.set BGH_EVT.MISMATCH).log kindSHADOW 9 (if fix then 0x04000000 else 0) i die shd
        if fix then (b.setEnt i shd).set BGH_EVT.REPAIRED else b
    let next := (i + 1) % bghEntries
    { b.when (next = 0) (fun b => b.inc BGH_SCRUB_PASS.all) with bdr := { b.bdr with scrub := next } })

/-! ### Header compression (R429, R430) -/

/-- The 8 bytes of the prefix in BGH_CTX0. -/
def Block.ctx0 (b : Block) : List Byte := beBytes 8 ((b.reg BGH_CTX0_LO.all.base).toNat + (b.reg BGH_CTX0_HI.all.base).toNat * 2 ^ 32)

/-- This device's own mesh address (R110). -/
def Block.ownAddr (b : Block) : Nat := b.rd CNP_STAT.POS * 2 ^ 25

/-- fe80::IID of a mesh address. -/
def linkLocal (a : Nat) : List Byte := [0xFE, 0x80, 0, 0, 0, 0, 0, 0] ++ iidOf a

/-- The hop limit of an IPv6 packet, its addresses, and the packet with its hop limit one less. -/
def ip6Hlim (p : List Byte) : Nat := leAt p 7 1
def ip6Src (p : List Byte) : List Byte := slice p 8 16
def ip6Dst (p : List Byte) : List Byte := slice p 24 16
def ip6Dec (p : List Byte) : List Byte := splice p 7 (leBytes 1 (ip6Hlim p - 1))

/-- The compressor (R430): the packet's destination is a mesh address under CTX0. -/
def Block.compress (b : Block) (p : List Byte) : List Byte :=
  let w := beNat (slice p 0 4)
  let tc := w / 2 ^ 20 % 256
  let fl := w % 2 ^ 20
  let tcb := tc % 4 * 64 + tc / 4
  let tf := if tc = 0 ∧ fl = 0 then 3 else if fl = 0 then 2 else 0
  let tfb := if tf = 3 then [] else if tf = 2 then leBytes 1 tcb else beBytes 4 (tcb * 2 ^ 24 + fl)
  let h := ip6Hlim p
  let hc := if h = 1 then 1 else if h = 64 then 2 else if h = 255 then 3 else 0
  let src := ip6Src p
  let own := b.ctx0 ++ iidOf b.ownAddr
  let sa : Nat × List Byte :=
    if src = own then (7, []) else if src.take 8 = b.ctx0 then (5, src.drop 8) else (0, src)
  leBytes 1 (0x60 + tf * 8 + hc) ++ leBytes 1 (sa.1 * 16 + 7) ++ tfb ++ slice p 6 1 ++ (if hc = 0 then leBytes 1 h else []) ++ sa.2 ++ p.drop 40

/-- What the decompressor reads of the inline fields: the bytes left, or none where they run out. -/
def takeN (n : Nat) (l : List Byte) : Option (List Byte × List Byte) := if n ≤ l.length then some (l.take n, l.drop n) else none

/-- The decompressor (R429, R430): the IPv6 packet, or none for IPHC outside the subset. -/
def Block.decompress (b : Block) (src : Nat) (l : List Byte) : Option (List Byte) := do
  let (h, l) ← takeN 2 l
  let x := leAt h 0 1
  let y := leAt h 1 1
  let tf := x / 8 % 4
  let sac := y / 16 % 8
  let dst := y % 16
  if x / 32 ≠ 3 ∨ x / 4 % 2 ≠ 0 ∨ y / 128 ≠ 0 then none
  let (t, l) ← takeN ([4, 3, 1, 0].getD tf 0) l
  let first := if tf = 3 then 0 else leAt t 0 1
  let tc := if tf = 0 ∨ tf = 2 then first % 64 * 4 + first / 64 else if tf = 1 then first / 64 else 0
  let fl := if tf = 0 then beNat t % 2 ^ 20 else if tf = 1 then beNat t % 2 ^ 20 else 0
  let (nh, l) ← takeN 1 l
  let hc := x % 4
  let (hl, l) ← takeN (if hc = 0 then 1 else 0) l
  let hlim := if hc = 0 then hl else leBytes 1 ([0, 1, 64, 255].getD hc 0)
  let (s, l) ← takeN (if sac = 0 then 16 else if sac = 5 then 8 else 0) l
  let srcA ← if sac = 0 then some s else if sac = 3 then some (linkLocal src) else if sac = 5 then some (b.ctx0 ++ s)
             else if sac = 7 then some (b.ctx0 ++ iidOf src) else none
  let (d, l) ← takeN (if dst = 0 ∨ dst = 8 then 16 else if dst = 5 then 8 else 0) l
  let dstA ← if dst = 0 ∨ dst = 8 then some d else if dst = 3 then some (linkLocal b.ownAddr) else if dst = 5 then some (b.ctx0 ++ d)
             else if dst = 7 then some (b.ctx0 ++ iidOf b.ownAddr) else none
  some (beBytes 4 (6 * 2 ^ 28 + tc * 2 ^ 20 + fl) ++ beBytes 2 l.length ++ nh ++ hlim ++ srcA ++ dstA ++ l)

/-! ### Ethernet egress (R419, R427) -/

/-- The MAC address of a port. -/
def Block.ethMac (b : Block) (n : Nat) : List Byte :=
  beBytes 6 ((b.reg (ETH_MAC_LO.all.off n)).toNat + b.rd ETH_MAC_HI.MACHI n * 2 ^ 32)

/-- A frame leaves on port `n`, its FCS appended, when the link is up. -/
def Block.ethSend (b : Block) (n : Nat) (frame : List Byte) : Block :=
  if b.bit ETH_STAT.LINK_UP n then (b.emit (.ethFrame n (frame ++ leBytes 4 (crc32 frame)))).inc ETH_CNT_TX_OK.all n else b

/-- The frame of a packet for a next-hop entry (R419). -/
def Block.ethFrameOf (b : Block) (n : Nat) (nh : BitVec 64) (p : List Byte) : List Byte :=
  let tag := if b.bit ETH_VLAN.TAG_EN n then [0x81, 0x00] ++ beBytes 2 (b.rd ETH_VLAN.PCP n * 8192 + b.rd ETH_VLAN.VID n) else []
  beBytes 6 (nh.toNat % 2 ^ 48) ++ b.ethMac n ++ tag ++ [0x86, 0xDD] ++ p

/-! ### Forwarding decisions (R427) -/

/-- REASON values (R428). -/
def rsNONE : Nat := 0
def rsNOT_IPV6 : Nat := 1
def rsLOCAL : Nat := 2
def rsHLIM : Nat := 3
def rsNO_ROUTE : Nat := 4
def rsNOT_MESH_IID : Nat := 5
def rsTOO_BIG : Nat := 6
def rsIPHC_UNSUP : Nat := 7
def rsNOT_IPHC : Nat := 8
def rsFORMAT : Nat := 9
def rsSRC_CHECK : Nat := 10
def rsDISABLED : Nat := 11

/-- The outcome of a forwarding decision. -/
inductive Fwd where
  | exc (reason : Nat)
  | drop
  | host (ring : Nat)
  | eth (port : Nat) (frame : List Byte)
  | noHop
  | canopy (a : Nat)
  | noNode
  | shaper (a ctx : Nat) (payload : List Byte)
  deriving DecidableEq, Repr

/-- The decision from the Grove test on (R427), which a packet from the Canopy enters at (R459). -/
def Block.fwdNode (b : Block) (a : Nat) (p : List Byte) : Fwd :=
  let i := a % 2 ^ 25
  let b := b.recordTouch i
  let r := b.recordNow i
  let bad := b.recordPoisoned i
  if bad || !b.bit GRV_STAT.READY || recState r == gsFREE || recState r == gsDISABLED then .noNode
  else
    let c := b.compress p
    if b.rd BGH_CFG.MESH_MTU < c.length then .exc rsTOO_BIG else .shaper a (leAt r 94 2) c

/-- The record that the Grove test of a decision reads (R427, R518): one that cannot be corrected or fails CHK is counted and reported (R330). -/
def Block.fwdSeen (b : Block) (a : Nat) : Block :=
  let i := a % 2 ^ 25
  if !b.bit GRV_STAT.READY then b else let b := b.recordTouch i; b.when (b.recordPoisoned i) Block.grvPoison

/-- The home node whose record the decision of `p` tests, if it comes to that. -/
def Block.fwdHome (b : Block) (p : List Byte) : Option Nat :=
  let da := ip6Dst p
  match b.bghLookup da with
  | none => none
  | some w =>
    match if bitsOf w.toNat 31 29 = 1 ∧ da.take 8 = b.ctx0 then addrOfIid (da.drop 8) else none with
    | none => none
    | some a => if a % 2 ^ 25 ≠ 0 ∧ homeOf a = b.rd CNP_STAT.POS then some a else none

/-- A lookup is made for `p`, and the record of its home node is read where the decision tests it. -/
def Block.fwdLook (b : Block) (p : List Byte) : Block :=
  let b := b.inc BGH_CNT_LOOKUP.all
  match b.fwdHome p with
  | some a => b.fwdSeen a
  | none => b

/-- The decision from the lookup on, for a packet whose hop limit is already decremented (R427). -/
def Block.fwdRoute (b : Block) (p : List Byte) : Fwd :=
  let da := ip6Dst p
  match b.bghLookup da with
  | none => .exc rsNO_ROUTE
  | some w =>
    let act := bitsOf w.toNat 31 29
    if act = 1 then
      match if da.take 8 = b.ctx0 then addrOfIid (da.drop 8) else none with
      | none => .exc rsNOT_MESH_IID
      | some a =>
        if a % 2 ^ 25 = 0 then .exc rsLOCAL
        else if homeOf a ≠ b.rd CNP_STAT.POS then .canopy a
        else b.fwdNode a p
    else if act = 2 then
      let nh := Tbl.get (fun _ => 0) b.bdr.nh (bitsOf w.toNat 23 12)
      let n := nh.toNat / 2 ^ 48 % 2
      if nh.getLsbD 63 then .eth n (b.ethFrameOf n nh p) else .noHop
    else if act = 3 then .host (w.toNat % 16)
    else .drop

/-- A decision is carried out for a packet `p`: `put` delivers a host ring's packet or an exception, none where it cannot be accepted. -/
def Block.fwdDo (b : Block) (f : Fwd) (p : List Byte) (put : Block → Fwd → Option Block) : Option Block :=
  match f with
  | .exc r => (put b (.exc r)).map (fun b => b.inc BGH_CNT_EXC.all)
  | .host r => put b (.host r)
  | .drop => some (b.inc BGH_CNT_DROP.all)
  | .eth n fr => some (b.ethSend n fr)
  | .noHop => some (b.set BGH_EVT.NH_INVALID)
  | .canopy a => some ((b.inc BGH_CNT_CANOPY.all).cnpSend 4 (homeOf a) (leBytes 4 a ++ List.replicate 4 0 ++ p))
  | .noNode => some (b.inc BGH_CNT_NO_NODE.all)
  | .shaper a c d => some ((b.inc BGH_CNT_MESH.all).shpAdmit a 0 c d)

/-- A packet of the downlink path: step 2 of R24, the table of R427 from its first row. -/
def Block.downlink (b : Block) (p : List Byte) (put : Block → Fwd → Option Block) : Option Block :=
  if !b.bit BGH_CTL.EN then b.fwdDo (.exc rsDISABLED) p put
  else if ip6Hlim p ≤ 1 then b.fwdDo (.exc rsHLIM) p put
  else (b.fwdLook (ip6Dec p)).fwdDo (b.fwdRoute (ip6Dec p)) (ip6Dec p) put

/-- A packet shorter than an IPv6 header is read with free bytes in place of those missing (log entry 31). -/
def Block.ip6Pad (b : Block) (p : List Byte) : List Byte :=
  p ++ (List.range (40 - p.length)).map (Config.freeByte b.clk.free)

/-! ### H2D rings (R412, R422) -/

/-- The H2D ring served next: round robin among those enabled and not empty. -/
def Block.h2dNext (b : Block) : Option Nat :=
  ((List.range 16).map (fun i => (b.bdr.rr + 1 + i) % 16)).find? (fun r => b.ringReady false r)

/-- The descriptor breaks a rule of its layout (R412). -/
def h2dBad (d : H2dDesc) : Bool :=
  let kind := d.flags % 4
  kind == 3 || d.len == 0 || decide (9600 < d.len) || d.flags / 32 % 8 != 0 || d.zero != 0
    || (kind != 2 && (bitOf d.flags 3 || bitOf d.flags 4))

/-- The frame with its correctionField moved on by ONESTEP (R422). -/
def oneStep (d : H2dDesc) (t : Nat) (frame : List Byte) : List Byte :=
  let x : Int := ((t : Int) - (d.tref : Int)) * (10 ^ 9 : Nat) * (2 ^ 16 : Nat)
  let r : Int := (2 * x + (2 ^ 32 : Nat)) / (2 ^ 33 : Nat)
  splice frame d.cfofs (beBytes 8 (unsigned 64 ((beNat (slice frame d.cfofs 8) : Int) + r)))

/-- The descriptor is handed on: its STATUS, the egress stamp, and the block; none where it has to wait. -/
def Block.h2dHand (b : Block) (d : H2dDesc) (data : List Byte) (err : Bool) (t : BitVec 64) (desc : D2hDesc) : Option (Nat × Block) :=
  let kind := d.flags % 4
  let n := d.flags / 4 % 2
  if h2dBad d then some (1, b.set PCI_EVT.BAD_DESC)
  else if err then some (2, b.set PCI_EVT.DMA_ERR)
  else if kind = 0 then
    let p := b.ip6Pad data
    let f : D2hFrom := { origin := 130, tci := none, ts := b.freeNat }
    (b.took.downlink p (fun b x => match x with
      | .exc r => b.d2hPut (b.rd BGH_CFG.EXC_RING) dkIPV6 0 r f data desc
      | .host r => b.d2hPut r dkIPV6 0 rsNONE f (ip6Dec p) desc
      | _ => some b)).map (fun b => (0, b))
  else if kind = 1 then
    let q := data ++ (List.range (8 - data.length)).map (Config.freeByte b.clk.free)
    let dst := leAt q 0 4 % 2 ^ 28
    let b := b.took
    if dst = 0xFFFFFFF ∨ homeOf dst = b.rd CNP_STAT.POS then some (0, b.shpAdmit dst (leAt q 6 1) (leAt q 4 2) (q.drop 8))
    else some (0, b.cnpSend 4 (homeOf dst) (leBytes 4 dst ++ [1, 0, 0, 0] ++ q))
  else if !b.bit ETH_STAT.LINK_UP n then some (3, b)
  else
    some (0, b.ethSend n (if bitOf d.flags 4 then oneStep d (t.toNat + b.rd ETH_TS_DLY.TX_DLY n) data else data))

/-- The DMA engine serves the descriptor `d` at HEAD of the next H2D ring (R412): `data` is its buffer as read, `err` whether the read failed, `t` the
egress time of the port's replica, `desc` the descriptor at HEAD of the D2H ring the packet may go to. -/
def execH2dDescriptorServe (d : H2dDesc) (data : List Byte) (err : Bool) (t : DWord) (desc : D2hDesc) (s : State) : Out := runCmd s (fun b =>
  match b.h2dNext with
  | none => b
  | some r =>
    match b.h2dHand d data err t desc with
    | none => b
    | some (st, b) =>
      let stamp := t.toNat + b.rd ETH_TS_DLY.TX_DLY (d.flags / 4 % 2)
      let tref := if st = 0 && d.flags % 4 == 2 && bitOf d.flags 3 then stamp else d.tref
      let back := leBytes 8 d.addr ++ leBytes 2 d.len ++ leBytes 2 (d.flags % 256 + st * 256 + 2 ^ 15) ++ leBytes 2 d.cfofs ++ leBytes 2 d.zero
        ++ leBytes 8 tref ++ leBytes 8 d.tag
      let b := (b.emit (.hostWrite (b.ringDesc false r) back)).when (st != 0) (fun b => b.inc PCI_CNT_H2D_ERR.all)
      { b.ringBack false r with bdr := { (b.ringBack false r).bdr with rr := r } })

/-! ### Ethernet ingress (R418–R421) -/

/-- The TCI of a tagged frame. -/
def frameTci (f : List Byte) : Option Nat := if slice f 12 2 = [0x81, 0x00] then some (beNat (slice f 14 2)) else none

/-- A port accepts a frame (R419). -/
def Block.ethAccepts (b : Block) (n : Nat) (f : List Byte) : Bool :=
  b.bit ETH_CTL.PROMISC n
    || ((bitOf (leAt f 0 1) 0 || slice f 0 6 == b.ethMac n)
        && (match frameTci f with
            | some t => b.bit ETH_VLAN.TAG_EN n && t % 4096 == b.rd ETH_VLAN.VID n
            | none => !b.bit ETH_VLAN.TAG_EN n))

/-- No posted descriptor: the frame is dropped and counted (R420). -/
def Block.ethNoDesc (b : Block) (n : Nat) : Block := (b.inc ETH_CNT_RX_NODESC.all n).set ETH_EVT.RX_DROP n

/-- An Ethernet frame arrives on port `n` (without its FCS, `fcsOk` whether it was right; `t` the port's replica of HTIME at its first bit): it is
filtered, stamped and classified. -/
def execEthFrameReceive (n : Nat) (frame : List Byte) (fcsOk : Bool) (t : DWord) (desc : D2hDesc) (s : State) : Out := runCmd s (fun b =>
  let n := n % 2
  let tci := frameTci frame
  let at' := if tci.isSome then 16 else 12
  let ty := beNat (slice frame at' 2)
  if !b.bit ETH_STAT.LINK_UP n then b
  else if !fcsOk || decide (b.rd ETH_MAXLEN.LEN n < frame.length + 4) || ty == 0x8808 then b.inc ETH_CNT_RX_BAD.all n
  else if !b.ethAccepts n frame then b.inc ETH_CNT_RX_FILT.all n
  else
    let b := b.inc ETH_CNT_RX_OK.all n
    let ts := (t - BitVec.ofNat 64 (b.rd ETH_TS_DLY.RX_DLY n)).toNat
    let f : D2hFrom := { origin := 128 + n, tci := tci, ts := ts }
    let l := frame.drop (at' + 2)
    let p := b.ip6Pad (l.take (40 + beNat (slice l 4 2)))
    let put : Block → Fwd → Option Block := fun b x => match x with
      | .exc r => some ((b.d2hPut (b.rd ETH_EXC.EXC_RING n) dkETH 0 r f frame desc).getD (b.ethNoDesc n))
      | .host r => some ((b.d2hPut r dkIPV6 0 rsNONE f (ip6Dec p) desc).getD (b.ethNoDesc n))
      | _ => some b
    let da := ip6Dst p
    let local' := bitOf (leAt frame 0 1) 0 || leAt da 0 1 == 0xFF || (leAt da 0 1 == 0xFE && leAt da 1 1 / 64 == 2)
    let done := if ty ≠ 0x86DD then b.fwdDo (.exc rsNOT_IPV6) p put
      else if local' then b.fwdDo (.exc rsLOCAL) p put
      else b.took.downlink p put
    done.getD b)

/-- A port's link comes up: an enabled port of a valid MODE (R418, R432). -/
def execEthLinkUp (n : Nat) (s : State) : Out := runCmd s (fun b =>
  let n := n % 2
  if !b.bit ETH_CTL.EN n || b.rd ETH_CTL.MODE n == 3 then b
  else (((b.set ETH_STAT.LINK_UP n).set ETH_STAT.BLOCK_LOCK n).flag ETH_STAT.FEC_LOCK (b.rd ETH_CTL.MODE n == 1) n).set ETH_EVT.LINK_UP n)

/-- A port's link goes down (R432). -/
def Block.ethDown (b : Block) (n : Nat) : Block :=
  (b.setReg (ETH_STAT.all.off n) 0).when (b.bit ETH_STAT.LINK_UP n) (fun b => b.set ETH_EVT.LINK_DOWN n)
def execEthLinkDown (n : Nat) (s : State) : Out := runCmd s (fun b => b.ethDown (n % 2))

/-! ### Up queues (R415–R417, R428) -/

/-- The item at the head of queue `q`. -/
def Block.qHead (b : Block) (q : Nat) : Option QItem := if b.qEnabled q then (b.queue q).items.head? else none

/-- The TOA of an item (R381); free where it is too short to hold one. -/
def Block.itemToa (b : Block) (l : List Byte) : Nat := if 16 ≤ l.length then leAt l 8 8 else b.freeNat

/-- The DMA reader takes an item of a HOST queue (R415–R417); `cut` is whether the queue's EN was cleared during the read. A read that resets the queue is
abandoned in the same way (R391). -/
def execUpqHostRead (q : Nat) (cut : Bool) (desc : D2hDesc) (s : State) : Out := runCmd s (fun b =>
  let q := q % 128
  let r := b.rd BGH_UQ.RING q
  if b.rd BGH_UQ.MODE q ≠ 1 then b
  else if cut && !b.bit PLQ_CFG.EN q then
    (b.took.d2hPut r dkITEM 1 0 { origin := q, tci := none, ts := b.freeNat } [] desc).getD b
  else
    match b.qHead q with
    | none => b
    | some _ =>
      if !b.ringReady true r then b
      else
        let x := b.qRemove q true
        match x.1 with
        | none => (x.2.took.d2hPut r dkITEM 1 0 { origin := q, tci := none, ts := b.freeNat } [] desc).getD x.2
        | some i =>
          let f : D2hFrom := { origin := q, tci := none, ts := b.itemToa i.read }
          (x.2.took.d2hPut r dkITEM (if i.poison.isEmpty then 0 else 2) 0 f i.read desc).getD x.2)

/-- A steward core takes an item of a STEWARD queue, marked where it is poisoned, or is told that the queue was disabled (R415, R417). -/
def execUpqStewardRead (q : Nat) (cut : Bool) (s : State) : Out := runCmd s (fun b =>
  let q := q % 128
  if b.rd BGH_UQ.MODE q ≠ 3 then b
  else if cut && !b.bit PLQ_CFG.EN q then b.emit (.steward [] true)
  else
    match b.qHead q with
    | none => b
    | some _ =>
      let x := b.qRemove q true
      match x.1 with
      | none => x.2.emit (.steward [] true)
      | some i => x.2.emit (.steward i.read (!i.poison.isEmpty)))

/-- A bit that must be zero is set in an item's header, or PLEN is not the item length − 16 (R381, R428). -/
def itemBad (l : List Byte) : Bool :=
  decide (l.length < 16) || leAt l 6 2 + 16 != l.length || leAt l 0 4 / 2 ^ 28 != 0 || leAt l 4 1 / 8 != 0 || leAt l 5 1 / 2 != 0

/-- The decision on an item (R428): the outcome, the packet, and whether a lookup was made. -/
def Block.itemDecide (b : Block) (l : List Byte) : Fwd × List Byte × Bool :=
  let src := leAt l 0 4
  if itemBad l then (.exc rsFORMAT, [], false)
  else if leAt l 4 1 % 8 ≠ 0 then (.exc rsNOT_IPHC, [], false)
  else
    match b.decompress src (l.drop 16) with
    | none => (.exc rsIPHC_UNSUP, [], false)
    | some p =>
      let sa := ip6Src p
      if b.bit BGH_CFG.SRC_CHECK && sa != linkLocal src && sa != b.ctx0 ++ iidOf src then (.exc rsSRC_CHECK, p, false)
      else if ip6Hlim p ≤ 1 then (.exc rsHLIM, p, false)
      else if !b.bit BGH_CTL.EN then (.exc rsDISABLED, p, false)
      else (b.fwdRoute (ip6Dec p), ip6Dec p, true)

/-- The destination of a decision can accept (R416). -/
def Block.fwdFree (b : Block) (q : Nat) : Fwd → Bool
  | .exc _ => b.ringReady true (b.rd BGH_UQ.RING q)
  | .host r => b.ringReady true r
  | .eth n _ => b.bit ETH_STAT.LINK_UP n
  | _ => true

/-- The decompressor takes the head item of an IPHC queue (R416, R417, R428). -/
def execDecompressItem (q : Nat) (desc : D2hDesc) (s : State) : Out := runCmd s (fun b =>
  let q := q % 128
  if b.rd BGH_UQ.MODE q ≠ 2 then b
  else
    match b.qHead q with
    | none => b
    | some _ =>
      let h := (((b.qTouch q).queue q).items.headD { bytes := [], poison := [] })
      let d := b.itemDecide h.read
      if h.poison.isEmpty && !b.fwdFree q d.1 then b
      else
        let x := b.qRemove q true
        let b := x.2
        match x.1 with
        | none => b
        | some i =>
          if !i.poison.isEmpty then (b.inc BGH_CNT_POISON.all).set BGH_EVT.POISON
          else
            let b := b.when d.2.2 (fun b => b.fwdLook d.2.1)
            let f : D2hFrom := { origin := q, tci := none, ts := b.itemToa i.read }
            (b.took.fwdDo d.1 d.2.1 (fun b y => match y with
              | .exc r => b.d2hPut (b.rd BGH_UQ.RING q) dkITEM 0 r f i.read desc
              | .host r => b.d2hPut r dkIPV6 0 rsNONE f d.2.1 desc
              | _ => some b)).getD b)

/-! ### Downlink packets of the Canopy (R459) -/

/-- A DL_PKT message is delivered: it resumes at the Grove test or goes to the shaper, or is dropped where it is for another device. -/
def execDlPktReceive (body : List Byte) (desc : D2hDesc) (s : State) : Out := runCmd s (fun b =>
  let a := leAt body 0 4 % 2 ^ 28
  let l := body.drop 8
  if homeOf a ≠ b.rd CNP_STAT.POS then (b.inc CNP_CNT_DROP.all).set CNP_EVT.MSG_DROP
  else if leAt body 4 1 = 1 then b.shpAdmit (leAt l 0 4 % 2 ^ 28) (leAt l 6 1) (leAt l 4 2) (l.drop 8)
  else
    let p := b.ip6Pad l
    let f : D2hFrom := { origin := 130, tci := none, ts := b.freeNat }
    ((b.fwdSeen a).took.fwdDo (b.fwdNode a p) p (fun b x => match x with
      | .exc r => some ((b.d2hPut (b.rd BGH_CFG.EXC_RING) dkIPV6 0 r f p desc).getD b)
      | _ => some b)).getD b)

end Sys2Proof.Machine
end

