-- ==== Sys2Proof/Machine/Mas.lean ====
section
/-! DEFINITION. The MAC assists (R208–R243): the seen cache, the announcement table and the beacon builder. -/

namespace Sys2Proof.Machine

/-! ### The seen cache (R231) -/

/-- The set of a key. -/
def seenSet (origin fseq : Nat) : Nat :=
  (origin % 8192) ^^^ (origin / 2 ^ 13 % 8192) ^^^ (fseq % 8192) ^^^ (origin / 2 ^ 26 % 4 * 8 + fseq / 2 ^ 13 % 8)

/-- The entry has expired: LIFETIME seconds have passed since its insertion. -/
def Block.seenExpired (b : Block) (e : SeenE) : Bool :=
  decide (e.since.toNat + b.rd MAS_SEEN_CFG.LIFETIME * 2 ^ 32 ≤ b.clk.htime.toNat)

/-- A lookup, which inserts on a miss unless `noins` (R231, R305): the HIT answer and the block after it. During a flush every lookup misses. -/
def Block.seenLookup (b : Block) (origin fseq : Nat) (noins : Bool) : Bool × Block :=
  let s := seenSet origin fseq * 8
  let ways := (List.range 8).map (fun w => (s + w, Tbl.find b.mas.seen (s + w)))
  let hit := !b.bit MAS_CTL.SEEN_FLUSH && ways.any (fun x => match x.2 with
    | some e => e.origin == origin && e.fseq == fseq && !b.seenExpired e
    | none => false)
  if hit then (true, b.inc MAS_CNT_SEEN_HIT.all)
  else
    let b := b.inc MAS_CNT_SEEN_MISS.all
    if noins then (false, b)
    else
      let put (b : Block) (k : Nat) : Block :=
        let b := { b with mas := { b.mas with seen := Tbl.insert b.mas.seen k { origin := origin, fseq := fseq, since := b.clk.htime } } }
        b.wr MAS_SEEN_ST.VALID b.mas.seen.length
      match ways.find? (fun x => x.2.isNone) with
      | some x => (false, put b x.1)
      | none =>
        match ways.foldl (fun m x => match x.2 with
            | some e => (match m with | some (y : Nat × SeenE) => if e.since.toNat < y.2.since.toNat then some (x.1, e) else some y | none => some (x.1, e))
            | none => m) none with
        | some (k, e) =>
          (false, (put b k).when (!b.seenExpired e) (fun b => (b.inc MAS_CNT_SEEN_EVICT.all).set MAS_EVT.SEEN_EVICT))
        | none => (false, b)

/-- A write of SEEN_FLUSH empties the seen cache; entries inserted from then on survive (R231). -/
def Block.seenFlush (b : Block) : Block :=
  ({ b with mas := { b.mas with seen := [] } }.wr MAS_SEEN_ST.VALID 0).set MAS_CTL.SEEN_FLUSH
def execSeenFlush (s : State) : Out := runCmd s Block.seenFlush

/-- The flush completes, within 8,192 CORE_CLK cycles: its bit reads 0 (R231). -/
def execSeenFlushDone (s : State) : Out := runCmd s (fun b => b.clr MAS_CTL.SEEN_FLUSH)

/-! ### Beacons (R207–R210) -/

/-- ST values of HOOP_EPOCH_ST (R69). -/
def epIDLE : Nat := 0
def epVALIDATING : Nat := 1
def epARMED : Nat := 2
def epHELD : Nat := 3

/-- ACT_SF (R68). -/
def Block.actSf (b : Block) : Nat := (b.reg HOOP_ACT_SF.all.base).toNat

/-- The pending epoch will be active in superframe `s` (R208). -/
def Block.epochIn (b : Block) (s : Nat) : Bool := b.rd HOOP_EPOCH_ST.ST == epARMED && b.actSf == s % 2 ^ 32

/-- The announcements carried, and the table after it (R210). -/
def Block.announce (b : Block) : List Byte × Block :=
  (List.range 8).foldl (fun (x : List Byte × Block) n =>
    let b := x.2
    if !b.bit MAS_ANN_CTL.EN n then x
    else
      let e := leBytes 1 (b.rd MAS_ANN_CTL.KIND n) ++ leBytes 4 (b.reg (MAS_ANN_D0.all.off n)).toNat ++ leBytes 3 (b.reg (MAS_ANN_D1.all.off n)).toNat
      let r := b.rd MAS_ANN_CTL.REPEAT n
      let b := if r = 0 then b else if r = 1 then ((b.wr MAS_ANN_CTL.REPEAT 0 n).clr MAS_ANN_CTL.EN n).set MAS_EVT.ANN_DONE
        else b.wr MAS_ANN_CTL.REPEAT (r - 1) n
      (x.1 ++ e, b)) ([], b)

/-- Bytes 0 to 29 of the beacon of superframe `s` with `nann` announcements (R123, R208, R237). -/
def Block.beaconHead (b : Block) (s nann : Nat) : List Byte :=
  let now := b.epochIn s
  let ep := if now then b.rd HOOP_EPOCH_PEND.EPOCH else b.rd HOOP_EPOCH_ACT.EPOCH
  let dig := if now then b.hoop.warp.digPend.take 4 else b.digestAct.take 4
  let h := if now then b.rd HOOP_EPOCH_PEND.H else b.rd HOOP_EPOCH_ACT.H
  let ofs := if now then b.rd MAS_BCN_CTL.SEQ_OFS_PEND else b.rd MAS_BCN_CTL.SEQ_OFS
  let pend := b.rd HOOP_EPOCH_ST.ST == epARMED && decide (s % 2 ^ 32 < b.actSf)
  leBytes 1 0 ++ leBytes 6 (s % 2 ^ 32) ++ leBytes 4 (b.reg MAS_DOMAIN_ID.all.base).toNat
    ++ leBytes 1 (ofs * 16 + (b.rd CNP_STAT.MASTER) * 8 + b.rd CNP_STAT.POS) ++ leBytes 2 ep ++ dig
    ++ leBytes 1 (h * 16 + pend.toNat * 8 + b.rd HOOP_STATE.TQ)
    ++ (if pend then leBytes 2 (b.rd HOOP_EPOCH_PEND.EPOCH) ++ leBytes 4 b.actSf ++ b.hoop.warp.digPend.take 4 else List.replicate 10 0)
    ++ leBytes 1 nann

/-- The channels of band `n` that carry a beacon: an SF_CODE of 7 disables them (R209, R242). -/
def Block.beaconChannels (b : Block) (n : Nat) : List Nat :=
  if b.rd MAS_BCN_BAND.SF_CODE n = 7 then []
  else (if b.bit MAS_BCN_CH.EN0 n then [b.rd MAS_BCN_CH.CH0 n] else []) ++ (if b.bit MAS_BCN_CH.EN1 n then [b.rd MAS_BCN_CH.CH1 n] else [])

/-- Every beacon transmission of a superframe, in ascending band, CH0 before CH1. -/
def Block.beaconAll (b : Block) : List (Nat × Nat) := (List.range 8).flatMap (fun n => (b.beaconChannels n).map (fun c => (n, c)))

/-- One channel's beacon is armed, or lost with its status kept (R209). -/
def Block.beaconArm (b : Block) (frame : List Byte) (s : Nat) (nc : Nat × Nat) : Block :=
  let a : TxAsk := { owner := .beacon, ports := b.rd MAS_BCN_BAND.TX_PORTS nc.1, band := nc.1, ch := nc.2, sfc := b.rd MAS_BCN_BAND.SF_CODE nc.1,
                     mod := 0, code := 0, frame := .bytes tyBEACON frame, t1 := htAt s 0, atten := b.rd MAS_BCN_BAND.ATTEN nc.1 }
  match b.txArm a b.clk.htime with
  | (0, _, b) => b
  | (st, _, b) => (((b.wr MAS_BCN_ST.TXSTAT st).wr MAS_BCN_ST.RESULT 2).inc MAS_CNT_BCN_LOST.all).set MAS_EVT.BCN_REFUSED

/-- The beacon of superframe `s` is prepared (R208–R210): withheld under R58, without its key, or built, sealed and armed on every channel. -/
def Block.beaconPrepare (b : Block) (s : Nat) : Block :=
  if !b.bit MAS_CTL.BCN_EN then b
  else
    let n := b.beaconAll.length
    let tq := b.rd HOOP_STATE.TQ
    let (ann, b) := b.announce
    let lost (b : Block) (res : Nat) (f : Fld) : Block := ((b.wr MAS_BCN_ST.RESULT res).incBy MAS_CNT_BCN_LOST.all n).set f
    if (tq == 5 || tq == 7) && !b.bit HOOP_CTL.BCN_OVR then lost b 1 MAS_EVT.BCN_WITHHELD
    else
      let half := (b.slot (b.rd MAS_BCN_CTL.BKSLOT)).halfFor s b.clk.beat
      if !b.hwdNormal || half.typ != 1 || !half.allows mkFC then lost b 3 MAS_EVT.BCN_KEY_FAIL
      else
        let nann := ann.length / 8
        let body := b.beaconHead s nann ++ ann
        let hdr := tyBEACON + (42 + 8 * nann) * 4
        let nonce := leBytes 4 (b.rd CNP_STAT.POS * 2 ^ 25) ++ leBytes 4 s ++ [3] ++ leBytes 4 (b.reg MAS_DOMAIN_ID.all.base).toNat
        let mac := body ++ ccmTag half.key nonce (leBytes 2 hdr ++ body) []
        let frame := mac ++ leBytes 4 (crc32 mac)
        b.beaconAll.foldl (fun b x => b.beaconArm frame s x) b

/-- At the start of cell 255 the beacon of the next superframe is prepared (R208). -/
def execBeaconPrepare (s : State) : Out := runCmd s (fun b =>
  let b := b.toTime (htAt b.sf 0xFF000000)
  b.beaconPrepare (b.sf + 1))

/-- A beacon's transmission has posted its record (R209). -/
def Block.beaconPosted (b : Block) (res : Nat) : Block :=
  match res with
  | 0 => (b.wr MAS_BCN_ST.RESULT 0).inc MAS_CNT_BCN_SENT.all
  | 1 | 2 => ((b.wr MAS_BCN_ST.RESULT 4).inc MAS_CNT_BCN_LOST.all).set MAS_EVT.BCN_CLEARED
  | _ => b

end Sys2Proof.Machine
end

