-- ==== Sys2Proof/Machine/HoopCore.lean ====
section
/-! DEFINITION. The Hoop's parts (R45–R82): lock states and measurements, steps, descriptors and strobes, epochs, checkpoints. -/

namespace Sys2Proof.Machine

/-! ### Lock states (R49–R57) -/

def lkUNLOCKED : Nat := 0
def lkACQUIRING : Nat := 1
def lkLOCKED : Nat := 2
def lkHOLDOVER : Nat := 3

def psNONE : Nat := 0
def psPPS : Nat := 1
def psPTP : Nat := 2
def psCANOPY : Nat := 3

def Block.lock (b : Block) : Nat := b.rd HOOP_STATE.LOCK
def Block.setSync (b : Block) (s : HoopSync) : Block := { b with hoop := { b.hoop with sync := s } }
def Block.setRed (b : Block) (r : HoopRed) : Block := { b with hoop := { b.hoop with red := r } }
def Block.setWarp (b : Block) (w : HoopWarp) : Block := { b with hoop := { b.hoop with warp := w } }
def Block.setRate (b : Block) (r : Int) : Block := { b with clk := { b.clk with rate := r } }

/-- No copy of the Hoop drives the outputs: a switchover gap, or both paths lost with no standby (R78, R82). HTIME goes on at the last rate, and
nothing the Hoop does takes place. -/
def Block.hoopDown (b : Block) : Bool := b.hoop.red.gap || b.hoop.red.dead

/-- What a copy of the Hoop does, while one drives the outputs. -/
def Block.ifHoop (b : Block) (f : Block → Block) : Block := b.when (!b.hoopDown) f

/-- The phase source in force (R446): under CANOPY the master measures MSRC. -/
def Block.phaseSource (b : Block) : Nat :=
  let p := b.rd HOOP_CTL.PSRC
  if p = psCANOPY ∧ b.bit CNP_STAT.MASTER = true then b.rd CNP_CTL.MSRC else p

/-- A rate correction within ±10 ppm (R52), in parts in 10^12. -/
def clampRate (m : Nat) (r : Int) : Int := max (-(m : Int)) (min (m : Int) r)
def ppm10 : Nat := 10 ^ 7

/-- Time quality (R57, R446). -/
def Block.tqNow (b : Block) : Nat :=
  if b.lock = lkLOCKED then
    let p := b.phaseSource
    if p = psPTP then 1 else if p = psCANOPY then (if b.cnp.mtq ≤ 2 then 2 else b.cnp.mtq) else 0
  else if b.lock = lkHOLDOVER then
    if b.clk.htime.toNat ≤ b.hoop.sync.holdStart.toNat + 60 * 2 ^ 32 then 3 else 4
  else if b.lock = lkACQUIRING then 5 else 7

/-- TQ follows. It is settled when LOCK changes and at each cell boundary (DESIGN CHOICE, log entry 51: R57 does not say how the 60 superframes of
HOLD_SHORT are counted; they count from the HTIME at which HOLDOVER began). -/
def Block.tqShow (b : Block) : Block := b.wr HOOP_STATE.TQ b.tqNow

/-- LOCK takes another value, which sets LOCK_CHG (R56). -/
def Block.lockTo (b : Block) (new : Nat) : Block :=
  if b.lock = new then b
  else
    let b := (b.wr HOOP_STATE.LOCK new).set HOOP_EVT.LOCK_CHG
    { b with hoop := { b.hoop with lockLog := (b.clk.htime, new) :: b.hoop.lockLog } }

/-- LOCK changes (R52, R55, R56): LOCK_CHG sets and the runs restart; HOLDOVER begins at the held rate; the first LOCKED starts the time of
R456. -/
def Block.setLock (b : Block) (new : Nat) : Block :=
  if b.lock = new then b
  else
    let b := b.lockTo new
    let s := b.hoop.sync
    let s := { s with passRun := 0, failRun := 0, pendStep := if 2 ≤ new then none else s.pendStep,
                      holdStart := if new = lkHOLDOVER then b.clk.htime else s.holdStart }
    let b := b.setSync s
    let b := b.when (new == lkHOLDOVER) (fun b => b.setRate (clampRate ppm10 s.integ))
    let b := b.when (new == lkLOCKED && b.bit CNP_CTL.EN && b.cnp.sealFrom.isNone) (fun b =>
      { b with cnp := { b.cnp with sealFrom := some (b.sf + 2) } })
    b.tqShow

/-- The greatest rate correction of a state of LOCK: ±10 ppm when LOCKED or in HOLDOVER (R52), else what keeps HTIME rising. -/
def Block.rateMax (b : Block) : Nat := if lkLOCKED ≤ b.lock then ppm10 else 10 ^ 12 - 1

/-- The rate in force without its proportional slew (R54): the integral term within its bounds; with no phase source there is no slew (R49). -/
def Block.unslewed (b : Block) : Int := if b.phaseSource = psNONE then b.clk.rate else clampRate b.rateMax b.hoop.sync.integ

/-- The phase source or REFCLK is lost (R54, R56): a run of passing measurements does not go on over it. -/
def Block.srcLost (b : Block) : Block :=
  let b := b.setSync { b.hoop.sync with passRun := 0 }
  if b.lock = lkLOCKED then b.setLock lkHOLDOVER
  else if b.lock = lkACQUIRING then b.setLock lkUNLOCKED
  else b

/-- A phase error within LOCK_THR, and one above STEP_THR (R53, R56, R83). -/
def Block.errPasses (b : Block) (e : Int) : Bool := decide (e.natAbs * 10 ^ 9 ≤ b.rd HOOP_SYNC_CFG.LOCK_THR * 2 ^ 32)
def Block.errBig (b : Block) (e : Int) : Bool := decide (max 1 (b.rd HOOP_SYNC_CFG.STEP_THR) * 2 ^ 32 < e.natAbs * 10 ^ 6)

/-- The servo after a measurement outside HOLDOVER (R52): its gains are not given, so the integral term and the rate are free (log entry 2),
the rate within ±10 ppm when LOCKED. -/
def Block.servo (b : Block) : Block :=
  let i := b.freeInt
  let b := b.took
  let r := clampRate b.rateMax b.freeInt
  let b := b.took
  ((b.setSync { b.hoop.sync with integ := i }).setRate r).wr HOOP_FREQ_ERR.all (unsigned 32 i)

/-- A measurement of the phase error `e` = HTIME − reference (R50–R56). With REF_OK 0 the source counts as lost; while no copy of the Hoop runs
the rate stays the last published one (R48, R82). -/
def Block.measure (b : Block) (e : Int) : Block := b.ifHoop fun b =>
  let b := b.wr HOOP_PHASE_ERR.all (unsigned 32 (satSym 32 e))
  if !b.bit HOOP_STATE.REF_OK then b
  else
    let was := b.lock
    let pass := b.errPasses e
    let b := b.when (was == lkUNLOCKED) (fun b => b.setLock lkACQUIRING)
    let s := b.hoop.sync
    let run := if was = lkLOCKED then 0 else if pass then s.passRun + 1 else 0
    let fails := if was = lkLOCKED ∧ b.errBig e = true then s.failRun + 1 else 0
    let step := if was ≤ lkACQUIRING ∧ b.bit HOOP_CTL.STEP_EN = true ∧ b.errBig e = true then some e else s.pendStep
    let b := b.setSync { s with passRun := run, failRun := fails, pendStep := step }
    let b := if 8 ≤ run then b.setLock lkLOCKED else if 3 ≤ fails then b.setLock lkACQUIRING else b
    if was = lkHOLDOVER then b else b.servo

/-- With PSRC NONE, HTIME free-runs at the REFCLK rate (R49), once REFCLK is there (R54). -/
def Block.freeRun (b : Block) : Block := b.when (b.rd HOOP_CTL.PSRC == psNONE && b.bit HOOP_STATE.REF_OK && !b.hoopDown) (fun b => b.setRate 0)

/-- LOCK is UNLOCKED after a write that changes PSRC (R56); a change to PPS_IN ends every acceptance window (R50), and under NONE HTIME
free-runs (R49). -/
def Block.psrcChanged (b : Block) : Block :=
  let b := b.setLock lkUNLOCKED
  let s := b.hoop.sync
  let pps := b.rd HOOP_CTL.PSRC == psPPS
  (b.setSync { s with passRun := 0, failRun := 0, pendStep := none, ppsLast := if pps then none else s.ppsLast,
                      ppsClosed := if pps then 0 else s.ppsClosed }).freeRun

/-! ### Descriptors and strobes (R59–R66) -/

/-- A field of a descriptor word of a bank. -/
def Block.dsc (b : Block) (bank idx word hi lo : Nat) : Nat := bitsOf (b.warpWord bank idx word).toNat hi lo

/-- The warp bank and count for superframe `s` (R64, R73): those pending from ACT_SF of an armed epoch on, when SWAP bit 0 is set. -/
def Block.swapsFor (b : Block) (s bit : Nat) : Bool :=
  b.rd HOOP_EPOCH_ST.ST == epARMED && decide (b.actSf ≤ s) && bitOf (b.rd HOOP_EPOCH_PEND.SWAP) bit
def Block.bankFor (b : Block) (s : Nat) : Nat := if b.swapsFor s 0 then 1 - b.hoop.warp.bank else b.hoop.warp.bank
def Block.countFor (b : Block) (s : Nat) : Nat :=
  if b.swapsFor s 0 then b.rd HOOP_WARP_COUNT.COUNT else b.rd HOOP_WARP_ACT_COUNT.COUNT

/-- A descriptor is occupied in superframe `s` (R61). -/
def Block.occupied (b : Block) (bank idx s : Nat) : Bool :=
  bitOf (b.warpWord bank idx 0).toNat 31 && s % 2 ^ b.dsc bank idx 2 15 12 == b.dsc bank idx 2 27 16

/-- The start of a descriptor's slot in superframe `s`, and its T_s (R61, R64). -/
def Block.slotStart (b : Block) (bank idx s : Nat) : Nat := s * 2 ^ 32 + b.dsc bank idx 0 7 0 * 2 ^ 24
def Block.strobeTime (b : Block) (bank idx s : Nat) : Nat := b.slotStart bank idx s - b.dsc bank idx 6 23 0

/-- The group entry of a descriptor for superframe `s` as DRAM holds it (R62): poisoned or beyond installed DRAM it is in error, and that access is
logged. -/
def Block.groupFetch (b : Block) (bank idx s : Nat) : GroupEntry × Block :=
  let a := (b.warpWord bank idx 3).toNat * 64 + 4 * (s % max 1 (b.dsc bank idx 4 24 0))
  if b.dramSize ≤ a then ({ idx := idx, sf := s, word := 0, err := true }, b.accessErr reqHoop 3 a)
  else
    let b := b.dramTouch a 4
    if b.dramPoisoned a 4 then ({ idx := idx, sf := s, word := 0, err := true }, b)
    else ({ idx := idx, sf := s, word := BitVec.ofNat 32 (b.dramLe a 4), err := false }, b)

/-- The group entry read for a descriptor and a superframe. -/
def Block.groupOf (b : Block) (idx s : Nat) : Option GroupEntry := b.hoop.warp.groups.find? (fun g => g.idx == idx && g.sf == s)

/-- A group entry is kept in place of an older one. -/
def Block.groupKeep (b : Block) (g : GroupEntry) : Block :=
  b.setWarp { b.hoop.warp with groups := b.hoop.warp.groups.filter (fun x => !(x.idx == g.idx && x.sf == g.sf)) ++ [g] }

/-- The HOOP cycle (2 ns) in which time `t` falls, counted from internal reset release (R65). HOOP cycles 2n and 2n + 1 are the two of beat n
(DESIGN CHOICE, log entry 51: R571 gives HOOP_CLK and CORE_CLK no known phase). -/
def Clk.cycleOf (c : Clk) (t : Nat) : Nat :=
  let n := max 1 (htNum c.rate)
  if c.htime.toNat < t then 2 * c.beat + ceilDiv (2 * ((t - c.htime.toNat) * htDen - c.frac)) n
  else 2 * c.beat - 2 * ((c.htime.toNat - t) * htDen + c.frac) / n

/-- A strobe leaves in a HOOP cycle (R65, R66, R75): counted, journalled, driven and dispatched to its engine in the bank its slot calls for. Its
first instruction comes 5 beats after the beat of that cycle (R28). -/
def Block.strobeIssue (b : Block) (st : Strobe) (cycle : Nat) : Block :=
  let w := b.hoop.warp
  let b := b.setWarp { w with nextCycle := cycle + 1 }
  let b := b.setRed { b.hoop.red with journal := b.hoop.red.journal ++ [(st.idx, st.sf)] }
  let b := b.when (st.slip != 0) (fun b => (b.set HOOP_EVT.SLIP).maxTo HOOP_SLIP_MAX.all st.slip)
  let b := b.when st.grperr (fun b => b.set HOOP_EVT.GROUP_ERR)
  let b := b.when st.late (fun b => (b.inc HOOP_LATE_CNT.all).set HOOP_EVT.LATE)
  let e := b.engine st.engine
  let ib := if b.swapsFor st.sf 1 && bitOf (b.reg WFT_SWAP_EN.all.base).toNat st.engine then 1 - e.bank else e.bankFor st.sf
  (b.emit (.strobe st)).dispatch st ib (cycle / 2)

/-- Strobes that a forward step passes over in [t0, t1) (R53), counted by descriptor: the occupied superframes whose T_s lies in the interval. -/
def Block.strobesPassed (b : Block) (t0 t1 : Nat) : Nat :=
  let count (bank n lo hi : Nat) : Nat := (List.range n).foldl (fun a i =>
    if !bitOf (b.warpWord bank i 0).toNat 31 then a
    else
      let m := 2 ^ b.dsc bank i 2 15 12
      let ph := b.dsc bank i 2 27 16
      let off := b.dsc bank i 0 7 0 * 2 ^ 24
      let lead := b.dsc bank i 6 23 0
      -- superframes s in [lo, hi) with t0 ≤ s·2^32 + off − lead < t1 and s ≡ ph
      let below (t : Nat) : Nat := ceilDiv (t + lead - off) (2 ^ 32)
      let x := max lo (below t0)
      let y := min hi (below t1)
      let upto (k : Nat) : Nat := if m ≤ ph then 0 else (k + m - 1 - ph) / m
      a + (upto y - upto x)) 0
  let act := b.actSf
  if b.rd HOOP_EPOCH_ST.ST = epARMED then
    count (b.bankFor 0) (b.countFor 0) 0 act + count (b.bankFor act) (b.countFor act) act (2 ^ 32)
  else count b.hoop.warp.bank (b.rd HOOP_WARP_ACT_COUNT.COUNT) 0 (2 ^ 32)

/-! ### Epochs (R67–R74) -/

def epREFUSED : Nat := 4

/-- The first descriptor below `n` of a bank that fails the test of R69, with the H of HOOP_EPOCH_PEND. -/
def Block.badDesc (b : Block) (bank n h : Nat) : Option Nat := (List.range n).find? (fun i =>
  let f := b.dsc bank i
  let k := f 2 15 12
  bitOf (b.warpWord bank i 0).toNat 31
    && (f 0 24 22 == 7 || decide (255 < f 0 7 0 + f 0 15 8) || decide (12 < k) || decide (h < k) || decide (2 ^ k ≤ f 2 27 16)
      || (f 2 11 11 == 1 && f 4 24 0 == 0) || f 2 31 28 != 0 || (f 2 11 11 == 0 && f 3 31 28 != 0) || f 4 31 25 != 0 || f 5 31 18 != 0
      || f 6 31 24 != 0))

/-- The pending CONFIG_DIGEST (R74, R189, R266): what will be active. -/
def Block.digestNext (b : Block) : List Byte :=
  let sw := b.rd HOOP_EPOCH_PEND.SWAP
  let bank := if bitOf sw 0 then 1 - b.hoop.warp.bank else b.hoop.warp.bank
  let n := if bitOf sw 0 then b.rd HOOP_WARP_COUNT.COUNT else b.rd HOOP_WARP_ACT_COUNT.COUNT
  let desc := (List.range (8 * n)).map (fun i => b.warpWord bank (i / 8) (i % 8))
  let code := (List.range 32).flatMap (fun e =>
    let eb := (b.engine e).bank
    let ib := if bitOf sw 1 && bitOf (b.reg WFT_SWAP_EN.all.base).toNat e then 1 - eb else eb
    (List.range 8192).map (b.iword e ib))
  let kept := b.bit TXC_CTL.DWELL_LOCK
  let image (f p : Fld) (bit k : Nat) : List (BitVec 32) := (List.range k).map (fun i => b.reg ((if bitOf sw bit && !kept then p else f).off i))
  configDigest (b.rd HOOP_EPOCH_PEND.EPOCH) (b.rd HOOP_EPOCH_PEND.H) desc code (image TXC_DWELL_ACT.all TXC_DWELL_PEND.all 2 512)
    (image TXC_REGION_ACT.all TXC_REGION_PEND.all 3 64)

/-- The epoch state with its REASON and BAD_INDEX. -/
def Block.epochState (b : Block) (st reason bad : Nat) : Block :=
  ((b.wr HOOP_EPOCH_ST.ST st).wr HOOP_EPOCH_ST.REASON reason).wr HOOP_EPOCH_ST.BAD_INDEX bad

/-- COMMIT reaches the Hoop (R69, R72). -/
def Block.epochCommit (b : Block) : Block :=
  let st := b.rd HOOP_EPOCH_ST.ST
  if st = epVALIDATING ∨ st = epARMED then b.set HOOP_EPOCH_ST.WR_IGN
  else (b.epochState epVALIDATING 0 0).setWarp { b.hoop.warp with commitSf := b.sf, frozen := false }

/-- CANCEL reaches the Hoop (R70, R72). -/
def Block.epochCancel (b : Block) : Block :=
  let st := b.rd HOOP_EPOCH_ST.ST
  if st = epIDLE ∨ (st = epARMED ∧ b.hoop.warp.frozen = true) then b else b.epochState epIDLE 0 0

/-- A write of HOOP_EPOCH_CTL (R72): CANCEL prevails. -/
def Block.epochCtl (b : Block) (v : BitVec 32) : Block :=
  if fget v HOOP_EPOCH_CTL.CANCEL = 1 then b.epochCancel
  else if fget v HOOP_EPOCH_CTL.COMMIT = 1 then b.epochCommit else b

/-- Validation ends (R69). One that ends in REFUSED leaves HOOP_DIGEST_PEND as it was (DESIGN CHOICE, log entry 51: R74 does not say). -/
def Block.epochValidated (b : Block) : Block := b.ifHoop fun b =>
  if b.rd HOOP_EPOCH_ST.ST ≠ epVALIDATING then b
  else
    let sw0 := bitOf (b.rd HOOP_EPOCH_PEND.SWAP) 0
    let h := b.rd HOOP_EPOCH_PEND.H
    let n := if sw0 then b.rd HOOP_WARP_COUNT.COUNT else b.rd HOOP_WARP_ACT_COUNT.COUNT
    let bank := if sw0 then 1 - b.hoop.warp.bank else b.hoop.warp.bank
    let refuse (r bad : Nat) : Block := (b.epochState epREFUSED r bad).set HOOP_EVT.EPOCH_REFUSED
    if sw0 && decide (131072 < n) then refuse 4 0
    else if 12 < h then refuse 6 0
    else if b.rd HOOP_EPOCH_PEND.EPOCH = b.rd HOOP_EPOCH_ACT.EPOCH then refuse 3 0
    else if b.actSf < b.hoop.warp.commitSf + 2 then refuse 2 0
    else
      match b.badDesc bank n h with
      | some i => refuse 1 i
      | none => (b.epochState epARMED 0 0).setWarp { b.hoop.warp with digPend := b.digestNext, frozen := false }

/-- The swapping engines' handovers at the freeze point (R268). -/
def Block.handovers (b : Block) (act : BitVec 64) : Block :=
  (List.range 32).foldl (fun (b : Block) n =>
    if !bitOf (b.reg WFT_SWAP_EN.all.base).toNat n then b
    else
      let b := b.onEngine n (fun e => { e with hovrOpen := true })
      let b := (List.range 4).foldl (fun (b : Block) s =>
        let k := 4 * n + s
        if !b.strandEn k then b
        else if (b.strand k).weave.isNone then b.hovrStart k act (b.clk.beat + 5)
        else b.onStrand k (fun x => { x with hovr := some act })) b
      b.hovrCheck n) b

/-- The epoch state as a checkpoint holds it (R76); the flag WR_IGN of HOOP_EPOCH_ST is software's. -/
def Block.epochCk (b : Block) : EpochCk :=
  { st := fput (b.reg HOOP_EPOCH_ST.all.base) HOOP_EPOCH_ST.WR_IGN 0, act := b.reg HOOP_EPOCH_ACT.all.base,
    count := b.reg HOOP_WARP_ACT_COUNT.all.base, bank := b.hoop.warp.bank, commitSf := b.hoop.warp.commitSf, frozen := b.hoop.warp.frozen,
    digAct := b.hoop.warp.digAct }

/-- The freeze and the activation take place at a cell boundary, so the checkpoint of that boundary holds the epoch state they leave (R76; log
entry 27). -/
def Block.ckptEpoch (b : Block) : Block :=
  let r := b.hoop.red
  let c := b.epochCk
  let on (x : Option Ckpt) : Option Ckpt := x.map (fun k => { k with epoch := c })
  b.setRed { r with ckptA := if r.ckptSel then r.ckptA else on r.ckptA, ckptB := if r.ckptSel then on r.ckptB else r.ckptB }

/-- The freeze point (R70, R71, R268, R347): held on a pending mismatch of this superframe or the one before under HOLD_EN, else frozen. -/
def Block.freezePoint (b : Block) : Block := b.ifHoop fun b =>
  if b.rd HOOP_EPOCH_ST.ST ≠ epARMED ∨ b.hoop.warp.frozen = true then b
  else
    let act := b.actSf
    let b := b.toTime (htAt (act - 1) 0xFF000000)
    let mm := match b.hoop.warp.pendMm with | some s => decide (act ≤ s + 2) | none => false
    if b.bit HOOP_CTL.HOLD_EN && mm then ((b.epochState epHELD 5 0).set HOOP_EVT.EPOCH_HELD).ckptEpoch
    else
      let b := (b.setWarp { b.hoop.warp with frozen := true }).ckptEpoch
      let b := b.slotDecideEpoch (b.rd HOOP_EPOCH_PEND.EPOCH) act
      b.when (bitOf (b.rd HOOP_EPOCH_PEND.SWAP) 1) (fun b => b.handovers (htAt act 0))

/-- An armed epoch activates at ACT_SF (R73, R241, R266, R347, R461, R525). HOOP_DIGEST_PEND stays as it was (DESIGN CHOICE, log entry 51: R74 does not
say what it reads then). -/
def Block.activate (b : Block) : Block := b.ifHoop fun b =>
  let b := b.freezePoint
  if b.rd HOOP_EPOCH_ST.ST ≠ epARMED then b
  else
    let act := b.actSf
    let b := b.toTime (htAt act 0)
    let sw := b.rd HOOP_EPOCH_PEND.SWAP
    let w := b.hoop.warp
    let b := b.when (bitOf sw 0) (fun b =>
      let n := b.rd HOOP_WARP_COUNT.COUNT
      let m := b.rd HOOP_WARP_ACT_COUNT.COUNT
      ((b.wr HOOP_WARP_COUNT.COUNT m).wr HOOP_WARP_ACT_COUNT.COUNT n).setWarp { w with bank := 1 - w.bank })
    let b := b.when (bitOf sw 1) (fun b => (List.range 32).foldl (fun (b : Block) n =>
      if bitOf (b.reg WFT_SWAP_EN.all.base).toNat n then b.onEngine n (fun e => { e with bank := 1 - e.bank, swapSf := act }) else b) b)
    let b := b.txcActivate (bitOf sw 2) (bitOf sw 3)
    let b := b.when (bitOf sw 3 && !b.bit TXC_CTL.DWELL_LOCK) Block.rxaRegion
    let b := (b.wr HOOP_EPOCH_ACT.H (b.rd HOOP_EPOCH_PEND.H)).wr HOOP_EPOCH_ACT.EPOCH (b.rd HOOP_EPOCH_PEND.EPOCH)
    let b := (b.epochState epIDLE 0 0).setWarp { b.hoop.warp with digAct := some b.hoop.warp.digPend, frozen := false }
    let b := b.ckptEpoch
    let ofs := b.rd MAS_BCN_CTL.SEQ_OFS_PEND
    let b := { b with mas := { b.mas with ofsOld := b.rd MAS_BCN_CTL.SEQ_OFS, ofsSf := act } }
    let b := b.when (ofs != b.rd MAS_BCN_CTL.SEQ_OFS) (fun b => (b.wr MAS_BCN_CTL.SEQ_OFS ofs).set MAS_EVT.SEQ_OFS_CHG)
    let b := (List.range 8).foldl (fun (b : Block) n =>
      (b.setReg (CNP_EXPA_LO.all.off n) (b.reg (CNP_EXPP_LO.all.off n))).setReg (CNP_EXPA_HI.all.off n) (b.reg (CNP_EXPP_HI.all.off n))) b
    let b := b.slotSwapAt act
    { b.set HOOP_EVT.EPOCH_ACT with ras := { b.ras with tchk := 0, tchkWait := true } }

/-! ### Checkpoints and the gap (R75–R78) -/

/-- The checkpoint of this instant (R76). -/
def Block.ckptNow (b : Block) : Ckpt :=
  { stamp := b.clk.beat, htime := b.clk.htime, frac := b.clk.frac, rate := b.clk.rate, integ := b.hoop.sync.integ, lock := b.lock,
    passRun := b.hoop.sync.passRun, failRun := b.hoop.sync.failRun, holdStart := b.hoop.sync.holdStart,
    epoch := b.epochCk, scan := b.hoop.warp.scan, groups := b.hoop.warp.groups }

/-- The Hoop at a cell boundary pulse: the scan position and group entries of the past let go, and a checkpoint into the other buffer, the journal
cleared, a rearmed copy ready (R76, R80). A copy that has stopped its heartbeats writes no checkpoint (R77). -/
def Block.hoopCell (b : Block) : Block :=
  let r := b.hoop.red
  let b := b.tqShow
  let b := b.setWarp { b.hoop.warp with groups := b.hoop.warp.groups.filter (fun g => decide (b.sf ≤ g.sf)), scan := b.clk.cell * 2 ^ 24 }
  if r.gap || r.dead || r.hbStop.isSome then b
  else
    let c := some b.ckptNow
    let b := b.setRed { r with ckptA := if r.ckptSel then c else r.ckptA, ckptB := if r.ckptSel then r.ckptB else c, ckptSel := !r.ckptSel,
                               journal := [], rearmed := false }
    b.when r.rearmed (fun b => b.wr HOOP_STATE.STBY 0)

/-- The number of the last heartbeat due by now, the first being 64 HOOP cycles after the count began (R77). -/
def Block.hbIndex (b : Block) : Nat := (2 * b.clk.beat - b.hoop.red.hbFrom) / 64

/-- The beat in which HOOP cycle `c` after the start of the heartbeat count falls. -/
def Block.hbCycle (b : Block) (c : Nat) : Nat := (b.hoop.red.hbFrom + c) / 2

/-- A heartbeat path. -/
def HoopRed.path (r : HoopRed) (pathY : Bool) : HbPath := if pathY then r.hbY else r.hbX

/-- How many heartbeats in a row a path had missed once heartbeat `k` was due, from the misses met on it. -/
def HbPath.runAt (h : HbPath) (k : Nat) : Nat := if h.last = k then h.run else 0

/-- How many heartbeats in a row a path has missed by now: those it met, and every one since the active copy stopped sending (R77). -/
def Block.hbRun (b : Block) (pathY : Bool) : Nat :=
  let r := b.hoop.red
  match r.hbStop with
  | some s => if s < b.hbIndex then (r.path pathY).runAt s + (b.hbIndex - s) else (r.path pathY).runAt b.hbIndex
  | none => (r.path pathY).runAt b.hbIndex

/-- The last heartbeat of a path was good (R83). -/
def Block.hbOk (b : Block) (pathY : Bool) : Bool := decide (1 ≤ b.hbIndex) && b.hbRun pathY == 0 && !b.hoopDown

/-- The beat in which failover is due (R78, R79): 264 HOOP cycles after the last good heartbeat, once both paths have missed 4, or will have since the
active copy sends none. -/
def Block.failoverDue (b : Block) : Option Nat :=
  let r := b.hoop.red
  match r.hbStop with
  | some s => some (b.hbCycle (64 * (s - min (r.hbX.runAt s) (r.hbY.runAt s)) + 264))
  | none =>
    let m := min (b.hbRun false) (b.hbRun true)
    if 4 ≤ m then some (b.hbCycle (64 * (b.hbIndex - m) + 264)) else none

/-- Failover starts (R78, R82): the outputs freeze for 1,024 cycles, or until reset when there is no standby. -/
def Block.failoverStart (b : Block) : Block :=
  let r := b.hoop.red
  if r.gap || r.dead then b
  else if b.rd HOOP_STATE.STBY = 3 then ((b.setRed { r with dead := true }).set HOOP_EVT.STBY_FAILED).logHoop 6
  else b.setRed { r with gap := true, gapEnd := b.clk.beat + 512, gapStrobes := [] }

end Sys2Proof.Machine
end

