-- ==== Sys2Proof/Machine/Hoop.lean ====
section
/-! DEFINITION. The commands of the Hoop (R45–R85). -/

namespace Sys2Proof.Machine

/-! ### Measurements (R50–R57) -/

/-- A PPS_IN edge stamped `t` (R50). -/
def execPpsEdge (t : DWord) (s : State) : Out := runCmd s (fun b => b.ifHoop fun b =>
  let b := b.toTime t
  let y := b.hoop.sync
  let half : Nat := 2 ^ 31
  let ok := match y.ppsLast with
    | none => true
    | some a =>
      let d := t.toNat - a.toNat
      let n := (d + half) / 2 ^ 32
      decide (4 ≤ y.ppsClosed) || (decide (1 ≤ n) && decide (((d : Int) - (n * 2 ^ 32 : Nat)).natAbs * 10 ^ 6 ≤ 2 ^ 32))
  if !ok then b
  else
    let b := (b.setSync { y with ppsLast := some t, ppsClosed := 0 }).set HOOP_STATE.PPS_OK
    let near : Nat := (t.toNat + half) / 2 ^ 32 * 2 ^ 32
    b.when (b.phaseSource == psPPS) (fun b => b.measure ((t.toNat : Int) - (near : Int))))

/-- An acceptance window closes without an accepted edge, at A + n s + 1 µs (R50, R56). -/
def execPpsWindowClose (s : State) : Out := runCmd s (fun b => b.ifHoop fun b =>
  let y := b.hoop.sync
  match y.ppsLast with
  | none => b
  | some a =>
    if 4 ≤ y.ppsClosed then b
    else
      let b := b.toTime (BitVec.ofNat 64 (a.toNat + (y.ppsClosed + 1) * 2 ^ 32 + ceilDiv (2 ^ 32) (10 ^ 6)))
      let b := (b.setSync { y with ppsClosed := y.ppsClosed + 1 }).clr HOOP_STATE.PPS_OK
      b.when (b.phaseSource == psPPS && decide (2 ≤ y.ppsClosed + 1)) Block.srcLost)

/-- A write of HOOP_PTP_OFS_HI submits a measurement (R51): discarded when its stamp is over 1 s old. -/
def Block.ptpSubmit (b : Block) (hi : BitVec 32) : Block :=
  let b := b.hiWrite HOOP_PTP_OFS_HI.all.base hi
  b.ifHoop fun b =>
  let ofs := signed 64 (b.rd64 HOOP_PTP_OFS_LO.all HOOP_PTP_OFS_HI.all)
  let stamp := (b.reg HOOP_PTP_STAMP_LO.all.base).toNat + (b.reg HOOP_PTP_STAMP_HI.all.base).toNat * 2 ^ 32
  if stamp + 2 ^ 32 < b.clk.htime.toNat then b.set HOOP_EVT.PTP_STALE
  else
    let b := (b.setSync { b.hoop.sync with ptpLast := some b.clk.htime }).set HOOP_STATE.PTP_OK
    b.when (b.phaseSource == psPTP) (fun b => b.measure (-ofs))
def execPtpSubmit (val : Word) (s : State) : Out := runCmd s (fun b => b.ptpSubmit val)

/-- No PTP measurement accepted for 4 s (R51). -/
def execPtpSourceLost (s : State) : Out := runCmd s (fun b => b.ifHoop fun b =>
  match b.hoop.sync.ptpLast with
  | none => b
  | some t =>
    let b := ((b.toTime (t + BitVec.ofNat 64 (4 * 2 ^ 32))).clr HOOP_STATE.PTP_OK)
    let b := b.setSync { b.hoop.sync with ptpLast := none }
    b.when (b.phaseSource == psPTP) Block.srcLost)

/-- REFCLK is lost (R54, R138): HTIME goes on at the last rate without proportional slew, the lock state as if the source were lost, and DSP_CLK
holds once it has run from REFCLK. -/
def execRefclkLoss (s : State) : Out := runCmd s (fun b =>
  if !b.bit HOOP_STATE.REF_OK then b
  else
    let b := ((b.clr HOOP_STATE.REF_OK).clr RXA_STAT.REFCLK_OK).ifHoop (fun b => (b.setRate b.unslewed).srcLost)
    b.when (b.bit PWR_PLL_ST.DSP_SRC) (fun b => b.set RXA_STAT.DSP_HOLD))

/-- REFCLK is back (R54, R138); the relock of DSP_CLK begins, DSP_HOLD staying until it ends. -/
def execRefclkRestore (s : State) : Out := runCmd s (fun b => ((b.set HOOP_STATE.REF_OK).set RXA_STAT.REFCLK_OK).freeRun)

/-- DSP_CLK is locked to REFCLK again (R138), reported as LINK_UP where a link remains up (R171). -/
def execDspRelock (s : State) : Out := runCmd s (fun b =>
  if b.bit RXA_STAT.DSP_HOLD && b.bit HOOP_STATE.REF_OK then
    (b.clr RXA_STAT.DSP_HOLD).when (b.rd RXA_STAT.LINKS_UP != 0) (fun b => b.set RXA_EVT.LINK_UP)
  else b)

/-- HOLD_MAX superframes have elapsed in HOLDOVER (R56). -/
def execHoldMaxExpiry (s : State) : Out := runCmd s (fun b => b.ifHoop fun b =>
  let n := (b.reg HOOP_HOLD_MAX.all.base).toNat
  if b.lock ≠ lkHOLDOVER ∨ n = 0 then b
  else (b.toTime (b.hoop.sync.holdStart + BitVec.ofNat 64 (n * 2 ^ 32))).setLock lkUNLOCKED)

/-! ### HOOP_CTL (R56, R80, R81, R83) -/

/-- REARM: a FAILED copy leaves reset and is the standby from the next checkpoint (R80), with no mismatch counted against it. -/
def Block.rearm (b : Block) : Block :=
  if b.rd HOOP_STATE.STBY = 3 && !b.hoop.red.dead then b.setRed { b.hoop.red with rearmed := true, proofMism := 0, proofFrom := none } else b
def execRearm (s : State) : Out := runCmd s Block.rearm

/-- FORCE_SW starts failover at once, unless STBY is FAILED or a failover is in progress (R80). -/
def Block.forceSw (b : Block) : Block := if b.rd HOOP_STATE.STBY = 3 ∨ b.hoop.red.gap = true then b else b.failoverStart
def execForceSw (s : State) : Out := runCmd s Block.forceSw

/-- PROOF_NOW: a proof run in the next cell (R81). -/
def Block.proofNow (b : Block) : Block :=
  let b := b.wr HOOP_CTL.PROOF_NOW 1
  b.setRed { b.hoop.red with proofFrom := some (b.hoop.red.proofFrom.getD (b.clk.cell + 1)) }
def execProofNow (s : State) : Out := runCmd s Block.proofNow

/-- A write of HOOP_CTL (R83): the fields are stored, a PSRC that changes unlocks, and the W1S bits act. -/
def Block.hoopCtl (b : Block) (v : BitVec 32) : Block :=
  let old := b.rd HOOP_CTL.PSRC
  let b := b.setReg HOOP_CTL.all.base (fput (v &&& 0x3F) HOOP_CTL.PROOF_NOW (b.rd HOOP_CTL.PROOF_NOW))
  let b := b.when (fget v HOOP_CTL.PROOF_NOW == 1) Block.proofNow
  let b := b.when (b.rd HOOP_CTL.PSRC != old) Block.psrcChanged
  let b := b.when (fget v HOOP_CTL.REARM == 1) Block.rearm
  (b.when (fget v HOOP_CTL.FORCE_SW == 1) Block.forceSw).tqShow
def execPsrcWrite (val : Word) (s : State) : Out := runCmd s (fun b => b.hoopCtl val)

/-! ### Redundancy (R77–R82) -/

/-- A proof run is due in this cell (R81): cell PROOF_CELL of a superframe that PROOF_PERIOD divides, the cell after PROOF_NOW, or the cell after a
run that failed; one run a cell. -/
def Block.proofDue (b : Block) : Bool :=
  let p := b.rd HOOP_RED_CFG.PROOF_PERIOD
  let c := b.clk.cell
  b.hoop.red.proofCell != some c
    && ((match b.hoop.red.proofFrom with | some f => decide (f ≤ c) | none => false)
      || (p != 0 && c / 256 % p == 0 && c % 256 == b.rd HOOP_RED_CFG.PROOF_CELL))

/-- A proof run that is due starts (R81). -/
def execProofRun (s : State) : Out := runCmd s (fun b => b.ifHoop fun b =>
  let st := b.rd HOOP_STATE.STBY
  if b.proofDue = true ∧ (st = 0 ∨ st = 2) then
    let r := b.hoop.red
    let asked := match r.proofFrom with | some f => decide (f ≤ b.clk.cell) | none => false
    let b := (b.wr HOOP_STATE.STBY 1).setRed { r with proofCell := some b.clk.cell, proofFrom := if asked then none else r.proofFrom }
    b.when asked (fun b => b.clr HOOP_CTL.PROOF_NOW)
  else b)

/-- A proof run ends (R81): at the end of its cell READY, or on a mismatch SUSPECT with another run in the next cell, or FAILED on the second in a
row. -/
def execProofRunEnd (mism : Bool) (s : State) : Out := runCmd s (fun b => b.ifHoop fun b =>
  let r := b.hoop.red
  let past := (r.proofCell.getD b.clk.cell) + 1
  if b.rd HOOP_STATE.STBY ≠ 1 then b
  else if !mism then ((b.toTime (BitVec.ofNat 64 (past * 2 ^ 24))).wr HOOP_STATE.STBY 0).setRed { r with proofMism := 0 }
  else
    let b := ((b.set HOOP_EVT.PROOF_FAIL).inc HOOP_RED_ST.PROOF_FAILS).logHoop 5
    let n := r.proofMism + 1
    if n < 2 then (b.setRed { r with proofMism := n, proofFrom := some (min past (r.proofFrom.getD past)) }).wr HOOP_STATE.STBY 2
    else (((b.setRed { r with proofMism := n, proofFrom := none }).wr HOOP_STATE.STBY 3).set HOOP_EVT.STBY_FAILED).logHoop 6)

/-- The active copy meets an internal fault and sends no heartbeat after the one last due (R77). -/
def execHoopInternalFault (s : State) : Out := runCmd s (fun b => b.ifHoop fun b =>
  b.setRed { b.hoop.red with hbStop := some (b.hoop.red.hbStop.getD b.hbIndex) })

/-- A heartbeat comes due on a path, at its instant, with a sequence number and its parity, or does not arrive (R77). It is good when
both are; else the path misses it, and the miss is reported while the other path is good (R77, R523). -/
def execHeartbeatMiss (h : Heartbeat) (s : State) : Out := runCmd s (fun b => b.ifHoop fun b =>
  let pathY := h.pathY
  let got := h.got
  let i := b.hbIndex
  let k := if 1 ≤ i ∧ b.hbCycle (64 * i) = b.clk.beat ∧ (b.hoop.red.path pathY).last ≠ i then i else i + 1
  let b := b.toBeat (b.hbCycle (64 * k))
  let r := b.hoop.red
  let stopped := match r.hbStop with | some s => decide (s < k) | none => false
  if stopped || got == some (k % 64, true) then b
  else
    let h : HbPath := { last := k, run := (r.path pathY).runAt (k - 1) + 1 }
    let b := b.setRed (if pathY then { r with hbY := h } else { r with hbX := h })
    b.when (b.hbRun (!pathY) == 0) (fun b =>
      if pathY then (b.set HOOP_EVT.HB_Y_MISS).logHoop 3 else (b.set HOOP_EVT.HB_X_MISS).logHoop 2))

/-- Both paths have missed 4 heartbeats: failover starts 264 cycles after the last good one (R78, R79, R82). -/
def execFailoverStart (s : State) : Out := runCmd s (fun b => b.ifHoop fun b =>
  match b.failoverDue with
  | none => b
  | some n => (b.toBeat n).failoverStart)

/-- The state of the latest checkpoint, HTIME advanced by the cycles since its stamp at its rate (R76, R78); a LOCK that so changes sets LOCK_CHG
(R56). -/
def Block.ckptLoad (b : Block) (c : Ckpt) : Block :=
  let k : Clk := { b.clk with beat := c.stamp, htime := c.htime, frac := c.frac, rate := c.rate }
  let b := { b with clk := k.add (b.clk.beat - c.stamp) }
  let b := (b.lockTo c.lock).wr HOOP_FREQ_ERR.all (unsigned 32 c.integ)
  let b := b.setSync { b.hoop.sync with integ := c.integ, passRun := c.passRun, failRun := c.failRun, holdStart := c.holdStart, pendStep := none }
  let b := b.setReg HOOP_EPOCH_ST.all.base (fput c.epoch.st HOOP_EPOCH_ST.WR_IGN (b.rd HOOP_EPOCH_ST.WR_IGN))
  let b := (b.setReg HOOP_EPOCH_ACT.all.base c.epoch.act).setReg HOOP_WARP_ACT_COUNT.all.base c.epoch.count
  b.setWarp { b.hoop.warp with groups := c.groups, scan := c.scan, bank := c.epoch.bank, commitSf := c.epoch.commitSf, frozen := c.epoch.frozen,
                               digAct := c.epoch.digAct }

/-- A strobe collected in the gap issues at one per HOOP cycle with LATE and its slip behind T_s (R65, R66, R78). -/
def Block.lateStrobe (b : Block) (x : Nat × Strobe) : Block :=
  let cycle := b.hoop.warp.nextCycle
  b.strobeIssue { x.2 with late := true, slip := cycle - x.1 } cycle

/-- The gap ends (R78): the standby, from the latest checkpoint that passes its check (`flaw`: the latest one does not), drives the outputs, good
heartbeats begin, and the strobes collected issue. With no checkpoint written yet none is loaded (DESIGN CHOICE, log entry 51). -/
def Block.gapOver (b : Block) (flaw : Bool) : Block :=
  let r := b.hoop.red
  let b := b.toBeat r.gapEnd
  let b := b.when flaw (fun b => (b.set HOOP_EVT.CKPT_ERR).logHoop 14)
  -- ckptSel names the buffer written next: the latest is the other one
  let latest := if r.ckptSel != flaw then r.ckptB else r.ckptA
  let b := match latest with | some c => b.ckptLoad c | none => b
  let b := b.setRed { b.hoop.red with gap := false, gapStrobes := [], hbX := ⟨0, 0⟩, hbY := ⟨0, 0⟩, hbFrom := 2 * r.gapEnd - 64, hbStop := none,
                                      proofMism := 0, proofFrom := none }
  let b := ((b.set HOOP_EVT.FAILOVER).inc HOOP_RED_ST.FAILOVERS).logHoop 4
  let b := (b.wr HOOP_STATE.ACTIVE (1 - b.rd HOOP_STATE.ACTIVE)).wr HOOP_STATE.STBY 3
  let b := (b.set HOOP_EVT.STBY_FAILED).logHoop 6
  let b := b.when (!b.bit HOOP_STATE.REF_OK) (fun b => (b.setRate b.unslewed).srcLost)
  let b := b.setWarp { b.hoop.warp with nextCycle := max b.hoop.warp.nextCycle (2 * r.gapEnd) }
  (r.gapStrobes.foldl Block.lateStrobe b).tqShow

/-! ### The warp window (R84) -/

/-- The bank HOOP_WARP_ADDR names. -/
def Block.warpAddrBank (b : Block) : Nat := if b.bit HOOP_WARP_ADDR.BANK_SEL then b.hoop.warp.bank else 1 - b.hoop.warp.bank

/-- INDEX advances under AUTO_INC. -/
def Block.warpAdvance (b : Block) : Block :=
  if b.bit HOOP_WARP_ADDR.AUTO_INC then b.wr HOOP_WARP_ADDR.INDEX (b.rd HOOP_WARP_ADDR.INDEX + 1) else b

/-- A read of HOOP_WARP_DATA_n: n = 0 loads all eight words, n = 7 advances the address. -/
def Block.warpRead (b : Block) (n : Nat) : Block :=
  let b := b.when (n == 0) (fun b =>
    b.setWarp { b.hoop.warp with rd := (List.range 8).map (b.warpWord b.warpAddrBank (b.rd HOOP_WARP_ADDR.INDEX)) })
  (b.answer (.data (b.hoop.warp.rd.getD n 0))).when (n == 7) Block.warpAdvance
def execWarpDataLoad (n : Nat) (s : State) : Out := runCmd s (fun b => b.warpRead (n % 8))

/-- A write of HOOP_WARP_DATA_n: words 0–6 are held, word 7 stores all eight, or is ignored with WR_IGN for the active bank or under R70. -/
def Block.warpWrite (b : Block) (n : Nat) (v : BitVec 32) : Block :=
  let w := b.hoop.warp
  let held := (List.range 8).map (fun i => if i = n then v else w.wr.getD i 0)
  let b := b.setWarp { w with wr := held }
  if n ≠ 7 then b
  else
    let idx := b.rd HOOP_WARP_ADDR.INDEX
    let b :=
      if b.bit HOOP_WARP_ADDR.BANK_SEL || b.epochBusy then b.set HOOP_EPOCH_ST.WR_IGN
      else b.setWarp { b.hoop.warp with warp := (List.range 8).foldl (fun t i =>
        Tbl.put (fun _ => (0 : BitVec 32)) t (warpKey b.warpAddrBank idx i) (held.getD i 0)) b.hoop.warp.warp }
    b.warpAdvance
def execWarpDataStore (n : Nat) (val : Word) (s : State) : Out := runCmd s (fun b => b.warpWrite (n % 8) val)

/-! ### Epochs (R68–R73) -/

def execEpochCommit (s : State) : Out := runCmd s Block.epochCommit
def execEpochCancel (s : State) : Out := runCmd s Block.epochCancel

/-- Validation ends, ARMED or REFUSED (R69). -/
def execEpochValidationDone (s : State) : Out := runCmd s Block.epochValidated

/-- The freeze point of an armed epoch (R70, R71). -/
def execFreezePoint (s : State) : Out := runCmd s Block.freezePoint

/-- An armed epoch activates at ACT_SF (R73). -/
def execEpochActivation (s : State) : Out := runCmd s Block.activate

/-! ### Groups and strobes (R62–R66) -/

/-- The Hoop reads the group entry of descriptor `idx` for the next superframe (R62). -/
def execGroupListRead (idx : Nat) (s : State) : Out := runCmd s (fun b => b.ifHoop fun b =>
  let f := b.sf + 1
  let bank := b.bankFor f
  if b.countFor f ≤ idx ∨ b.occupied bank idx f = false ∨ b.dsc bank idx 2 11 11 = 0 then b
  else
    let r := b.groupFetch bank idx f
    r.2.groupKeep r.1)

/-- The strobe of descriptor `idx` for its slot in superframe `sf` comes due at T_s (R53, R64–R66, R78): one strobe issues, with its slip, or none
for a SKIP entry, a time the scan has passed, or a time not past the latest strobe before a backward step; in the gap it waits for its end. -/
def execSlotStrobe (idx sf : Nat) (s : State) : Out := runCmd s (fun b =>
  let bank := b.bankFor sf
  let t := b.strobeTime bank idx sf
  let y := b.hoop.sync
  if b.countFor sf ≤ idx ∨ b.occupied bank idx sf = false ∨ t < y.strobeFloor.toNat ∨ t < b.hoop.warp.scan ∨ b.hoop.red.dead = true
      ∨ b.hoop.red.journal.contains (idx, sf) = true then b
  else
    let due := b.clk.cycleOf t
    let b := b.toTime (BitVec.ofNat 64 t)
    let group := b.dsc bank idx 2 11 11 = 1
    let x : Option GroupEntry × Block := if group then
        match b.groupOf idx sf with
        | some g => (some g, b)
        | none => let r := b.groupFetch bank idx sf; (some r.1, r.2)
      else (none, b)
    let b := x.2
    let word : BitVec 32 := match x.1 with | some g => g.word | none => b.warpWord bank idx 3
    let err := match x.1 with | some g => g.err | none => false
    if group && word.getLsbD 31 then b
    else
      let cycle := max due b.hoop.warp.nextCycle
      let w5 := (b.warpWord bank idx 5).toNat
      let st : Strobe :=
        { idx := idx, bank := bank, sf := sf, slotStart := BitVec.ofNat 64 (b.slotStart bank idx sf), node := word.toNat % 2 ^ 28,
          user := b.warpWord bank idx 7, slip := cycle - due, late := false, unlocked := decide (b.lock ≤ 1), grperr := err,
          engine := w5 % 32, entry := w5 / 32 % 8192 }
      let b := b.setSync { b.hoop.sync with lastStrobe := BitVec.ofNat 64 (max t b.hoop.sync.lastStrobe.toNat) }
      if b.hoop.red.gap then b.setRed { b.hoop.red with gapStrobes := b.hoop.red.gapStrobes ++ [(due, st)] }
      else b.strobeIssue st cycle)

end Sys2Proof.Machine
end

