-- ==== Sys2Proof/Machine/Canopy.lean ====
section
/-! DEFINITION. The Canopy cascade (R435–R463): flits, ports and wraps, delays, time marks, membership, the master, messages and digests. -/

namespace Sys2Proof.Machine

/-! ### Ports -/

def Block.cpos (b : Block) : Nat := b.rd CNP_STAT.POS
def Block.port (b : Block) (west : Bool) : CnpPort := if west then b.cnp.west else b.cnp.east
def Block.onCport (b : Block) (west : Bool) (f : CnpPort → CnpPort) : Block :=
  { b with cnp := if west then { b.cnp with west := f b.cnp.west } else { b.cnp with east := f b.cnp.east } }
def Block.onCnp (b : Block) (f : Cnp → Cnp) : Block := { b with cnp := f b.cnp }

/-- A field of the East or the West port. -/
def Block.portUp (b : Block) (west : Bool) : Bool := if west then b.bit CNP_PORT_W.LINK_UP else b.bit CNP_PORT_E.LINK_UP
def Block.wrapped (b : Block) (west : Bool) : Bool := if west then b.bit CNP_STAT.WRAP_W else b.bit CNP_STAT.WRAP_E
def Block.forced (b : Block) (west : Bool) : Bool := if west then b.bit CNP_CTL.FWRAP_W else b.bit CNP_CTL.FWRAP_E
def Block.linkDly (b : Block) (west : Bool) : Nat := if west then b.rd CNP_DLY_W.DLY else b.rd CNP_DLY_E.DLY

/-- STATE values (R462). -/
def csOFF : Nat := 0
def csTRAIN : Nat := 1
def csJOIN : Nat := 2
def csMEMBER : Nat := 3

/-- STATE follows EN and the links: a device with a link up is in JOIN until a port is unwrapped (R449, R462). -/
def Block.cnpState (b : Block) : Block :=
  if !b.bit CNP_CTL.EN then b.wr CNP_STAT.STATE csOFF
  else if !b.portUp true && !b.portUp false then b.wr CNP_STAT.STATE csTRAIN
  else if b.rd CNP_STAT.STATE = csMEMBER then b else b.wr CNP_STAT.STATE csJOIN

/-- A port wraps or is unwrapped (R448, R449). -/
def Block.setWrap (b : Block) (west v : Bool) : Block :=
  if b.wrapped west = v then b
  else
    let b := if west then (b.flag CNP_STAT.WRAP_W v).flag CNP_PORT_W.ADMITTED (!v) else (b.flag CNP_STAT.WRAP_E v).flag CNP_PORT_E.ADMITTED (!v)
    (b.set CNP_EVT.WRAP_CHG).onCport west (fun p => { p with okRun := 0, prop := none })

/-- The master followed changes (R451). -/
def Block.setMaster (b : Block) (pos : Nat) : Block :=
  if b.cnp.led && b.rd CNP_STAT.MASTER_POS == pos then b
  else
    let b := ((b.wr CNP_STAT.MASTER_POS pos).flag CNP_STAT.MASTER (pos == b.cpos)).set CNP_EVT.MASTER_CHG
    (b.onCnp (fun c => { c with led := true, missRun := 0 })).tqShow

/-- The positions present besides this one. -/
def Block.cnpPeers (b : Block) : List Nat := (List.range 8).filter (fun n => n != b.cpos && bitOf (b.rd CNP_STAT.PRESENT) n)

/-- A link comes up or goes down (R436, R448, R462); its pin shows it (R554). -/
def Block.cnpLink (b : Block) (west up : Bool) : Block :=
  if b.portUp west = up then b
  else
    let b := if west then (b.flag CNP_PORT_W.LINK_UP up).flag CNP_PORT_W.LANE_LOCK up else (b.flag CNP_PORT_E.LINK_UP up).flag CNP_PORT_E.LANE_LOCK up
    let b := (b.set CNP_EVT.LINK_CHG).emit (.pin (if west then "CNP_W_LINK" else "CNP_E_LINK") 0 up)
    (b.when (!up) (fun b => b.setWrap west true)).cnpState
def execCnpLinkUp (west : Bool) (s : State) : Out := runCmd s (fun b => if b.bit CNP_CTL.EN then b.cnpLink west true else b)
def execCnpLinkDown (west : Bool) (s : State) : Out := runCmd s (fun b => b.cnpLink west false)

/-- A write of CNP_CTL (R462, R463, R542): setting EN starts both ports wrapped with no exchange yet, clearing it takes both links down. -/
def Block.cnpCtl (b : Block) (v : BitVec 32) : Block :=
  let was := b.bit CNP_CTL.EN
  let v := v &&& 0x0FF13FF7
  let v := if fget v CNP_CTL.INS_DIV = 0 then fput v CNP_CTL.INS_DIV 1 else v
  let v := if fget v CNP_CTL.CMP_MODE = 3 then fput v CNP_CTL.CMP_MODE 0 else v
  let v := if fget v CNP_CTL.MSRC = 3 then fput v CNP_CTL.MSRC 0 else v
  let b := b.setReg CNP_CTL.all.base v
  let on := b.bit CNP_CTL.EN
  let clean (b : Block) : Block :=
    let b := ((b.clr CNP_STAT.PRESENT).clr CNP_STAT.MASTER).clr CNP_STAT.MASTER_POS
    let b := (((b.setReg CNP_PORT_E.all.base 0).setReg CNP_PORT_W.all.base 0).clr CNP_DLY_E.DLY).clr CNP_DLY_W.DLY
    b.onCnp (fun c => { c with outQ := [], east := CnpPort.fresh, west := CnpPort.fresh, peers := [], used := none, missRun := 0, silent := 0,
                               heard := false, led := false, conflict := none, reasm := [], digs := [], sealFrom := none })
  let b := if on && !was then
      let b := ((clean b).setWrap false true).setWrap true true
      (b.wr CNP_STAT.STATE csTRAIN).when (b.lock == lkLOCKED) (fun b => b.onCnp (fun c => { c with sealFrom := some (b.sf + 2) }))
    else if was && !on then clean (((b.cnpLink false false).cnpLink true false).wr CNP_STAT.STATE csOFF)
    else b
  let b := b.when (on && b.forced false) (fun b => b.setWrap false true)
  (b.when (on && b.forced true) (fun b => b.setWrap true true)).tqShow
def execCnpEnable (val : Word) (s : State) : Out := runCmd s (fun b => b.cnpCtl val)

/-! ### Flits (R439–R441) -/

/-- A flit with its FCRC. -/
def withFcrc (l : List Byte) : List Byte := let d := slice l 0 60; d ++ leBytes 4 (crc32 d)

/-- A message is dropped and counted (R454). -/
def Block.msgDrop (b : Block) : Block := (b.inc CNP_CNT_DROP.all).set CNP_EVT.MSG_DROP

/-- A DATA flit for this device joins its message, or its message is dropped (R454). A message dropped is kept without bytes until its last flit
or the origin's next message. -/
def Block.reassemble (b : Block) (f : List Byte) : Block :=
  let src := leAt f 1 1 % 8
  let mseq := leAt f 4 2
  let fidx := leAt f 6 1
  let last := bitOf (leAt f 7 1) 0
  let body := slice f 8 52
  let other (r : Reasm) : Bool := r.origin == src && r.mseq != mseq && !r.last
  let cut := (b.cnp.reasm.filter (fun r => other r && !r.bytes.isEmpty)).length
  let rest := b.cnp.reasm.filter (fun r => !other r)
  let b := (List.range cut).foldl (fun (b : Block) _ => b.msgDrop) (b.onCnp (fun c => { c with reasm := rest }))
  let put (r : Reasm) (b : Block) : Block :=
    b.onCnp (fun c => { c with reasm := c.reasm.filter (fun x => !(x.origin == src && x.mseq == mseq && !x.last)) ++
      (if last && r.bytes.isEmpty then [] else [r]) })
  let lost : Reasm := { origin := src, mseq := mseq, next := 256, bytes := [], since := 0, last := false }
  match b.cnp.reasm.find? (fun r => r.origin == src && r.mseq == mseq && !r.last) with
  | some r =>
    if r.bytes.isEmpty then put lost b
    else if fidx = r.next then put { r with next := fidx + 1, bytes := r.bytes ++ body, last := last } b
    else (put lost b).msgDrop
  | none =>
    if fidx ≠ 0 ∨ 64 ≤ (b.cnp.reasm.filter (fun r => !r.bytes.isEmpty)).length then (put lost b).msgDrop
    else put { origin := src, mseq := mseq, next := 1, bytes := body, since := b.clk.htime, last := last } b

/-- A transit flit goes on 116 CNP_CLK cycles later: HOPS one more, a MARK's CORR by the arrival link and the residence, turned with WRAPPED at a
wrapped port (R440, R443, R448). -/
def Block.flitForward (b : Block) (west : Bool) (f : List Byte) : Block :=
  let turn := b.wrapped (!west)
  let out := if turn then west else !west
  if b.wrapped out || !b.portUp out then b
  else
    let f := splice f 3 (leBytes 1 (leAt f 3 1 + 1))
    let f := if leAt f 0 1 = 1 then splice f 24 (leBytes 8 (leAt f 24 8 + b.linkDly west + 773)) else f
    let f := if turn then splice f 2 (leBytes 1 (leAt f 2 1 ||| 8)) else f
    b.emit (.cnpFlit out (withFcrc f))

/-- A flit arrives at the East or the West port (R439, R440, R448). Control flits are taken in by their own commands. -/
def execFlitReceive (west : Bool) (flit : List Byte) (s : State) : Out := runCmd s (fun b =>
  let f := slice flit 0 64
  let ty := leAt f 0 1
  if !b.bit CNP_CTL.EN || !b.portUp west then b
  else if leAt f 60 4 ≠ crc32 (f.take 60) then
    (if west then b.inc CNP_CNT_CRC_W.all else b.inc CNP_CNT_CRC_E.all).set CNP_EVT.FLIT_CRC
  else if ty = 8 then
    if b.wrapped west || leAt f 1 1 % 8 == b.cpos then b
    else if leAt f 2 1 % 8 = b.cpos then b.reassemble f
    else if leAt f 3 1 = 15 then b
    else b.flitForward west f
  else if ty = 1 ∨ ty = 2 then
    if leAt f 1 1 % 8 = b.cpos ∨ leAt f 3 1 = 15 then b else b.flitForward west f
  else b)

/-- A ring earns one DATA credit every INS_DIV slots, to a depth of 64 (R441). -/
def execCnpCreditEarn (west : Bool) (s : State) : Out := runCmd s (fun b =>
  if b.bit CNP_CTL.EN then b.onCport west (fun p => { p with credit := min 64 (p.credit + 1) }) else b)

/-! ### Messages (R453–R456) -/

/-- The class of a message among the local flits (R441): shipments, DIGEST, then downlink and STEWARD. -/
def msgClass (mtype : Nat) : Nat := if mtype ≤ 3 then 0 else if mtype = 5 then 1 else 2

/-- The link key (R455): the ACTIVE half of KSLOT, AES256 with CNP in its mask, while Heartwood is NORMAL. -/
def Block.cnpKey (b : Block) : Option Half :=
  let h := (b.slot (b.rd CNP_CTL.KSLOT)).act
  if b.hwdNormal && h.typ == 2 && h.allows mkCNP then some h else none

/-- A sealed message may start now (R456). -/
def Block.sealOpen (b : Block) : Bool :=
  b.cnpKey.isSome && (match b.cnp.sealFrom with | some s => decide (s ≤ b.sf) | none => false) && !b.cnp.sealHold
    && decide (b.cnp.sealCell ≤ cellOf b.clk.htime) && decide (16 * 2 ^ 32 < (2 ^ 24 - b.clk.htime.toNat % 2 ^ 24) * 10 ^ 6)

/-- Messages of this MTYPE are sealed. -/
def Block.sealed (b : Block) (mtype : Nat) : Bool := b.bit CNP_CTL.CIPHER_EN && mtype != 5

/-- The ring a message leaves by (R447, R454): the one that reaches its destination in fewer links, the E ring where they are equal. HELLOs that arrive
at the East port have crossed the links that the E ring takes back. -/
def Block.ringWest (b : Block) (dest : Nat) : Bool :=
  match Tbl.find b.cnp.peers dest with
  | some p =>
    match p.distE, p.distW with
    | some e, some w => decide (w < e)
    | none, some _ => true
    | _, _ => false
  | none => false

/-- The nonce of a sealed message (R455). -/
def cnpNonce (pos ncnt cell sf : Nat) : List Byte := leBytes 1 pos ++ [0] ++ leBytes 3 ncnt ++ leBytes 1 cell ++ leBytes 4 sf ++ [0, 0]

/-- The bytes of a message as it leaves: header, body and tag, and the block after it (R453, R455). -/
def Block.msgBytes (b : Block) (m : Msg) : List Byte × Block :=
  let cell := cellOf b.clk.htime
  let n := if b.cnp.sealCell = cell then b.cnp.sealCount else 0
  match if b.sealed m.mtype then b.cnpKey else none with
  | some h =>
    let hdr := leBytes 1 m.mtype ++ [1] ++ leBytes 2 m.body.length ++ leBytes 1 h.gen ++ leBytes 3 n
    let nonce := cnpNonce b.cpos n (cell % 256) (cell / 256)
    let c := gcmCrypt h.key nonce m.body
    (hdr ++ c ++ gcmTag h.key nonce hdr c, b.onCnp (fun x => { x with sealCell := cell, sealCount := n + 1 }))
  | none => (leBytes 1 m.mtype ++ [0] ++ leBytes 2 m.body.length ++ List.replicate 4 0 ++ m.body, b)

/-- The message that starts next on a ring: of the lowest class, the oldest that may start. -/
def Block.msgNext (b : Block) (west : Bool) : Option (Nat × Msg) :=
  let l := ((List.range b.cnp.outQ.length).zip b.cnp.outQ).filter (fun e => b.ringWest e.2.dest == west && (!b.sealed e.2.mtype || b.sealOpen))
  [0, 1, 2].findSome? (fun c => l.find? (fun e => msgClass e.2.mtype == c))

/-- The messages that wait for a position no longer present are dropped (R454). -/
def Block.msgPrune (b : Block) : Block :=
  let gone (m : Msg) : Bool := !bitOf (b.rd CNP_STAT.PRESENT) m.dest
  (b.cnp.outQ.filter gone).foldl (fun (b : Block) _ => b.msgDrop) (b.onCnp (fun c => { c with outQ := c.outQ.filter (fun m => !gone m) }))

/-- A message starts on a ring (R453). -/
def Block.msgStart (b : Block) (west : Bool) : Block :=
  let b := b.msgPrune
  match b.msgNext west with
  | some (i, m) =>
    let r := b.msgBytes m
    let b := r.2.onCnp (fun c => { c with outQ := c.outQ.eraseIdx i, mseq := (c.mseq + 1) % 65536 })
    (b.onCport west (fun p => { p with cur := some { dest := m.dest, mseq := (b.cnp.mseq + 65535) % 65536, fidx := 0, rest := r.1 } })).inc
      CNP_CNT_TX_MSG.all
  | none => b

/-- A DATA flit of the message that leaves on a ring (R439, R441, R448). -/
def Block.dataFlit (b : Block) (west : Bool) : Block :=
  let out := if b.wrapped west then !west else west
  if b.wrapped out || !b.portUp out || (b.port west).credit == 0 then b
  else
    let b := if (b.port west).cur.isNone then b.msgStart west else b
    match (b.port west).cur with
    | none => b
    | some t =>
      let body := slice t.rest 0 52
      let rest := t.rest.drop 52
      let f := [8] ++ leBytes 1 (b.cpos + 8 * west.toNat) ++ leBytes 1 (t.dest + 8 * (out != west).toNat) ++ [1] ++ leBytes 2 t.mseq
        ++ leBytes 1 t.fidx ++ leBytes 1 rest.isEmpty.toNat ++ body
      let b := b.emit (.cnpFlit out (withFcrc f))
      b.onCport west (fun p => { p with credit := p.credit - 1, cur := if rest.isEmpty then none else some { t with fidx := t.fidx + 1, rest := rest } })

/-- The HELLO of this device (R447). -/
def Block.helloNow (b : Block) : Hello :=
  { origin := b.cpos, domain := (b.reg MAS_DOMAIN_ID.all.base).toNat, member := b.rd CNP_STAT.STATE == csMEMBER, master := b.rd CNP_STAT.MASTER_POS,
    count := b.cnpPeers.length + 1, wrapE := b.wrapped false, wrapW := b.wrapped true, unwrapE := b.cnp.east.prop, unwrapW := b.cnp.west.prop }

/-- The MARK of the master leaving at `t` (R443). -/
def Block.markFlit (b : Block) (west : Bool) (t : BitVec 64) : List Byte :=
  withFcrc ([1] ++ leBytes 1 (b.cpos + 8 * west.toNat) ++ leBytes 1 b.cpos ++ [1] ++ List.replicate 4 0
    ++ leBytes 4 (b.clk.cell / 256) ++ leBytes 1 b.clk.cell ++ leBytes 1 b.cpos ++ leBytes 1 (b.rd HOOP_STATE.TQ) ++ [0] ++ leBytes 8 t.toNat
    ++ List.replicate 36 0)

/-- A free slot leaves by a port at `t`: a control flit that waits, else a DATA flit with credit (R441, R442). -/
def execLocalFlitSend (west : Bool) (t : DWord) (s : State) : Out := runCmd s (fun b =>
  if !b.bit CNP_CTL.EN then b
  else
    match (b.port west).ctl with
    | [] => b.dataFlit west
    | c :: rest =>
      if !b.portUp west then b
      else
        let b := b.onCport west (fun p => { p with ctl := rest })
        match c with
        | .mark => b.emit (.cnpFlit west (b.markFlit west t))
        | .hello => b.emit (.cnpHello west b.helloNow)
        | .dreq => (b.onCport west (fun p => { p with t1 := some t })).emit (.cnpDreq west)
        | .dresp t2 => b.emit (.cnpDresp west t2 t))

/-- A message complete at its destination is checked and delivered, or dropped (R454–R456). -/
def execMessageReassembled (origin : Nat) (s : State) : Out := runCmd s (fun b =>
  match b.cnp.reasm.find? (fun r => r.origin == origin && r.last) with
  | none => b
  | some r =>
    let b := b.onCnp (fun c => { c with reasm := c.reasm.filter (fun x => x != r) })
    let hdr := slice r.bytes 0 8
    let mtype := leAt hdr 0 1
    let enc := bitOf (leAt hdr 1 1) 0
    let n := leAt hdr 2 2
    let body := slice r.bytes 8 n
    if n = 0 ∨ 9728 < n ∨ r.bytes.length < 8 + n + (if enc then 16 else 0) then b.msgDrop
    else if !enc then (b.inc CNP_CNT_RX_MSG.all).emit (.message origin mtype body)
    else
      match b.cnpKey with
      | none => b.msgDrop
      | some h =>
        let nonce := cnpNonce origin (leAt hdr 5 3) (cellOf r.since % 256) (sfOf r.since)
        if h.gen % 256 != leAt hdr 4 1 || gcmTag h.key nonce hdr body != slice r.bytes (8 + n) 16 then b.msgDrop.set CNP_EVT.AUTH_FAIL
        else (b.inc CNP_CNT_RX_MSG.all).emit (.message origin mtype (gcmCrypt h.key nonce body)))

/-! ### Delay calibration (R442) -/

/-- A DREQ arrives at `t2`: its DRESP waits for a slot of the same port. -/
def execDreqReceive (west : Bool) (t2 : DWord) (s : State) : Out := runCmd s (fun b =>
  if b.bit CNP_CTL.EN && b.portUp west then b.onCport west (fun p => { p with ctl := p.ctl ++ [.dresp t2] }) else b)

/-- CNP_DLY_x: the mean d and CNP_ASYM_x (R442); 0 before the first exchange (R542). -/
def Block.dlyShow (b : Block) (west : Bool) : Block :=
  let p := b.port west
  let asym := if west then b.rdS CNP_ASYM_W.ASYM else b.rdS CNP_ASYM_E.ASYM
  let d := if p.dlys.isEmpty then 0 else unsigned 24 (p.mean + asym)
  if west then b.wr CNP_DLY_W.DLY d else b.wr CNP_DLY_E.DLY d

/-- A write of CNP_ASYM_x (R442). -/
def Block.asymWrite (b : Block) (west : Bool) (v : BitVec 32) : Block :=
  (if west then b.wr CNP_ASYM_W.ASYM (fget v CNP_ASYM_W.ASYM) else b.wr CNP_ASYM_E.ASYM (fget v CNP_ASYM_E.ASYM)).dlyShow west

/-- A DRESP with t2 and t3 arrives at `t4`: the exchange joins the last 16, and CNP_DLY_x is their mean and CNP_ASYM_x. How the mean is rounded is open
(log entry 2). -/
def execDrespReceive (west : Bool) (t2 t3 t4 : DWord) (s : State) : Out := runCmd s (fun b =>
  match (b.port west).t1 with
  | none => b
  | some t1 =>
    let d2 := signed 64 ((t4 - t1) - (t3 - t2)).toNat
    let l := ((b.port west).dlys ++ [d2])
    let l := l.drop (l.length - 16)
    let sum : Int := l.foldl (· + ·) 0
    let n : Int := (2 * l.length : Nat)
    let m : Int := sum / n + (if sum % n = 0 then 0 else ((b.freeNat % 2 : Nat) : Int))
    (b.onCport west (fun p => { p with t1 := none, dlys := l, mean := m })).took.dlyShow west)

/-! ### Time marks (R443–R446) -/

/-- A MARK arrives, stamped `stamp`, with HOPS and its body: from the present master within 64 µs of the cell start it gives a measurement, in place of a
worse one of the same cell (R444). -/
def execMarkReceive (west : Bool) (stamp : DWord) (hops : Nat) (body : List Byte) (s : State) : Out := runCmd s (fun b =>
  let mpos := leAt body 5 1 % 8
  if !b.bit CNP_CTL.EN || !b.portUp west || mpos == b.cpos then b
  else
    let b := b.onCnp (fun c => { c with heard := true })
    let b := b.when (!b.cnp.led) (fun b => b.setMaster mpos)
    let better := match b.cnp.used with
      | none => true
      | some u => decide (hops < u.hops) || (hops == u.hops && west && !u.west)
    if b.bit CNP_STAT.MASTER || mpos != b.rd CNP_STAT.MASTER_POS || decide (64 * 2 ^ 32 < stamp.toNat % 2 ^ 24 * 10 ^ 6) || !better then b
    else
      let first := b.cnp.used.isNone
      let b := match b.cnp.used with
        | some u => b.ifHoop (fun b => ((b.setSync u.sync).setRate u.rate).wr HOOP_STATE.LOCK u.lock)
        | none => b
      let u : MarkUse := { hops := hops, west := west, sync := b.hoop.sync, rate := b.clk.rate, lock := b.lock }
      let e := signed 64 (stamp.toNat + 3 * 2 ^ 64 - leAt body 8 8 - leAt body 16 8 - b.linkDly west)
      let b := b.onCnp (fun c => { c with used := some u, missRun := 0, mtq := leAt body 6 1 % 8 })
      let b := (b.wr CNP_OFS.all (unsigned 32 (satSym 32 e))).set HOOP_STATE.CNP_OK
      let b := b.when first (fun b => b.inc CNP_CNT_MARK.all)
      (b.when (b.phaseSource == psCANOPY) (fun b => b.measure e)).tqShow)

/-- The 64 µs window of the cell closes (R444, R451, R456): without a usable MARK it is a missed mark; on the third in a row the source is lost and the lowest
position present becomes master. -/
def execMarkWindowClose (s : State) : Out := runCmd s (fun b =>
  let b := b.toTime (BitVec.ofNat 64 (b.clk.cell * 2 ^ 24 + ceilDiv (64 * 2 ^ 32) (10 ^ 6)))
  if !b.bit CNP_CTL.EN || b.bit CNP_STAT.MASTER || b.cnp.used.isSome then b
  else
    let n := b.cnp.missRun + 1
    let b := ((b.set CNP_EVT.MARK_MISS).inc CNP_CNT_MISS.all).onCnp (fun c => { c with missRun := n })
    if n < 3 then b
    else
      let b := (b.clr HOOP_STATE.CNP_OK).when (b.phaseSource == psCANOPY) (fun b => b.ifHoop Block.srcLost)
      let low := (b.cnpPeers ++ [b.cpos]).foldl min 7
      (b.setMaster low).onCnp (fun c => { c with missRun := 0 }))

/-! ### Membership (R447–R451) -/

/-- A HELLO arrives at a port with HOPS (R447, R450); a member that followed the same master and now follows another takes this device along (R451, log
entry 57); `own` is whether it is one of this device's own, come back round the ring. -/
def execHelloReceive (west : Bool) (hops : Nat) (own : Bool) (h : Hello) (s : State) : Out := runCmd s (fun b =>
  let c := b.clk.cell
  if !b.bit CNP_CTL.EN || !b.portUp west || own then b
  else if h.origin % 8 = b.cpos then (b.set CNP_EVT.POS_CONFLICT).onCnp (fun x => { x with conflict := some c })
  else
    let n := h.origin % 8
    let old := (Tbl.find b.cnp.peers n).getD { cell := c, distE := none, distW := none, master := h.master % 8 }
    let peer : CnpPeer := if west then { old with cell := c, distW := some hops, master := h.master % 8 }
      else { old with cell := c, distE := some hops, master := h.master % 8 }
    let b := b.onCnp (fun x => { x with heard := true, peers := Tbl.insert x.peers n peer })
    let b := b.wr CNP_STAT.PRESENT (b.rd CNP_STAT.PRESENT ||| 2 ^ n)
    let mine := b.rd CNP_STAT.MASTER_POS
    let moves := b.cnp.led && b.rd CNP_STAT.STATE == csMEMBER && h.member && old.master == mine && h.master % 8 != mine
    let b := b.when moves (fun b => b.setMaster (h.master % 8))
    if hops ≠ 1 then b
    else
      let b := b.onCport west (fun p => { p with nb := some h, nbCell := c })
      let b := if west then ((b.set CNP_PORT_W.NB_VALID).wr CNP_PORT_W.NB_POS n).set CNP_PORT_W.HELLO_OK
        else ((b.set CNP_PORT_E.NB_VALID).wr CNP_PORT_E.NB_POS n).set CNP_PORT_E.HELLO_OK
      b.when (h.domain != (b.reg MAS_DOMAIN_ID.all.base).toNat) (fun b => b.set CNP_EVT.DOMAIN_MISMATCH))

/-- The superframe the neighbour proposes for the port that faces this one. -/
def CnpPort.nbProp (p : CnpPort) (west : Bool) : Option Nat := p.nb.bind (fun h => if west then h.unwrapE else h.unwrapW)

/-- A port is unwrapped at the later proposal of the two ends (R449, R451): the joining device becomes MEMBER, and of two masters one stays. -/
def execPortUnwrap (west : Bool) (s : State) : Out := runCmd s (fun b =>
  let p := b.port west
  match p.prop, p.nbProp west, p.nb with
  | some x, some y, some h =>
    if !b.wrapped west || !b.bit CNP_CTL.EN then b
    else
      let b := b.toTime (htAt (max x y) 0)
      let joining := b.rd CNP_STAT.STATE = csJOIN
      let count := b.cnpPeers.length + 1
      let mine := b.rd CNP_STAT.MASTER_POS
      let theirs := h.master % 8
      let takes := if joining ∧ h.member = true then true else if !joining ∧ !h.member then false
        else decide (count < h.count) || (count == h.count && decide (theirs < mine))
      let b := (b.setWrap west false).set CNP_EVT.JOINED
      let b := b.wr CNP_STAT.STATE csMEMBER
      if takes then b.setMaster theirs else b
  | _, _, _ => b)

/-- A wrapped port's conditions of R449 over the cell that ended, and its proposal after three such cells. -/
def Block.admitCell (b : Block) (west : Bool) (c : Nat) : Block :=
  let p := b.port west
  let calm := match b.cnp.conflict with | some x => decide (x + 3 ≤ c) | none => true
  let ok := b.wrapped west && b.portUp west && !b.forced west && p.nbCell + 1 == c && calm
    && (match p.nb with | some h => h.domain == (b.reg MAS_DOMAIN_ID.all.base).toNat | none => false)
    && (b.rd CNP_STAT.STATE != csJOIN || b.lock == lkLOCKED)
  b.onCport west (fun p =>
    if !ok then { p with okRun := 0, prop := none }
    else { p with okRun := p.okRun + 1, prop := if 3 ≤ p.okRun + 1 ∧ p.prop = none then some (ceilDiv (c + 2) 256) else p.prop })

/-- A port at a cell boundary (R442, R443, R447, R448): it wraps on silence, and its control flits of the cell wait for slots, the master's MARK
unless it was due in a switchover gap (R78). -/
def Block.portCell (b : Block) (west : Bool) (c : Nat) (inGap : Bool) : Block :=
  let gone := decide ((b.port west).nbCell + 3 ≤ c)
  let b := b.when (gone || !b.portUp west || b.forced west) (fun b => b.setWrap west true)
  let b := b.when gone (fun b => if west then (b.clr CNP_PORT_W.NB_VALID).clr CNP_PORT_W.HELLO_OK else (b.clr CNP_PORT_E.NB_VALID).clr CNP_PORT_E.HELLO_OK)
  let b := b.admitCell west c
  if !b.portUp west then b
  else
    let mark := if b.bit CNP_STAT.MASTER && !inGap then [Ctl.mark] else []
    b.onCport west (fun p => { p with ctl := p.ctl ++ mark ++ [.hello, .dreq] })

/-! ### Configuration comparison (R460, R461) -/

/-- The body of this device's DIGEST (R460). -/
def Block.digestBody (b : Block) : List Byte :=
  leBytes 1 (b.rd HOOP_EPOCH_ST.ST) ++ leBytes 1 (b.rd HOOP_EPOCH_PEND.H) ++ leBytes 1 (b.rd MAS_BCN_CTL.SEQ_OFS_PEND) ++ [0]
    ++ leBytes 2 (b.rd HOOP_EPOCH_ACT.EPOCH) ++ leBytes 2 (b.rd HOOP_EPOCH_PEND.EPOCH) ++ leBytes 4 b.actSf
    ++ leBytes 4 (b.reg MAS_DOMAIN_ID.all.base).toNat ++ leBytes 4 b.sf ++ slice b.digestAct 0 64 ++ slice b.hoop.warp.digPend 0 64

/-- A DIGEST arrives from a peer and is kept for the comparison (R460). -/
def execDigestReceive (origin : Nat) (body : List Byte) (s : State) : Out := runCmd s (fun b =>
  b.onCnp (fun c => { c with digs := Tbl.insert c.digs (origin % 8) { sf := leAt body 16 4, body := slice body 0 148 } }))

/-- The expected digest bytes of position n. -/
def Block.expected (b : Block) (lo hi : Fld) (n : Nat) : List Byte := leBytes 8 (b.rd64 lo hi n)

/-- A peer's digest test (R461): `d` the digest, `own` this device's, `e` the expected bytes. -/
def Block.digTest (b : Block) (d own e : List Byte) : Bool :=
  let m := b.rd CNP_CTL.CMP_MODE
  if m = 1 then d == own else if m = 2 then slice d 0 8 == e else true

/-- The comparison with position `n`: MISSING, PEND_MM, ACT_MM. -/
def Block.digCompare (b : Block) (n : Nat) : Bool × Bool × Bool :=
  let o := b.digestBody
  let ep := b.expected CNP_EXPP_LO.all CNP_EXPP_HI.all n
  let ea := b.expected CNP_EXPA_LO.all CNP_EXPA_HI.all n
  if n = b.cpos then (false, !b.digTest (slice o 84 64) (slice o 84 64) ep, !b.digTest (slice o 20 64) (slice o 20 64) ea)
  else
    match Tbl.find b.cnp.digs n with
    | none => (true, false, false)
    | some p =>
      let d := p.body
      if p.sf ≠ b.sf then (true, false, false)
      else
        let differs (a k : Nat) : Bool := slice d a k != slice o a k
        let bound := leAt d 0 1 == epARMED || leAt d 0 1 == epHELD || leAt o 0 1 == epARMED || leAt o 0 1 == epHELD
        let pend := differs 0 1 || (bound && (differs 6 2 || differs 8 4 || differs 1 1)) || differs 2 1 || differs 12 4
          || !b.digTest (slice d 84 64) (slice o 84 64) ep
        (false, pend, differs 4 2 || !b.digTest (slice d 20 64) (slice o 20 64) ea)

/-- The comparison at the start of cell 192 (R461). -/
def Block.digCheck (b : Block) : Block :=
  let ns := (List.range 8).filter (fun n => bitOf (b.rd CNP_STAT.PRESENT) n || n == b.cpos)
  let mask (f : Bool × Bool × Bool → Bool) : Nat := ns.foldl (fun m n => if f (b.digCompare n) then m + 2 ^ n else m) 0
  let miss := mask (fun x => x.1)
  let pend := mask (fun x => x.2.1)
  let act := mask (fun x => x.2.2)
  let b := ((b.wr CNP_DIG_ST.MISSING miss).wr CNP_DIG_ST.PEND_MM pend).wr CNP_DIG_ST.ACT_MM act
  let b := b.when (miss != 0 || pend != 0) (fun b => (b.set CNP_EVT.PEND_MISMATCH).setWarp { b.hoop.warp with pendMm := some b.sf })
  let b := b.when (act != 0) (fun b => b.set CNP_EVT.ACT_MISMATCH)
  b.when (miss != 0 || pend != 0 || act != 0) (fun b => b.set HOOP_EVT.DIGEST_MISMATCH)

/-- The Canopy at the start of cell `c`; `inGap`: HTIME reached it in a switchover gap. -/
def Block.cnpCell (b : Block) (c : Nat) (inGap : Bool) : Block :=
  if !b.bit CNP_CTL.EN then b
  else
    let peers := b.cnp.peers.filter (fun e => decide (c < e.2.cell + 3))
    let quiet := if b.cnp.heard then 0 else b.cnp.silent + 1
    let b := b.onCnp (fun x => { x with peers := peers, silent := quiet, heard := false, used := none,
                                        sealHold := x.sealHold && decide (c ≤ x.sealCell) })
    let b := b.wr CNP_STAT.PRESENT (peers.foldl (fun m e => m + 2 ^ e.1) 0)
    let b := b.when (decide (3 ≤ quiet) && !b.bit CNP_STAT.MASTER) (fun b => b.setMaster b.cpos)
    let b := (b.portCell false c inGap).portCell true c inGap
    let b := b.when (c % 256 == 128 && b.rd CNP_STAT.STATE == csMEMBER) (fun b =>
      b.cnpPeers.foldl (fun (b : Block) n => b.cnpSend 5 n b.digestBody) b)
    b.when (c % 256 == 192) Block.digCheck

end Sys2Proof.Machine
end

