-- ==== Sys2Proof/Machine/Txc.lean ====
section
/-! DEFINITION. The commands of the transmit chain and the clearing port (R172–R202). -/

namespace Sys2Proof.Machine

/-! ### Ports -/

/-- A link of a transmit port goes down (R185): the pins return, and what is live on the port ends there. -/
def Block.txLinkDown (b : Block) (n : Nat) : Block :=
  if !b.bit TXC_PORT_ST.LINK_UP n then b
  else
    let b := (b.clr TXC_PORT_ST.LINK_UP n).wr TXC_STAT.LINKS (b.rd TXC_STAT.LINKS &&& (255 ^^^ 2 ^ n))
    (b.portDown n).set TXC_EVT.LINK_DOWN

/-- A write of TXC_PORT_CFG_n: setting EN tests the port (R173). -/
def Block.txPortCfg (b : Block) (n : Nat) (v : BitVec 32) : Block :=
  let was := b.bit TXC_PORT_CFG.EN n
  let err := b.bit TXC_PORT_CFG.ERR n
  let b := (b.setReg (TXC_PORT_CFG.all.off n) (v &&& 0xE71)).flag TXC_PORT_CFG.ERR err n
  let on := b.bit TXC_PORT_CFG.EN n
  if on == was then b
  else
    let b := { b.txLinkDown n with rxa := { (b.txLinkDown n).rxa with lemc := Tbl.erase (b.txLinkDown n).rxa.lemc (8 + n) } }
    let b := b.clr TXC_PORT_ST.ALIGNED n
    if on then b.flag TXC_PORT_CFG.ERR (b.portRefused n) n else b

/-- A write of TXC_PORT_CFG_n (R173). -/
def execTxPortEnable (n : Nat) (val : Word) (s : State) : Out := runCmd s (fun b => b.txPortCfg (n % 8) val)

/-- A transmit port's link goes down (R185). -/
def execTxLinkDown (n : Nat) (s : State) : Out := runCmd s (fun b => b.txLinkDown (n % 8))

/-- A transmit port's link comes up: enabled, with a valid lane rate, and aligned (R135, R172). -/
def execTxLinkUp (n : Nat) (s : State) : Out := runCmd s (fun b =>
  let n := n % 8
  if b.bit TXC_PORT_CFG.EN n && b.rd TXC_PORT_CFG.RATE n != 3 && b.bit TXC_PORT_ST.ALIGNED n && !b.bit TXC_PORT_ST.LINK_UP n then
    ((b.set TXC_PORT_ST.LINK_UP n).wr TXC_STAT.LINKS (b.rd TXC_STAT.LINKS ||| 2 ^ n)).set TXC_EVT.LINK_UP
  else b)

/-! ### Transmissions -/

/-- The symbols a transmission sends (R93–R106, R308). -/
def Block.txSymbols (b : Block) (t : Tx) : List Nat :=
  match t.frame with
  | .buf h typ =>
    let len := Tbl.get (fun _ => 0) b.rxa.fbLen h
    frameSymbols (typ + len * 4 + t.code * 2 ^ 12 + t.mod * 2 ^ 15) t.mod (b.fbBytes h 0 len)
  | .ack hdr echo => ackSymbols hdr echo
  | .bytes typ l => frameSymbols (typ + l.length * 4 + t.code * 2 ^ 12 + t.mod * 2 ^ 15) t.mod l

/-- The sequence index of a transmission: by the cell of its first chip and SEQ_OFS at it; 0 for a beacon (R92, R174, R241). -/
def Block.txSeq (b : Block) (t : Tx) : Nat :=
  if (b.askFrame t.frame).1 = tyBEACON then 0 else seqIndex (cellOf t.t1 % 256) t.ch (b.seqOfsAt t.t1) t.sfc

/-- What a transmission radiates on a port: its level, −18 dBFS rms less its attenuation, in 0.25 dB (R180), its symbols, and its chips (R89, R174). -/
def Block.txRadiate (b : Block) (t : Tx) (n : Nat) : Output :=
  let q := b.txSeq t
  let l := b.txSymbols t
  .radiate n t.ch t.sfc q t.t1 (-72 - (t.atten : Int)) l (chipsOf (spreadSeq t.sfc q) l)

/-- CLIP of every transmission that is active on port `n` (R174, R182). -/
def Block.portClip (b : Block) (n : Nat) : Block :=
  let on (t : Tx) : Bool := t.ports.any (fun p => p.port == n && p.started && p.ended == .live)
  let ts : Tbl Tx := b.txc.txs.map (fun (e : Nat × Tx) => (e.1, if on e.2 then { e.2 with clip := true } else e.2))
  { b with txc := { b.txc with txs := ts } }

/-- The internal PA enable of port `n` asserts: the switch has fallen TRSW_LEAD before, and blanking has begun BLK_PRE before (R184, R186). -/
def Block.paRise (b : Block) (n q : Nat) : Block :=
  if b.paOn n then b
  else
    let b := b.gapStart (8 + n) (b.reg (TXC_BLANK.all.off n)) (q - b.blkPre)
    (b.emit (.pinAt "TR_SW" n false (q - b.trLead n))).emit (.pinAt "PA_EN" n false q)

/-- The PA enable of transmission `h` on port `n` comes due (R184, R186, R197): while clearing is active the port is suppressed; else the
switch and the enable fall, the receive ports in TXC_BLANK_n are blanked, and the samples follow. `clipped` samples of the port's sum saturate
(R174). -/
def execTransmissionStart (h n clipped : Nat) (s : State) : Out := runCmd s (fun b =>
  match Tbl.find b.txc.txs h with
  | some t =>
    if !(t.ports.any (fun p => p.port == n && !p.started && p.ended == .live)) then b
    else
      let q := t.startQ - b.paLead n
      let b := b.toQ q
      if b.bit CLR_STAT.ACTIVE && bitOf (b.rd CLR_CTL.PORTMASK) n then (b.portEnd h n .supp).paSettle n b.nowQ
      else
        let t' : Tx := { t with ports := t.ports.map (fun p => if p.port == n then { p with started := true } else p) }
        let b := (b.paRise n q).setTx h t'
        let b := ((b.wr TXC_STAT.PA (b.rd TXC_STAT.PA ||| 2 ^ n)).set TXC_PORT_ST.ACTIVE n).incBy TXC_CNT_CLIP.all clipped
        let b := b.when (decide (clipped ≠ 0)) (fun b => (b.portClip n).set TXC_EVT.CLIP)
        b.emit (b.txRadiate t n)
  | none => b)

/-- The radiated interval of transmission `h` ends on port `n` (R184): unless another interval follows within the pin times, the PA enable ends
PA_LAG later and the switch TRSW_LAG after it. -/
def execTransmissionEnd (h n : Nat) (s : State) : Out := runCmd s (fun b =>
  match Tbl.find b.txc.txs h with
  | some t =>
    if !(t.ports.any (fun p => p.port == n && p.started && p.ended == .live)) then b
    else
      let b := (b.toQ t.endQ).portEnd h n .full
      let gap := b.paLag n + b.paLead n + b.trLag n + b.trLead n
      let next := (b.onPort n).any (fun u => u.ports.any (fun p => p.port == n && p.ended == .live) && decide (u.startQ < t.endQ + gap))
      if next then b else b.paSettle n (t.endQ + b.paLag n)
  | none => b)

/-- The next transmission to post. -/
def nextTx (l : Tbl Tx) : Option (Nat × Tx) :=
  l.foldl (fun m x => match m with | some y => if x.2.due < y.2.due then some x else some y | none => some x) none

/-- The outcome counts (R183, R201). -/
def Block.txCountRes (b : Block) (res : Nat) : Block :=
  match res with
  | 0 => b.inc TXC_CNT_SENT.all
  | 1 => (b.inc TXC_CNT_CLEARED.all).set TXC_EVT.CLEARED
  | 2 => (b.inc TXC_CNT_SUPPR.all).set TXC_EVT.SUPPRESSED
  | _ => b

/-- A transmit record posts 64 DSP_CLK cycles after the scheduled radiated interval, with its outcome and charge (R182, R183, R188, R198); to its
strand, as an orphan, or to the beacon builder. -/
def execTxRecordPost (s : State) : Out := runCmd s (fun b =>
  match nextTx b.txc.txs with
  | some (h, t) =>
    let b := b.toQ t.due
    let r := b.txRecord t
    let b := { b with txc := { b.txc with txs := Tbl.erase b.txc.txs h } }
    let b := ((b.txCharge t).txCountRes t.res).txCount
    match t.owner with
    | .strand k =>
      { b.took with txc := { b.txc with recs := b.txc.recs ++ [{ strand := k, handle := h, record := { bytes := r, visible := b.visibleBeat } }] } }
    | .orphan k => b.inc WFT_CNT_ORPHAN.all (engOf k)
    | .beacon => b.beaconPosted t.res
  | none => b)

/-- EN of TXC_CTL takes a value: cleared, it acts as FLUSH (R201). -/
def Block.txcEnable (b : Block) (en : Bool) : Block :=
  if en then b.set TXC_CTL.EN else if b.bit TXC_CTL.EN then (b.clr TXC_CTL.EN).txFlush else b

/-- A write of EN in TXC_CTL (R201). -/
def execTxcEnable (en : Bool) (s : State) : Out := runCmd s (fun b => b.txcEnable en)

/-- FLUSH (R201). -/
def execTxcFlush (s : State) : Out := runCmd s (fun b => b.txFlush)

/-- DWELL_LOCK is set until reset (R189). -/
def execDwellLock (s : State) : Out := runCmd s (fun b => b.set TXC_CTL.DWELL_LOCK)

/-! ### Clearing (R192–R198) -/

/-- CLR_TIME counts the clearing up to now (R194). -/
def Block.clrAccrue (b : Block) : Block :=
  if !b.bit CLR_STAT.ACTIVE then b
  else
    let t := b.txc.clr.accPart + (b.nowQ - b.txc.clr.accFrom)
    ({ b with txc := { b.txc with clr := { b.txc.clr with accFrom := b.nowQ, accPart := t % qAir } } }).incBy CLR_TIME.all (t / qAir)

/-- What a capture does to the transmissions of the gated ports (R197): cut where the radiated interval contains it, suppressed between the PA
enable's instant and the interval. -/
def Block.clrCut (b : Block) : Block :=
  (maskPorts (b.rd CLR_CTL.PORTMASK)).foldl (fun b n =>
    let b := b.txc.txs.foldl (fun b x =>
      let t := x.2
      if t.ports.any (fun p => p.port == n && p.ended == .live) then
        if t.startQ ≤ b.nowQ ∧ b.nowQ ≤ t.endQ then
          match Tbl.find (b.portEnd x.1 n (.cut b.nowQ)).txc.txs x.1 with
          | some u => (b.portEnd x.1 n (.cut b.nowQ)).setTx x.1 { u with cutAt := if u.cutAt = 0 then b.clk.htime else u.cutAt }
          | none => b
        else if t.startQ - b.paLead n ≤ b.nowQ ∧ b.nowQ < t.startQ then b.portEnd x.1 n .supp
        else b
      else b) b
    (b.paSettle n b.nowQ).emit (.sampleGate n true (b.nowQ + 40 * qDsp))) b

/-- A capture of CLR_REQ (R194); the first zero sample leaves the gated ports 40 DSP_CLK cycles later (R28, R193). -/
def Block.clrCapture (b : Block) : Block :=
  let b := b.clrAccrue
  let b := b.when (!b.bit CLR_STAT.ACTIVE) (fun b => { b with txc := { b.txc with clr := { b.txc.clr with accFrom := b.nowQ } } })
  let b := { b with txc := { b.txc with clr := { b.txc.clr with capture := b.nowQ } } }
  let b := ((b.inc CLR_CNT.all).wr64 CLR_LAST_LO.all CLR_LAST_HI.all b.clk.htime.toNat).set CLR_EVT.CLR_START
  ((b.set CLR_STAT.ACTIVE).set CLR_STAT.REQ).clrCut

/-- CLR_REQ rises (R193, R194, R197): the PA gate forces the pads high, the rise is captured and stamped, and clearing is active. While a reset is
held only the PA gate acts (R202); its release then takes the capture. -/
def execClrReqRise (s : State) : Out := runCmd s (fun b =>
  if b.pins.clrReq then b
  else
    let b := { b with pins := { b.pins with clrReq := true } }
    let b := if b.pwr.rst.isSome then b else b.clrCapture
    b.emit (.pin "CLR_ACK" 0 b.clrAck))

/-- CLR_REQ falls: the PA gate opens (R195). -/
def execClrReqFall (s : State) : Out := runCmd s (fun b =>
  if !b.pins.clrReq then b
  else ({ b with pins := { b.pins with clrReq := false }, txc := { b.txc with clr := { b.txc.clr with fall := b.nowQ } } }.clr
    CLR_STAT.REQ).emit (.pin "CLR_ACK" 0 false))

/-- Clearing ends at the later of CLR_REQ synchronised low, within 3 CLR_CLK cycles of its fall, and MIN_HOLD CLR_CLK cycles after the capture
(R194). How long the synchroniser takes within its bound is open (log entry 2). The sample gate opens three CLR_CLK cycles after (R195). -/
def execClearingEnd (s : State) : Out := runCmd s (fun b =>
  if !b.bit CLR_STAT.ACTIVE || b.pins.clrReq then b
  else
    let sync := b.txc.clr.fall + b.freeNat % 25 * qDsp
    let hold := b.txc.clr.capture + b.rd CLR_CTL.MIN_HOLD * 8 * qDsp
    let b := (b.took.toQ (max sync hold)).clrAccrue
    let b := (b.clr CLR_STAT.ACTIVE).set CLR_EVT.CLR_END
    (maskPorts (b.rd CLR_CTL.PORTMASK)).foldl (fun b n => b.emit (.sampleGate n false (max sync hold + 24 * qDsp))) b)

/-- CLR_ACK follows a change of its inputs (R192). -/
def Block.ackDrive (b : Block) (was : Bool) : Block := if b.clrAck == was then b else b.emit (.pin "CLR_ACK" 0 b.clrAck)

/-- A write of CLR_CTL: the gates act on the ports now in PORTMASK, and CLR_ACK follows (R192, R201). A port that joins while clearing is active has its
samples gated; its transmissions are not cut, as the capture lies before (DESIGN CHOICE, log entry 53). -/
def Block.clrCtl (b : Block) (v : BitVec 32) : Block :=
  let was := b.clrAck
  let old := b.rd CLR_CTL.PORTMASK
  let b := (b.setReg CLR_CTL.all.base (v &&& 0xFFFFFF1F)).ackDrive was
  if !b.bit CLR_STAT.ACTIVE then b
  else (List.range 8).foldl (fun b n =>
    let on := bitOf (b.rd CLR_CTL.PORTMASK) n
    if on == bitOf old n then b else b.emit (.sampleGate n on (b.nowQ + 40 * qDsp))) b

/-- CLR_ACK still low two CLR_CLK cycles into a request sets ACK_FAULT (R196). -/
def execAckFaultCheck (s : State) : Out := runCmd s (fun b =>
  if !b.pins.clrReq then b
  else
    let b := b.toQ (b.txc.clr.capture + 16 * qDsp)
    if b.clrAck then b else b.set CLR_EVT.ACK_FAULT)

/-- The pin sequence of a port overlaps the instants from `s` to `e` (R184, R199): of a transmission still to come or under way, or, after the
last, until the switch has returned. -/
def Block.pinsBusy (b : Block) (n s e : Nat) : Bool :=
  (b.onPort n).any (fun t => t.ports.any (fun p => p.port == n && p.ended == .live)
      && overlaps (t.startQ - b.paLead n - b.trLead n) (t.endQ + b.paLag n + b.trLag n) s e)
    || bitOf (b.rd TXC_STAT.PA) n || decide (s < Tbl.get (fun _ => 0) b.txc.paOff n + b.trLag n)

/-- The gate self-test of port `n` at the start of the present cell (R199, R200). `gateOk` and `smpOk` say whether the PA gate forced the pad high
and whether the monitor saw only zero; `rise` that CLR_REQ rose during the test, which abandons it. -/
def execGateSelfTest (n : Nat) (gateOk smpOk rise : Bool) (s : State) : Out := runCmd s (fun b =>
  let n := n % 8
  let lg := b.rd CLR_CTL.TEST_LOG2
  let cs := cellOf b.clk.htime * 2 ^ 24 * qHt
  if lg == 15 || !bitOf (b.rd CLR_CTL.PORTMASK) n || b.sf % 2 ^ lg != 0 || cellOf b.clk.htime % 256 == 0 || b.pins.clrReq
      || b.pinsBusy n cs (cs + 64 * qDsp) || Tbl.get (fun _ => 2 ^ 32) b.txc.tested n == b.sf then b
  else if rise then b.inc CLR_TEST_ST.SKIPPED
  else
    let paOk := gateOk && !b.pins.padLow.getLsbD n
    let mark (f : Fld) (bad : Bool) (b : Block) : Block := b.wr f (if bad then b.rd f ||| 2 ^ n else b.rd f &&& (255 ^^^ 2 ^ n))
    let b := { b with txc := { b.txc with tested := Tbl.put (fun _ => 2 ^ 32) b.txc.tested n b.sf } }
    let b := mark CLR_TEST_ST.SMP_FAIL (!smpOk) (mark CLR_TEST_ST.PA_FAIL (!paOk) b)
    let b := (b.when (!paOk) (fun b => b.set CLR_EVT.TEST_FAIL_PA)).when (!smpOk) (fun b => b.set CLR_EVT.TEST_FAIL_SMP)
    let b := b.when (!gateOk) (fun b => (b.emit (.pinAt "PA_EN" n false cs)).emit (.pinAt "PA_EN" n true (cs + 32 * qDsp)))
    if paOk && smpOk then mark TXC_STAT.STOPPED false b
    else if b.bit CLR_CTL.FAIL_STOP then (mark TXC_STAT.STOPPED true b).portAbort n
    else b)

end Sys2Proof.Machine
end

