-- ==== Sys2Proof/Machine/Cells.lean ====
section
/-! DEFINITION. The cell boundary pulse and all that the blocks schedule on it (R46), and the step of HTIME (R53). What has a command of its own
(the freeze point, the activation, beacons, windows, checks) is that command's effect. -/

namespace Sys2Proof.Machine

/-- Every block at the start of cell `n`; `inGap`: its boundary fell in a switchover gap. -/
def Block.cellStart (b : Block) (n : Nat) (inGap : Bool) : Block :=
  let ended := b.clk.cell
  let b : Block := { b with clk := { b.clk with cell := n } }
  let b := (b.rxaAtCell ended).txcAtCell.shpCell
  let b := b.hoopCell.cnpCell n inGap
  let b := b.when (n % 256 == 255) (fun b => b.slotDecideSf (n / 256 + 1))
  let b := b.slotSwapAt (n / 256)
  b.when (n % 256 == 0) (fun b => { b with ras := { b.ras with tchkWait := false } })

/-- HTIME after a step that removes the phase error `e`. -/
def stepped (t : BitVec 64) (e : Int) : BitVec 64 := BitVec.ofInt 64 ((t.toNat : Int) - e)

/-- The instant, on the scale before the step, of the next cell boundary of the stepped scale (R53). -/
def stepInstant (t : BitVec 64) (e : Int) : Nat := ((((t.toNat : Int) - e) / (2 ^ 24 : Nat) + 1) * (2 ^ 24 : Nat) + e).toNat

/-- A step waits: LOCK is UNLOCKED or ACQUIRING and STEP_EN is 1 (R53). -/
def Block.stepDue (b : Block) : Option Int :=
  if b.lock ≤ lkACQUIRING ∧ b.bit HOOP_CTL.STEP_EN = true then b.hoop.sync.pendStep else none

/-- The step takes place at this instant (R53, R213, R456): strobes passed over are counted as late and
never issue; after a backward step none issues up to the
latest already issued, and sealed messages wait. -/
def Block.stepNow (b : Block) (e : Int) : Block :=
  let old := b.clk.htime
  let new := stepped old e
  let b := if e < 0 then
      let n := b.strobesPassed old.toNat new.toNat
      let b := b.setSync { b.hoop.sync with strobeFloor := if b.hoop.sync.strobeFloor.toNat < new.toNat then new else b.hoop.sync.strobeFloor }
      b.when (n != 0) (fun b => (b.incBy HOOP_LATE_CNT.all n).set HOOP_EVT.LATE)
    else
      let b := b.setSync { b.hoop.sync with strobeFloor := b.hoop.sync.lastStrobe + 1 }
      { b with cnp := { b.cnp with sealHold := true } }
  let b := (b.setSync { b.hoop.sync with pendStep := none }).setWarp { b.hoop.warp with scan := new.toNat }
  let b : Block := { b with clk := { b.clk with htime := new } }
  ((b.setReg MAS_SYNC_BASE.all.base (BitVec.ofNat 32 (b.sf + 1))).set MAS_EVT.SYNC_STEP).set HOOP_EVT.STEP

/-- HTIME reaches its next cell, and its boundary pulse is issued (R46), or the next cell of the stepped scale when that comes first (R53). While no
copy of the Hoop drives the outputs no pulse is issued: one that falls in a switchover gap follows at its end (DESIGN CHOICE, log entry 27), and
none comes once the outputs are frozen for good (R44, R78, R82). -/
def execCellBoundary (s : State) : Out := runCmd s (fun b =>
  let next := (b.clk.cell + 1) * 2 ^ 24
  let at_ : Block := b.toTime (BitVec.ofNat 64 next)
  if b.hoop.red.dead then { at_ with clk := { at_.clk with cell := b.clk.cell + 1 } }
  else if b.hoop.red.gap then (if at_.clk.beat ≤ b.hoop.red.gapEnd then at_ else b)
  else
    match b.stepDue with
    | none => at_.cellStart (b.clk.cell + 1) false
    | some e =>
      if next < stepInstant b.clk.htime e then at_.cellStart (b.clk.cell + 1) false
      else
        let b := (b.toTime (BitVec.ofNat 64 (stepInstant b.clk.htime e))).stepNow e
        b.cellStart (cellOf b.clk.htime) false)

/-- The gap ends (R78); a cell boundary that HTIME passed in it is pulsed then. -/
def execFailoverGapEnd (flaw : Bool) (s : State) : Out := runCmd s (fun b =>
  if !b.hoop.red.gap then b
  else
    let b := b.gapOver flaw
    b.when (decide (b.clk.cell < cellOf b.clk.htime)) (fun b => b.cellStart (cellOf b.clk.htime) true))

end Sys2Proof.Machine
end

