-- ==== Sys2Proof/Machine/SeedCore.lean ====
section
/-! DEFINITION. The Seedfall fields of a record and the session's counters (R484). -/

namespace Sys2Proof.Machine

/-- The counter of a SEED_ST value: 1 receiving, 2 complete, 3 applied, 4 failed. -/
def seedCnt (st : Nat) : Option Fld :=
  match st with
  | 1 => some UPD_SEED_CNT_RX.all
  | 2 => some UPD_SEED_CNT_DONE.all
  | 3 => some UPD_SEED_CNT_APPL.all
  | 4 => some UPD_SEED_CNT_FAIL.all
  | _ => none

/-- A session has been started since reset, and its number. -/
def Block.seedSession (b : Block) : Option Nat := if b.rd UPD_SEED_ST.ST = 0 then none else some (b.rd UPD_SEED_ST.SESSION)

/-- The SEED_ST of a record in the session `n`: 0 when the record is of another session. -/
def seedOf (n : Nat) (r : List Byte) : Nat := if leAt r 112 2 = n then leAt r 114 1 else 0

/-- A node moves from state `old` to state `st` of the session (R484): the counters follow, and SEED_REPORT sets when one changes. -/
def Block.seedMove (b : Block) (old st : Nat) : Block :=
  if old = st then b
  else
    let b := match seedCnt old with | some f => b.wr f (b.rd f - 1) | none => b
    let b := match seedCnt st with | some f => b.inc f | none => b
    b.set UPD_EVT.SEED_REPORT

/-- The record with SEED_SESSION and SEED_ST. -/
def seedRecord (r : List Byte) (n st : Nat) : List Byte := withChk (splice (splice r 112 (leBytes 2 n)) 114 (leBytes 1 st))

end Sys2Proof.Machine
end

