-- ==== Sys2Proof/Machine/Grove.lean ====
section
/-! DEFINITION. The commands of the Grove: enable, replay, write-backs, initialisation, the sweeper, the heard table, host access, and what the
steward cores do with its records (R310–R331). -/

namespace Sys2Proof.Machine

/-! ### Enable, drain, journal -/

/-- EN of GRV_CTL goes to 1: the journal is replayed before READY sets (R322). -/
def Block.grvEnable (b : Block) : Block := if b.bit GRV_CTL.EN then b else (b.set GRV_CTL.EN).set GRV_STAT.REPLAYING

/-- A write of EN = 1 (R322). -/
def execGrvEnable (s : State) : Out := runCmd s Block.grvEnable

/-- Entry `j` of the journal with VALID = 1 and a good JCHK; `none` with `true` where JCHK fails. -/
def Block.jrnlEntry (b : Block) (j : Nat) : Option (Nat × Nat × List Byte) × Bool :=
  let e := b.dramBytes (b.grvJrnl j) 256
  if leAt e 252 4 != crc32 (slice e 0 252) then (none, true)
  else if bitOf (leAt e 0 4) 31 then (some (leAt e 4 4, leAt e 0 4 % 2 ^ 25, slice e 16 128), false) else (none, false)

/-- Insertion in ascending SEQ, taken modulo 2^32 from the oldest (R322). -/
def insertSeq (x : Nat × Nat × List Byte) : List (Nat × Nat × List Byte) → List (Nat × Nat × List Byte)
  | [] => [x]
  | y :: l => if (y.1 + 2 ^ 32 - x.1) % 2 ^ 32 < 2 ^ 31 then x :: y :: l else y :: insertSeq x l

/-- An INDEX word written with VALID = 0. -/
def Block.jrnlClear (b : Block) (j : Nat) : Block :=
  b.dramWrite (b.grvJrnl j) (leBytes 4 (b.dramLe (b.grvJrnl j) 4 % 2 ^ 25))

/-- The replay ends (R322): whole entries are copied home in order, entries whose JCHK fails are discarded and counted, every entry is written
with VALID = 0, and READY sets. -/
def execGrvReplayDone (s : State) : Out := runCmd s (fun b =>
  if !b.bit GRV_STAT.REPLAYING then b
  else
    let b := b.dramTouch (b.grvJrnl 0) (2 ^ 18)
    let es := (List.range 1024).map b.jrnlEntry
    let good := (es.filterMap (·.1)).foldr insertSeq []
    let bad := es.any (·.2)
    let b := good.foldl (fun b e => b.dramWrite (b.grvRec e.2.1) e.2.2) b
    let b := (List.range 1024).foldl Block.jrnlClear b
    let b := (b.when bad (fun b => b.set GRV_EVT.JRNL_DROP)).when (!good.isEmpty) (fun b => b.set GRV_EVT.REPLAYED)
    (b.clr GRV_STAT.REPLAYING).set GRV_STAT.READY)

/-- Every dirty line joins the write-back queue. -/
def Block.queueDirty (b : Block) : Block := (b.grv.lines.filter (fun e => e.2.dirty)).foldl (fun b e => b.wbQueue e.2.idx e.2.data) b

/-- EN goes to 0: every dirty line is written back, every lock released, the cache invalidated (R319, R320, R330). -/
def Block.grvDisable (b : Block) : Block :=
  if !b.bit GRV_CTL.EN then b
  else
    let b := b.queueDirty
    let b := { b with grv := { b.grv with lines := [] } }.lockCount
    (((b.clr GRV_CTL.EN).clr GRV_STAT.READY).clr GRV_STAT.REPLAYING).set GRV_STAT.DRAINING

/-- A write of EN = 0 (R330). -/
def execGrvDisable (s : State) : Out := runCmd s Block.grvDisable

/-- The write-backs of EN = 0 or FLUSH have left: DRAINING and FLUSH read 0 (R330). -/
def execGrvDrainDone (s : State) : Out := runCmd s (fun b =>
  if b.grv.wb.isEmpty then (b.clr GRV_STAT.DRAINING).clr GRV_CTL.FLUSH else b)

/-- The oldest write-back takes its next step (R321): the journal entry with VALID = 1, the record home, the INDEX word with VALID = 0. -/
def execWriteback (s : State) : Out := runCmd s (fun b =>
  match b.grv.wb with
  | w :: _ =>
    let j := b.grv.seq % 1024
    if b.grv.wbStep = 0 then
      let e := leBytes 4 (w.idx + 2 ^ 31) ++ leBytes 4 b.grv.seq ++ List.replicate 8 0 ++ slice w.image 0 128 ++ List.replicate 108 0
      let b := b.dramWrite (b.grvJrnl j) (e ++ leBytes 4 (crc32 e))
      { b with grv := { b.grv with wbStep := 1 } }
    else if b.grv.wbStep = 1 then
      let b := b.dramWrite (b.grvRec w.idx) (slice w.image 0 128)
      { b with grv := { b.grv with wbStep := 2 } }
    else
      let b := (b.dramWrite (b.grvJrnl j) (leBytes 4 w.idx)).wbPop
      ({ b with grv := { b.grv with wbStep := 0, seq := (b.grv.seq + 1) % 2 ^ 32 } }).inc GRV_CNT_WB.all
  | [] => b)

/-! ### INIT, RECHK, FLUSH (R323) -/

/-- Record 0 as INIT writes it: SELF with both counters 0xFFFF_FFFF. -/
def selfRecord : List Byte :=
  withChk (splice (splice (splice (List.replicate 128 0) 56 [5]) 64 (List.replicate 4 0xFF)) 68 (List.replicate 4 0xFF))

/-- A write of INIT (R323): with EN = 0 every record is written FREE, record 0 SELF, the map and the journal cleared, GRV_USED 0; else WR_IGN. -/
def Block.grvInit (b : Block) : Block :=
  if b.bit GRV_CTL.EN then b.set GRV_EVT.WR_IGN
  else
    let b := (List.range 33554432).foldl (fun b i => b.dramWrite (b.grvRec i) (if i = 0 then selfRecord else freeRecord)) b
    let b := b.dramWrite (b.grvMap 0) (List.replicate (2 ^ 22) 0)
    let b := b.dramWrite (b.grvJrnl 0) (List.replicate (2 ^ 18) 0)
    (b.set GRV_CTL.INIT).wr GRV_USED.USED 0

def execGrvInit (s : State) : Out := runCmd s Block.grvInit

/-- INIT completes: its bit reads 0 (R323). -/
def execGrvInitDone (s : State) : Out := runCmd s (fun b => b.clr GRV_CTL.INIT)

/-- RECHK on one record, as DRAM holds it: CHK recomputed unless the record is poisoned, which is counted and reported (R330), the map bit by its STATE;
whether it counts as used. -/
def Block.rechkOne (b : Block) (i : Nat) : Block × Bool :=
  let a := b.grvRec i
  let b := b.dramTouch a 128
  let bad := b.dramPoisoned a 128
  let d := b.dramBytes a 128
  let used := bad || recState d != gsFREE
  let b := if bad then b.grvPoison else b.dramWrite a (withChk d)
  let m := b.dramByte (b.grvMap i)
  let bit : Byte := BitVec.ofNat 8 (2 ^ (i % 8))
  (b.dramWrite (b.grvMap i) [if used then m ||| bit else m &&& ~~~bit], used && i != 0)

/-- A write of RECHK (R323). -/
def Block.grvRechk (b : Block) : Block :=
  if b.bit GRV_CTL.EN then b.set GRV_EVT.WR_IGN
  else
    let (b, n) := (List.range 33554432).foldl (fun (x : Block × Nat) i => let r := x.1.rechkOne i; (r.1, if r.2 then x.2 + 1 else x.2)) (b, 0)
    (b.set GRV_CTL.RECHK).wr GRV_USED.USED n

def execGrvRechk (s : State) : Out := runCmd s Block.grvRechk

/-- RECHK completes: its bit reads 0 (R323). -/
def execGrvRechkDone (s : State) : Out := runCmd s (fun b => b.clr GRV_CTL.RECHK)

/-- A write of FLUSH (R323): with EN = 1 every line now dirty is written back and clean; else WR_IGN. -/
def Block.grvFlush (b : Block) : Block :=
  if !b.bit GRV_CTL.EN then b.set GRV_EVT.WR_IGN
  else
    let b := b.queueDirty
    let ls : Tbl GLine := b.grv.lines.map (fun (e : Nat × GLine) => (e.1, { e.2 with dirty := false }))
    ({ b with grv := { b.grv with lines := ls } }.set GRV_CTL.FLUSH).set GRV_STAT.DRAINING

def execGrvFlush (s : State) : Out := runCmd s Block.grvFlush

/-! ### The sweeper (R326) -/

/-- A pass begins where none is in progress, PERIOD superframes after the last began at the earliest (R326). -/
def Block.sweepBegin (b : Block) : Block :=
  match b.grv.sweep with
  | some _ => b
  | none =>
    let b := match b.grv.sweepSf with | some s => b.toTime (htAt (s + b.rd GRV_SWEEP_CFG.PERIOD) 0) | none => b
    { b with grv := { b.grv with sweep := some 0, sweepSf := some b.sf } }.set GRV_STAT.SWEEP_RUN

/-- The sweeper visits the next record of its pass, and the pass ends with the last (R326). A record that is ACTIVE, not locked, and silent for more than
SILENT_N × 2^H superframes is marked SILENT: the STATE byte only, with the CHK that goes with it (log entry 26). -/
def Block.sweepVisit (b : Block) (i : Nat) : Block :=
  let b := b.recordTouch i
  let r := b.recordNow i
  let age := b.sf - leAt r 76 4
  if b.recordPoisoned i then b.grvPoison
  else if recState r != gsACTIVE || b.recordLocked i || decide (age ≤ b.rd GRV_SWEEP_CFG.SILENT_N * 2 ^ b.rd HOOP_EPOCH_ACT.H) then b
  else ((b.recordPatch i (withChk (recSetState r gsSILENT)) 56 1).inc GRV_CNT_SILENT.all).set GRV_EVT.SILENT

/-- The sweeper's next visit, of the record its pass has come to (R326); `last` tells whether it is the last of the directory. Another visit is none
(log entry 10). -/
def execSweepVisit (idx : Nat) (last : Bool) (s : State) : Out := runCmd s (fun b =>
  if !b.bit GRV_CTL.SWEEP_EN || !b.bit GRV_STAT.READY || b.grv.sweep.getD 0 != idx || last != decide (33554431 ≤ idx) then b
  else
    let b := b.sweepBegin
    let i := idx
    let b := b.sweepVisit i
    if i < 33554431 then { b with grv := { b.grv with sweep := some (i + 1) } }
    else { b with grv := { b.grv with sweep := none } }.clr GRV_STAT.SWEEP_RUN)

/-! ### The heard table (R327) -/

/-- The set of an address. -/
def hrdSet (a : Nat) : Nat := (a % 8192) ^^^ (a / 8192 % 8192) ^^^ (a / 2 ^ 26 % 4)

/-- The transmitter's address of a received frame (R327). -/
def heardAddr (hdr : Nat) (f : List Byte) : Option Nat :=
  if hType hdr = tySHORT then (if bitOf (leAt f 0 1) 2 then none else some (leAt f 1 4 % 2 ^ 28))
  else if hType hdr = tyDATA then
    let c := leAt f 0 2
    if bitOf c 2 then none
    else if bitOf c 3 then
      let o := if bitOf c 0 then 14 else 10
      let next := leAt f o 1 / 16
      some (if next = 0 then leAt f 6 4 % 2 ^ 28 else leAt f (o + 1 + 4 * (next - 1)) 4 % 2 ^ 28)
    else some (leAt f 6 4 % 2 ^ 28)
  else none

/-- The ways of an address's set. -/
def Block.hrdWays (b : Block) (a : Nat) : List (Nat × Option HeardE) :=
  (List.range 8).map (fun w => (hrdSet a * 8 + w, Tbl.find b.grv.heard (hrdSet a * 8 + w)))

/-- The oldest of the entries, the lower way on a tie. -/
def hrdOldest (l : List (Nat × HeardE)) : Option Nat :=
  (l.foldl (fun m x => match m with
    | some (y : Nat × HeardE) => if x.2.sf * 256 + x.2.cell < y.2.sf * 256 + y.2.cell then some x else some y
    | none => some x) none).map (·.1)

/-- The updater takes the oldest record waiting (R327): a hit rewrites the entry, a miss inserts it, evicting where the set is full. A random
eviction is open (log entry 2). -/
def execHeardUpdate (s : State) : Out := runCmd s (fun b =>
  match b.grv.heardQ with
  | (r, f) :: rest =>
    let b := { b with grv := { b.grv with heardQ := rest } }
    match heardAddr (leAt r 4 4) f with
    | some a =>
      let np := leAt r 25 1
      let pairs := (List.range 4).flatMap (fun i => if i < np then slice r (32 + 8 * i) 2 else [0, 0])
      let e (n : Nat) : HeardE := { addr := a, sf := b.sf % 2 ^ 32, cell := cellOf b.clk.htime % 256, nport := np, count := n,
                                    rssi := leAt r 36 2, snr := leAt r 20 2, ports := pairs }
      let put (b : Block) (k n : Nat) : Block := { b with grv := { b.grv with heard := Tbl.insert b.grv.heard k (e n) } }
      let ways := b.hrdWays a
      match ways.findSome? (fun x => match x.2 with | some y => if y.addr = a then some (x.1, y) else none | none => none) with
      | some (k, y) => put b k (min 65535 (y.count + 1))
      | none =>
        match ways.find? (fun x => x.2.isNone) with
        | some x => (put b x.1 1).inc GRV_CNT_HRD_INS.all
        | none =>
          let k := if b.bit GRV_CTL.HRD_REPL then (ways.map (·.1)).getD (Config.lfsrPick b.grv.hrdLfsr 8 % 8) 0
            else (hrdOldest (ways.filterMap (fun x => x.2.map (fun y => (x.1, y))))).getD 0
          ((((put b k 1).when (b.bit GRV_CTL.HRD_REPL) (fun b => { b with grv := { b.grv with hrdLfsr := Config.lfsrNext b.grv.hrdLfsr } })).inc GRV_CNT_HRD_INS.all).inc GRV_CNT_HRD_EVICT.all).set GRV_EVT.HRD_EVICT
    | none => b
  | [] => b)

/-- A write of HRD_CLEAR invalidates every heard entry (R330). -/
def Block.hrdClear (b : Block) : Block := { b with grv := { b.grv with heard := [] } }.set GRV_CTL.HRD_CLEAR
def execHrdClear (s : State) : Out := runCmd s Block.hrdClear

/-- The invalidation is complete: HRD_CLEAR reads 0 (R330). -/
def execHrdClearDone (s : State) : Out := runCmd s (fun b => b.clr GRV_CTL.HRD_CLEAR)

/-- The bytes of a heard entry (R327); zeros where it is invalid. -/
def hrdBytes (e : Option HeardE) : List Byte :=
  match e with
  | some e => leBytes 4 (e.addr + 2 ^ 31) ++ leBytes 4 e.sf ++ leBytes 1 e.cell ++ leBytes 1 e.nport ++ leBytes 2 e.count ++ leBytes 2 e.rssi
      ++ leBytes 2 e.snr ++ e.ports ++ List.replicate 8 0
  | none => List.replicate 32 0

/-- An entry loaded into GRV_HRD_DATA (R330). -/
def Block.hrdLoad (b : Block) (k : Nat) : Block :=
  let l := hrdBytes (Tbl.find b.grv.heard k)
  ((List.range 8).foldl (fun b i => b.setReg (GRV_HRD_DATA.all.off i) (BitVec.ofNat 32 (leAt l (4 * i) 4))) b).wr GRV_HRD_ST.IDX k

/-- A write of GRV_HRD_IDX (R330). -/
def Block.hrdIdxWrite (b : Block) (v : BitVec 32) : Block := (b.wr GRV_HRD_IDX.IDX v.toNat).hrdLoad (v.toNat % 65536)
def execHrdIndexLoad (val : Word) (s : State) : Out := runCmd s (fun b => b.hrdIdxWrite val)

/-- A write of GRV_HRD_KEY looks the address up, and loads the entry when found (R330). -/
def Block.hrdKeyWrite (b : Block) (v : BitVec 32) : Block :=
  let a := v.toNat % 2 ^ 28
  let b := b.wr GRV_HRD_KEY.KEY a
  match (b.hrdWays a).find? (fun x => match x.2 with | some y => y.addr == a | none => false) with
  | some x => (b.hrdLoad x.1).set GRV_HRD_ST.FOUND
  | none => b.clr GRV_HRD_ST.FOUND

def execHrdKeyLookup (val : Word) (s : State) : Out := runCmd s (fun b => b.hrdKeyWrite val)

/-! ### Host access (R325, R329) -/

/-- The image in GRV_HA_DATA_0–31. -/
def Block.haImage (b : Block) : List Byte := wordsBytes ((List.range 32).map (fun i => b.reg (GRV_HA_DATA.all.off i)))

/-- A host-access operation starts: while BUSY it is ignored with WR_IGN; else it is decided now, and completes later (R329). -/
def Block.haStart (b : Block) (op : Nat) (f : Block → HaOp × Block) : Block :=
  if b.bit GRV_HA_ST.BUSY then b.set GRV_EVT.WR_IGN
  else
    let b := (b.wr GRV_HA_CMD.OP op).set GRV_HA_ST.BUSY
    let r := if b.bit GRV_CTL.EN && b.bit GRV_STAT.READY || decide (5 ≤ op) then f b else ({ status := 8, data := none, idx := none }, b)
    { r.2 with grv := { r.2.grv with ha := some r.1 } }

/-- An operation that ends with a status only. -/
def haOnly (st : Nat) (b : Block) : HaOp × Block := ({ status := st, data := none, idx := none }, b)

/-- READ (R329): from the cache when resident, else from DRAM. -/
def Block.haRead (b : Block) : Block := b.haStart 0 (fun b =>
  let i := b.rd GRV_HA_IDX.IDX
  let b := b.recordTouch i
  if b.recordPoisoned i then haOnly 2 b.grvPoison
  else ({ status := 0, data := some (b.recordNow i), idx := none }, b))
def execHaRead (s : State) : Out := runCmd s Block.haRead

/-- WRITE (R313, R314, R325, R329): SILENT and the reserved states are refused; a change of bytes 0–55 invalidates the node's working keys (R357). -/
def Block.haWrite (b : Block) : Block := b.haStart 1 (fun b =>
  let i := b.rd GRV_HA_IDX.IDX
  let im := b.haImage
  if i = 0 then haOnly 6 b
  else if 6 ≤ recState im || recState im == gsSILENT then haOnly 7 b
  else if b.recordLocked i then haOnly 1 b
  else
    let b := b.recordTouch i
    let old := b.recordNow i
    let b := b.recordPut i (stored old im)
    haOnly 0 (b.when (slice old 0 56 != slice im 0 56) (fun b => b.wkDropAddr (b.grvAddr i))))
def execHaWrite (s : State) : Out := runCmd s Block.haWrite

/-- A map bit, and GRV_USED with it. -/
def Block.mapSet (b : Block) (i : Nat) (v : Bool) : Block :=
  let m := b.dramByte (b.grvMap i)
  let bit : Byte := BitVec.ofNat 8 (2 ^ (i % 8))
  (b.dramWrite (b.grvMap i) [if v then m ||| bit else m &&& ~~~bit]).wr GRV_USED.USED (if v then b.rd GRV_USED.USED + 1 else b.rd GRV_USED.USED - 1)

/-- The image may register an endpoint: STATE JOINING, ACTIVE or DISABLED (R325). -/
def regState (im : List Byte) : Bool := recState im == gsJOINING || recState im == gsACTIVE || recState im == gsDISABLED

/-- ALLOC_ANY: the lowest FREE index (R325). The host's image is stored as it is, its DECL too (DESIGN CHOICE, log entry 54: R126 does not say who puts
DC50 into a record before its JOIN_REQ). -/
def Block.haAllocAny (b : Block) : Block := b.haStart 2 (fun b =>
  let im := b.haImage
  if !regState im then haOnly 7 b
  else if 33554431 ≤ b.rd GRV_USED.USED then haOnly 3 b
  else
    match (List.range 33554432).find? (fun i => i != 0 && b.recordFree i) with
    | some i => ({ status := 0, data := none, idx := some i }, (b.recordPut i (withChk im)).mapSet i true)
    | none => haOnly 3 b)
def execHaAllocAny (s : State) : Out := runCmd s Block.haAllocAny

/-- ALLOC_AT (R325); of the image's DECL as ALLOC_ANY (DESIGN CHOICE, log entry 54). -/
def Block.haAllocAt (b : Block) : Block := b.haStart 3 (fun b =>
  let i := b.rd GRV_HA_IDX.IDX
  let im := b.haImage
  if i = 0 then haOnly 6 b
  else if !regState im then haOnly 7 b
  else if !b.recordFree i then haOnly 4 b
  else haOnly 0 ((b.recordPut i (withChk im)).mapSet i true))
def execHaAllocAt (s : State) : Out := runCmd s Block.haAllocAt

/-- RELEASE (R319, R325, R329). -/
def Block.haRelease (b : Block) : Block := b.haStart 4 (fun b =>
  let i := b.rd GRV_HA_IDX.IDX
  if i = 0 then haOnly 6 b
  else if b.recordFree i then haOnly 5 b
  else if b.recordLocked i then haOnly 1 b
  else haOnly 0 ((b.recordPut i freeRecord).mapSet i false))
def execHaRelease (s : State) : Out := runCmd s Block.haRelease

/-- OP 5–7 completes with BAD_OP (R329). -/
def Block.haBadOp (b : Block) (op : Nat) : Block := b.haStart (5 + op % 3) (haOnly 9)
def execHaBadOp (op : Nat) (s : State) : Out := runCmd s (fun b => b.haBadOp op)

/-- The operation completes: its data and index, STATUS, BUSY 0, HA_DONE (R329). -/
def execHaComplete (s : State) : Out := runCmd s (fun b =>
  match b.grv.ha with
  | some h =>
    let b := { b with grv := { b.grv with ha := none } }
    let b := match h.data with
      | some d => (List.range 32).foldl (fun (b : Block) i => b.setReg (GRV_HA_DATA.all.off i) (BitVec.ofNat 32 (leAt d (4 * i) 4))) b
      | none => b
    let b := match h.idx with | some i => b.wr GRV_HA_IDX.IDX i | none => b
    ((b.clr GRV_HA_ST.BUSY).wr GRV_HA_ST.STATUS h.status).set GRV_EVT.HA_DONE
  | none => b)

/-! ### The steward cores -/

/-- The commands of a MACCMD payload (R221), CID and body: one whose CLEN overruns the payload ends them. -/
def macCommands : Nat → List Byte → List (Nat × List Byte)
  | 0, _ => []
  | fuel + 1, l =>
    if l.length < 2 then []
    else
      let n := leAt l 1 1
      if l.length < 2 + n then [] else (leAt l 0 1, slice l 2 n) :: macCommands fuel (l.drop (2 + n))

/-- The bodies of the commands of a payload that have a CID; others are skipped (R221). -/
def macBodies (cid : Nat) (l : List Byte) : List (List Byte) :=
  ((macCommands l.length l).filter (fun c => c.1 == cid)).map (·.2)

/-- A JOIN_ACCEPT with its STATUS and RETRY leaves for the node of record `idx` (R221, R225). -/
def Block.joinReply (b : Block) (idx status retry : Nat) : Block := b.emit (.joinReply (b.grvAddr idx) status retry)

/-- The declarations of a JOIN_REQ body recorded in a record, with FWVER and LAST_RX (R221, R312, R325). -/
def joinRecord (r body : List Byte) (now : BitVec 64) : List Byte :=
  let decl := leAt body 2 1 % 8 + (leAt body 1 1 / 2 % 2) * 8 + (leAt body 3 1 % 4) * 16
  splice (splice (splice (splice r 57 (leBytes 1 decl)) 58 (leBytes 1 (leAt body 0 1))) 108 (leBytes 4 (leAt body 4 4))) 72 (leBytes 8 now.toNat)

/-- One JOIN_REQ of record `idx` (R225, R325): a DISABLED record is answered so; else the declarations are recorded, and the reply is BAD_DECLARATION,
NO_CAPACITY where no `slot` can be assigned, or ACCEPTED, which awaits its ACK. -/
def Block.joinReq (b : Block) (idx : Nat) (slot : Bool) (full off : Nat) (body : List Byte) : Block :=
  match b.stwRead 1 idx with
  | (some r, b) =>
    let st := recState r
    if st = gsDISABLED then b.joinReply idx 3 off
    else if st = gsJOINING ∨ st = gsACTIVE ∨ st = gsSILENT then
      let r := joinRecord r body b.clk.htime
      -- a node in state complete that joins with the session's FWVER has applied the image (R484)
      let b := match b.seedSession, b.upd.seed with
        | some n, some e => if e.fwver = leAt body 4 4 ∧ seedOf n r = 2 then (b.stwWrite 1 idx (seedRecord r n 3)).seedMove 2 3 else b.stwWrite 1 idx r
        | _, _ => b.stwWrite 1 idx r
      if leAt body 0 1 % 2 = 0 ∨ leAt body 1 1 % 2 = 0 then b.joinReply idx 2 0
      else if !slot then b.joinReply idx 1 full
      else ({ b with stw := { b.stw with joins := if b.stw.joins.contains idx then b.stw.joins else b.stw.joins ++ [idx] } }).joinReply idx 0 0
    else b
  | (none, b) => b

/-- Steward core 1 takes a payload of a PKIND that opened under the key of record `idx`, and admits the JOIN_REQs of a MACCMD (R32, R116, R221, R225, R325); with `acked`
the ACK to a JOIN_ACCEPT with STATUS 0 has been accepted instead, and the record becomes ACTIVE (R313). While a strand holds the record's lock the steward drops
either (DESIGN CHOICE, log entry 54). -/
def execJoinReqAdmit (idx pkind : Nat) (payload : List Byte) (slot : Bool) (retryFull retryOff : Nat) (acked : Bool) (s : State) : Out := runCmd s (fun b =>
  if !b.bit GRV_STAT.READY || !b.stewardUp 1 then b
  else if acked then
    if !b.stw.joins.contains idx then b
    else match b.stwRead 1 idx with
      | (some r, b) =>
        let b := { b with stw := { b.stw with joins := b.stw.joins.filter (· != idx) } }
        let st := recState r
        if st = gsJOINING ∨ st = gsACTIVE ∨ st = gsSILENT then b.stwWrite 1 idx (recSetState r gsACTIVE) else b
      | (none, b) => b
  else if pkind != 1 then b
  else ((macBodies 1 payload).filter (fun l => l.length == 8)).foldl (fun b l => b.joinReq idx slot (retryFull % 65536) (retryOff % 65536) l) b)

/-- A candidate parent: its address, link quality, path quality and HOPS (R328). -/
structure Parent where
  addr : Nat
  link : Int
  path : Int
  hops : Nat
  deriving DecidableEq, Repr

/-- The parent chain from `a`, `n` steps at most, contains `x`. -/
def Block.chainHas (b : Block) (x : Nat) : Nat → Nat → Bool
  | 0, a => a == x
  | n + 1, a => a == x || (a % 2 ^ 25 != 0 && b.chainHas x n (leAt (b.recordNow (a % 2 ^ 25)) 80 4 % 2 ^ 28))

/-- The candidates for a reporting node's parent (R328). -/
def Block.candidates (b : Block) (x : Nat) (nb : List (Nat × Int)) : List Parent :=
  let age := b.rd GRV_RL_CFG.AGE
  let dev : List Parent := match (b.hrdWays x).findSome? (fun w => match w.2 with | some e => if e.addr = x then some e else none | none => none) with
    | some e => if b.sf - e.sf ≤ age then
        let q := signed 8 ((e.ports.getD 1 0).toNat)
        [{ addr := b.grvAddr 0, link := q, path := min q 127, hops := 1 }] else []
    | none => []
  dev ++ nb.filterMap (fun n =>
    let r := b.recordNow (n.1 % 2 ^ 25)
    let h := leAt r 59 1 % 16
    if homeOf n.1 = b.rd CNP_STAT.POS ∧ recState r = gsACTIVE ∧ bitOf (leAt r 57 1) 5 = true ∧ 1 ≤ h ∧ h ≤ 8 ∧ b.chainHas x 8 n.1 = false then
      some { addr := n.1, link := n.2, path := min n.2 (signed 8 (leAt r 87 1)), hops := h + 1 }
    else none)

/-- The better of two candidates: the highest path quality, then the fewest HOPS, then the lowest address. -/
def Parent.better (p q : Parent) : Bool :=
  if p.path != q.path then decide (q.path < p.path) else if p.hops != q.hops then decide (p.hops < q.hops) else decide (p.addr < q.addr)

/-- The neighbours of a ROUTE_REPORT body with their qualities (R221): NNB of 1–8, then ADDR and QUAL of each. -/
def routeNbs (l : List Byte) : List (Nat × Int) :=
  let n := leAt l 0 1
  if n = 0 ∨ 8 < n ∨ l.length < 1 + 5 * n then []
  else (List.range n).map (fun i => (leAt l (1 + 5 * i) 4 % 2 ^ 28, signed 8 (leAt l (5 + 5 * i) 1)))

/-- One ROUTE_REPORT of node `x` (R328). -/
def Block.routeReport (b : Block) (x : Nat) (nb : List (Nat × Int)) : Block :=
  let i := x % 2 ^ 25
  let r := b.recordNow i
  if b.recordPoisoned i then (b.stwUpdate 2 i id).2
  else if recState r == gsFREE then b
  else
    let cs := b.candidates x nb
    let cur := cs.find? (fun c => c.addr == leAt r 80 4 % 2 ^ 28)
    let stale := decide (b.rd GRV_RL_CFG.AGE < b.sf - leAt r 120 4)
    match cs.foldl (fun m c => match m with | some p => if Parent.better c p then some c else some p | none => some c) none with
    | some p =>
      if cur.isNone || stale || decide (signed 8 (leAt r 87 1) + b.rd GRV_RL_CFG.HYST ≤ p.path) then
        (b.stwUpdate 2 i (fun r =>
          let r := splice (splice r 80 (leBytes 4 p.addr)) 84 (leBytes 1 (unsigned 8 p.link))
          splice (splice (splice r 87 (leBytes 1 (unsigned 8 p.path))) 59 (leBytes 1 p.hops)) 120 (leBytes 4 b.sf))).2
      else
        match cur with
        | some c => if c.link = signed 8 (leAt r 84 1) then (b.stwUpdate 2 i (fun r => splice r 120 (leBytes 4 b.sf))).2 else b
        | none => b
    | none => b

/-- Steward core 2 takes a MACCMD payload of node `x` from queue RLQ, and keeps the route fields of its record by the ROUTE_REPORTs in it (R32, R221,
R328). -/
def execRouteReportProcess (x : Nat) (payload : List Byte) (s : State) : Out := runCmd s (fun b =>
  if !b.bit GRV_RL_CFG.RL_EN || !b.bit GRV_STAT.READY || !b.stewardUp 2 || homeOf x != b.rd CNP_STAT.POS then b
  else ((macBodies 7 payload).map routeNbs).foldl (fun b nb => b.routeReport x nb) b)

end Sys2Proof.Machine
end

