-- ==== Sys2Proof/Machine/WeftAsy.lean ====
section
/-! DEFINITION. The instructions of the asynchronous units and their deliveries (R255–R260, R278–R283, R296–R309, R353–R358). -/

namespace Sys2Proof.Machine

/-! ### Tickets (R255–R258, R279) -/

/-- A status word of success and of failure (R279). -/
def okSt (x : Nat) : BitVec 64 := BitVec.ofNat 64 (x % 2 ^ 56)
def failSt (code x : Nat) : BitVec 64 := BitVec.ofNat 64 (2 ^ 63 + code % 128 * 2 ^ 56 + x % 2 ^ 56)

/-- The fields an ASY instruction uses, with the bits `aux` of AUX. -/
def uAsy (aux : Nat) : Nat := uRD ||| uTK ||| uNB ||| aux

/-- A delivery in `lat` beats is noted under the instruction's ticket; in the blocking form the strand waits for it (R255, R257). -/
def Block.ticket (b : Block) (k : Nat) (w : BitVec 64) (u : TkUnit) (lat : Nat) (status : BitVec 64) (area : Nat) (data : List Byte)
    (key : Option Key) : Block :=
  let due := b.clk.beat + lat
  b.onStrand k (fun s =>
    let t : Ticket := { unit := u, due := due, rs := iRD w, status := status, area := area, data := data, key := key, seq := s.seq }
    { s with tks := Tbl.insert s.tks (iTK w) t, seq := s.seq + 1, wait := if iNB w then s.wait else .ticket (iTK w) })

/-- A delivery writes its status register, unless a later-issued instruction's delivery of the same beat has (R258). -/
def Strand.deliverReg (s : Strand) (t : Ticket) : Strand :=
  match Tbl.find s.lastDel t.rs with
  | some (d, q) => if d = t.due ∧ t.seq < q then s else { (s.setW t.rs t.status) with lastDel := Tbl.insert s.lastDel t.rs (t.due, t.seq) }
  | none => { (s.setW t.rs t.status) with lastDel := Tbl.insert s.lastDel t.rs (t.due, t.seq) }

/-- A KEYREQ's delivery fills the holder of its ticket, or empties it (R282). -/
def Strand.deliverKey (s : Strand) (tk : Nat) (t : Ticket) : Strand :=
  if t.unit != .keyreq then s
  else match t.key with
    | some x => { s with kh := Tbl.insert s.kh tk x }
    | none => { s with kh := Tbl.erase s.kh tk }

/-- The ticket is free, and a strand that waits for it goes on in the delivery beat (R257). -/
def Strand.deliverEnd (s : Strand) (tk due : Nat) : Strand :=
  { s with tks := Tbl.erase s.tks tk, wait := if s.wait = .ticket tk then .none else s.wait,
           ready := if s.wait = .ticket tk then due else s.ready }

/-- The delivery of ticket `tk` of strand `k`, if it is of unit `u` (R255, R258, R278): the data area, the status, the holder, and what `after`
counts. The last delivery of a weave that has ended retires it (R264). -/
def Block.deliver (b : Block) (k tk : Nat) (u : TkUnit) (after : Ticket → Block → Block) : Block :=
  match Tbl.find (b.strand k).tks tk with
  | some t =>
    if t.unit != u then b
    else
      let b := b.toBeat t.due
      let b := if t.data.isEmpty then b else b.dmemWrite (engOf k) t.area t.data
      let b := b.onStrand k (fun s => ((((s.settle (t.due - 1)).deliverReg t).deliverKey tk t).deliverEnd tk t.due).settle t.due)
      let b := after t b
      if (b.strand k).ending && (b.strand k).tks.isEmpty then b.retire k t.due else b
  | none => b

/-- The CODE of a failure status; 0 on success (R279). -/
def stCode (v : BitVec 64) : Nat := if v.getLsbD 63 then bitsOf v.toNat 62 56 else 0

/-- An area of `n` bytes at `a` reaches beyond 0xFFFF (R280). -/
def beyond (a n : Nat) : Bool := decide (0x10000 < a + n)

/-- An area is checked at issue, before anything starts (R280). -/
def Block.withArea (b : Block) (k a n : Nat) (f : Block → Block) : Block :=
  if beyond a n then b.weftFault k fDMEM_RANGE (b.curPc k) else f b

/-! ### CTXLD and CTXST (R296, R297) -/

/-- CTXLD (R256, R296). -/
def execICtxld (k : Nat) (s : State) : Out := runCmd s (fun b =>
  b.issue k 0x80 (onlyUses (uAsy 1 ||| uRA ||| uDADDR)) (fun w => { regs := [iRA w], tks := [iTK w] })
    (fun w b => b.withArea k (iDADDR w) 128 (fun b =>
      let i := (b.w k (iRA w)).toNat % 2 ^ 25
      let ((c, miss, d), b) := b.grvLoad k i (bitOf (iAUX w) 0)
      let b := b.inc (if miss then GRV_CNT_MISS.all else GRV_CNT_HIT.all)
      let held := match b.grvFind i with | some (_, l) => l.lock == some k | none => false
      let st := if c = 0 then okSt (i + miss.toNat * 2 ^ 32 + held.toNat * 2 ^ 33) else failSt c (i + miss.toNat * 2 ^ 32)
      b.ticket k w .ctxld (if miss then 640 else 24) st (iDADDR w) d none)))

/-- What the status of a CTXLD counts and raises as it is delivered (R330). -/
def Block.ctxldCount (t : Ticket) (b : Block) : Block :=
  match stCode t.status with
  | 1 => (b.inc GRV_CNT_SETFULL.all).set GRV_EVT.SET_FULL
  | 2 => b.grvPoison
  | 3 | 4 => b.inc GRV_CNT_LOCKFAIL.all
  | 5 => (b.inc GRV_CNT_BUSY.all).set GRV_EVT.BUSY
  | _ => b

/-- The delivery of a CTXLD (R296). -/
def execCtxldDelivery (k tk : Nat) (s : State) : Out := runCmd s (fun b => b.deliver k tk .ctxld Block.ctxldCount)

/-- CTXST (R297, R318). -/
def execICtxst (k : Nat) (s : State) : Out := runCmd s (fun b =>
  b.issue k 0x81 (onlyUses (uAsy 1 ||| uRA ||| uDADDR)) (fun w => { regs := [iRA w], tks := [iTK w] })
    (fun w b => b.withArea k (iDADDR w) 128 (fun b =>
      let i := (b.w k (iRA w)).toNat % 2 ^ 25
      let ((c, miss), b) := b.grvStore k i (b.dmemBytes (engOf k) (iDADDR w) 128) (bitOf (iAUX w) 0)
      let b := b.inc (if miss then GRV_CNT_MISS.all else GRV_CNT_HIT.all)
      b.ticket k w .ctxst 4 (if c = 0 then okSt i else failSt c 0) 0 [] none)))

/-- What the status of a CTXST counts and raises as it is delivered (R330). -/
def Block.ctxstCount (t : Ticket) (b : Block) : Block :=
  match stCode t.status with
  | 1 => (b.inc GRV_CNT_BUSY.all).set GRV_EVT.BUSY
  | 2 => b.inc GRV_CNT_LOCKFAIL.all
  | _ => b

/-- The delivery of a CTXST (R297). -/
def execCtxstDelivery (k tk : Nat) (s : State) : Out := runCmd s (fun b => b.deliver k tk .ctxst Block.ctxstCount)

/-! ### KEYREQ (R298, R353–R357) -/

/-- Unwraps whose delivery beat has come fill the cache (R355). -/
def Block.unwrapSettle (b : Block) : Block :=
  let done := b.hwd.unwraps.filter (fun u => decide (u.due ≤ b.clk.beat))
  let b := { b with hwd := { b.hwd with unwraps := b.hwd.unwraps.filter (fun u => decide (b.clk.beat < u.due)) } }
  done.foldl (fun b u => match u.key with
    | some x => if u.fill then b.wkFill u.addr u.hdr u.v x else b
    | none => b) b

/-- A key as a holder receives it. -/
def mkKey (x : List Byte) (mask gen : Nat) : Key := { bytes := x, mask := mask, gen := gen }

/-- The status codes of checks 1 to 4 for a blob (R353); 0 where all pass. -/
def Block.blobCheck (b : Block) (hdr : List Byte) : Nat :=
  if !b.hwdNormal then 6
  else if leAt hdr 0 1 != 1 || decide (1 < leAt hdr 3 1) || (leAt hdr 2 1 != 16 && leAt hdr 2 1 != 32) then 2
  else if leAt hdr 2 1 != 16 then 7
  else if !bitOf (leAt hdr 1 1) mkFC then 3
  else 0

/-- A blob KEYREQ decided in its issue beat (R353–R356; one whose blob is being unwrapped takes that result): the code, whether it is of the unwrap class, the key, and the block after it. -/
def Block.keyBlob (b : Block) (a : Nat) (blob : List Byte) : (Nat × Bool × Option Key) × Block :=
  let b := b.unwrapSettle
  let hdr := slice blob 0 8
  let v := slice blob 8 16
  let mask := leAt hdr 1 1
  let gen := leAt hdr 4 4
  let c := b.blobCheck hdr
  match b.wkFind a hdr v with
  | some (i, e) =>
    let b := b.inc HWD_CNT_HIT.all
    if c = 0 then ((0, false, some (mkKey e.key mask gen)), b.wkTouch i e) else ((c, false, none), b)
  | none =>
    if c ≠ 0 then ((c, true, none), b)
    else
      let note (key : Option (List Byte)) (own : Bool) (b : Block) : Block :=
        let u : Unwrap := { addr := a, hdr := hdr, v := v, key := key, due := b.clk.beat + 96, fill := true, own := own }
        { b with hwd := { b.hwd with unwraps := b.hwd.unwraps ++ [u] } }
      match b.hwd.unwraps.find? (fun u => u.own && u.addr == a && u.hdr == hdr && u.v == v) with
      | some u =>
        let b := note u.key false b
        match u.key with
        | some x => ((0, true, some (mkKey x mask gen)), b)
        | none => ((1, true, none), b)
      | none =>
        if b.rd HWD_CREDIT.CREDIT = 0 then ((5, true, none), b)
        else
          let b := (b.wr HWD_CREDIT.CREDIT (b.rd HWD_CREDIT.CREDIT - 1)).inc HWD_CNT_UNWRAP.all
          let key := (b.wrapKey (leAt hdr 3 1)).bind (fun wk => blobOpen wk blob (leBytes 4 a))
          let b := note key true b
          match key with
          | some x => ((0, true, some (mkKey x mask gen)), b)
          | none => ((1, true, none), b)

/-- A slot KEYREQ decided in its issue beat (R348, R353): the half a weave of superframe `sf` receives. -/
def Block.keySlot (b : Block) (m sf : Nat) : Nat × Option Key :=
  let h := (b.slot m).halfFor sf b.clk.beat
  if !b.hwdNormal then (6, none)
  else if h.typ = 0 then (4, none)
  else if h.typ ≠ 1 then (7, none)
  else if !bitOf h.mask mkFC then (3, none)
  else (0, some (mkKey h.key h.mask h.gen))

/-- The superframe of the slot of a strand's weave. -/
def Block.weaveSf (b : Block) (k : Nat) : Nat := match (b.strand k).weave with | some wv => wv.sf | none => b.sf

/-- The fields of a KEYREQ (R298): a slot source names no address and no area, a blob source no slot. -/
def keyreqLegal (w : BitVec 64) : Bool :=
  if bitOf (iAUX w) 15 then onlyUses (uAsy 0x803F) w else onlyUses (uAsy 0 ||| uRA ||| uDADDR) w

/-- KEYREQ (R256, R298, R353). -/
def execIKeyreq (k : Nat) (s : State) : Out := runCmd s (fun b =>
  b.issue k 0x84 keyreqLegal (fun w => { regs := if bitOf (iAUX w) 15 then [] else [iRA w], tks := [iTK w] })
    (fun w b =>
      if bitOf (iAUX w) 15 then
        let (c, key) := b.keySlot (iAUX w % 64) (b.weaveSf k)
        let st := match key with | some x => okSt (x.gen % 2 ^ 32) | none => failSt c 0
        (b.inc HWD_CNT_HIT.all).ticket k w .keyreq 12 st 0 [] key
      else b.withArea k (iDADDR w) 56 (fun b =>
        let ((c, unwrap, key), b) := b.keyBlob ((b.w k (iRA w)).toNat % 2 ^ 28) (b.dmemBytes (engOf k) (iDADDR w) 56)
        let u := unwrap.toNat * 2 ^ 32
        let st := match key with | some x => okSt (x.gen % 2 ^ 32 + u) | none => failSt c u
        b.ticket k w .keyreq (if unwrap then 96 else 12) st 0 [] key)))

/-- What the status of a KEYREQ counts and raises as it is delivered (R373); unwraps due fill the cache (R355). -/
def Block.keyreqCount (t : Ticket) (b : Block) : Block :=
  let b := b.unwrapSettle
  match stCode t.status with
  | 1 => (b.inc HWD_CNT_AUTHFAIL.all).set HWD_EVT.AUTH_FAIL
  | 5 => (b.inc HWD_CNT_BUSY.all).set HWD_EVT.UNWRAP_BUSY
  | _ => b

/-- The delivery of a KEYREQ (R282, R298). -/
def execKeyreqDelivery (k tk : Nat) (s : State) : Out := runCmd s (fun b => b.deliver k tk .keyreq Block.keyreqCount)

/-! ### SEAL and OPEN (R299–R302, R358) -/

/-- The AUX fields of SEAL and OPEN (R299): KT, NDIR, PLAIN; KT zero with PLAIN. -/
def cipherLegal (used : Nat) (w : BitVec 64) : Bool :=
  onlyUses (uAsy 0x8037 ||| used) w && (!bitOf (iAUX w) 15 || iAUX w % 8 == 0)

def cipKT (w : BitVec 64) : Nat := iAUX w % 8
def cipNDIR (w : BitVec 64) : Nat := iAUX w / 16 % 4
def cipPLAIN (w : BitVec 64) : Bool := bitOf (iAUX w) 15

/-- The address that NDIR names (R299); none where the frame does not carry it. -/
def Block.nonceAddr (b : Block) (sealing : Bool) (typ ndir : Nat) (f : FrameInfo) (l : List Byte) : Option Nat :=
  match ndir with
  | 0 => f.src
  | 1 => f.dst
  | 2 => f.origin
  | _ => if sealing then some (b.grvAddr 0) else if typ = tyBEACON then some (leAt l 11 1 % 8 * 2 ^ 25) else none

/-- The frame carries the field that NDIR names (R299); a frame that cannot be parsed is judged by its TYPE, and has no FLOOD header. -/
def Block.ndirOk (b : Block) (sealing : Bool) (typ ndir : Nat) (f : Option FrameInfo) (l : List Byte) : Bool :=
  match f with
  | some f => (b.nonceAddr sealing typ ndir f l).isSome
  | none => if ndir ≤ 1 then typ != tyBEACON else if ndir = 2 then false else sealing || typ == tyBEACON

/-- The nonce of R118. -/
def Block.cipNonce (b : Block) (a fcnt ndir : Nat) : List Byte :=
  leBytes 4 a ++ leBytes 4 fcnt ++ leBytes 1 ndir ++ leBytes 4 (b.reg MAS_DOMAIN_ID.all.base).toNat

/-- Beats of a cipher operation on `n` bytes (R247). -/
def cipLat (n : Nat) : Nat := 40 + ceilDiv n 16

/-- What SEAL makes (R300): the frame with its MIC and FCS, or none for FORMAT; and the payload length. -/
def Block.sealFrame (b : Block) (hdr ndir : Nat) (plain : Bool) (key : List Byte) (src : List Byte) : Option (List Byte) × Nat :=
  let typ := hType hdr
  let len := hLen hdr
  let ok := typ != tyACK && decide (14 ≤ len) && decide (len ≤ 1020)
  if plain then
    let f := parseFrame typ (src ++ List.replicate 4 0) len
    (if ok && f.isSome && b.ndirOk true typ ndir f src then some (src ++ leBytes 4 (crc32 src)) else none, len - 4)
  else if !ok then (none, 0)
  else
    match parseFrame typ (src ++ List.replicate 12 0) len with
    | some f =>
      match f.fcnt, b.nonceAddr true typ ndir f src with
      | some c, some a =>
        if !f.sealed then (none, f.payLen)
        else
          let n := b.cipNonce a c ndir
          let p := slice src f.payOff f.payLen
          let aad := leBytes 2 hdr ++ f.aad
          let m := src.take f.payOff ++ ccmCrypt key n p ++ ccmTag key n aad p
          (some (m ++ leBytes 4 (crc32 m)), f.payLen)
      | _, _ => (none, f.payLen)
    | none => (none, 0)

/-- The key a strand's holder keeps (R282). -/
def Block.holder (b : Block) (k t : Nat) : Option Key := Tbl.find (b.strand k).kh t

/-- A new frame buffer holds a frame, and the weave holds it (R154, R283). Which free buffer it is, is open (log entry 2). -/
def Block.fbNew (b : Block) (k : Nat) (frame : List Byte) : Nat × Block :=
  let h := b.pick b.fbufsFree
  let b := (b.took).fbWrite h 0 frame
  let b := { b with rxa := { b.rxa with fbLen := Tbl.insert b.rxa.fbLen h frame.length } }
  (h, b.onStrand k (fun s => { s with fbufs := s.fbufs ++ [h] }))

/-- SEAL (R300, R302). A ticket of success keeps its handle, plus one, in place of an area. -/
def execISeal (k : Nat) (s : State) : Out := runCmd s (fun b =>
  b.issue k 0x85 (cipherLegal (uRB ||| uDADDR))
    (fun w => { regs := [iRB w], tks := [iTK w], holders := if cipPLAIN w then [] else [cipKT w] })
    (fun w b =>
      let hdr := (b.w k (iRB w)).toNat % 65536
      let plain := cipPLAIN w
      let n := hLen hdr - (if plain then 4 else 12)
      b.withArea k (iDADDR w) n (fun b =>
        let src := b.dmemBytes (engOf k) (iDADDR w) n
        let key := b.holder k (cipKT w)
        let (frame, plen) := b.sealFrame hdr (cipNDIR w) plain ((key.map (·.bytes)).getD []) src
        let b := b.inc HWD_CNT_CIPHER.all
        let fail (c : Nat) (b : Block) : Block := b.ticket k w .seal (cipLat plen) (failSt c 0) 0 [] none
        if !b.hwdNormal then fail 6 b
        else if !plain && key.isNone then fail 1 b
        else match frame with
          | none => fail 2 b
          | some l =>
            if b.fbufsFree.isEmpty then fail 5 b
            else
              let (h, b) := b.fbNew k l
              b.ticket k w .seal (cipLat plen) (okSt (plen % 1024 * 2 ^ 36 + h)) (h + 1) [] none)))

/-- The delivery of a SEAL (R300); one that tamper abandoned gives its buffer back (R364). -/
def execSealDelivery (k tk : Nat) (s : State) : Out := runCmd s (fun b =>
  b.deliver k tk .seal (fun t b =>
    if stCode t.status = 6 ∧ t.area ≠ 0 then b.onStrand k (fun s => { s with fbufs := s.fbufs.filter (fun h => h + 1 != t.area) }) else b))

/-- What OPEN finds in a frame of a buffer (R301): the code, the status fields, and the bytes delivered. -/
def Block.openFrame (b : Block) (hdr ndir : Nat) (plain : Bool) (key : List Byte) (l : List Byte) : Nat × Nat × List Byte :=
  let typ := hType hdr
  let len := hLen hdr
  if !hdrOk hdr || typ == tyACK then (2, 0, [])
  else
    match parseFrame typ l len with
    | some f =>
      if plain && !b.ndirOk false typ ndir (some f) l then (2, 0, [])
      else if plain then (0, (len - 4) % 1024 * 2 ^ 36 + f.fcnt.getD 0, l.take len)
      else match f.fcnt, b.nonceAddr false typ ndir f l with
        | some c, some a =>
          if !f.sealed then (2, 0, [])
          else
            let n := b.cipNonce a c ndir
            let p := ccmCrypt key n (slice l f.payOff f.payLen)
            let aad := leBytes 2 hdr ++ f.aad
            if ccmTag key n aad p = slice l (f.payOff + f.payLen) 8 then
              (0, f.payOff * 2 ^ 46 + f.payLen * 2 ^ 36 + c, l.take f.payOff ++ p)
            else (3, 0, [])
        | _, _ => (2, 0, [])
    | none => if plain && b.ndirOk false typ ndir none l then (0, (len - 4) % 1024 * 2 ^ 36, l.take len) else (2, 0, [])

/-- OPEN (R301, R302). -/
def execIOpen (k : Nat) (s : State) : Out := runCmd s (fun b =>
  b.issue k 0x86 (cipherLegal (uRA ||| uRB ||| uDADDR))
    (fun w => { regs := [iRA w, iRB w], tks := [iTK w], holders := if cipPLAIN w then [] else [cipKT w] })
    (fun w b =>
      let hdr := (b.w k (iRB w)).toNat % 2 ^ 24
      let h := (b.w k (iRA w)).toNat % 1024
      let plain := cipPLAIN w
      let len := hLen hdr
      b.withArea k (iDADDR w) (if plain then len else len - 12) (fun b =>
        let l := b.fbBytes h 0 len
        let held := (b.strand k).fbufs.contains h
        let key := b.holder k (cipKT w)
        let plen := if plain then len - 4 else if held && hdrOk hdr then ((parseFrame (hType hdr) l len).map (·.payLen)).getD 0 else 0
        let b := b.inc HWD_CNT_CIPHER.all
        let done (c x : Nat) (d : List Byte) (b : Block) : Block :=
          b.ticket k w .opened (cipLat plen) (if c = 0 then okSt x else failSt c 0) (iDADDR w) d none
        if !b.hwdNormal then done 6 0 [] b
        else if !held then done 4 0 [] b
        else if !plain && key.isNone then done 1 0 [] b
        else
          let (c, x, d) := b.openFrame hdr (cipNDIR w) plain ((key.map (·.bytes)).getD []) l
          done c x d b)))

/-- The delivery of an OPEN (R301). -/
def execOpenDelivery (k tk : Nat) (s : State) : Out := runCmd s (fun b =>
  b.deliver k tk .opened (fun t b => b.when (stCode t.status == 3) (fun b => b.inc HWD_CNT_MICFAIL.all)))

/-! ### QPUSH, QTRY and QPOP (R303, R304) -/

/-- The fields of QPUSH and QTRY (R303). -/
def pushLegal (w : BitVec 64) : Bool := onlyUses (uRD ||| uRA ||| uDADDR ||| 0xFF) w

/-- The status of a push. -/
def pushSt (c : Nat) : BitVec 64 := if c = 0 then okSt 0 else failSt c 0

/-- QPUSH: the item is placed in its issue beat, or the strand stalls (R260, R303, R384). -/
def execIQpush (k : Nat) (s : State) : Out := runCmd s (fun b =>
  b.issue k 0x88 pushLegal (fun w => { regs := [iRA w], tks := [] })
    (fun w b =>
      let n := (b.w k (iRA w)).toNat % 2048
      b.withArea k (iDADDR w) n (fun b =>
        let d := b.dmemBytes (engOf k) (iDADDR w) n
        let (c, b) := b.qPush (iAUX w % 256) d
        if c = 1 then
          let now := b.clk.beat
          b.onStrand k (fun s => { s with wait := .push (iAUX w % 256) d (iRD w) now })
        else b.result k (iRD w) (pushSt c) 1)))

/-- A stalled QPUSH is decided again, in the beat after space was freed or its queue disabled at the earliest; where it finds space, or its queue
disabled, it completes: the next instruction issues in the beat after (R260, R377, R384). -/
def execQpushStallComplete (k : Nat) (s : State) : Out := runCmd s (fun b =>
  match (b.strand k).wait with
  | .push q d rs since =>
    let free := (b.queue q).freedBeat
    let b := b.toBeat (max since (if 0 < free then free else 0) + 1)
    let (c, b) := b.qPush q d
    if c = 1 then b
    else
      let b := (b.stallAccrue k).result k rs (pushSt c) 1
      let now := b.clk.beat
      b.onStrand k (fun s => { s with wait := .none, ready := now + 1 })
  | _ => b)

/-- QTRY (R260, R303). -/
def execIQtry (k : Nat) (s : State) : Out := runCmd s (fun b =>
  b.issue k 0x89 pushLegal (fun w => { regs := [iRA w], tks := [] })
    (fun w b =>
      let n := (b.w k (iRA w)).toNat % 2048
      b.withArea k (iDADDR w) n (fun b =>
        let (c, b) := b.qPush (iAUX w % 256) (b.dmemBytes (engOf k) (iDADDR w) n)
        (b.when (c == 1) (fun b => b.inc PLQ_CNT_FULL.all)).result k (iRD w) (pushSt c) 1)))

/-- The fields of QPOP (R304): RB is used with EXPECT only. -/
def popLegal (w : BitVec 64) : Bool := onlyUses (uAsy 0x3FF ||| uRA ||| uDADDR ||| (if bitOf (iAUX w) 8 then uRB else 0)) w

/-- QPOP (R304). -/
def execIQpop (k : Nat) (s : State) : Out := runCmd s (fun b =>
  b.issue k 0x8A popLegal (fun w => { regs := if bitOf (iAUX w) 8 then [iRA w, iRB w] else [iRA w], tks := [iTK w] })
    (fun w b =>
      let lim := (b.w k (iRA w)).toNat % 2048
      b.withArea k (iDADDR w) lim (fun b =>
        let ((c, n, d), b) := b.qPop (iAUX w % 256) lim ((b.w k (iRB w)).toNat % 2048) (bitOf (iAUX w) 8) (bitOf (iAUX w) 9)
        b.ticket k w .qpop 6 (if c = 0 then okSt n else failSt c n) (iDADDR w) d none)))

/-- The delivery of a QPOP (R304). -/
def execQpopDelivery (k tk : Nat) (s : State) : Out := runCmd s (fun b => b.deliver k tk .qpop (fun _ b => b))

/-! ### SEEN (R305) -/

/-- SEEN (R231, R305). -/
def execISeen (k : Nat) (s : State) : Out := runCmd s (fun b =>
  b.issue k 0x8C (onlyUses (uAsy 1 ||| uRA ||| uRB)) (fun w => { regs := [iRA w, iRB w], tks := [iTK w] })
    (fun w b =>
      let (hit, b) := b.seenLookup ((b.w k (iRA w)).toNat % 2 ^ 28) ((b.w k (iRB w)).toNat % 65536) (bitOf (iAUX w) 0)
      b.ticket k w .seen 10 (okSt hit.toNat) 0 [] none))

/-- The delivery of a SEEN (R305). -/
def execSeenDelivery (k tk : Nat) (s : State) : Out := runCmd s (fun b => b.deliver k tk .seen (fun _ b => b))

/-! ### RXARM (R143–R145, R306, R307) -/

/-- A descriptor word of a strand's weave, as passed in w4 and w5 (R252, R306). -/
def Block.descWord (b : Block) (k i : Nat) : Nat := match (b.strand k).weave with | some wv => (wv.desc.getD i 0).toNat | none => 0

/-- The strand runs a handover weave. -/
def Block.inHandover (b : Block) (k : Nat) : Bool := match (b.strand k).weave with | some wv => wv.handover | none => false

/-- The instant of acceptance, at the start of beat b + 3 (R145, R178). -/
def Block.acceptance (b : Block) : BitVec 64 := (b.clk.add 3).htime

/-- What RXARM asks for: ports, band, channel, SF_CODE, and whether a reserved field of its block is set. -/
structure RxAsk where
  ports : Nat
  band : Nat
  ch : Nat
  sfc : Nat
  bad : Bool

/-- The parameters of a descriptor, or of a block (R306). -/
def Block.rxAsk (b : Block) (k : Nat) (w : BitVec 64) : RxAsk :=
  if bitOf (iAUX w) 15 then
    { ports := b.descWord k 1, band := bitsOf (b.descWord k 2) 10 8, ch := bitsOf (b.descWord k 0) 21 16, sfc := bitsOf (b.descWord k 0) 24 22,
      bad := b.inHandover k }
  else
    let l := b.dmemBytes (engOf k) (iDADDR w) 8
    { ports := leAt l 0 4, band := leAt l 4 1 % 8, ch := leAt l 5 1 % 64, sfc := leAt l 6 1 % 8,
      bad := decide (8 ≤ leAt l 4 1) || decide (64 ≤ leAt l 5 1) || decide (8 ≤ leAt l 6 1) || leAt l 7 1 != 0 }

/-- The window an accepted RXARM opens (R143, R145). -/
def Block.rxWindow (b : Block) (k : Nat) (w : BitVec 64) (a : RxAsk) (opens closes : BitVec 64) : Window :=
  let first := htQ b.acceptance + 128 * qDsp
  let late := decide (armQ opens < first)
  { strand := k, live := true, band := a.band, ch := a.ch, sfc := a.sfc, ports := BitVec.ofNat 32 a.ports,
    opens := if late then BitVec.ofNat 64 (ceilDiv first qHt) else opens, closes := closes, ack := bitOf (iAUX w) 8,
    mode := iAUX w / 2 ^ 13 % 4, home := iAUX w / 2 ^ 10 % 8, lateArm := late, granted := false, queue := [], dets := [] }

/-- A fifth window would cover a stream, or no window is free (R144). -/
def Block.armFull (b : Block) (w : Window) : Bool :=
  decide (1024 ≤ b.rxa.wins.length)
    || (List.range 2048).any (fun s => b.winCovers w s && decide (4 ≤ (b.rxa.wins.filter (fun e => b.winCovers e.2 s)).length))

/-- The code of R307; 0 where the window opens. -/
def Block.rxStatus (b : Block) (a : RxAsk) (x : Window) : Nat :=
  if !b.bit RXA_CTL.EN then 1
  else if a.bad || decide (b.bandNch a.band ≤ a.ch) || a.sfc == 7 || a.ports == 0
      || (2 ≤ x.mode && x.home == b.rd CNP_STAT.POS) then 2
  else 0

/-- RXARM (R306, R307). Which free window it opens is open (log entry 2). -/
def execIRxarm (k : Nat) (s : State) : Out := runCmd s (fun b =>
  b.issue k 0x90
    (fun w => onlyUses (uAsy 0xFD00 ||| uRA ||| uRB ||| (if bitOf (iAUX w) 15 then 0 else uDADDR)) w
      && (decide (2 ≤ iAUX w / 2 ^ 13 % 4) || iAUX w / 2 ^ 10 % 8 == 0))
    (fun w => { regs := [iRA w, iRB w], tks := [iTK w] })
    (fun w b => b.withArea k (iDADDR w) (if bitOf (iAUX w) 15 then 0 else 8) (fun b =>
      let a := b.rxAsk k w
      let opens := b.w k (iRA w)
      let closes := b.w k (iRB w)
      let x := b.rxWindow k w a opens closes
      let done (st : BitVec 64) (b : Block) : Block := b.ticket k w .rxarm 3 st 0 [] none
      let c := b.rxStatus a x
      if c ≠ 0 then done (failSt c 0) b
      else if closes.toNat < opens.toNat then done (failSt 2 0) b
      else if armQ closes < htQ b.acceptance + 128 * qDsp then done (failSt 3 0) b
      else if b.armFull x then done (failSt 4 0) ((b.inc RXA_WIN_ST.REFUSED).set RXA_EVT.ARM_FULL)
      else
        let h := b.pick ((List.range 1024).filter (fun h => (Tbl.find b.rxa.wins h).isNone))
        let none' : RxPost :=
          { due := armQ closes + (if x.ack then 108 else 60) * sfOfCode a.sfc * tcQ (b.bandProfile a.band) + 212 * qDsp, win := h, lane := none,
            res := some rxNONE, release := false, bytes := noneRecord x }
        done (okSt (h + x.lateArm.toNat * 2 ^ 48)) (((b.took.setWin h x).addPost none').rxCounts))))

/-- The delivery of an RXARM (R307). -/
def execRxarmDelivery (k tk : Nat) (s : State) : Out := runCmd s (fun b => b.deliver k tk .rxarm (fun _ b => b))

/-! ### TXARM (R178, R308, R309) -/

/-- What a TXARM asks for, and whether a reserved field of its block is set (R308). -/
def Block.txAsk (b : Block) (k : Nat) (w : BitVec 64) : TxAsk × Bool :=
  let rb := (b.w k (iRB w)).toNat
  let ack := bitOf (iAUX w) 14
  let frame : TxFrame := if ack then .ack (rb % 65536) (rb / 65536 % 65536) else .buf (rb % 1024) (iAUX w / 2 ^ 12 % 4)
  let t1 := b.w k (iRA w)
  let at' := iAUX w % 256
  if bitOf (iAUX w) 15 then
    let d0 := b.descWord k 0
    let d2 := b.descWord k 2
    ({ owner := .strand k, ports := d2 % 256, band := bitsOf d2 10 8, ch := bitsOf d0 21 16, sfc := bitsOf d0 24 22, mod := bitsOf d0 28 28,
       code := bitsOf d0 27 25, frame := frame, t1 := t1, atten := at' }, b.inHandover k)
  else
    let l := b.dmemBytes (engOf k) (iDADDR w) 8
    let m := leAt l 3 1
    ({ owner := .strand k, ports := leAt l 0 1, band := leAt l 1 1 % 8, ch := leAt l 2 1 % 64, sfc := m % 8, mod := m / 8 % 2, code := m / 16 % 8,
       frame := frame, t1 := t1, atten := at' },
     decide (8 ≤ leAt l 1 1) || decide (64 ≤ leAt l 2 1) || decide (128 ≤ m) || leAt l 4 4 != 0)

/-- TXARM (R178, R308, R309). -/
def execITxarm (k : Nat) (s : State) : Out := runCmd s (fun b =>
  b.issue k 0x91
    (fun w => onlyUses (uAsy 0xF0FF ||| uRA ||| uRB ||| (if bitOf (iAUX w) 15 then 0 else uDADDR)) w
      && (!bitOf (iAUX w) 14 || iAUX w / 2 ^ 12 % 4 == 0))
    (fun w => { regs := [iRA w, iRB w], tks := [iTK w] })
    (fun w b => b.withArea k (iDADDR w) (if bitOf (iAUX w) 15 then 0 else 8) (fun b =>
      let (a, bad) := b.txAsk k w
      let rb := (b.w k (iRB w)).toNat
      let ack := bitOf (iAUX w) 14
      let done (st : BitVec 64) (b : Block) : Block := b.ticket k w .txarm 3 st 0 [] none
      if !ack && !(b.strand k).fbufs.contains (rb % 1024) then done (failSt 10 0) (b.txRefuse 10)
      else if (!ack && iAUX w / 2 ^ 12 % 4 == 1) || (ack && rb % 4 != 1) || a.sfc == 7 || a.ports == 0 || bad then
        done (failSt 11 0) (b.txRefuse 11)
      else
        let (st, h, b) := b.txArm a b.acceptance
        done (if st = 0 then okSt h else failSt st 0) b)))

/-- The delivery of a TXARM (R178). -/
def execTxarmDelivery (k tk : Nat) (s : State) : Out := runCmd s (fun b => b.deliver k tk .txarm (fun _ b => b))

end Sys2Proof.Machine
end

