-- ==== Sys2Proof/Machine/Heartwood.lean ====
section
/-! DEFINITION. The commands of Heartwood (R332–R374): the mailbox commands of steward core 0, tamper, credits, and what the boot ROM does with
the identities. -/

namespace Sys2Proof.Machine

/-! ### Arguments and results (R369, R371) -/

/-- Statuses of R371. -/
def hwSIG_VALID : Nat := 1
def hwTAMPERED : Nat := 0x8101
def hwBAD_SLOT : Nat := 0x8102
def hwSLOT_BUSY : Nat := 0x8103
def hwCHECK_FAIL : Nat := 0x8104
def hwAUTH_FAIL : Nat := 0x8105
def hwNO_PENDING : Nat := 0x8106
def hwTOO_LATE : Nat := 0x8107
def hwMREG_LOCKED : Nat := 0x8108
def hwSLOT_IN_USE : Nat := 0x8109
def hwSIG_INVALID : Nat := 0x810A
def hwDRAM_ERR : Nat := 0x810B
def hwNOT_TAMPERED : Nat := 0x810C

/-- Argument word n as a number. -/
def Block.argN (b : Block) (n : Nat) : Nat := (b.mbxArg n).toNat

/-- `len` bytes from ARG_n upwards (R369). -/
def Block.argBytes (b : Block) (n len : Nat) : List Byte := slice (wordsBytes ((List.range (64 - n)).map (fun i => b.mbxArg (n + i)))) 0 len

/-- Bytes as result words, the last padded with zero (R369). -/
def resWords (l : List Byte) : List (BitVec 32) := bytesWords (ceilDiv l.length 4) l

/-- The words a byte string takes. -/
def wordsOf (n : Nat) : Nat := ceilDiv n 4

/-- ARG_LEN. -/
def Block.argLen (b : Block) : Nat := b.rd SYS_MBX_CMD.ARG_LEN

/-- The command completes with a status alone. -/
def Block.hold (b : Block) (st : Nat) : Block := b.mbxHold st []

/-- A Heartwood command: refused outside NORMAL (R363). -/
def Block.hwdServe (b : Block) (op : Nat) (len : Nat → Bool) (f : Block → Block) : Block :=
  b.mbxServe op len (fun b => if b.hwdNormal then f b else b.hold hwTAMPERED)

/-- One of a list of failures, the first that applies, or `f` (log entry 23). -/
def Block.firstFail (b : Block) (l : List (Bool × Nat)) (f : Block → Block) : Block :=
  match l.find? (·.1) with
  | some (_, st) => b.hold st
  | none => f b

/-- The key length of a type (R343); 0 for a type that takes no key. -/
def typeLen (t : Nat) : Nat := match t with | 1 => 16 | 2 => 32 | 3 => 57 | 4 => 57 | _ => 0

/-- The verification value of a key (R346): the check value of an AES key, the public key of ED448_PRIV. -/
def keyProof (t : Nat) (k : List Byte) : List Byte := if t = 3 then edPublic k else keyCheck k

/-- The command is to do `fx` at its completion (R364, R372; log entry 55). -/
def Block.at (b : Block) (fx : HwdFx) : Block := { b with hwd := { b.hwd with fx := fx } }

/-- The PENDING half of a slot is to be filled (R346). -/
def Block.slotFill (b : Block) (m t mask gen : Nat) (k : List Byte) : Block := b.at (.fill m { typ := t, mask := mask, gen := gen, key := k })

/-- The transport key of a slot: an AES256 ACTIVE half with WRAP in its mask (R352, R370). -/
def Block.transportKey (b : Block) (m : Nat) : Option (List Byte) :=
  let h := (b.slot m).act
  if h.typ = 2 ∧ h.allows mkWRAP = true then some h.key else none

/-! ### State, measurement and identity -/

/-- HWD_GET_STATE (R369), in every state (R363). -/
def execHwdGetState (s : State) : Out := runCmd s (fun b =>
  b.mbxServe 0x1000 (· == 0) (fun b => b.mbxHold mbxOK [b.reg HWD_STATE.all.base]))

/-- The MREG registers show the measurement registers (R337). -/
def Block.mregShow (b : Block) : Block :=
  (List.range 128).foldl (fun b n => b.setReg (HWD_MREG.all.off n) (BitVec.ofNat 32 (leAt (b.mregOf (n / 16)) (4 * (n % 16)) 4))) b

/-- HWD_EXTEND (R336, R370). -/
def execHwdExtend (s : State) : Out := runCmd s (fun b =>
  b.hwdServe 0x1001 (1 < ·) (fun b =>
    let k := b.argN 0 % 8
    let n := b.argN 0 / 2 ^ 16 % 256
    b.firstFail [(n == 0 || decide (240 < n) || b.argLen != 1 + wordsOf n, mbxBAD_LENGTH), (decide (k < 2), hwMREG_LOCKED)] (fun b =>
      (b.at (.extend k (b.argBytes 1 n))).hold mbxOK)))

/-- HWD_GET_IDENTITY (R340, R369). -/
def execHwdGetIdentity (s : State) : Out := runCmd s (fun b =>
  b.hwdServe 0x1002 (· == 0) (fun b =>
    b.mbxHold mbxOK (resWords (edPublic b.sidKey ++ List.replicate 3 0 ++ edPublic b.fidKey))))

/-- HWD_GET_FID_CERT (R341). -/
def execHwdGetFidCert (s : State) : Out := runCmd s (fun b =>
  b.hwdServe 0x1003 (· == 0) (fun b => b.mbxHold mbxOK (resWords b.fidCert)))

/-- The quote of R342. -/
def Block.quote (b : Block) (msel : Nat) (nonce : List Byte) : List Byte :=
  let body := ascii "GRNQUOT1" ++ leBytes 4 (b.reg SYS_CHIP_ID.all.base).toNat ++ leBytes 1 (b.rd HWD_STATE.ST) ++ leBytes 1 msel
    ++ leBytes 1 b.fwRoll ++ [0] ++ leBytes 8 b.clk.htime.toNat ++ nonce ++ ((List.range 8).filter (bitOf msel)).flatMap b.mregOf
  body ++ signData b.fidKey body

/-- A DRAM area outside memory, misaligned or poisoned (R371). -/
def Block.dramBad (b : Block) (a n : Nat) : Bool := a % 64 != 0 || decide (b.dramSize < a + n) || b.dramPoisoned a n

/-- HWD_QUOTE (R342, R369, R371). -/
def execHwdQuote (s : State) : Out := runCmd s (fun b =>
  b.hwdServe 0x1004 (· == 11) (fun b =>
    let q := b.quote (b.argN 0 % 256) (b.argBytes 3 32)
    let a := b.mbxArg64 1
    b.firstFail [(b.dramBad a q.length, hwDRAM_ERR)] (fun b => (b.at (.write a q true)).mbxHold mbxOK [BitVec.ofNat 32 q.length])))

/-! ### Slots (R346–R350) -/

/-- HWD_SLOT_LOAD (R346, R352, R370). -/
def execHwdSlotLoad (s : State) : Out := runCmd s (fun b =>
  b.hwdServe 0x1010 (19 ≤ ·) (fun b =>
    let a := b.argN 0
    let m := a % 64
    let t := a / 2 ^ 16 % 8
    let mask := a / 2 ^ 24
    let n := typeLen t
    let blob := b.argBytes 19 (24 + n)
    let pub := b.argBytes 4 57
    let tk := b.transportKey (a / 2 ^ 8 % 64)
    let bad := n == 0 || decide (64 ≤ mask) || (t != 4 && (tk.isNone || blobKlen blob != n))
    b.firstFail [(b.argLen != (if t = 4 then 19 else 19 + wordsOf (24 + n)) && n != 0, mbxBAD_LENGTH), (bad, hwBAD_SLOT),
        ((b.slot m).st != 0, hwSLOT_BUSY)] (fun b =>
      if t = 4 then (b.slotFill m t mask (b.argN 1) pub).hold mbxOK
      else
        match (if leAt blob 0 1 = 1 then blobOpen (tk.getD []) blob (leBytes 4 m) else none) with
        | some k =>
          if keyProof t k = (if t = 3 then pub else b.argBytes 2 8) then (b.slotFill m t mask (b.argN 1) k).hold mbxOK else b.hold hwCHECK_FAIL
        | none => b.hold hwAUTH_FAIL)))

/-- HWD_SLOT_DERIVE (R338, R346, R370). -/
def execHwdSlotDerive (s : State) : Out := runCmd s (fun b =>
  b.hwdServe 0x1011 (5 ≤ ·) (fun b =>
    let a := b.argN 0
    let m := a % 64
    let t := a / 2 ^ 16 % 8
    let mask := a / 2 ^ 24
    let kd := (b.slot (a / 2 ^ 8 % 64)).act
    let use := bitOf a 14
    let ll := b.argN 3 % 256
    let cl := b.argN 3 / 2 ^ 16
    let text := b.argBytes 4 (ll + cl)
    let bad := t == 0 || decide (3 < t) || decide (64 ≤ mask) || (use && !kd.allows mkKDF)
    b.firstFail [(ll == 0 || decide (32 < ll) || decide (128 < cl) || b.argLen != 4 + wordsOf (ll + cl), mbxBAD_LENGTH), (bad, hwBAD_SLOT),
        ((b.slot m).st != 0, hwSLOT_BUSY)] (fun b =>
      let k := b.kdf (b.argN 1 % 256) (text.take ll) (if use then kd.key else []) (text.drop ll) (typeLen t)
      (b.slotFill m t mask (b.argN 2) k).mbxHold mbxOK (resWords (keyProof t k)))))

/-- HWD_SLOT_COMMIT (R346, R347). -/
def execHwdSlotCommit (s : State) : Out := runCmd s (fun b =>
  b.hwdServe 0x1012 (· == 2) (fun b =>
    let m := b.argN 0 % 64
    let mode := b.argN 0 / 2 ^ 8 % 4
    let sl := b.slot m
    b.firstFail [(mode == 3, hwBAD_SLOT), (sl.st == 0 || sl.st == 3, hwNO_PENDING), (sl.st == 2, hwSLOT_BUSY),
        (mode == 1 && decide (b.argN 1 ≤ b.sf + 1), hwTOO_LATE)] (fun b =>
      (b.at (.commit m mode (if mode = 2 then b.argN 1 % 65536 else b.argN 1))).hold mbxOK)))

/-- HWD_SLOT_CANCEL (R349). -/
def execHwdSlotCancel (s : State) : Out := runCmd s (fun b =>
  b.hwdServe 0x1013 (· == 1) (fun b =>
    let m := b.argN 0 % 64
    let sl := b.slot m
    if sl.st = 1 ∨ sl.st = 2 then (b.at (.cancel m)).hold mbxOK else b.hold hwNO_PENDING))

/-- HWD_WRAP_CFG names a slot. -/
def Block.isWrapSlot (b : Block) (m : Nat) : Bool := b.wrapSlot 0 == some m || b.wrapSlot 1 == some m

/-- HWD_SLOT_ERASE (R370). -/
def execHwdSlotErase (s : State) : Out := runCmd s (fun b =>
  b.hwdServe 0x1014 (· == 1) (fun b =>
    let m := b.argN 0 % 64
    if b.isWrapSlot m then b.hold hwSLOT_IN_USE else (b.at (.erase m)).hold mbxOK))

/-- The storage key of an MSEL (R350). -/
def Block.storeKey (b : Block) (msel : Nat) : List Byte := b.kdf msel (ascii "GRN-STORE") [] [] 32

/-- HWD_SLOT_EXPORT (R350, R351). -/
def execHwdSlotExport (s : State) : Out := runCmd s (fun b =>
  b.hwdServe 0x1015 (· == 1) (fun b =>
    let msel := b.argN 0 / 256 % 256
    let h := (b.slot (b.argN 0 % 64)).act
    if !h.allows mkEXPORT then b.hold hwBAD_SLOT
    else
      let hdr := leBytes 1 2 ++ leBytes 1 h.mask ++ leBytes 1 h.key.length ++ leBytes 1 h.typ ++ leBytes 4 h.gen
      b.mbxHold mbxOK (BitVec.ofNat 32 msel :: resWords (blobSeal (b.storeKey msel) hdr (leBytes 1 msel) h.key))))

/-- HWD_SLOT_IMPORT (R346, R350). -/
def execHwdSlotImport (s : State) : Out := runCmd s (fun b =>
  b.hwdServe 0x1016 (1 < ·) (fun b =>
    let m := b.argN 0 % 64
    let msel := b.argN 0 / 256 % 256
    let hdr := b.argBytes 1 8
    let n := blobKlen hdr
    let t := leAt hdr 3 1
    let blob := b.argBytes 1 (24 + n)
    b.firstFail [(b.argLen != 1 + wordsOf (24 + n), mbxBAD_LENGTH),
        (typeLen t != n || n == 0 || decide (64 ≤ leAt hdr 1 1), hwBAD_SLOT), ((b.slot m).st != 0, hwSLOT_BUSY)] (fun b =>
      match (if leAt hdr 0 1 = 2 then blobOpen (b.storeKey msel) blob (leBytes 1 msel) else none) with
      | some k => (b.slotFill m t (leAt hdr 1 1) (leAt hdr 4 4) k).hold mbxOK
      | none => b.hold hwAUTH_FAIL)))

/-! ### Wrapping (R352, R370) -/

/-- HWD_SET_WRAP (R357, R370). -/
def execHwdSetWrap (s : State) : Out := runCmd s (fun b =>
  b.hwdServe 0x1020 (· == 1) (fun b =>
    let a := b.argN 0
    let w := a % 2
    let m := a / 2 ^ 8 % 64
    let unset := bitOf a 31
    if !unset && (b.transportKey m).isNone then b.hold hwBAD_SLOT
    else
      (b.at (.wrap w (if unset then none else some m))).hold mbxOK))

/-- HWD_WRAP (R352, R370). -/
def execHwdWrap (s : State) : Out := runCmd s (fun b =>
  b.hwdServe 0x1021 (3 < ·) (fun b =>
    let a := b.argN 0
    let w := a % 2
    let attr := a / 2 ^ 24
    let addr := leBytes 4 (b.argN 2 % 2 ^ 28)
    let n := blobKlen (b.argBytes 3 8)
    let blob := b.argBytes 3 (24 + n)
    let tk := b.transportKey (a / 2 ^ 8 % 64)
    b.firstFail [(b.argLen != 3 + wordsOf (24 + n), mbxBAD_LENGTH),
        (tk.isNone || (b.wrapKey w).isNone || decide (64 ≤ attr) || (n != 16 && n != 32), hwBAD_SLOT)] (fun b =>
      match (if leAt blob 0 1 = 1 then blobOpen (tk.getD []) blob addr else none) with
      | some k =>
        let hdr := leBytes 1 1 ++ leBytes 1 attr ++ leBytes 1 n ++ leBytes 1 w ++ leBytes 4 (b.argN 1)
        b.mbxHold mbxOK (resWords (blobSeal ((b.wrapKey w).getD []) hdr addr k))
      | none => b.hold hwAUTH_FAIL)))

/-- One item of a batch (R370): its output, and whether it succeeded. `inKey` opens the input blob. -/
def wrapItem (inKey outKey : Option (List Byte)) (wOut : Nat) (rewrap : Bool) (wIn : Nat) (item : List Byte) : List Byte × Bool :=
  let addr := leBytes 4 (leAt item 0 4 % 2 ^ 28)
  let blob := slice item 4 56
  let n := blobKlen blob
  let fmtOk := leAt blob 0 1 == 1 && (n == 16 || n == 32) && (!rewrap || leAt blob 3 1 == wIn)
  let k := match inKey with | some key => if fmtOk then blobOpen key blob addr else none | none => none
  match k, outKey with
  | some k, some ok =>
    let hdr := leBytes 1 1 ++ slice blob 1 2 ++ leBytes 1 wOut ++ slice blob 4 4
    (slice item 0 4 ++ slice (blobSeal ok hdr addr k) 0 56 ++ List.replicate 4 0, true)
  | _, _ => (slice item 0 4 ++ List.replicate 60 0, false)

/-- The first `k` items of a batch, in order, from `src` to `dst` (R370): the memory as they leave it, the output, and how many succeeded. -/
def Block.wrapItems (b : Block) (inKey outKey : Option (List Byte)) (wOut : Nat) (rewrap : Bool) (wIn src dst k : Nat) : List Byte × Nat :=
  let x := (List.range k).foldl (fun (x : Block × List (List Byte) × Nat) i =>
    let r := wrapItem inKey outKey wOut rewrap wIn (x.1.dramBytes (src + 64 * i) 64)
    (x.1.dramWrite (dst + 64 * i) r.1, r.1 :: x.2.1, x.2.2 + r.2.toNat)) (b, [], 0)
  (x.2.1.reverse.flatten, x.2.2)

/-- HWD_WRAP_BATCH (R370–R372). A batch that ABORT meets stops after `n` items; its items done and failed are complete. A batch takes unwrap
credits only while more than 32 remain (R356). -/
def execHwdWrapBatch (n : Nat) (s : State) : Out := runCmd s (fun b =>
  b.hwdServe 0x1022 (· == 6) (fun b =>
    let a := b.argN 0
    let src := b.mbxArg64 1
    let dst := b.mbxArg64 3
    let count := b.argN 5
    let rewrap := bitOf a 1
    let inKey := if rewrap then b.wrapKey (a / 4 % 2) else b.transportKey (a / 2 ^ 8 % 64)
    b.firstFail [(count == 0 || decide (65536 < count), mbxBAD_LENGTH), ((b.wrapKey (a % 2)).isNone || inKey.isNone, hwBAD_SLOT),
        (decide (b.dramSize < src + 64 * count) || decide (b.dramSize < dst + 64 * count), hwDRAM_ERR)] (fun b =>
      let b := b.dramTouch src (64 * count)
      b.firstFail [(b.dramPoisoned src (64 * count) || b.dramPoisoned dst (64 * count), hwDRAM_ERR)] (fun b =>
      let aborted := b.rd SYS_MBX_STATE.PHASE == phABORTING
      let k := if aborted then min n count else count
      let (out, ok) := b.wrapItems inKey (b.wrapKey (a % 2)) (a % 2) rewrap (a / 4 % 2) src dst k
      let c := b.rd HWD_CREDIT.CREDIT
      let b := b.wr HWD_CREDIT.CREDIT (if 32 < c then max 32 (c - k) else c)
      (b.at (.write dst out false)).mbxHold (if aborted && decide (k < count) then mbxABORTED else mbxOK) [BitVec.ofNat 32 ok, BitVec.ofNat 32 (k - ok)]))))

/-! ### Signatures, cache, tamper -/

/-- HWD_SIGN (R359, R370). -/
def execHwdSign (s : State) : Out := runCmd s (fun b =>
  b.hwdServe 0x1030 (· == 17) (fun b =>
    let h := (b.slot (b.argN 0 % 64)).act
    if h.typ = 3 ∧ h.allows mkSIGN = true then b.mbxHold mbxOK (resWords (edSign h.key (b.argBytes 1 64))) else b.hold hwBAD_SLOT))

/-- HWD_VERIFY (R359, R370). -/
def execHwdVerify (s : State) : Out := runCmd s (fun b =>
  b.hwdServe 0x1031 (· == 61) (fun b =>
    let h := (b.slot (b.argN 0 % 64)).act
    let given := bitOf (b.argN 0) 31
    if !given && !(h.typ == 4 && h.allows mkSIGN) then b.hold hwBAD_SLOT
    else
      let pk := if given then b.argBytes 1 57 else h.key
      b.hold (if edVerify pk (b.argBytes 16 64) (b.argBytes 32 114) then hwSIG_VALID else hwSIG_INVALID)))

/-- HWD_CACHE_FLUSH (R357). -/
def execHwdCacheFlush (s : State) : Out := runCmd s (fun b =>
  b.hwdServe 0x1040 (· == 0) (fun b => (b.at .flush).hold mbxOK))

/-- What the command served does, as it completes with the status held (R346, R347, R357, R370); and the status, NO_PENDING for a CANCEL whose
swap has passed since (R349). -/
def Block.hwdFinish (b : Block) (st : Nat) : Block × Nat :=
  let b' := b.at .none
  match b.hwd.fx with
  | .none => (b, st)
  | .extend k d => ((b'.mregExtend k d).mregShow, st)
  | .fill m h => (b'.setSlot m { b.slot m with other := h, st := 1 }, st)
  | .commit m mode x => (if mode = 0 then b'.slotSwap m true else b'.setSlot m { b.slot m with st := 2, mode := mode, operand := x }, st)
  | .cancel m => if (b.slot m).st = 1 ∨ (b.slot m).st = 2 then (b'.setSlot m (b.slot m).drop, st) else (b', hwNO_PENDING)
  | .erase m => (b'.setSlot m KSlot.empty, st)
  | .wrap w m =>
    let b' := match m with
      | some m => if w = 0 then b'.wr HWD_WRAP_CFG.WRAP_SLOT_0 m else b'.wr HWD_WRAP_CFG.WRAP_SLOT_1 m
      | none => b'
    let b' := if w = 0 then b'.flag HWD_WRAP_CFG.W0_VALID m.isSome else b'.flag HWD_WRAP_CFG.W1_VALID m.isSome
    (b'.wkDrop (fun _ h => leAt h 3 1 == w), st)
  | .flush => (b'.wkDrop (fun _ _ => true), st)
  | .write a d _ => (b'.dramWrite a d, st)

/-- What an aborted or abandoned command leaves (R37, R372): without effect, but the DRAM area of a HWD_QUOTE is undefined. -/
def Block.hwdAbort (b : Block) : Block :=
  match b.hwd.fx with
  | .write a d true => ((b.at .none).dramWrite a (b.freeBytes d.length)).took
  | _ =>
    let n := 170 + 64 * ((List.range 8).filter (bitOf (b.argN 0))).length
    let a := b.mbxArg64 1
    if b.rd SYS_MBX_CMD.OPCODE = 0x1004 ∧ b.argLen = 11 ∧ b.stw.held = none ∧ b.hwdNormal = true ∧ b.dramBad a n = false then
      (b.dramWrite a (b.freeBytes n)).took
    else b.at .none

/-- HWD_TAMPER_CLEAR (R368): in ZEROISED or TAMPERED the latch and CAUSE are cleared. -/
def execHwdTamperClear (s : State) : Out := runCmd s (fun b =>
  b.mbxServe 0x1041 (· == 0) (fun b =>
    if b.rd HWD_STATE.ST == hsZEROISED || b.rd HWD_STATE.ST == hsTAMPERED then
      let b := { b with hwd := { b.hwd with latch := false, aonCause := 0 } }
      ((b.clr HWD_STATE.LATCH).wr HWD_STATE.CAUSE 0).hold mbxOK
    else b.hold hwNOT_TAMPERED))

/-- A write of HWD_TIN_CFG (R362, R373): ignored with WR_IGN once locked; a TIN_FILT of 0 stores 1. -/
def Block.tinWrite (b : Block) (v : BitVec 32) : Block :=
  if b.bit HWD_TIN_CFG.LOCK then b.set HWD_EVT.WR_IGN
  else
    let b := b.setReg HWD_TIN_CFG.all.base (v &&& 0x8000FF0F)
    if b.rd HWD_TIN_CFG.TIN_FILT = 0 then b.wr HWD_TIN_CFG.TIN_FILT 1 else b

/-- A write of HWD_TIN_CFG with LOCK = 1 (R362). -/
def execTinCfgLock (val : Word) (s : State) : Out := runCmd s (fun b => b.tinWrite (val ||| 0x80000000))

/-- A grid point of 250 CORE_CLK cycles (R356): the credit count rises by one below 64. -/
def execUnwrapCreditAdd (s : State) : Out := runCmd s (fun b =>
  let g := b.hwd.grid + 1
  let b := (b.toBeat (ceilDiv (250 * g) 4))
  let b := { b with hwd := { b.hwd with grid := g } }
  let c := b.rd HWD_CREDIT.CREDIT
  if c < 64 then b.wr HWD_CREDIT.CREDIT (c + 1) else b)

/-- VDD_SEC is off in SLEEP (R547). -/
def Block.secOff (b : Block) : Bool := b.pwr.sleep && !b.bit PWR_CTL.SEC_KEEP

/-- A class 1 sensor trips (R361, R364): 0 VDD_SEC, 1 SEC_CLK, 2 temperature, 3 glitch. In SLEEP they act only while VDD_SEC is kept (R549). -/
def execClass1Event (sensor : Nat) (s : State) : Out := runCmd s (fun b => if b.secOff then b else b.class1 (2 ^ (sensor % 4)))

/-- Every class 1 sensor has been in range for 33 AON_CLK cycles (R364). -/
def execAlarmEnd (s : State) : Out := runCmd s (fun b =>
  if b.rd HWD_STATE.ST == hsALARM then (b.wr HWD_STATE.ST hsNORMAL).set HWD_EVT.ALARM_END else b)

/-- TAMPER_IN_i, at a level for a number of AON_CLK cycles, trips: enabled, at its active level, for TIN_FILT cycles (R361, R362). -/
def Block.tinTrips (b : Block) (i : Nat) (level : Bool) (cycles : Nat) : Bool :=
  decide (b.rd HWD_TIN_CFG.TIN_FILT ≤ cycles)
    && (if i = 0 then b.bit HWD_TIN_CFG.EN0 && level == b.bit HWD_TIN_CFG.POL0 else b.bit HWD_TIN_CFG.EN1 && level == b.bit HWD_TIN_CFG.POL1)

/-- A class 2 sensor (R361, R365): 4 the shield trips; 5 and 6: TAMPER_IN_0 and 1 have been at a level for a number of AON_CLK cycles, and trip by
HWD_TIN_CFG. While VDD_SEC is off a trip sets the latch and its cause alone (R367). -/
def execClass2Event (x : Tamper) (s : State) : Out := runCmd s (fun b =>
  let sensor := x.sensor
  let level := x.level
  let tin := sensor == 5 || sensor == 6
  let cause := if sensor = 5 then 32 else if sensor = 6 then 64 else 16
  let m : BitVec 2 := if tin then BitVec.ofNat 2 (2 ^ (sensor - 5)) else 0
  let b := { b with pins := { b.pins with tamperIn := if level then b.pins.tamperIn ||| m else b.pins.tamperIn &&& ~~~m } }
  if tin && !b.tinTrips (sensor - 5) level x.cycles then b
  else if b.secOff then
    { b with hwd := { b.hwd with latch := true, aonCause := b.hwd.aonCause ||| cause } }
  else b.class2 cause (if b.rd HWD_STATE.ST == hsTAMPERED then hsTAMPERED else hsZEROISED))

/-! ### The boot ROM (R336, R340, R366, R539) -/

/-- Step 1: the AON latch and the sensors are read (`tripped`: bit n for sensor n of CAUSE); a tamper event found takes the actions of R365 and the
state TAMPERED (R366). Without one the state that R363 keeps until the next cold start is back. -/
def Block.hwdBootCheck (b : Block) (tripped : Nat) : Block :=
  let b := { b with hwd := { b.hwd with mreg := List.replicate 8 (List.replicate 64 0), ident := false } }.mregShow
  let b := (b.flag HWD_STATE.LATCH b.hwd.latch).wr HWD_STATE.CAUSE (b.rd HWD_STATE.CAUSE ||| b.hwd.aonCause)
  if b.hwd.latch || decide (0 < tripped % 128) then b.class2 (0x80 + tripped % 128) hsTAMPERED
  else if b.hwd.gone ≠ 0 then b.wr HWD_STATE.ST b.hwd.gone else b

/-- Step 6: MREG_0 is extended with the verified image's digest, the identities exist, and INIT becomes NORMAL (R336, R340, R363). -/
def Block.hwdBootDone (b : Block) (image : List Byte) : Block :=
  let b := (b.mregExtend 0 (shake256 64 image)).mregShow
  if b.rd HWD_STATE.ST == hsINIT then { b with hwd := { b.hwd with ident := true } }.wr HWD_STATE.ST hsNORMAL else b

end Sys2Proof.Machine
end

