-- ==== Sys2Proof/Machine/IcuTmr.lean ====
section
/-! DEFINITION. The commands of the interrupt controller and of the timers (R490–R513). -/

namespace Sys2Proof.Machine

/-! ### Sources -/

/-- The unfiltered level of a source has risen (`high`) or fallen, and has held the new value for `held` cycles: the filter lets it through from FILT
cycles on (R493, R494). An IRQ_IN pin takes its active level with it (R491); a source with an event register rises only while its level is high; a
pulse of source 4 or 7 is over with its edge. -/
def Block.srcEdge (b : Block) (n : Nat) (high : Bool) (held : Nat) : Block :=
  let pin := decide (224 ≤ n ∧ n ≤ 239)
  let m : BitVec 16 := 1 <<< (n - 224)
  let act := high == b.bit ICU_SRC.POL n
  if held < b.rd ICU_SRC.FILT n then b
  else
  let b := b.when pin (fun b => { b with pins := { b.pins with irq := if act then b.pins.irq ||| m else b.pins.irq &&& ~~~m } })
  if !high && !b.rawLevel n then (b.setFilt n false).icuEval
  else if high && b.rawLevel n && !b.filtered n then
    let b := b.setFilt n true
    let b := b.when (b.bit ICU_SRC.EN n) (fun b => b.incBy ICU_SRC.COUNT 1 n)
    let b := b.when (n == 4 || n == 7) (fun b => Block.setFilt { b with icu := { b.icu with pulse := Tbl.put (fun _ => false) b.icu.pulse n false } } n false)
    b.icuEval
  else (b.filtFall n).icuEval
def execIcuSourceEdge (n : Nat) (e : SrcEdge) (s : State) : Out := runCmd s (fun b => b.srcEdge (n % 256) e.high e.held)

/-- A write of ICU_SRC_n (R494, R496, R505): one that carries a reserved target is ignored entirely with WR_IGN; POL is 1 but for IRQ_IN; an edge of the
same cycle adds 1 to the COUNT written. -/
def Block.srcWrite (b : Block) (n : Nat) (v : BitVec 32) : Block :=
  if 0x24 < fget v ICU_SRC.TARGET then b.set ICU_EVT.WR_IGN
  else
    let k := fget (b.tieAt (ICU_SRC.all.off n)).2 ICU_SRC.COUNT
    let b := b.regStore (ICU_SRC.all.off n) (fcount v ICU_SRC.COUNT k)
    let b := b.when (!decide (224 ≤ n ∧ n ≤ 239)) (fun b => b.wr ICU_SRC.POL 1 n)
    (b.filtFall n).icuEval
def execIcuSrcWrite (n : Nat) (val : Word) (s : State) : Out := runCmd s (fun b => b.srcWrite (n % 256) val)

/-! ### Claims -/

/-- A claim as ICU_CLAIM_k and the claim word show it (R499, R502, R505). -/
def claimReg (r : Bool × Bool × Nat × Nat) : BitVec 32 :=
  BitVec.ofNat 32 (r.1.toNat * 2 ^ 31 + r.2.1.toNat * 2 ^ 30 + r.2.2.1 * 2 ^ 16 + r.2.2.2)
def claimWord (r : Bool × Bool × Nat × Nat) : BitVec 64 :=
  BitVec.ofNat 64 (r.1.toNat * 2 ^ 63 + r.2.1.toNat * 2 ^ 62 + r.2.2.1 * 2 ^ 32 + r.2.2.2)

/-- A read of ICU_CLAIM_k (R499, R505): for an engine it reads zero without effect. -/
def Block.claimRead (b : Block) (k : Nat) : Block :=
  if 32 ≤ k ∧ k ≤ 36 then
    let r := b.claim k
    (r.2.when r.1.1 Block.icuEval).answer (.data (claimReg r.1))
  else b.answer (.data 0)
def execIcuClaim (k : Nat) (s : State) : Out := runCmd s (fun b => b.claimRead k)

/-- A write of ICU_DONE_k (R500, R505). -/
def Block.doneWrite (b : Block) (k : Nat) (v : BitVec 32) : Block :=
  if 32 ≤ k ∧ k ≤ 36 then (b.complete k (fget v ICU_DONE.SRC)).icuEval else b
def execIcuDone (k : Nat) (val : Word) (s : State) : Out := runCmd s (fun b => b.doneWrite k val)

/-- The strand stores that wait for the controller replaced. -/
def Block.setStores (b : Block) (l : List AreaStore) : Block := { b with icu := { b.icu with stores := l } }

/-- The store of strand `k` to its claim or done byte, and the block without it, when it is the oldest of its engine: they are decided in the order of
their beats, and in a beat in strand order (R502). -/
def Block.takeStore (b : Block) (k : Nat) (isDone : Bool) : Option (AreaStore × Block) :=
  match b.icu.stores.find? (fun x => engOf x.strand == engOf k) with
  | some x => if x.strand = k ∧ x.isDone = isDone then some (x, Block.setStores b (b.icu.stores.erase x)) else none
  | none => none

/-- The claim of a strand's store to the claim byte (R502): the claim word is due two beats after the store. -/
def execEngineClaimStore (k : Nat) (s : State) : Out := runCmd s (fun b =>
  match b.takeStore k false with
  | some (x, b) =>
    let r := b.claim (engOf k)
    let c : ClaimWord := { strand := k, due := x.beat + 2, val := claimWord r.1 }
    let b : Block := { r.2 with icu := { r.2.icu with claimWords := r.2.icu.claimWords ++ [c] } }
    b.when r.1.1 Block.icuEval
  | none => b)

/-- The completion of a strand's store to the done byte (R500, R502). -/
def execEngineDoneStore (k : Nat) (s : State) : Out := runCmd s (fun b =>
  match b.takeStore k true with
  | some (_, b) =>
    (match b.claimOf (engOf k) with
    | some n => b.complete (engOf k) n
    | none => b.set ICU_EVT.DONE_ERR).icuEval
  | none => b)

/-- A target wakes (R504), or, for a steward core with `awake` false, enters its wait-for-event state (R503). -/
def execTargetWake (k : Nat) (awake : Bool) (s : State) : Out := runCmd s (fun b =>
  let b : Block := { b with icu := { b.icu with wakes := Tbl.put (fun _ => false) b.icu.wakes k (!awake && Tbl.get (fun _ => false) b.icu.wakes k) } }
  let b := b.when (decide (32 ≤ k ∧ k < 36)) (fun b => { b with icu := { b.icu with wfe := Tbl.put (fun _ => false) b.icu.wfe (k - 32) (!awake) } })
  b.icuEval)

/-- What ICU_TGT_ST_k and ICU_PEND_j read (R505). -/
def Block.tgtSt (b : Block) (k : Nat) : BitVec 32 :=
  let c := b.claimOf k
  let w := Tbl.get (fun _ => false) b.icu.wakes k
  BitVec.ofNat 32 (c.isSome.toNat * 2 ^ 31 + (b.asleep k).toNat * 2 ^ 30 + w.toNat * 2 ^ 29 + c.getD 0x1FF * 2 ^ 16 + (b.presented k).getD 0x1FF)
def Block.pendReg (b : Block) (j : Nat) : BitVec 32 :=
  BitVec.ofNat 32 ((List.range 32).foldl (fun m i => m + (b.pendingSrc (32 * j + i)).toNat * 2 ^ i) 0)

/-! ### Timers (R506–R512) -/

def TimerSt.zero : TimerSt := { top := 1, mat := 0, due := 0, out := false, was := none }

/-- Timer n. -/
def Block.timer (b : Block) (n : Nat) : TimerSt := Tbl.get (fun _ => TimerSt.zero) b.tmr.timers n
def Block.setTimer (b : Block) (n : Nat) (t : TimerSt) : Block :=
  { b with tmr := { b.tmr with timers := Tbl.put (fun _ => TimerSt.zero) b.tmr.timers n t } }

/-- Timer n runs. -/
def Block.tmrRuns (b : Block) (n : Nat) : Bool := bitOf (b.reg TMR_RUN.all.base).toNat n

/-- TMR_RUN bit n. -/
def Block.tmrRun (b : Block) (n : Nat) (v : Bool) : Block :=
  let m : BitVec 32 := 1 <<< n
  let r := b.reg TMR_RUN.all.base
  b.setReg TMR_RUN.all.base (if v then r ||| m else r &&& ~~~m)

/-- The odd timer n is linked to timer n − 1 (R508). -/
def Block.linked (b : Block) (n : Nat) : Bool := n % 2 == 1 && b.bit TMR_CFG.LINK n

/-- The count of timer n. -/
def Block.tmrCnt (b : Block) (n : Nat) : Nat := (b.reg (TMR_CNT.all.off n)).toNat

/-- The count of timer n is `c`: in modes 2 and 3 the output follows it, in mode 0 it is low (R511). -/
def Block.tmrOut (b : Block) (n c : Nat) (toggle : Bool) : Block :=
  let t := b.timer n
  let o := match b.rd TMR_CFG.OUTMODE n with
    | 1 => t.out != toggle
    | 2 => decide (c < t.mat)
    | 3 => decide (t.mat ≤ c)
    | _ => false
  if o = t.out then b else (b.setTimer n { t with out := o }).emit (.pin "TMR_OUT" n o)

/-- TOP and MATCH as written take effect (R506). -/
def Block.tmrLoad (b : Block) (n : Nat) : Block :=
  b.setTimer n { b.timer n with top := (b.reg (TMR_TOP.all.off n)).toNat, mat := (b.reg (TMR_MATCH.all.off n)).toNat }

/-- Timer n starts at this beat: count 0, direction up, its output as R511 gives it at start. -/
def Block.tmrStart1 (b : Block) (n : Nat) : Block :=
  let b := (b.tmrLoad n).tmrRun n true
  let b := (b.setReg (TMR_CNT.all.off n) 0).clr TMR_FLAG.DIR n
  let t := b.timer n
  let b := b.setTimer n { t with due := b.clk.beat + 2 ^ b.rd TMR_CFG.PSC n }
  let b := b.when (b.rd TMR_CFG.OUTMODE n == 1 && t.out) (fun b => (b.setTimer n { b.timer n with out := false }).emit (.pin "TMR_OUT" n false))
  b.tmrOut n 0 false

/-- GO of timer n (R508, R509): a linked odd one follows its even one alone. -/
def Block.tmrStart (b : Block) (n : Nat) : Block :=
  if b.linked n then b
  else
    let b := b.tmrStart1 n
    b.when (n % 2 == 0 && b.linked (n + 1)) (fun b => b.tmrStart1 (n + 1))

/-- STOP of timer n: it holds its count, direction and output. -/
def Block.tmrStop (b : Block) (n : Nat) : Block :=
  if b.linked n then b
  else (b.tmrRun n false).when (n % 2 == 0 && b.linked (n + 1)) (fun b => b.tmrRun (n + 1) false)

/-- Every timer of a mask. -/
def Block.eachTimer (b : Block) (mask : Nat) (f : Block → Nat → Block) : Block :=
  ((List.range 32).filter (bitOf mask)).foldl f b

def execTmrGo (val : Word) (s : State) : Out := runCmd s (fun b => b.eachTimer val.toNat Block.tmrStart)
def execTmrStop (val : Word) (s : State) : Out := runCmd s (fun b => b.eachTimer val.toNat Block.tmrStop)

/-- A write of TMR_GO_AT_HI arms a start (R509); a GO_AT already passed sets PAST, and the start is due in the next cycle. -/
def Block.goAtArm (b : Block) (v : BitVec 32) : Block :=
  let b := b.hiWrite TMR_GO_AT_HI.all.base v
  let t := BitVec.ofNat 64 (b.rd64 TMR_GO_AT_LO.all TMR_GO_AT_HI.all)
  let b := { b with tmr := { b.tmr with goAt := t, goDue := b.clk.beat + 1 } }.set TMR_GO_ST.ARMED
  b.when (decide (t.toNat < b.clk.htime.toNat)) (fun b => b.set TMR_GO_ST.PAST)
def execTmrGoAtArm (val : Word) (s : State) : Out := runCmd s (fun b => b.goAtArm val)

/-- CANCEL removes the armed start (R509). -/
def execTmrGoAtCancel (s : State) : Out := runCmd s (fun b => b.clr TMR_GO_ST.ARMED)

/-- The armed start takes place at its instant, or at the end of the switchover gap with LATE (R78, R509); none does once the Hoop's outputs are
frozen for good (R75, R82). -/
def execTmrGoAtStart (s : State) : Out := runCmd s (fun b =>
  if !b.bit TMR_GO_ST.ARMED || b.hoop.red.dead then b
  else
    let due := max b.tmr.goDue (b.clk.beat + b.clk.beatsTo b.tmr.goAt)
    let late := b.hoop.red.gap && decide (due < b.hoop.red.gapEnd)
    let b := b.toBeat (if late then b.hoop.red.gapEnd else due)
    let b := (b.clr TMR_GO_ST.ARMED).when late (fun b => b.set TMR_GO_ST.LATE)
    b.eachTimer (b.reg TMR_GO_MASK.all.base).toNat Block.tmrStart)

/-- A period of the low half `n` of a linked pair completes: the counts before it stay readable in this beat (R508). -/
def Block.pairWas (b : Block) (n c : Nat) : Block :=
  let b := b.setTimer n { b.timer n with was := some (b.clk.beat, c) }
  b.setTimer (n + 1) { b.timer (n + 1) with was := some (b.clk.beat, b.tmrCnt (n + 1)) }

/-- The count of timer n as a read of a linked pair finds it (R508). -/
def Block.pairCnt (b : Block) (n : Nat) : BitVec 32 :=
  match (b.timer n).was with
  | some (t, c) => if t = b.clk.beat then BitVec.ofNat 32 c else b.reg (TMR_CNT.all.off n)
  | none => b.reg (TMR_CNT.all.off n)

/-- The high half of a linked pair counts one at the OVFF of its low half (R508). -/
def Block.tmrCarry (b : Block) (n : Nat) : Block :=
  if b.linked n && b.tmrRuns n then
    let c := (b.tmrCnt n + 1) % 2 ^ 32
    let b := b.setReg (TMR_CNT.all.off n) (BitVec.ofNat 32 c)
    let b := b.when (c == 0) (fun b => (b.tmrLoad n).set TMR_FLAG.OVFF n)
    let hit := c == (b.timer n).mat
    (b.when hit (fun b => b.set TMR_FLAG.MATCHF n)).tmrOut n c hit
  else b

/-- A tick of timer n (R506, R507, R511), in the beat it is due. -/
def execTimerTick (n : Nat) (s : State) : Out := runCmd s (fun b =>
  let n := n % 32
  if !b.tmrRuns n || b.linked n then b
  else
    let b := b.toBeat (b.timer n).due
    let t := b.timer n
    let b := b.setTimer n { t with due := t.due + 2 ^ b.rd TMR_CFG.PSC n }
    let c := b.tmrCnt n
    let down := b.bit TMR_FLAG.DIR n
    let c' := if down then c - 1 else c + 1
    let wraps := down && c' == 0
    let b := b.setReg (TMR_CNT.all.off n) (BitVec.ofNat 32 c')
    let b := b.flag TMR_FLAG.DIR (if down then !wraps else decide (t.top ≤ c')) n
    let b := b.when wraps (fun b => (b.tmrLoad n).set TMR_FLAG.OVFF n)
    let hit := c' == (b.timer n).mat
    let b := (b.when hit (fun b => b.set TMR_FLAG.MATCHF n)).tmrOut n c' hit
    b.when (wraps && n % 2 == 0 && b.linked (n + 1)) (fun b => (b.pairWas n c).tmrCarry (n + 1)))

/-- A capture of timer n's count (R510). -/
def Block.capture1 (b : Block) (n : Nat) : Block :=
  let v := b.reg (TMR_CNT.all.off n)
  let b := (b.tieNote (TMR_CAP.all.off n) (fun _ => v)).setReg (TMR_CAP.all.off n) v
  if b.bit TMR_FLAG.CAPF n then b.set TMR_FLAG.CAP_OVR n else b.set TMR_FLAG.CAPF n

/-- The capture trigger `trig` of R510 (1–19) occurs: every timer that selects it captures, a linked pair by its even timer. -/
def execTmrCapture (trig : Nat) (s : State) : Out := runCmd s (fun b =>
  if trig = 0 ∨ 19 < trig then b
  else (List.range 32).foldl (fun (b : Block) n =>
    if b.rd TMR_CFG.CAPSEL n = trig ∧ b.linked n = false then
      (b.capture1 n).when (n % 2 == 0 && b.linked (n + 1)) (fun b => b.capture1 (n + 1))
    else b) b)

/-- A read of TMR_CNT_n (R508): of an even timer it latches the odd one of a linked pair, whose read returns what was latched. -/
def Block.tmrCntRead (b : Block) (n : Nat) : Block :=
  let off := TMR_CNT.all.off n
  if b.linked n then b.answer (.data (Tbl.get (fun _ => 0) b.hiLatch off))
  else if n % 2 == 0 && b.linked (n + 1) then
    { b with hiLatch := Tbl.put (fun _ => 0) b.hiLatch (TMR_CNT.all.off (n + 1)) (b.pairCnt (n + 1)) }.answer (.data (b.pairCnt n))
  else b.answer (.data (b.reg off))

/-- A read of TMR_CAP_n returns the value before a capture of the same cycle (R510). -/
def Block.tmrCapRead (b : Block) (n : Nat) : Block := b.answer (.data (b.tieAt (TMR_CAP.all.off n)).1)

/-- A write of TMR_CFG_n (R511, R512): a running timer's output follows a new OUTMODE, a stopped one holds it. -/
def Block.tmrCfg (b : Block) (n : Nat) (v : BitVec 32) : Block :=
  (b.regStore (TMR_CFG.all.off n) (if n % 2 = 0 then v &&& 0x7FFFFFFF else v)).when (b.tmrRuns n) (fun b => b.tmrOut n (b.tmrCnt n) false)
def execTmrCntRead (n : Nat) (s : State) : Out := runCmd s (fun b => b.tmrCntRead (n % 32))

end Sys2Proof.Machine
end

