-- ==== Sys2Proof/Machine/LowSpeed.lean ====
section
/-! DEFINITION. The low-speed peripherals: GPIO, SPI, I²C and UART (R566, R567). -/

namespace Sys2Proof.Machine

/-! ### GPIO -/

/-- Bit `n` of a pair of 32-bit registers. -/
def Block.gpioBit (b : Block) (f : Fld) (n : Nat) : Bool := bitOf (b.reg (f.off (n / 32))).toNat (n % 32)

/-- Pin n drives: its timer output under FUNC 1, its output level under OE (R566, R567). -/
def Block.gpioDriven (b : Block) (n : Nat) : Option Bool :=
  if b.rd SYS_GPIO_CFG.FUNC n = 1 then some (b.timer n).out
  else if b.gpioBit SYS_GPIO_OE.all n then some (b.gpioBit SYS_GPIO_OUT.all n) else none

/-- The level of ball n. -/
def Block.gpioBall (b : Block) (n : Nat) : Bool := (b.gpioDriven n).getD (b.pins.gpio.getLsbD n)

/-- Ball n is at `level` and was at `prev`: the event of its EVMODE. -/
def gpioFires (mode : Nat) (prev level : Bool) : Bool :=
  match mode with
  | 1 => !prev && level
  | 2 => prev && !level
  | 3 => prev != level
  | 4 => level
  | 5 => !level
  | _ => false

/-- Ball n takes a level: its event bit sets under EVMODE. -/
def Block.gpioTake (b : Block) (n : Nat) (level : Bool) : Block :=
  let prev := b.pins.gpio.getLsbD n
  let m : BitVec 48 := 1 <<< n
  let b := { b with pins := { b.pins with gpio := if level then b.pins.gpio ||| m else b.pins.gpio &&& ~~~m } }
  if gpioFires (b.rd SYS_GPIO_CFG.EVMODE n) prev level then
    let r := SYS_GPIO_EVT.all.off (n / 32)
    let on (v : BitVec 32) : BitVec 32 := v ||| (1 <<< (n % 32))
    (b.tieNote r on).setReg r (on (b.reg r))
  else b

/-- A GPIO ball takes a level (R567); one that the device drives stays at the level driven. -/
def execGpioEvent (n : Nat) (level : Bool) (s : State) : Out := runCmd s (fun b =>
  let n := n % 48
  b.gpioTake n ((b.gpioDriven n).getD level))

/-- Every ball is looked at again after a write: driven levels reach the balls, and level events set in every cycle (R567). -/
def Block.gpioSettle (b : Block) : Block :=
  (List.range 48).foldl (fun (b : Block) n =>
    let now := b.gpioBall n
    let b := if (b.gpioDriven n).isSome && now != b.pins.gpio.getLsbD n then b.emit (.pin "GPIO" n now) else b
    b.gpioTake n now) b

/-- A write of SYS_GPIO_CFG_n (R566): values the fields do not have store 0. -/
def Block.gpioCfg (b : Block) (n : Nat) (v : BitVec 32) : Block :=
  let fn := fget v SYS_GPIO_CFG.FUNC
  let pull := fget v SYS_GPIO_CFG.PULL
  let ev := fget v SYS_GPIO_CFG.EVMODE
  let b := (b.wr SYS_GPIO_CFG.FUNC (if fn = 1 ∧ n < 32 then 1 else 0) n).wr SYS_GPIO_CFG.PULL (if pull = 3 then 0 else pull) n
  (b.wr SYS_GPIO_CFG.EVMODE (if 6 ≤ ev then 0 else ev) n).gpioSettle
def execGpioCfgWrite (n : Nat) (val : Word) (s : State) : Out := runCmd s (fun b => b.gpioCfg (n % 48) val)

/-! ### SPI -/

/-- A write of SYS_SPI_DATA_i sends LEN bits, or is ignored with WR_IGN while BUSY; with EN 0 no transfer starts. -/
def Block.spiData (b : Block) (i : Nat) (v : BitVec 32) : Block :=
  if b.bit SYS_SPI_ST.BUSY i then b.set SYS_SPI_ST.WR_IGN i
  else if !b.bit SYS_SPI_CTL.EN i then b
  else
    let n := b.rd SYS_SPI_CTL.LEN i
    (b.set SYS_SPI_ST.BUSY i).emit
      (.spi i (b.rd SYS_SPI_CTL.CS i) (b.rd SYS_SPI_CTL.MODE i) (2 * (b.rd SYS_SPI_CTL.DIV i + 1)) n (v.toNat % 2 ^ n) (b.bit SYS_SPI_CTL.CS_HOLD i))
def execSpiTransfer (i : Nat) (val : Word) (s : State) : Out := runCmd s (fun b => b.spiData (i % 2) val)

/-- A transfer ends with the bits received (R567). -/
def execSpiDone (i : Nat) (val : Word) (s : State) : Out := runCmd s (fun b =>
  let i := i % 2
  if !b.bit SYS_SPI_ST.BUSY i then b
  else
    let b := b.setReg (SYS_SPI_DATA.all.off i) (BitVec.ofNat 32 (val.toNat % 2 ^ b.rd SYS_SPI_CTL.LEN i))
    (b.clr SYS_SPI_ST.BUSY i).set SYS_SPI_ST.DONE i)

/-- A write of SYS_SPI_CTL_i (R566, R567): ignored while BUSY; DIV 0 and 1 store 2, LEN 0 and above 32 store 32. -/
def Block.spiCtl (b : Block) (i : Nat) (v : BitVec 32) : Block :=
  if b.bit SYS_SPI_ST.BUSY i then b.set SYS_SPI_ST.WR_IGN i
  else
    let v := if fget v SYS_SPI_CTL.DIV < 2 then fput v SYS_SPI_CTL.DIV 2 else v
    let n := fget v SYS_SPI_CTL.LEN
    b.regStore (SYS_SPI_CTL.all.off i) (if n = 0 ∨ 32 < n then fput v SYS_SPI_CTL.LEN 32 else v)

/-! ### I²C -/

/-- A write of SYS_I2C_CMD_i runs one byte step, or is ignored with WR_IGN while BUSY; with EN 0 no step runs. -/
def Block.i2cCmd (b : Block) (i : Nat) (v : BitVec 32) : Block :=
  if b.bit SYS_I2C_ST.BUSY i then b.set SYS_I2C_ST.WR_IGN i
  else
    let b := b.regStore (SYS_I2C_CMD.all.off i) v
    if b.bit SYS_I2C_CTL.EN i then (b.set SYS_I2C_ST.BUSY i).emit (.i2c i (b.rd SYS_I2C_CTL.SPEED i) (b.reg (SYS_I2C_CMD.all.off i)).toNat) else b
def execI2cCmd (i : Nat) (val : Word) (s : State) : Out := runCmd s (fun b => b.i2cCmd (i % 2) val)

/-- A byte step ends: a read brings its byte; ARB_LOST or NACK ends it early; DONE sets in every case (R567). -/
def execI2cStepDone (i : Nat) (byte : Byte) (nack arb : Bool) (s : State) : Out := runCmd s (fun b =>
  let i := i % 2
  if !b.bit SYS_I2C_ST.BUSY i then b
  else
    let b := (b.clr SYS_I2C_ST.BUSY i).set SYS_I2C_ST.DONE i
    let b := (b.when nack (fun b => b.set SYS_I2C_ST.NACK i)).when arb (fun b => b.set SYS_I2C_ST.ARB_LOST i)
    b.when (b.bit SYS_I2C_CMD.READ i && !nack && !arb) (fun b => b.wr SYS_I2C_ST.BYTE byte.toNat i))

/-! ### UART -/

/-- The FIFO levels as SYS_UART_ST shows them, and UART_RTS_n under RTSCTS (R567). -/
def Block.uartShow (b : Block) : Block := (b.wr SYS_UART_ST.RXLEV b.low.rx.length).wr SYS_UART_ST.TXLEV b.low.tx.length
def Block.uartRts (b : Block) : Bool := b.bit SYS_UART_CTL.RTSCTS && decide (56 ≤ b.low.rx.length)

/-- The receive FIFO replaced; UART_RTS_n follows. -/
def Block.setRx (b : Block) (l : List Byte) : Block :=
  let old := b.uartRts
  let b := { b with low := { b.low with rx := l } }.uartShow
  if b.uartRts = old then b else b.emit (.pin "UART_RTS" 0 b.uartRts)

/-- The next frame starts when none is being sent, EN is 1 and flow control lets it; TXE sets as the transmit FIFO becomes empty. -/
def Block.uartStart (b : Block) : Block :=
  if b.low.sending.isSome || !b.bit SYS_UART_CTL.EN || (b.bit SYS_UART_CTL.RTSCTS && b.pins.ctsN) then b
  else match b.low.tx with
    | x :: l =>
      let b := { b with low := { b.low with tx := l, sending := some x } }.uartShow
      (b.when l.isEmpty (fun b => b.set SYS_UART_ST.TXE)).emit (.uart x)
    | [] => b

/-- A write of SYS_UART_DATA queues a byte, or is dropped with TX_OVF when the FIFO holds 64 (R566). -/
def Block.uartData (b : Block) (v : BitVec 32) : Block :=
  if 64 ≤ b.low.tx.length then b.set SYS_UART_ST.TX_OVF
  else ({ b with low := { b.low with tx := b.low.tx ++ [v.setWidth 8] } }.uartShow).uartStart
def execUartDataWrite (val : Word) (s : State) : Out := runCmd s (fun b => b.uartData val)

/-- A read of SYS_UART_DATA takes a byte from the receive FIFO; it reads 0 when empty (R566). -/
def Block.uartRead (b : Block) : Block :=
  match b.low.rx with
  | x :: l => (b.setRx l).answer (.data (BitVec.ofNat 32 (256 + x.toNat)))
  | [] => b.answer (.data 0)
def execUartDataRead (s : State) : Out := runCmd s Block.uartRead

/-- A frame arrives (R566): without its stop bit it is flagged, with the FIFO full it is lost. -/
def execUartRxFrame (byte : Byte) (stop : Bool) (s : State) : Out := runCmd s (fun b =>
  if !b.bit SYS_UART_CTL.EN then b
  else if !stop then b.set SYS_UART_ST.FRAME
  else if 64 ≤ b.low.rx.length then b.set SYS_UART_ST.RX_OVR
  else
    let was := b.low.rx.isEmpty
    (b.setRx (b.low.rx ++ [byte])).when was (fun b => b.set SYS_UART_ST.RXAV))

/-- A frame has been sent, and the next starts (R567). -/
def execUartTxFrameDone (s : State) : Out := runCmd s (fun b =>
  if b.low.sending.isSome then { b with low := { b.low with sending := none } }.uartStart else b)

/-- UART_CTS_n changes level (R567). -/
def execUartCtsChange (level : Bool) (s : State) : Out := runCmd s (fun b =>
  { b with pins := { b.pins with ctsN := level } }.uartStart)

/-- A write of SYS_UART_CTL (R566): a DIV below 256 stores 256. -/
def Block.uartCtl (b : Block) (v : BitVec 32) : Block :=
  let old := b.uartRts
  let b := b.regStore SYS_UART_CTL.all.base (if fget v SYS_UART_CTL.DIV < 256 then fput v SYS_UART_CTL.DIV 256 else v)
  let b := if b.uartRts = old then b else b.emit (.pin "UART_RTS" 0 b.uartRts)
  b.uartStart

end Sys2Proof.Machine
end

