-- ==== Sys2Proof/Machine/Update.lean ====
section
/-! DEFINITION. The boot flash, the update journal, staging, the copy at the next start, configuration records, Seedfall, and the recovery flash
commands (R464–R489). -/

namespace Sys2Proof.Machine

/-! ### The boot flash (R464) -/

/-- `n` bytes of the flash at `a`. -/
def Block.fl (b : Block) (a n : Nat) : List Byte := (List.range n).map (fun i => Tbl.get flErased b.upd.flash (a + i))

/-- A little-endian quantity in the flash. -/
def Block.flLe (b : Block) (a n : Nat) : Nat := leNat (b.fl a n)

/-- A range of the flash erased. -/
def Block.flErase (b : Block) (a n : Nat) : Block :=
  { b with upd := { b.upd with flash := b.upd.flash.filter (fun e => decide (e.1 < a ∨ a + n ≤ e.1)) } }

/-- Bytes programmed: a NOR flash clears bits only (PRESUMED, log entry 32). -/
def flProgram : Tbl Byte → Nat → List Byte → Tbl Byte
  | t, _, [] => t
  | t, a, x :: l => flProgram (Tbl.put flErased t a (Tbl.get flErased t a &&& x)) (a + 1) l
def Block.flProg (b : Block) (a : Nat) (d : List Byte) : Block := { b with upd := { b.upd with flash := flProgram b.upd.flash a d } }

/-- The content of a range is open. -/
def Block.flFree (b : Block) (a n : Nat) : Block :=
  ((b.flErase a n).flProg a ((List.range n).map (Config.freeByte b.clk.free))).took

/-- The regions (R464). -/
def flJournal (h : Nat) : Nat := h * 0x10000
def flCfg (area : Nat) : Nat := 0x20000 + area * 0x100000
def flMain : Nat := 0x1000000
def flStage : Nat := 0x3000000
def flSlot : Nat := 0x2000000
def flCfgSize : Nat := 0x100000

/-! ### Images (R465, R466) -/

/-- The header fields of the image at `base`. -/
def Block.imgLen (b : Block) (base : Nat) : Nat := b.flLe (base + 20) 4
def Block.imgVer (b : Block) (base : Nat) : Nat := b.flLe (base + 8) 4
def Block.imgRoll (b : Block) (base : Nat) : Nat := b.flLe (base + 16) 1
def Block.imgCfgVer (b : Block) (base : Nat) : Nat := b.flLe (base + 18) 2
def Block.imgDigLo (b : Block) (base : Nat) : Nat := b.flLe (base + 32) 4

/-- Every byte is zero. -/
def allZero (l : List Byte) : Bool := l.all (· == 0)

/-- MAGIC, the zero fields, the length and DIGEST are right. -/
def Block.imgFormOk (b : Block) (base : Nat) : Bool :=
  b.fl base 8 == ascii "GRNSTW01" && b.flLe (base + 11) 1 == 0 && b.flLe (base + 17) 1 == 0 && allZero (b.fl (base + 24) 8) && allZero (b.fl (base + 210) 46)
    && decide (256 + b.imgLen base ≤ flSlot) && b.fl (base + 32) 64 == shake256 64 (b.fl (base + 256) (b.imgLen base))

/-- SIG verifies under the key in the boot ROM. -/
def Block.imgSigOk (b : Block) (base : Nat) : Bool :=
  edVerify ((List.range 57).map Config.romKey) (shake256 64 (b.fl base 96)) (b.fl (base + 96) 114)

/-- ROLL lies between the fuse count and 64. -/
def Block.imgRollOk (b : Block) (base : Nat) : Bool := decide (b.upd.fuses ≤ b.imgRoll base) && decide (b.imgRoll base ≤ 64)

/-- The image is valid (R466). -/
def Block.imgValid (b : Block) (base : Nat) : Bool := b.imgFormOk base && b.imgSigOk base && b.imgRollOk base

/-! ### The journal (R467, R468) -/

/-- A journal entry. -/
structure JEnt where
  typ : Nat
  arg : Nat
  gen : Nat
  diglo : Nat
  deriving DecidableEq, Repr

/-- TYPE values. -/
def jOPEN : Nat := 0
def jSTAGE_BEGIN : Nat := 1
def jSTAGED : Nat := 2
def jCOPY_START : Nat := 3
def jSECTOR_DONE : Nat := 4
def jCOPIED : Nat := 5
def jFUSED : Nat := 6
def jCANCEL : Nat := 7

/-- The entry in these 16 bytes, unless they are erased or the CRC fails. -/
def jDecode (l : List Byte) : Option JEnt :=
  if l.all (· == 0xFF) || leAt l 12 4 != crc32 (slice l 0 12) then none
  else some { typ := leAt l 0 1, arg := leAt l 2 2, gen := leAt l 4 4, diglo := leAt l 8 4 }

/-- The bytes of an entry. -/
def JEnt.bytes (e : JEnt) : List Byte :=
  let d := leBytes 1 e.typ ++ [0] ++ leBytes 2 e.arg ++ leBytes 4 e.gen ++ leBytes 4 e.diglo
  d ++ leBytes 4 (crc32 d)

/-- The log of a half from entry `i` on, `fuel` entries at most. -/
def Block.jFrom (b : Block) (h i : Nat) : Nat → List JEnt
  | 0 => []
  | fuel + 1 =>
    match jDecode (b.fl (flJournal h + 16 * i) 16) with
    | some e => e :: b.jFrom h (i + 1) fuel
    | none => []

/-- The log of a half. -/
def Block.jLog (b : Block) (h : Nat) : List JEnt := b.jFrom h 0 4096

/-- GEN of a half whose OPEN entry passes CRC. -/
def Block.jGen (b : Block) (h : Nat) : Option Nat :=
  match jDecode (b.fl (flJournal h) 16) with
  | some e => if e.typ = jOPEN then some e.gen else none
  | none => none

/-- The governing half: the higher GEN modulo 2^32. -/
def Block.jHalf (b : Block) : Option Nat :=
  match b.jGen 0, b.jGen 1 with
  | some g, some k => some (if (g + 2 ^ 32 - k) % 2 ^ 32 < 2 ^ 31 then 0 else 1)
  | some _, none => some 0
  | none, some _ => some 1
  | none, none => none

/-- The entries of the governing half. -/
def Block.jEntries (b : Block) : List JEnt := match b.jHalf with | some h => b.jLog h | none => []

/-- The state of the update: TYPE of the last entry; a blank journal reads CANCEL. -/
def Block.jState (b : Block) : Nat := match b.jEntries.getLast? with | some e => e.typ | none => jCANCEL

/-- DIGLO of the governing half: that of its last entry. -/
def Block.jDigLo (b : Block) : Nat := match b.jEntries.getLast? with | some e => e.diglo | none => 0

/-- An entry appended to the governing half. -/
def Block.jAppend (b : Block) (typ arg diglo : Nat) : Block :=
  match b.jHalf with
  | some h =>
    let es := b.jLog h
    b.flProg (flJournal h + 16 * es.length) (JEnt.bytes { typ := typ, arg := arg, gen := (b.jGen h).getD 0, diglo := diglo })
  | none => b

/-- A new half (R468): the half that does not govern is erased and opens with GEN + 1. With no half open, J0 opens with GEN 1. -/
def Block.jOpen (b : Block) : Block :=
  let (h, g) := match b.jHalf with | some h => (1 - h, ((b.jGen h).getD 0 + 1) % 2 ^ 32) | none => (0, 1)
  let b := b.flErase (flJournal h) 0x10000
  b.flProg (flJournal h) (JEnt.bytes { typ := jOPEN, arg := 0, gen := g, diglo := 0 })

/-! ### Staging (R469, R470, R485) -/

/-- Statuses of R486. -/
def updSTAGE_STATE : Nat := 0x8201
def updLENGTH : Nat := 0x8202
def updBAD_IMAGE : Nat := 0x8203
def updBAD_SIG : Nat := 0x8204
def updROLLBACK : Nat := 0x8205
def updFLASH_ERR : Nat := 0x8206
def updDRAM_ERR : Nat := 0x8207
def updCFG_NOT_FOUND : Nat := 0x8208
def updCFG_FULL : Nat := 0x8209
def updCFG_RESERVED : Nat := 0x820A
def updSEED_BUSY : Nat := 0x820B
def updBAD_MANIFEST : Nat := 0x820C
def updBAD_CTX : Nat := 0x820D
def updSEED_HASH : Nat := 0x820E
def updSEED_IDLE : Nat := 0x820F

/-- Staging states (R488). -/
def sgEMPTY : Nat := 0
def sgWRITING : Nat := 1
def sgSTAGED : Nat := 2
def sgINVALID : Nat := 3

/-- UPD_STG_ST and UPD_STG_VER in a state; ROLL and FWVER are those of a STAGED image. -/
def Block.stgShow (b : Block) (st : Nat) : Block :=
  let on := st == sgSTAGED
  let b := (b.wr UPD_STG_ST.STATE st).wr UPD_STG_ST.ROLL (if on then b.imgRoll flStage else 0)
  b.setReg UPD_STG_VER.all.base (BitVec.ofNat 32 (if on then b.imgVer flStage else 0))

/-- The staging state that the journal gives after a boot (R469). A copy that was cut leaves the image staged. -/
def Block.stgFromJournal (b : Block) : Block :=
  let t := b.jState
  b.stgShow (if t = jSTAGE_BEGIN then sgWRITING else if t = jSTAGED ∨ t = jCOPY_START ∨ t = jSECTOR_DONE then sgSTAGED else sgEMPTY)

/-- A DRAM area outside memory or poisoned (R486). -/
def Block.areaBad (b : Block) (a n : Nat) : Bool := decide (b.dramSize < a + n) || b.dramPoisoned a n

/-- A command reads a DRAM area (R486, R518), or completes with DRAM_ERR. -/
def Block.areaRead (b : Block) (a n : Nat) (f : Block → Block) : Block :=
  let b := b.dramTouch a n
  if b.areaBad a n then b.hold updDRAM_ERR else f b

/-- The state WRITING with undefined slot content (R487). -/
def Block.stgBroken (b : Block) : Block := { b with upd := { b.upd with stgUndef := true } }.stgShow sgWRITING

/-- UPD_STAGE_BEGIN (R468, R469). `bad`: the flash's erase failed its read-back; the slot is then as after an abort. -/
def execUpdStageBegin (bad : Bool) (s : State) : Out := runCmd s (fun b =>
  b.mbxServe 0x2000 (· == 1) (fun b =>
    let n := b.argN 0
    b.firstFail [(b.rd UPD_STG_ST.STATE == sgWRITING, updSTAGE_STATE), (decide (n < 256) || decide (flSlot < n), updLENGTH)] (fun b =>
      if bad then b.stgBroken.hold updFLASH_ERR
      else
        let b := (b.jOpen).jAppend jSTAGE_BEGIN 0 0
        let b := b.flErase flStage flSlot
        ({ b with upd := { b.upd with stgLen := n, stgUndef := false } }.stgShow sgWRITING).hold mbxOK)))

/-- UPD_STAGE_WRITE (R485). Bytes that cannot be programmed, an offset written twice among them, fail their read-back. -/
def execUpdStageWrite (bad : Bool) (s : State) : Out := runCmd s (fun b =>
  b.mbxServe 0x2001 (· == 4) (fun b =>
    let off := b.argN 0
    let a := b.mbxArg64 1
    let n := b.argN 3
    b.firstFail [(b.rd UPD_STG_ST.STATE != sgWRITING, updSTAGE_STATE),
        (off % 256 != 0 || decide (n < 256) || decide (1048576 < n) || decide (b.upd.stgLen < off + n) || (n % 256 != 0 && off + n != b.upd.stgLen), updLENGTH)]
      (fun b => b.areaRead a n (fun b =>
        let d := b.dramBytes a n
        let b := b.flProg (flStage + off) d
        if bad || b.fl (flStage + off) n != d then b.stgBroken.hold updFLASH_ERR else b.hold mbxOK))))

/-- Heartwood is in a tamper state (R487). -/
def Block.tampered (b : Block) : Bool := decide (hsALARM ≤ b.rd HWD_STATE.ST)

/-- UPD_STAGE_FINISH (R470, R487). -/
def execUpdStageFinish (s : State) : Out := runCmd s (fun b =>
  b.mbxServe 0x2002 (· == 0) (fun b =>
    if b.rd UPD_STG_ST.STATE != sgWRITING then b.hold updSTAGE_STATE
    else
      let fail (b : Block) (st : Nat) : Block := ((b.stgShow sgINVALID).set UPD_EVT.STAGE_FAIL).hold st
      if b.upd.stgUndef || !b.imgFormOk flStage then fail b updBAD_IMAGE
      else if b.tampered || !b.imgSigOk flStage then fail b updBAD_SIG
      else if !b.imgRollOk flStage then fail b updROLLBACK
      else
        let b := ((b.jAppend jSTAGED 0 (b.imgDigLo flStage)).stgShow sgSTAGED).set UPD_EVT.STAGED
        b.mbxHold mbxOK ([b.imgVer flStage, b.imgRoll flStage, b.imgCfgVer flStage].map (BitVec.ofNat 32))))

/-- UPD_STAGE_CANCEL (R469). -/
def execUpdStageCancel (s : State) : Out := runCmd s (fun b =>
  b.mbxServe 0x2003 (· == 0) (fun b =>
    if b.rd UPD_STG_ST.STATE = sgEMPTY then b.hold updSTAGE_STATE
    else ((b.jAppend jCANCEL 0 b.jDigLo).stgShow sgEMPTY).hold mbxOK))

/-- What an aborted command of this chapter leaves (R487), when the steward had not finished it. -/
def Block.updAbort (b : Block) : Block :=
  let op := b.rd SYS_MBX_CMD.OPCODE
  let st := b.rd UPD_STG_ST.STATE
  if (op = 0x2000 ∧ st ≠ sgWRITING) ∨ (op = 0x2001 ∧ st = sgWRITING) then b.stgBroken else b

/-! ### The boot ROM's copy (R471, R472) -/

/-- Sectors `s` on, `n` of them, copied from the staging slot, each with its SECTOR_DONE entry. -/
def Block.copySectors (b : Block) (diglo : Nat) : Nat → Nat → Block
  | _, 0 => b
  | s, n + 1 =>
    let b := b.flErase (flMain + 65536 * s) 65536
    let b := b.flProg (flMain + 65536 * s) (b.fl (flStage + 65536 * s) 65536)
    (b.jAppend jSECTOR_DONE s diglo).copySectors diglo (s + 1) n

/-- The sectors of the staged image. -/
def Block.stgSectors (b : Block) : Nat := ceilDiv (256 + b.imgLen flStage) 65536

/-- The first sector without a SECTOR_DONE entry. -/
def firstSector (es : List JEnt) (n : Nat) : Nat :=
  ((List.range n).find? (fun s => !es.any (fun e => e.typ == jSECTOR_DONE && e.arg == s))).getD n

/-- The rollback fuses rise to `roll` (R472). -/
def Block.fuse (b : Block) (roll : Nat) : Block := { b with upd := { b.upd with fuses := max b.upd.fuses roll } }

/-- RESULT values of UPD_BOOT_ST. -/
def brMAIN : Nat := 0
def brCOPIED : Nat := 1
def brRESUMED : Nat := 2
def brCOPY_FAIL : Nat := 3
def brRECOVERY : Nat := 4

/-- The state of a run of the boot ROM: the block, the result, the sectors copied, and whether a reset has cut it short. -/
structure Boot where
  b : Block
  result : Nat
  sectors : Nat
  cut : Bool
  deriving DecidableEq, Repr

/-- The copy from sector `s` on; a reset after `cut` sectors leaves it there, and the sector then in work holds free bytes. -/
def Block.bootCopy (b : Block) (s : Nat) (result : Nat) (cut : Option Nat) : Boot :=
  let n := b.stgSectors
  let d := b.imgDigLo flStage
  let k := match cut with | some c => min c (n - s) | none => n - s
  let b := b.copySectors d s k
  if cut.isSome then { b := if k < n - s then b.flFree (flMain + 65536 * (s + k)) 65536 else b, result := result, sectors := k, cut := true }
  else { b := if b.imgValid flMain then b.jAppend jCOPIED 0 d else b, result := result, sectors := k, cut := false }

/-- The journal processed (R471). -/
def Block.bootJournal (b : Block) (cut : Option Nat) : Boot :=
  let st := b.jState
  if st = jSTAGED ∨ st = jCOPY_START ∨ st = jSECTOR_DONE then
    if !b.imgValid flStage || b.imgDigLo flStage != b.jDigLo then
      { b := b.jAppend jCANCEL 0 b.jDigLo, result := brCOPY_FAIL, sectors := 0, cut := false }
    else
      let fresh := st == jSTAGED
      let b := if fresh then b.jAppend jCOPY_START 0 b.jDigLo else b
      b.bootCopy (firstSector b.jEntries b.stgSectors) (if fresh then brCOPIED else brRESUMED) cut
  else { b := b, result := brMAIN, sectors := 0, cut := false }

/-- Fuses after a copy, and the fallback when the main image is not valid (R471, R472). -/
def Boot.rest (r : Boot) (cut : Option Nat) : Boot :=
  if r.cut then r
  else
    let b := r.b
    let b := if b.jState = jCOPIED then (b.fuse (b.imgRoll flMain)).jAppend jFUSED (max b.upd.fuses (b.imgRoll flMain)) b.jDigLo else b
    if b.imgValid flMain then { r with b := b }
    else if b.imgValid flStage && b.imgDigLo flStage == b.jDigLo then
      let c := b.bootCopy 0 brCOPIED cut
      if c.cut || c.b.imgValid flMain then { c with sectors := r.sectors + c.sectors } else { c with result := brRECOVERY }
    else { r with b := b, result := brRECOVERY }

/-- A run of the boot ROM (R471): the UPD registers show it. -/
def Block.updBoot (b : Block) (cut : Option Nat) : Boot :=
  let r := (b.bootJournal cut).rest cut
  let b := { r.b with upd := { r.b.upd with stgLen := 0, seed := none } }
  let b := ((b.wr UPD_BOOT_ST.SECTORS r.sectors).wr UPD_BOOT_ST.JSTATE b.jState).wr UPD_BOOT_ST.RESULT r.result
  let b := (b.wr UPD_ROLL.ROLL b.upd.fuses).stgFromJournal
  { r with b := b.setReg UPD_MAIN_VER.all.base (BitVec.ofNat 32 (if r.result = brRECOVERY then 0 else b.imgVer flMain)) }

/-! ### Configuration records (R474–R476) -/

/-- A configuration record: its key, VER, SEQ, whether it is DELETED, its body, and its place in the area. -/
structure CfgRec where
  typ : Nat
  inst : Nat
  ver : Nat
  seq : Nat
  deleted : Bool
  body : List Byte
  pos : Nat
  deriving DecidableEq, Repr

/-- The key: TYPE above INST. -/
def CfgRec.key (r : CfgRec) : Nat := r.typ * 65536 + r.inst

/-- The bytes of a record. -/
def CfgRec.bytes (r : CfgRec) : List Byte :=
  let d := leBytes 2 r.typ ++ leBytes 2 r.inst ++ leBytes 2 r.ver ++ leBytes 2 r.body.length ++ leBytes 4 r.seq ++ leBytes 1 r.deleted.toNat
    ++ List.replicate 3 0 ++ r.body
  d ++ leBytes 4 (crc32 d)

/-- The place after a record: aligned to 16 bytes. -/
def CfgRec.next (r : CfgRec) : Nat := (r.pos + 20 + r.body.length + 15) / 16 * 16

/-- The record at `pos` of an area, unless it is erased, overlong, beyond the area, or fails its CRC. -/
def Block.cfgAt (b : Block) (area pos : Nat) : Option CfgRec :=
  let base := flCfg area + pos
  let h := b.fl base 16
  let n := leAt h 6 2
  if flCfgSize < pos + 20 + n ∨ 4096 < n ∨ h.all (· == 0xFF) = true then none
  else
    let d := h ++ b.fl (base + 16) n
    if b.flLe (base + 16 + n) 4 = crc32 d then
      some { typ := leAt h 0 2, inst := leAt h 2 2, ver := leAt h 4 2, seq := leAt h 8 4, deleted := bitOf (leAt h 12 1) 0, body := d.drop 16, pos := pos }
    else none

/-- The log of an area from `pos` on. -/
def Block.cfgFrom (b : Block) (area pos : Nat) : Nat → List CfgRec
  | 0 => []
  | fuel + 1 => match b.cfgAt area pos with | some r => r :: b.cfgFrom area r.next fuel | none => []

/-- The log of an area. -/
def Block.cfgLog (b : Block) (area : Nat) : List CfgRec := b.cfgFrom area 64 32768

/-- GEN of an area that is complete. -/
def Block.cfgGen (b : Block) (area : Nat) : Option Nat :=
  if b.fl (flCfg area) 8 = ascii "GRNCREC1" ∧ b.flLe (flCfg area + 32) 4 = 1 then some (b.flLe (flCfg area + 8) 4) else none

/-- The active area. -/
def Block.cfgActive (b : Block) : Option Nat :=
  match b.cfgGen 0, b.cfgGen 1 with
  | some g, some k => some (if k ≤ g then 0 else 1)
  | some _, none => some 0
  | none, some _ => some 1
  | none, none => none

/-- The records of the active area. -/
def Block.cfgRecs (b : Block) : List CfgRec := match b.cfgActive with | some a => b.cfgLog a | none => []

/-- The latest record of each key, in ascending key. -/
def cfgLatest (l : List CfgRec) : List CfgRec :=
  (l.foldl (fun (m : List (Nat × CfgRec)) r =>
    match m.find? (fun e => e.1 == r.key) with
    | some (_, o) => if o.seq < r.seq then insertKey (r.key, r) (m.filter (fun e => e.1 != r.key)) else m
    | none => insertKey (r.key, r) m) []).map (·.2)

/-- The live records (R475), in ascending key. -/
def Block.cfgLive (b : Block) : List CfgRec := (cfgLatest b.cfgRecs).filter (fun r => !r.deleted)

/-- The place of the next record of a log. -/
def cfgEnd (l : List CfgRec) : Nat := match l.getLast? with | some r => r.next | none => 64

/-- The next SEQ of a log. -/
def cfgSeq (l : List CfgRec) : Nat := l.foldl (fun m r => max m (r.seq + 1)) 0

/-- Records laid out in an area from `pos` on; none when one does not fit. -/
def Block.cfgPut (b : Block) (area pos : Nat) : List CfgRec → Option Block
  | [] => some b
  | r :: l =>
    if flCfgSize < pos + 20 + r.body.length then none
    else (b.flProg (flCfg area + pos) r.bytes).cfgPut area ({ r with pos := pos }).next l

/-- A compaction (R475): the other area is erased and takes the records, its header with GEN + 1, and COMMIT last. -/
def Block.cfgCompact (b : Block) (rs : List CfgRec) : Option Block :=
  let (area, g) := match b.cfgActive with | some a => (1 - a, (b.cfgGen a).getD 0 + 1) | none => (0, 1)
  match (b.flErase (flCfg area) flCfgSize).cfgPut area 64 rs with
  | some b =>
    let b := b.flProg (flCfg area) (ascii "GRNCREC1" ++ leBytes 4 g ++ leBytes 2 b.stw.recVer)
    some (b.flProg (flCfg area + 32) (leBytes 4 1))
  | none => none

/-- A record appended to the active area, or by compaction when it does not fit (R475); none when there is no room. -/
def Block.cfgAppend (b : Block) (r : CfgRec) : Option Block :=
  let log := b.cfgRecs
  let r := { r with seq := cfgSeq log, pos := cfgEnd log }
  match b.cfgActive with
  | some a =>
    if r.pos + 20 + r.body.length ≤ flCfgSize then some (b.flProg (flCfg a + r.pos) r.bytes)
    else b.cfgCompact (b.cfgLive ++ [r])
  | none => b.cfgCompact [r]

/-- UPD_CFG_ST counts the live records. -/
def Block.cfgCount (b : Block) : Block := b.wr UPD_CFG_ST.LIVE b.cfgLive.length

/-- UPD_CFG_LIST (R485): the keys of live records in ascending order. -/
def execUpdCfgList (s : State) : Out := runCmd s (fun b =>
  b.mbxServe 0x2010 (· == 1) (fun b =>
    let ks := ((b.cfgLive.drop (b.argN 0)).take 63).map (fun r => BitVec.ofNat 32 r.key)
    b.mbxHold mbxOK (BitVec.ofNat 32 ks.length :: ks)))

/-- UPD_CFG_READ (R485). -/
def execUpdCfgRead (s : State) : Out := runCmd s (fun b =>
  b.mbxServe 0x2011 (· == 3) (fun b =>
    match b.cfgLive.find? (fun r => r.key == b.argN 0) with
    | some r =>
      if b.dramSize < b.mbxArg64 1 + r.body.length then b.hold updDRAM_ERR
      else (b.dramWrite (b.mbxArg64 1) r.body).mbxHold mbxOK [BitVec.ofNat 32 (r.ver * 65536 + r.body.length)]
    | none => b.hold updCFG_NOT_FOUND))

/-- A record written, or CFG_FULL, or FLASH_ERR where the read-back fails (`bad`): then the write is not made. -/
def Block.cfgStore (b : Block) (r : CfgRec) (bad : Bool) : Block :=
  match b.cfgAppend r with
  | some b' => if bad then b.hold updFLASH_ERR else (b'.cfgCount).hold mbxOK
  | none => b.hold updCFG_FULL

/-- UPD_CFG_WRITE (R475, R485): host types only. -/
def execUpdCfgWrite (bad : Bool) (s : State) : Out := runCmd s (fun b =>
  b.mbxServe 0x2012 (· == 4) (fun b =>
    let n := b.argN 1 % 65536
    let a := b.mbxArg64 2
    b.firstFail [(decide (b.argN 0 < 0x80000000) || decide (4096 < n), updCFG_RESERVED)] (fun b => b.areaRead a n (fun b =>
      b.cfgStore { typ := b.argN 0 / 65536, inst := b.argN 0 % 65536, ver := b.argN 1 / 65536, seq := 0, deleted := false,
                   body := b.dramBytes a n, pos := 0 } bad))))

/-- UPD_CFG_DELETE (R475, R485). -/
def execUpdCfgDelete (bad : Bool) (s : State) : Out := runCmd s (fun b =>
  b.mbxServe 0x2013 (· == 1) (fun b =>
    b.firstFail [(decide (b.argN 0 < 0x80000000), updCFG_RESERVED), (b.cfgLive.all (fun r => r.key != b.argN 0), updCFG_NOT_FOUND)] (fun b =>
      b.cfgStore { typ := b.argN 0 / 65536, inst := b.argN 0 % 65536, ver := 0, seq := 0, deleted := true, body := [], pos := 0 } bad)))

/-- What becomes of a live record at a start (R476). -/
inductive CfgFate where
  | keep
  | apply
  | migrated (r : CfgRec)
  | newer
  | failed
  deriving DecidableEq, Repr

/-- The treatment of a record by the firmware: host records are kept. -/
def cfgFate (fw : Nat) (r : CfgRec) : CfgFate :=
  if 0x8000 ≤ r.typ then .keep
  else
    let v := Config.cfgVer fw r.typ % 65536
    if r.ver = v then .apply
    else if v < r.ver then .newer
    else match Config.cfgMigrate fw r.typ r.ver r.body with
      | some body => if 4096 < body.length then .failed else .migrated { r with ver := v, body := body }
      | none => .failed

/-- MREG_1 takes a record applied (R476). -/
def Block.cfgApply (b : Block) (r : CfgRec) : Block :=
  b.mregExtend 1 (leBytes 2 r.typ ++ leBytes 2 r.inst ++ leBytes 2 r.ver ++ shake256 64 r.body)

/-- The configuration records at a start (R476). A compaction without room fails every conversion. -/
def Block.cfgStart (b : Block) : Block :=
  let live := b.cfgLive.map (fun r => (r, cfgFate b.fwWord r))
  let want := live.any (fun x => match x.2 with | .migrated _ => true | _ => false)
  let laid := if want then b.cfgCompact (live.map (fun x => match x.2 with | .migrated r => r | _ => x.1)) else none
  let fate (x : CfgRec × CfgFate) : CfgFate := match x.2 with | .migrated r => if laid.isSome then .migrated r else .failed | f => f
  let n := (live.filter (fun x => fate x == .newer)).length
  let f := (live.filter (fun x => fate x == .failed)).length
  let b := match laid with | some b => b.set UPD_EVT.CFG_MIGRATED | none => b
  let b := live.foldl (fun (b : Block) x => match fate x with | .apply => b.cfgApply x.1 | .migrated r => b.cfgApply r | _ => b) b
  let b := ((b.mregShow).wr UPD_CFG_ST.NEWER (min n 255)).wr UPD_CFG_ST.FAILED (min f 255)
  (b.when (n + f != 0) (fun b => b.set UPD_EVT.CFG_ERR)).cfgCount

/-! ### Seedfall (R478–R484) -/

/-- The source symbols of block `s` and the number of the first (R478; the partitioning of RFC 6330). -/
def seedBlock (f t z s : Nat) : Nat × Nat :=
  let kt := ceilDiv f t
  let il := ceilDiv kt z
  let is := kt / z
  let zl := kt - is * z
  if s < zl then (il, il * s) else (is, il * zl + is * (s - zl))

/-- The manifest satisfies R478, R479 and R480. -/
def manifestOk (m : List Byte) (session nsym : Nat) : Bool :=
  let f := leAt m 24 5
  let z := leAt m 29 1
  let t := leAt m 30 2
  slice m 0 8 == ascii "GRNSEED1" && leAt m 8 2 == 0 && leAt m 10 2 == session && leAt m 32 1 == 1 && leAt m 33 1 == 4 && leAt m 34 2 == 0
    && decide (1 ≤ f) && decide (f ≤ 33554432) && decide (16 ≤ t) && decide (t ≤ 256) && t % 4 == 0 && decide (1 ≤ z) && decide (z ≤ ceilDiv f t)
    && decide (ceilDiv (ceilDiv f t) z ≤ 8192) && decide (1 ≤ nsym) && decide (nsym ≤ 16) && decide (nsym * t + 8 ≤ 987)

/-- UPD_SEED_START (R482, R485, R487). -/
def execUpdSeedStart (s : State) : Out := runCmd s (fun b =>
  b.mbxServe 0x2020 (· == 7) (fun b =>
    let session := b.argN 0 % 65536
    let key := (b.slot (b.argN 0 / 65536 % 64)).act
    let img := b.mbxArg64 1
    let man := b.mbxArg64 3
    let ctx := b.argN 5 % 65536
    let nsym := b.argN 5 / 65536 % 256
    b.firstFail [(b.rd UPD_SEED_ST.ST == 1 || b.rd UPD_SEED_ST.ST == 2, updSEED_BUSY)] (fun b => b.areaRead man 218 (fun b =>
    let m := b.dramBytes man 218
    let f := leAt m 24 5
    let c := b.ctx ctx
    b.firstFail [(b.tampered || !manifestOk m session nsym || !(key.typ == 4 && key.allows mkSIGN)
          || !edVerify key.key (shake256 64 (slice m 0 104)) (slice m 104 114), updBAD_MANIFEST)] (fun b => b.areaRead img f (fun b =>
    b.firstFail [(!c.cfg.en || c.cfg.qmax == 0, updBAD_CTX),
        (slice m 40 64 != shake256 64 (b.dramBytes img f), updSEED_HASH)] (fun b =>
      let e : Seed := { session := session, img := img, f := f, t := leAt m 30 2, z := leAt m 29 1, ctx := ctx, nsym := nsym,
                        repair := b.argN 6 % 65536, fwver := leAt m 16 4, manifest := m, blk := 0, esi := 0, prepared := false, manSent := false,
                        retryCell := 0 }
      let b := { b with upd := { b.upd with seed := some e } }
      let b := (b.wr UPD_SEED_ST.SESSION session).wr UPD_SEED_ST.ST 1
      let b := [UPD_SEED_ITEMS.all, UPD_SEED_CNT_RX.all, UPD_SEED_CNT_DONE.all, UPD_SEED_CNT_APPL.all, UPD_SEED_CNT_FAIL.all].foldl
        (fun (b : Block) r => b.setReg r.base 0) b
      b.hold mbxOK)))))))

/-- UPD_SEED_STOP (R485). -/
def execUpdSeedStop (s : State) : Out := runCmd s (fun b =>
  b.mbxServe 0x2021 (· == 0) (fun b =>
    if b.rd UPD_SEED_ST.ST = 1 ∨ b.rd UPD_SEED_ST.ST = 2 then (b.wr UPD_SEED_ST.ST 4).mbxHold mbxOK [b.reg UPD_SEED_ITEMS.all.base]
    else b.hold updSEED_IDLE))

/-- UPD_SEED_COUNT (R485). -/
def execUpdSeedCount (s : State) : Out := runCmd s (fun b =>
  b.mbxServe 0x2022 (· == 0) (fun b =>
    b.mbxHold mbxOK ([UPD_SEED_ST.all, UPD_SEED_CNT_RX.all, UPD_SEED_CNT_DONE.all, UPD_SEED_CNT_APPL.all, UPD_SEED_CNT_FAIL.all].map
      (fun r => b.reg r.base))))

/-- The encoder has prepared a source block: its symbols are available, and PREPARING becomes SENDING (R478, R488). -/
def execEncoderBlockPrepared (s : State) : Out := runCmd s (fun b =>
  match b.upd.seed with
  | some e =>
    if b.rd UPD_SEED_ST.ST = 1 ∨ b.rd UPD_SEED_ST.ST = 2 then
      { b with upd := { b.upd with seed := some { e with prepared := true } } }.wr UPD_SEED_ST.ST 2
    else b
  | none => b)

/-- A symbol of the session's block: a source symbol, padded with zero beyond F, or a repair symbol of RFC 6330 (R478). -/
def Block.seedSymbol (b : Block) (e : Seed) (esi : Nat) : List Byte :=
  let (k, first) := seedBlock e.f e.t e.z e.blk
  let src (i : Nat) : List Byte := slice (b.dramBytes (e.img + (first + i) * e.t) (min e.t (e.f - (first + i) * e.t))) 0 e.t
  if esi < k then src esi else slice (Config.raptorRepair ((List.range k).flatMap src) k e.t esi) 0 e.t

/-- The payload next to send, and the session after it: the manifest, then each SYMBOLS payload in encoder order (R480, R482). -/
def Block.seedNext (b : Block) (e : Seed) : List Byte × Seed :=
  if !e.manSent then (0 :: e.manifest, { e with manSent := true })
  else
    let last := (seedBlock e.f e.t e.z e.blk).1 + e.repair
    let n := min e.nsym (last - e.esi)
    let p := leBytes 1 1 ++ leBytes 2 e.session ++ leBytes 1 e.blk ++ leBytes 3 e.esi ++ leBytes 1 n
      ++ (List.range n).flatMap (fun i => b.seedSymbol e (e.esi + i))
    (p, if e.esi + n < last then { e with esi := e.esi + n } else { e with esi := 0, blk := e.blk + 1, prepared := false })

/-- The encoder admits its next packet to its context while QLEN is below QMAX (R482); one dropped for want of a pool buffer is admitted again at
the next cell boundary; the last one ends the session. -/
def execSeedItemAdmit (s : State) : Out := runCmd s (fun b =>
  match b.upd.seed with
  | some e =>
    let c := b.ctx e.ctx
    if b.rd UPD_SEED_ST.ST ≠ 2 ∨ e.prepared = false ∨ c.cfg.qmax ≤ c.held.length ∨ b.clk.cell < e.retryCell then b
    else
      let (p, e') := b.seedNext e
      if b.poolCount ≤ b.poolUsed.length then
        let b := b.shpAdmit 0xFFFFFFF 3 e.ctx p
        { b with upd := { b.upd with seed := some { e with retryCell := b.clk.cell + 1 } } }
      else
        let b := (b.shpAdmit 0xFFFFFFF 3 e.ctx p).inc UPD_SEED_ITEMS.all
        let b := { b with upd := { b.upd with seed := some e' } }
        b.when (decide (e.z ≤ e'.blk)) (fun b => (b.wr UPD_SEED_ST.ST 3).set UPD_EVT.SEED_DONE)
  | none => b)

/-- Steward core 2 takes a REPORT of the node of record `idx` under the lock of R319 (R484). -/
def execSeedReportProcess (idx session state : Nat) (s : State) : Out := runCmd s (fun b =>
  let r := b.recordNow idx
  if b.seedSession ≠ some session ∨ !b.stewardUp 2 ∨ b.recordFree idx = true ∨ state = 0 ∨ 4 < state then b
  else match b.stwUpdate 2 idx (fun r => seedRecord r session state) with
    | (true, b) => b.seedMove (seedOf session r) state
    | (false, b) => b)

/-! ### Recovery (R473, R488, R489) -/

/-- The recovery flash registers act (R489). -/
def Block.flOpen (b : Block) : Bool := b.rd UPD_BOOT_ST.RESULT == brRECOVERY && !b.bit UPD_FL_CMD.BUSY

/-- A write of UPD_FL_CMD starts a command, or is ignored with WR_IGN (R489). -/
def Block.flCmd (b : Block) (op : Nat) : Block :=
  if b.flOpen then ((b.wr UPD_FL_CMD.OP op).set UPD_FL_CMD.BUSY).clr UPD_FL_CMD.ERR else b.set UPD_EVT.WR_IGN

def execUpdFlRead (s : State) : Out := runCmd s (fun b => b.flCmd 0)
def execUpdFlProgram (s : State) : Out := runCmd s (fun b => b.flCmd 1)
def execUpdFlErase (s : State) : Out := runCmd s (fun b => b.flCmd 2)
def execUpdFlNop (s : State) : Out := runCmd s (fun b => b.flCmd 3)

/-- The page buffer. -/
def Block.flBuf (b : Block) : List Byte := wordsBytes ((List.range 64).map (fun i => b.reg (UPD_FL_DATA.all.off i)))

/-- The command completes (R488, R489). `bad`: its read-back failed. With address bits that must be zero set, what the flash then holds and ERR are
open. -/
def execUpdFlDone (bad : Bool) (s : State) : Out := runCmd s (fun b =>
  if !b.bit UPD_FL_CMD.BUSY then b
  else
    let a := (b.reg UPD_FL_ADDR.all.base).toNat
    let done (b : Block) (err : Bool) : Block := ((b.clr UPD_FL_CMD.BUSY).flag UPD_FL_CMD.ERR err).set UPD_EVT.FL_DONE
    match b.rd UPD_FL_CMD.OP with
    | 0 =>
      let d := b.fl a 256
      done ((List.range 64).foldl (fun (b : Block) i => b.setReg (UPD_FL_DATA.all.off i) (BitVec.ofNat 32 (leAt d (4 * i) 4))) b) bad
    | 1 =>
      if a % 256 ≠ 0 then let e := bitOf b.freeNat 0; done (b.took.flFree (a / 256 * 256) 256) e
      else if bad then done (b.flFree a 256) true
      else let b' := b.flProg a b.flBuf; done b' (b'.fl a 256 != b.flBuf)
    | 2 =>
      if a % 65536 ≠ 0 then let e := bitOf b.freeNat 0; done (b.took.flFree (a / 65536 * 65536) 65536) e
      else if bad then done (b.flFree a 65536) true
      else done (b.flErase a 65536) false
    | _ => done b bad)

end Sys2Proof.Machine
end

