-- ==== Sys2Proof/Machine/Mailbox.lean ====
section
/-! DEFINITION. The host mailbox and the steward cores behind it (R31–R43, R539). -/

namespace Sys2Proof.Machine

/-- PHASE is BUSY or ABORTING. -/
def Block.mbxBusy (b : Block) : Bool := b.rd SYS_MBX_STATE.PHASE == phBUSY || b.rd SYS_MBX_STATE.PHASE == phABORTING

/-- A write of RING (R35, R36): accepted in IDLE or DONE, and with READY 0 complete with NOT_READY one PBUS_CLK cycle later; else DB_REJECT. -/
def Block.mbxRing (b : Block) : Block :=
  if b.mbxBusy then b.set SYS_MBX_STATE.DB_REJECT
  else
    let tmo := b.clk.beat + msBeats (b.rd SYS_MBX_TMO.TMO_MS)
    let b := { b with stw := { b.stw with deadline := some tmo, abortAt := none, held := none, res := [] } }
    let b := ((b.clr SYS_MBX_STATE.DONE).wr SYS_MBX_STATE.PHASE phBUSY).set SYS_MBX_DB.RING
    if b.bit SYS_MBX_STATE.READY then b else b.beatTick.mbxComplete mbxNOT_READY []
def execMbxRing (s : State) : Out := runCmd s Block.mbxRing

/-- A write of ABORT (R38): no effect but in BUSY. -/
def Block.mbxAbort (b : Block) : Block :=
  if b.rd SYS_MBX_STATE.PHASE = phBUSY then
    ({ b with stw := { b.stw with abortAt := some (b.clk.beat + msBeats 10) } }.wr SYS_MBX_STATE.PHASE phABORTING).set SYS_MBX_DB.ABORT
  else b
def execMbxAbort (s : State) : Out := runCmd s Block.mbxAbort

/-- The opcodes defined (R42, R43, R369, R488). -/
def mbxOpcodes : List Nat :=
  [0x0000, 0x0001, 0x0002, 0x1000, 0x1001, 0x1002, 0x1003, 0x1004, 0x1010, 0x1011, 0x1012, 0x1013, 0x1014, 0x1015, 0x1016, 0x1020, 0x1021, 0x1022,
   0x1030, 0x1031, 0x1040, 0x1041, 0x2000, 0x2001, 0x2002, 0x2003, 0x2010, 0x2011, 0x2012, 0x2013, 0x2020, 0x2021, 0x2022]

/-- The steward completes the command (R38, R40–R42): with the result it holds; with ABORTED where it has stopped the command; or with the generic
failures of R41. A command it has not yet served does not complete. -/
def Block.mbxFinish (b : Block) : Block :=
  if !b.mbxBusy || !b.bit SYS_MBX_STATE.READY then b
  else
    match b.stw.held with
    | some (st, res) => let (b, st) := b.hwdFinish st; b.mbxComplete st res
    | none =>
      if b.rd SYS_MBX_STATE.PHASE = phABORTING then b.hwdAbort.updAbort.mbxComplete mbxABORTED []
      else if !mbxOpcodes.contains (b.rd SYS_MBX_CMD.OPCODE) then b.mbxComplete mbxBAD_OPCODE []
      else if 64 < b.rd SYS_MBX_CMD.ARG_LEN then b.mbxComplete mbxBAD_LENGTH []
      else b
def execMbxComplete (s : State) : Out := runCmd s Block.mbxFinish

/-- The hardware completes a command whose steward has held nothing, or whose result is discarded: what the steward did not finish stops (R37, R38). -/
def Block.mbxGiveUp (b : Block) (status : Nat) : Block :=
  (b.hwdAbort.when b.stw.held.isNone Block.updAbort).mbxComplete status []

/-- TMO_MS after RING (R37). -/
def execMbxTimeout (s : State) : Out := runCmd s (fun b =>
  match b.stw.deadline with
  | some d => if b.mbxBusy then (b.toBeat d).mbxGiveUp mbxTIMEOUT else b
  | none => b)

/-- 10 ms after ABORT (R38). -/
def execMbxAbortTimeout (s : State) : Out := runCmd s (fun b =>
  match b.stw.abortAt with
  | some d => if b.rd SYS_MBX_STATE.PHASE = phABORTING then (b.toBeat d).mbxGiveUp mbxABORTED else b
  | none => b)

/-- PING echoes its argument words (R43). -/
def execPing (s : State) : Out := runCmd s (fun b =>
  b.mbxServe 0x0000 (fun _ => true) (fun b => b.mbxHold mbxOK ((List.range b.argLen).map b.mbxArg)))

/-- GET_FW_INFO (R43). -/
def execGetFwInfo (s : State) : Out := runCmd s (fun b =>
  b.mbxServe 0x0001 (· == 0) (fun b =>
    b.mbxHold mbxOK ([b.fwWord, b.stw.build, b.fwRoll, b.stw.recVer].map (BitVec.ofNat 32))))

/-- GET_HEALTH (R43). The joins pending are those accepted whose ACK is still to come (log entry 54). -/
def execGetHealth (s : State) : Out := runCmd s (fun b =>
  b.mbxServe 0x0002 (· == 0) (fun b =>
    let unread := (b.rd RAS_LOG_WR.SEQ + 65536 - b.rd RAS_LOG_RD.SEQ) % 65536
    b.mbxHold mbxOK ([b.rd SYS_MBX_STATE.STW_UP + min 15 b.stw.restarts * 2 ^ 8, b.stw.joins.length, unread].map (BitVec.ofNat 32))))

/-- A steward watchdog expires (R32, R39): the cores restart, READY clears, source 4 rises (R491), and a command in progress completes with
STEWARD_RESET. -/
def execStewardWatchdogExpiry (s : State) : Out := runCmd s (fun b =>
  if b.rd SYS_MBX_STATE.STW_UP = 0 then b
  else
    let b := { b with stw := { b.stw with restarts := b.stw.restarts + 1 }, icu := { b.icu with wfe := [] } }
    let b := ((b.clr SYS_MBX_STATE.READY).clr SYS_MBX_STATE.STW_UP).pulse 4
    (b.when b.mbxBusy (fun b => b.mbxGiveUp mbxSTEWARD_RESET)).icuEval)

/-- The steward firmware finishes its initialisation (R32, R539, R540): at a start of the device it applies the configuration records (R476) and ends
Request Retry Status; after a restart of the cores alone READY sets again. In RECOVERY no steward firmware runs (R473). -/
def execStewardReady (s : State) : Out := runCmd s (fun b =>
  let running := b.rd SYS_MBX_STATE.STW_UP == 15
  if b.pwr.rst.isSome || b.bit SYS_MBX_STATE.READY || (b.stw.rrs && !running) || (!b.stw.rrs && b.rd UPD_BOOT_ST.RESULT == brRECOVERY) then b
  else
    let b := b.when b.stw.rrs Block.cfgStart
    ({ b with stw := { b.stw with rrs := false } }.set SYS_MBX_STATE.READY).wr SYS_MBX_STATE.STW_UP 15)

end Sys2Proof.Machine
end

