-- ==== Sys2Proof/Machine/Power.lean ====
section
/-! DEFINITION. Supplies, resets, clocks, start-up, monitors and low-power states (R529–R551). -/

namespace Sys2Proof.Machine

/-! ### The RTC (R536, R550) -/

/-- AON_CLK in Hz: 32,768 from the crystal; from the internal RC oscillator some value within 10 % of it, open (log entry 2). -/
def Block.aonHz (b : Block) : Nat := if b.bit PWR_STAT.RTC_VALID then 32768 else 29492 + Config.freeNat b.pwr.rc % 6553

/-- The AON_CLK count, and the same with the part of a count not yet complete in units of 4 ns × Hz. -/
def Block.rtcUnits (b : Block) : Nat := b.pwr.rtcAcc + (b.clk.beat - b.pwr.rtcFrom) * b.aonHz
def Block.rtcNow (b : Block) : Nat := b.rtcUnits / 250000000 % 2 ^ 48

/-- The count so far is kept, and `beat` is the beat it goes on from. -/
def Block.rtcRebase (b : Block) (beat : Nat) : Block := { b with pwr := { b.pwr with rtcAcc := b.rtcUnits, rtcFrom := beat } }

/-! ### Resets (R533–R535) -/

/-- Kinds of reset (R533, R550). -/
def rkAON_POR : Nat := 0
def rkCOLD : Nat := 1
def rkWARM : Nat := 2
def rkSLEEP_EXIT : Nat := 3

/-- A register carried over to the block `n`. -/
def Block.keep (n b : Block) (off : Nat) : Block := n.setReg off (b.reg off)

/-- What Heartwood keeps across a reset of a kind (R345, R362, R366, R368, R374, R533). -/
def Block.hwdKeep (n b : Block) (kind : Nat) : Block :=
  let lost := kind == rkAON_POR || b.pwr.secLost || b.secOff
  let st := b.rd HWD_STATE.ST
  let gone := if kind = rkAON_POR ∨ kind = rkCOLD then 0 else if st = hsZEROISED ∨ st = hsTAMPERED then st else b.hwd.gone
  let n : Block := { n with hwd := { n.hwd with gone := gone } }
  let n : Block := if kind = rkAON_POR then n else { n with hwd := { n.hwd with latch := b.hwd.latch, aonCause := b.hwd.aonCause } }
  let n := if kind = rkAON_POR then n
    else (n.wr HWD_STATE.CAUSE (b.rd HWD_STATE.CAUSE)).keep b HWD_TIN_CFG.all.base
  let n := if kind = rkCOLD then n.clr HWD_TIN_CFG.LOCK else n
  let n := if kind = rkWARM ∨ kind = rkSLEEP_EXIT then n.wr HWD_STATE.ROOT_OFF (b.rd HWD_STATE.ROOT_OFF) else n
  if lost then n
  else ((List.range 64).foldl (fun (n : Block) m => n.setSlot m (b.slot m).drop) n).keep b HWD_WRAP_CFG.all.base

/-- What the always-on domain keeps (R533, R550). -/
def Block.aonKeep (n b : Block) (kind : Nat) : Block :=
  let n := n.wr PWR_STAT.RAILS (b.rd PWR_STAT.RAILS)
  if kind = rkAON_POR then n
  else
    let n := (n.wr PWR_CTL.SEC_KEEP (b.rd PWR_CTL.SEC_KEEP)).wr PWR_CTL.PERST_SCOPE (b.rd PWR_CTL.PERST_SCOPE)
    let n := ((n.keep b PWR_TEMP_THR.all.base).keep b PWR_RTC_ALM_LO.all.base).keep b PWR_RTC_ALM_HI.all.base
    (n.wr PWR_STAT.RTC_VALID (b.rd PWR_STAT.RTC_VALID)).wr PWR_PLL_ST.XTAL (b.rd PWR_PLL_ST.XTAL)

/-- The state a reset of a kind leaves while internal reset is asserted (R533, R541): everything at its reset value but what the kind keeps. The boot
flash, the fuses and the pins stay. -/
def Block.resetTo (b : Block) (kind cause : Nat) : Block :=
  let z := Block.atReset
  let por := kind == rkAON_POR
  let n : Block :=
    { z with clk := { z.clk with beat := b.clk.beat, free := b.clk.free + 1 }, dram := if kind = rkWARM ∨ kind = rkSLEEP_EXIT then b.dram else z.dram,
             stw := { z.stw with restarts := if kind = rkWARM ∨ kind = rkSLEEP_EXIT then b.stw.restarts else 0 },
             upd := { z.upd with flash := b.upd.flash, fuses := b.upd.fuses, stgUndef := b.upd.stgUndef }, pins := b.pins, out := b.out,
             tap := if por then { Tap.idle with edges := b.tap.edges } else b.tap,
             pwr := { b.pwr with rst := some { kind := kind, cause := cause, since := b.clk.beat }, armed := true,
                                 rtcAcc := if por then 0 else b.pwr.rtcAcc, rtcFrom := if por then b.clk.beat else b.pwr.rtcFrom,
                                 rc := if por then b.clk.free else b.pwr.rc } }
  (n.aonKeep b kind).hwdKeep b kind

/-- Every PA_EN_n and TR_SW_n is forced high (R534). -/
def Block.pinsHigh (b : Block) : Block :=
  (List.range 8).foldl (fun (b : Block) n => if b.paOn n then (b.emit (.pin "PA_EN" n true)).emit (.pin "TR_SW" n true) else b) b

/-- A device reset is requested (R534, R535): a kind earlier in the table than the one in progress governs and restarts the sequence; any other is
absorbed. Every cause is recorded. -/
def Block.resetRequest (b : Block) (kind cause : Nat) : Block :=
  match b.pwr.rst with
  | some r =>
    if kind < r.kind then b.resetTo kind (r.cause ||| cause)
    else { b with pwr := { b.pwr with rst := some { r with cause := r.cause ||| cause } } }
  | none => b.pinsHigh.resetTo kind cause

/-- VDD_AON rises (R533). -/
def execAonPor (s : State) : Out := runCmd s (fun b => b.resetRequest rkAON_POR 0)

/-- PWR_GOOD rises (R533, R549): a COLD reset, or the end of the SLEEP_EXIT sequence in progress. -/
def execPwrGoodRise (s : State) : Out := runCmd s (fun b =>
  let b := { b with pins := { b.pins with pwrGood := true } }
  let exit := b.pwr.sleep && (match b.pwr.rst with | some r => r.kind == rkSLEEP_EXIT | none => false)
  if exit then { b with pwr := { b.pwr with sleep := false } } 
  else let b := b.resetRequest rkCOLD 1; { b with pwr := { b.pwr with sleep := false } })

/-- PWR_GOOD falls for at least 1 µs (R531, R532, R546): a thermal trip is over with it. -/
def execPwrGoodFall (s : State) : Out := runCmd s (fun b =>
  let b := { b with pins := { b.pins with pwrGood := false } }
  if b.pwr.trip then { b with pwr := { b.pwr with trip := false } }.emit (.pin "THERM_TRIP" 0 true) else b)

/-- SYS_RST_n goes low, which requests a WARM reset, or high, which lets it end (R532). -/
def execSysRst (low : Bool) (s : State) : Out := runCmd s (fun b =>
  let b := { b with pwr := { b.pwr with sysRst := low } }
  if low then b.resetRequest rkWARM 8 else b)

/-- A PCIe reset (R533): a Function Level Reset, and the link retrains. -/
def Block.pcieReset (b : Block) : Block := ((b.flr).setReg PCI_STAT.all.base 0).inc PWR_RST_CAUSE.PCIE_RST

/-- PERST# goes low: a WARM or a PCIE reset by PERST_SCOPE; or high (R532, R533). -/
def execPerst (low : Bool) (s : State) : Out := runCmd s (fun b =>
  let b := { b with pwr := { b.pwr with perst := low } }
  if !low then b
  else if b.bit PWR_CTL.PERST_SCOPE then b.resetRequest rkWARM 32
  else if b.pwr.rst.isSome then b else b.pcieReset)

/-- VDD_CORE below 0.80 V for 1 µs (R546): a COLD reset, held until the rail recovers. -/
def execBrownOut (s : State) : Out := runCmd s (fun b =>
  (b.wr PWR_STAT.RAILS (b.rd PWR_STAT.RAILS &&& 0xFD)).resetRequest rkCOLD 2)

/-- Tj at or above 120 °C for 1 ms (R546). -/
def execThermalTrip (s : State) : Out := runCmd s (fun b =>
  ({ b with pwr := { b.pwr with trip := true } }.emit (.pin "THERM_TRIP" 0 false)).resetRequest rkCOLD 4)

/-! ### Release and boot (R534, R538, R539) -/

/-- The cause of the reset persists (R532, R534, R546, R549). -/
def Block.resetHeld (b : Block) : Bool :=
  !b.pins.pwrGood || b.pwr.sysRst || (b.pwr.perst && b.bit PWR_CTL.PERST_SCOPE) || b.pwr.trip || b.pwr.sleep || !bitOf (b.rd PWR_STAT.RAILS) 1

/-- Step 3 of the boot (R538, R551): the channels that train are up; on WARM and SLEEP_EXIT a failed self-refresh exit loses the contents. -/
def Block.dramInit (b : Block) (kind : Nat) (w : BoardAt) : Block :=
  let b := ((b.wr DDRC_CFG.GIB w.gib).flag DDRC_CFG.CH0_UP w.up0).flag DDRC_CFG.CH1_UP w.up1
  let b := b.when (!(w.up0 && w.up1)) (fun b => b.set DDRC_EVT.TRAIN_FAIL)
  if w.srFail && (kind == rkWARM || kind == rkSLEEP_EXIT) then { b with dram := { bytes := [], poison := [], err := [] } }.set DDRC_EVT.SR_EXIT_FAIL else b

/-- The flash bus at a run of the boot ROM (R563): XSPI_RESET_n is low for 10 µs from release, the SFDP tables are read in 1S-1S-1S, and the bus then
runs in 8D-8D-8D, or stays in 1S-1S-1S where the flash does not support it. -/
def Block.xspiInit (b : Block) (octal : Bool) : Block :=
  let b := (b.emit (.pinAt "XSPI_RESET" 0 false b.nowQ)).emit (.pinAt "XSPI_RESET" 0 true (b.nowQ + 2500 * qBeat))
  { b with upd := { b.upd with octal := octal } }

/-- Steps 4 to 6 (R471, R473, R539, R540): the journal and the copy; then the verified image is measured and the steward cores start, or in RECOVERY
the boot ROM ends Request Retry Status and stops. A copy that a reset cuts short goes no further. -/
def Block.bootRom (b : Block) (cut : Option Nat) : Block :=
  let r := b.updBoot cut
  let b := r.b
  if r.cut then b
  else if r.result = brRECOVERY then { b with stw := { b.stw with rrs := false } }
  else
    let v := b.imgVer flMain
    let b := b.hwdBootDone (b.fl flMain (256 + b.imgLen flMain))
    let b := { b with stw := { b.stw with major := v / 65536 % 256, minor := v / 256 % 256, patch := v % 256, build := b.flLe (flMain + 12) 4,
                                          recVer := b.imgCfgVer flMain } }
    b.wr SYS_MBX_STATE.STW_UP 15

/-- Internal reset is released, 12 µs after the request at the earliest: HTIME starts from zero, CHAIN_POS is sampled, a CLR_REQ that is high is
captured, and the boot ROM runs (R85, R194, R438, R534, R539). -/
def Block.release (b : Block) (r : ResetIn) (w : BoardAt) : Block :=
  let b := (b.toBeat (r.since + 3000)).rtcRebase 0
  let was := b.clrAck
  let b := { b with clk := { b.clk with beat := 0, htime := 0, frac := 0, rate := 0, cell := 0 }, hwd := { b.hwd with grid := 0 },
                    plq := { b.plq with fcEdge := [] },
                    pins := { b.pins with chainPos := BitVec.ofNat 3 w.chain, testEn := w.testEn, padLow := BitVec.ofNat 8 w.padLow },
                    pwr := { b.pwr with rst := none, secLost := false } }.ackDrive was
  let b := ((b.wr PWR_RST_CAUSE.KIND r.kind).wr PWR_RST_CAUSE.CAUSE r.cause).wr CNP_STAT.POS (w.chain % 8)
  let b := b.when b.pins.clrReq Block.clrCapture
  (((b.hwdBootCheck w.tripped).xspiInit w.octal).dramInit r.kind w).bootRom w.cut

/-- After the hold time and the lock of the SYSCLK PLLs internal reset is released, once no cause holds it (R534). With TEST_EN high the device enters
a test mode of which the spec says nothing (R565). -/
def execInternalResetRelease (w : BoardAt) (s : State) : Out :=
  match s.blk.pwr.rst with
  | some r =>
    if s.blk.resetHeld then runCmd s id
    else if w.testEn then .fault .testMode
    else runCmd s (fun b => b.release r w)
  | none => runCmd s id

/-! ### Clocks (R536, R537) -/

/-- A bit of PWR_PLL_ST. -/
def Block.pllFlag (b : Block) (i : Nat) (v : Bool) : Block :=
  let m : BitVec 32 := 1 <<< i
  let r := b.reg PWR_PLL_ST.all.base
  b.setReg PWR_PLL_ST.all.base (if v then r ||| m else r &&& ~~~m)

/-- The bits that show a lock: 0–4 the SYSCLK PLLs, 5 DSP, 7 PCIE, 8 ETH, 9 CNP. -/
def pllBit (i : Nat) : Bool := decide (i < 10) && i != 6

/-- A PLL other than the SYSCLK PLLs locks (R536). -/
def execPllLock (i : Nat) (s : State) : Out := runCmd s (fun b => if pllBit i && decide (5 ≤ i) then b.pllFlag i true else b)

/-- A PLL loses lock: its bit clears, and one other than a Hoop PLL (bits 3 and 4) raises source 7 (R491, R536, R550). -/
def execPllLockLoss (i : Nat) (s : State) : Out := runCmd s (fun b =>
  if !pllBit i then b
  else
    let b := b.pllFlag i false
    if i = 3 ∨ i = 4 then b else b.pulse 7)

/-- The AON crystal has started: AON_CLK moves to it (R536). -/
def execAonCrystalStart (s : State) : Out := runCmd s (fun b =>
  ((b.rtcRebase b.clk.beat).set PWR_STAT.RTC_VALID).set PWR_PLL_ST.XTAL)

/-- The slew of DSP_CLK onto REFCLK has ended (R537). -/
def execDspSlewDone (s : State) : Out := runCmd s (fun b => b.set PWR_PLL_ST.DSP_SRC)

/-! ### Monitors (R546, R551) -/

/-- A rail leaves its tolerance for 1 µs, or is within it again (`ok`). With VDD_SEC the slots are lost (R345, R374). -/
def execRailOutOfTolerance (rail : Nat) (ok : Bool) (s : State) : Out := runCmd s (fun b =>
  let m := 2 ^ (rail % 8)
  let r := b.rd PWR_STAT.RAILS
  if ok then b.wr PWR_STAT.RAILS (r ||| m)
  else
    let b := ((b.wr PWR_STAT.RAILS (r &&& (255 ^^^ m))).wr PWR_SUPPLY_EVT.RAILS (b.rd PWR_SUPPLY_EVT.RAILS ||| m)).set PWR_EVT.SUPPLY
    if rail % 8 = 2 then { b with pwr := { b.pwr with secLost := true } }.slotsLost else b)

/-- A reading of the junction temperature in 1/16 °C: TEMP_ALARM sets at ALARM_THR, and again only after a fall of 2 °C below it. -/
def execTempConversion (t : Int) (s : State) : Out := runCmd s (fun b =>
  let b := (b.wr PWR_TEMP.TJ (unsigned 16 t)).set PWR_STAT.TEMP_VALID
  let thr := b.rdS PWR_TEMP_THR.ALARM_THR
  if thr ≤ t then
    if b.pwr.armed then { b with pwr := { b.pwr with armed := false } }.set PWR_EVT.TEMP_ALARM else b
  else if t ≤ thr - 32 then { b with pwr := { b.pwr with armed := true } } else b)

/-- A DRAM reports a command or address parity error (R551). -/
def execCaParityAlert (s : State) : Out := runCmd s (fun b => b.set DDRC_EVT.CA_PARITY)

/-! ### Low-power states (R547–R550) -/

/-- STATE changes (R549). -/
def Block.powerState (b : Block) (st : Nat) : Block := (b.wr PWR_STAT.STATE st).set PWR_EVT.STATE_CHG

/-- Every enable that R548 names is 0. -/
def Block.mayStandby (b : Block) : Bool :=
  !(b.bit RXA_CTL.EN || b.bit TXC_CTL.EN || b.bit GRV_CTL.EN || b.bit SHP_CTL.EN || b.bit BGH_CTL.EN || b.bit PCI_CTL.DMA_EN)

/-- REQ written with a value (R548–R550). -/
def Block.powerReq (b : Block) (req : Nat) : Block :=
  let st := b.rd PWR_STAT.STATE
  match req with
  | 1 => if st = 1 then b.wr PWR_CTL.REQ 1
    else if b.mayStandby then (b.wr PWR_CTL.REQ 1).powerState 1 else (b.clr PWR_CTL.REQ).set PWR_EVT.STBY_REFUSED
  | 2 => ({ b with pwr := { b.pwr with sleep := true } }.wr PWR_CTL.REQ 2).set PWR_EVT.STATE_CHG |>.emit (.pin "SLP_REQ" 0 true)
  | _ => let b := b.clr PWR_CTL.REQ; if st = 1 then b.powerState 0 else b

/-- A write of PWR_CTL (R550): SEC_KEEP and PERST_SCOPE are stored, REQ takes its effect, and SW_RST requests a WARM reset. -/
def Block.pwrCtl (b : Block) (v : BitVec 32) : Block :=
  let b := (b.wr PWR_CTL.SEC_KEEP (fget v PWR_CTL.SEC_KEEP)).wr PWR_CTL.PERST_SCOPE (fget v PWR_CTL.PERST_SCOPE)
  let b := b.powerReq (fget v PWR_CTL.REQ)
  if fget v PWR_CTL.SW_RST = 1 then b.resetRequest rkWARM 16 else b

def execSwRst (val : Word) (s : State) : Out := runCmd s (fun b => b.pwrCtl (fput val PWR_CTL.SW_RST 1))
def execStandbyRequest (val : Word) (s : State) : Out := runCmd s (fun b => b.pwrCtl (fput val PWR_CTL.REQ 1))
def execSleepRequest (val : Word) (s : State) : Out := runCmd s (fun b => b.pwrCtl (fput val PWR_CTL.REQ 2))

/-- A source is presented to a steward core (R548). -/
def Block.stewardCalled (b : Block) : Bool := [32, 33, 34, 35].any (fun k => (b.presented k).isSome)

/-- A write of PWR_CTL with REQ = 0, or (`none`) a source presented to a steward core, returns the device to RUN (R548). -/
def execRunRequest (val : Option Word) (s : State) : Out := runCmd s (fun b =>
  match val with
  | some v => b.pwrCtl (fput v PWR_CTL.REQ 0)
  | none => if b.stewardCalled then b.powerReq 0 else b)

/-- The RTC count at which the alarm comes (R550). -/
def Block.rtcAlarm (b : Block) : Nat := (b.reg PWR_RTC_ALM_LO.all.base).toNat + b.rd PWR_RTC_ALM_HI.HI * 2 ^ 32

/-- WAKE_n falls, or (`alarm`) the RTC reaches PWR_RTC_ALM, in SLEEP: SLP_REQ goes low, and a SLEEP_EXIT reset follows once the board has raised
PWR_GOOD (R549). -/
def execWake (alarm : Bool) (s : State) : Out := runCmd s (fun b =>
  let a := b.rtcAlarm
  if !b.pwr.sleep || b.pwr.rst.isSome || (alarm && (a == 0 || decide (a < b.rtcNow))) then b
  else
    let b := if alarm then b.toBeat (b.clk.beat + ceilDiv ((a - b.rtcNow) * 250000000) (max 1 b.aonHz)) else b
    (b.emit (.pin "SLP_REQ" 0 false)).resetRequest rkSLEEP_EXIT (if alarm then 128 else 64))

end Sys2Proof.Machine
end

