-- ==== Sys2Proof/Machine/Ras.lean ====
section
/-! DEFINITION. Error protection: the code, patrol and on-die scrubbing, the table check, and the host's reads of the log (R514–R528). -/

namespace Sys2Proof.Machine

/-! ### DRAM patrol (R516, R520) -/

/-- The byte address of line `n` of channel `c`. -/
def Block.patrolAddr (b : Block) (c n : Nat) : Nat :=
  if b.bit DDRC_CFG.CH0_UP && b.bit DDRC_CFG.CH1_UP then n / 2 * 256 + c * 128 + n % 2 * 64 else 64 * n

/-- Bits of a protected memory change by themselves: word `i` of a unit of R523, DRAM for units 0 and 1, differs by `e` from then on (log entry 33). -/
def Block.strike (b : Block) (unit i : Nat) (e : List Nat) : Block :=
  if unit < 2 then
    if 8 * i < b.dramSize then { b with dram := { b.dram with err := Tbl.put (fun _ => []) b.dram.err i (errAdd (b.dramErr i) e) } } else b
  else
    let k := odKey unit (i % 2 ^ 32)
    { b with ras := { b.ras with err := Tbl.put (fun _ => []) b.ras.err k (errAdd (Tbl.get (fun _ => []) b.ras.err k) e) } }

/-- The errors that have come up since the last scrub read. -/
def Block.strikes (b : Block) (l : List (Nat × Nat × List Nat)) : Block := l.foldl (fun (b : Block) x => b.strike x.1 x.2.1 x.2.2) b

/-- Patrol reads one line of a channel and decodes its eight words (R520). -/
def execPatrolRead (ch : Nat) (x : PatrolErrs) (s : State) : Out := runCmd s (fun b =>
  let b := b.strikes x.strikes
  let ch := ch % 2
  let up := if ch = 0 then b.bit DDRC_CFG.CH0_UP else b.bit DDRC_CFG.CH1_UP
  if !b.bit RAS_CTL.SCRUB_EN || !up then b
  else
    let n := if ch = 0 then b.ras.patrol0 else b.ras.patrol1
    let a := b.patrolAddr ch n
    let b := (List.range 8).foldl (fun (b : Block) w => b.dramFind (a / 8 + w) 1 (((x.errs.find? (fun x => x.1 == w)).map (·.2)).getD [])) b
    let last := decide (b.rd DDRC_CFG.GIB * 2 ^ 24 ≤ n + 1)
    let m := if last then 0 else n + 1
    let b : Block := { b with ras := if ch = 0 then { b.ras with patrol0 := m } else { b.ras with patrol1 := m } }
    b.when (last && ch == 0) (fun b => b.inc RAS_SCRUB_PASS.all))

/-- The oldest queued correction is written back (R518); one whose word has been written since is no longer queued. -/
def execCeWriteback (s : State) : Out := runCmd s (fun b =>
  match b.ras.fixes with
  | f :: rest => { b with ras := { b.ras with fixes := rest },
                          dram := { b.dram with bytes := dramPut b.dram.bytes f.addr f.data, err := Tbl.put (fun _ => []) b.dram.err (f.addr / 8) [] } }
  | [] => b)

/-! ### On-die scrub (R517, R521) -/

/-- Bytes put over a table of bytes. -/
def bytesPut (t : Tbl Byte) (a : Nat) (d : List Byte) : Tbl Byte :=
  ((List.range d.length).zip d).foldl (fun (t : Tbl Byte) x => Tbl.put (fun _ => 0) t (a + x.1) x.2) t

/-- The register of word `i` of the TXC images: the active dwell table, the active region profile, then the pending ones (log entry 33). -/
def txcImageReg (i : Nat) : Nat :=
  if i < 256 then TXC_DWELL_ACT.all.off (2 * i) else if i < 288 then TXC_REGION_ACT.all.off (2 * (i - 256))
  else if i < 544 then TXC_DWELL_PEND.all.off (2 * (i - 288)) else TXC_REGION_PEND.all.off (2 * (i - 544) % 64)

/-- Word `i` of a protected RAM (R517, R523), for the units whose words the state lists; the others read as zero. -/
def Block.ondieGet (b : Block) (unit i : Nat) : List Byte :=
  match unit with
  | 3 => leBytes 4 (Tbl.get (fun _ => 0) b.hoop.warp.warp (2 * i)).toNat ++ leBytes 4 (Tbl.get (fun _ => 0) b.hoop.warp.warp (2 * i + 1)).toNat
  | 4 => leBytes 8 (Tbl.get (fun _ => 0) b.wft.ibank i).toNat
  | 5 => (List.range 8).map (fun j => Tbl.get (fun _ => 0) b.wft.dmem (8 * i + j))
  | 8 => leBytes 8 (if i % 2 = 0 then (b.queue (i / 2)).wpA else (b.queue (i / 2)).rpA).toNat
  | 14 => (List.range 8).map (fun j => Tbl.get (fun _ => 0) b.rxa.fb (8 * i + j))
  | 15 => leBytes 4 (b.reg (txcImageReg i)).toNat ++ leBytes 4 (b.reg (txcImageReg i + 4)).toNat
  | _ => List.replicate 8 0

/-- Word `i` of a protected RAM as the scrub leaves it. -/
def Block.ondiePut (b : Block) (unit i : Nat) (d : List Byte) : Block :=
  let w := BitVec.ofNat 64 (leNat d)
  let lo := BitVec.ofNat 32 (leAt d 0 4)
  let hi := BitVec.ofNat 32 (leAt d 4 4)
  match unit with
  | 3 => b.setWarp { b.hoop.warp with warp := Tbl.put (fun _ => 0) (Tbl.put (fun _ => 0) b.hoop.warp.warp (2 * i) lo) (2 * i + 1) hi }
  | 4 => { b with wft := { b.wft with ibank := Tbl.put (fun _ => 0) b.wft.ibank i w } }
  | 5 => { b with wft := { b.wft with dmem := bytesPut b.wft.dmem (8 * i) d } }
  | 8 =>
    let x := b.queue (i / 2)
    let y : Queue := if i % 2 = 0 then { x with wpA := BitVec.ofNat 18 (leNat d) } else { x with rpA := BitVec.ofNat 18 (leNat d) }
    { b with plq := { b.plq with queues := Tbl.put (fun _ => Queue.fresh) b.plq.queues (i / 2) y } }
  | 14 => { b with rxa := { b.rxa with fb := bytesPut b.rxa.fb (8 * i) d } }
  | 15 => (b.setReg (txcImageReg i) lo).setReg (txcImageReg i + 4) hi
  | _ => b

/-- What an uncorrectable word means where its unit's users say so: an entry of the working-key cache is gone (R517). -/
def Block.ondieLost (b : Block) (unit i : Nat) : Block :=
  if unit = 13 then { b with hwd := { b.hwd with cache := Tbl.erase b.hwd.cache (i / 16) } }.wkCount else b

/-- The scrub reads word `i` of a unit (R521): the Grove cache, the shared table and the queue RAM as their users read them, with SCRUB. -/
def Block.ondieWord (b : Block) (unit i : Nat) (e : List Nat) : Block :=
  if unit < 2 ∨ 15 < unit then b
  else if unit = 2 then b.lineFind (i / 16) (i % 16) 1 e
  else if unit = 6 then b.tblFind i 1 e
  else if unit = 7 then b.qFind i 1 e
  else b.odFind unit i 1 e (b.ondieGet unit i) false (fun b d p => (b.ondiePut unit i d).when p (fun b => b.ondieLost unit i))

/-- Every protected RAM reads one word, and treats those found in error (R521). -/
def execOndieScrubRead (x : OndieErrs) (s : State) : Out := runCmd s (fun b =>
  let b := b.strikes x.strikes
  if !b.bit RAS_CTL.ONDIE_EN then b
  else
    let b : Block := { b with ras := { b.ras with ondie := b.ras.ondie + 1 } }
    x.errs.foldl (fun (b : Block) x => b.ondieWord x.1 x.2.1 x.2.2) b)

/-! ### Table check (R524–R526) -/

/-- The words of a pass: the active descriptors, then the dwell table image, then the region profile image. -/
def Block.tchkWords (b : Block) : Nat := 8 * b.rd HOOP_WARP_ACT_COUNT.COUNT + 512 + 64

/-- The unit, the index, the shadow offset of word `i` of a pass, and its value on die. -/
def Block.tchkWord (b : Block) (i : Nat) : Nat × Nat × Nat × BitVec 32 :=
  let n := 8 * b.rd HOOP_WARP_ACT_COUNT.COUNT
  if i < n then (3, i, 4 * i, b.warpWord b.hoop.warp.bank (i / 8) (i % 8))
  else if i < n + 512 then (15, i - n, 0x400000 + 4 * (i - n), b.reg (TXC_DWELL_ACT.all.off (i - n)))
  else (15, i - n, 0x400800 + 4 * (i - n - 512), b.reg (TXC_REGION_ACT.all.off (i - n - 512)))

/-- The shadow word written into the active table (R526). -/
def Block.tchkRepair (b : Block) (i : Nat) (v : BitVec 32) : Block :=
  let n := 8 * b.rd HOOP_WARP_ACT_COUNT.COUNT
  if i < n then b.setWarp { b.hoop.warp with warp := Tbl.put (fun _ => 0) b.hoop.warp.warp (b.hoop.warp.bank * 131072 * 8 + i) v }
  else if i < n + 512 then b.setReg (TXC_DWELL_ACT.all.off (i - n)) v
  else b.setReg (TXC_REGION_ACT.all.off (i - n - 512)) v

/-- The checker compares one word with its shadow (R524–R526); a poisoned shadow word is counted and not compared. -/
def execTableCheckCompare (s : State) : Out := runCmd s (fun b =>
  if !b.bit RAS_CTL.TCHK_EN || b.ras.tchkWait then b
  else
    let i := b.ras.tchk
    let (unit, idx, off, v) := b.tchkWord i
    let a := b.rd64 RAS_TCHK_BASE_LO.all RAS_TCHK_BASE_HI.all + off
    let last := decide (b.tchkWords ≤ i + 1)
    let next (b : Block) : Block :=
      { b with ras := { b.ras with tchk := if last then 0 else i + 1 } }.when last (fun b => b.inc RAS_TCHK_PASS.all)
    let b := b.dramTouch a 4
    if b.dramPoisoned a 4 then next b
    else
      let w := BitVec.ofNat 32 (b.dramLe a 4)
      if v = w then next b
      else
        let rep := b.bit RAS_CTL.TCHK_REPAIR && !(unit == 15 && b.bit TXC_CTL.DWELL_LOCK)
        let b := b.log kindSHADOW unit (BitVec.ofNat 32 (rep.toNat * 4 * 2 ^ 24)) idx v w
        next (b.when rep (fun b => b.tchkRepair i w)))

/-! ### The log as the host reads it (R522, R523, R527) -/

/-- A write of RAS_LOG_RD (R522): outside RD to WR it is ignored with WR_IGN. -/
def Block.logRdWrite (b : Block) (v : BitVec 32) : Block :=
  let r := b.rd RAS_LOG_RD.SEQ
  if (v.toNat % 65536 + 65536 - r) % 65536 ≤ (b.rd RAS_LOG_WR.SEQ + 65536 - r) % 65536 then b.wr RAS_LOG_RD.SEQ v.toNat else b.set RAS_EVT.WR_IGN
def execRasLogRdWrite (val : Word) (s : State) : Out := runCmd s (fun b => b.logRdWrite val)

/-- The 32 bytes of an entry (R523). -/
def LogEntry.bytes (e : LogEntry) : List Byte :=
  leBytes 2 e.seq ++ leBytes 1 e.kind ++ leBytes 1 e.unit ++ leBytes 4 e.info.toNat ++ leBytes 8 e.addr.toNat ++ leBytes 8 e.htime.toNat
    ++ leBytes 4 e.valA.toNat ++ leBytes 4 e.valB.toNat

/-- A write of RAS_LOG_SEL loads the entry of its slot; a slot never written reads as zero (log entry 33). -/
def Block.logSelWrite (b : Block) (v : BitVec 32) : Block :=
  let b := b.wr RAS_LOG_SEL.SEQ v.toNat
  let d := ((Tbl.find b.ras.log (v.toNat % 64)).map LogEntry.bytes).getD []
  (List.range 8).foldl (fun (b : Block) i => b.setReg (RAS_LOG_DATA.all.off i) (BitVec.ofNat 32 (leAt d (4 * i) 4))) b
def execRasLogSelWrite (val : Word) (s : State) : Out := runCmd s (fun b => b.logSelWrite val)

end Sys2Proof.Machine
end

