-- ==== Sys2Proof/Machine/RegAccess.lean ====
section
/-! DEFINITION. Accesses of the host: writes and reads of the registers of BAR0 and of the MSI-X table, access errors, the DRAM window, and
configuration requests (R9–R13, R29, R30, R407–R410, R540). A register whose write or read does more than R11 says has an entry in `writePorts`
or `readPorts`. -/

namespace Sys2Proof.Machine

/-- The number in a group of `count` registers of the one at an offset. -/
def Fld.index? (f : Fld) (count off : Nat) : Option Nat :=
  if off < f.base then none
  else if f.stride = 0 then (if off = f.base then some 0 else none)
  else if (off - f.base) % f.stride = 0 ∧ (off - f.base) / f.stride < count then some ((off - f.base) / f.stride) else none

/-- A group of registers with what an access of the n-th of them does. -/
structure RegPort (α : Type) where
  fld : Fld
  count : Nat
  act : Nat → α

/-- The entry of the register at an offset, if it has one. -/
def portAt {α : Type} (l : List (RegPort α)) (off : Nat) : Option α :=
  l.findSome? (fun p => (p.fld.index? p.count off).map p.act)

/-! ### Pairs (R13) -/

/-- The LO registers of the pairs, with their number. -/
def pairLos : List (Fld × Nat) :=
  [(HOOP_HTIME_LO.all, 1), (HOOP_PTP_OFS_LO.all, 1), (HOOP_PTP_STAMP_LO.all, 1), (PWR_RTC_LO.all, 1), (PWR_RTC_ALM_LO.all, 1), (TMR_GO_AT_LO.all, 1),
   (RXA_CEN_BASE_LO.all, 1), (CLR_LAST_LO.all, 1), (GRV_MAP_BASE_LO.all, 1), (GRV_JRNL_BASE_LO.all, 1), (SHP_POOL_BASE_LO.all, 1),
   (SHP_CELL_LO.all, 1), (SHP_CTX_TOK_LO.all, 1), (BGH_SHADOW_LO.all, 1), (BGH_CTX0_LO.all, 1), (BGH_NH_LO.all, 1), (ETH_MAC_LO.all, 2), (PCI_H2D_BASE_LO.all, 16),
   (PCI_D2H_BASE_LO.all, 16), (CNP_EXPP_LO.all, 8), (CNP_EXPA_LO.all, 8), (RAS_TCHK_BASE_LO.all, 1)]

/-- The offset holds the LO register of a pair. -/
def isPairLo (off : Nat) : Bool := pairLos.any (fun p => (p.1.index? p.2 off).isSome)

/-- The offset holds the HI register of a pair. -/
def isPairHi (off : Nat) : Bool := decide (4 ≤ off) && isPairLo (off - 4)

/-! ### Reads -/

/-- Bits `n` of 32 as a register value. -/
def bitsWord (f : Nat → Bool) : BitVec 32 := BitVec.ofNat 32 ((List.range 32).foldl (fun m i => if f i then m + 2 ^ i else m) 0)

/-- Word `n` of a list of bytes. -/
def wordAt (l : List Byte) (n : Nat) : BitVec 32 := BitVec.ofNat 32 (leAt l (4 * n) 4)

/-- WFT_STAT_n (R270). -/
def Block.engStat (b : Block) (n : Nat) : BitVec 32 :=
  let bits (f : Strand → Bool) : Nat := (List.range 4).foldl (fun m i => if f (b.strand (4 * n + i)) then m + 2 ^ i else m) 0
  let hov (s : Strand) : Bool := s.hovr.isSome || (match s.weave with | some w => w.handover | none => false)
  BitVec.ofNat 32 ((b.retiring n).toNat * 2 ^ 20 + (b.engine n).queue.length * 2 ^ 16 + bits (·.stopped) * 2 ^ 8 + bits hov * 16
    + bits (fun s => s.weave.isSome))

/-- The registers whose value is that of a part of the machine, and what each reads. -/
def livePorts : List (RegPort (Block → BitVec 32)) :=
  [⟨SYS_MBX_RES.all, 64, fun n b => b.stw.res.getD n 0⟩,
   ⟨SYS_GPIO_IN.all, 2, fun n b => bitsWord (fun i => decide (32 * n + i < 48) && b.gpioBall (32 * n + i))⟩,
   ⟨PWR_RTC_LO.all, 1, fun _ b => BitVec.ofNat 32 b.rtcNow⟩,
   ⟨PWR_RTC_HI.all, 1, fun _ b => BitVec.ofNat 32 (b.rtcNow / 2 ^ 32)⟩,
   ⟨ICU_PEND.all, 8, fun n b => b.pendReg n⟩,
   ⟨ICU_TGT_ST.all, 37, fun n b => b.tgtSt n⟩,
   ⟨TMR_IRQ_ST.all, 1, fun _ b => bitsWord b.tmrIrq⟩,
   ⟨HOOP_HTIME_LO.all, 1, fun _ b => b.clk.htime.setWidth 32⟩,
   ⟨HOOP_HTIME_HI.all, 1, fun _ b => (b.clk.htime >>> 32).setWidth 32⟩,
   ⟨HOOP_RED_ST.all, 1, fun _ b => fput (fput (b.reg HOOP_RED_ST.all.base) HOOP_RED_ST.HB_X_OK (b.hbOk false).toNat) HOOP_RED_ST.HB_Y_OK (b.hbOk true).toNat⟩,
   ⟨HOOP_DIGEST_ACT.all, 16, fun n b => wordAt b.digestAct n⟩,
   ⟨HOOP_DIGEST_PEND.all, 16, fun n b => wordAt b.hoop.warp.digPend n⟩,
   ⟨TXC_STAT.all, 1, fun _ b => fput (b.reg TXC_STAT.all.base) TXC_STAT.PA ((List.range 8).foldl (fun m n => if b.paOn n then m + 2 ^ n else m) 0)⟩,
   ⟨CLR_STAT.all, 1, fun _ b => fput (fput (b.reg CLR_STAT.all.base) CLR_STAT.ACK b.clrAck.toNat) CLR_STAT.PA_RB
     ((List.range 8).foldl (fun m n => if b.padHigh n then m + 2 ^ n else m) 0)⟩,
   ⟨TXC_USED.all, 512, fun n b => BitVec.ofNat 32 (min (2 ^ 28 - 1) (b.airUsed n))⟩,
   ⟨WFT_STAT.all, 32, fun n b => b.engStat n⟩,
   ⟨WFT_DB.all, 32, fun n b => (b.bells n).setWidth 32⟩,
   ⟨PLQ_PAUSE_ST.all, 8, fun n b => bitsWord (fun i => b.qPaused (32 * n + i))⟩,
   ⟨PLQ_FC_ST.all, 1, fun _ b => BitVec.ofNat 32 (b.rd PLQ_FC_ST.FCO + (List.range 8).foldl (fun m p => if b.fcAsserted p then m + 2 ^ (16 + p) else m) 0)⟩,
   ⟨BGH_STAT.all, 1, fun _ b => fput (b.reg BGH_STAT.all.base) BGH_STAT.SCRUB_RUN (b.rd BGH_CTL.SCRUB_EN)⟩,
   ⟨SHP_POOL_FREE.all, 1, fun _ b => BitVec.ofNat 32 (b.poolCount - b.poolUsed.length)⟩,
   ⟨SHP_CELL_LO.all, 1, fun _ b => BitVec.ofNat 32 b.shp.cell⟩,
   ⟨SHP_CELL_HI.all, 1, fun _ b => BitVec.ofNat 32 (b.shp.cell / 2 ^ 32)⟩,
   ⟨UPD_FL_DATA.all, 64, fun n b => if b.rd UPD_BOOT_ST.RESULT = brRECOVERY then b.reg (UPD_FL_DATA.all.off n) else 0⟩]

/-- What the register at an offset holds as a read sees it, WO bits zero (R11), and zero at a reserved offset (R10). -/
def Block.regNow (b : Block) (off : Nat) : BitVec 32 :=
  match portAt livePorts off with
  | some f => f b
  | none => match regRow? off with | some r => b.reg off &&& ~~~r.wo | none => 0

/-- A read with no effect of its own: a HI register answers what the last read of its LO latched (R13). -/
def Block.regRead (b : Block) (off : Nat) : BitVec 32 :=
  if isPairHi off then (Tbl.find b.hiLatch off).getD (b.regNow off) else b.regNow off

/-- The read of NAME_LO latches NAME_HI in the same cycle (R13). -/
def Block.pairRead (b : Block) (off : Nat) : Block :=
  { b with hiLatch := Tbl.insert b.hiLatch (off + 4) (b.regNow (off + 4)) }.answer (.data (b.regNow off))

/-- Counters that count with time are brought up to now before they are read (R194, R260). -/
def Block.regAccrue (b : Block) (off : Nat) : Block :=
  if off = CLR_TIME.all.base then b.clrAccrue
  else
    match WFT_CNT_STALL.all.index? 32 off with
    | some n => (List.range 4).foldl (fun (b : Block) i => b.stallAccrue (4 * n + i)) b
    | none => b

/-- A read of a register returns its value and clears its RC bits; where the hardware updates them in the same beat, the read returns their value
before the update, and the update is kept (R11, R12). The peak of RXA_POOL_ST since a read starts at the lanes then not IDLE (R171). -/
def Block.clearRead (b : Block) (off : Nat) : Block :=
  let b := { b.regAccrue off with tie := b.tie }
  let rc := match regRow? off with | some r => r.rc | none => 0
  let x := b.tieAt off
  let v := (b.regRead off &&& ~~~rc) ||| (x.1 &&& rc)
  (b.answer (.data v)).when (rc != 0) (fun b =>
    let b := { b with tie := { b.tieNow with upd := Tbl.erase b.tieNow.upd off } }.setReg off ((b.reg off &&& ~~~rc) ||| (x.2 &&& rc))
    b.when (off == RXA_POOL_ST.all.base) Block.rxCounts)

/-- The registers whose read does more. -/
def readPorts : List (RegPort (Block → Block)) :=
  [⟨SYS_UART_DATA.all, 1, fun _ b => b.uartRead⟩,
   ⟨ICU_CLAIM.all, 37, fun n b => b.claimRead n⟩,
   ⟨TMR_CNT.all, 32, fun n b => b.tmrCntRead n⟩,
   ⟨TMR_CAP.all, 32, fun n b => b.tmrCapRead n⟩,
   ⟨HOOP_WARP_DATA.all, 8, fun n b => b.warpRead n⟩,
   ⟨WFT_IDATA_LO.all, 32, fun n b => b.instrLoad n false⟩,
   ⟨WFT_IDATA_HI.all, 32, fun n b => b.instrLoad n true⟩,
   ⟨WFT_DDATA.all, 32, fun n b => b.dmemHost n false 0⟩,
   ⟨WFT_TBL_DATA_LO.all, 1, fun _ b => b.tblHostLoad false⟩,
   ⟨WFT_TBL_DATA_HI.all, 1, fun _ b => b.tblHostLoad true⟩,
   ⟨BGH_ENT_DATA.all, 1, fun _ b => b.entRead⟩]

/-- An access of a size or alignment that R9 does not allow completes without effect and is logged; the data of such a read is open (log
entry 2). -/
def Block.sizeErr (b : Block) (off : Nat) (write : Bool) : Block :=
  let b := b.accessErr reqPCIe 0 off
  if write then b.answer .done else (b.answer (.data (BitVec.ofNat 32 b.freeNat))).took

/-- The offsets from here to the end of BAR0 are unassigned (R29). -/
def unassignedFrom : Nat := 0x900000

/-- An access of an unassigned offset of BAR0: a read returns zero, a write is ignored, and either is logged (R30). -/
def Block.unassigned (b : Block) (requester off : Nat) (write : Bool) : Block :=
  (b.accessErr requester 1 off).answer (if write then .done else .data 0)

/-- An access of an aligned, assigned offset of BAR0 does `f`; any other is in error (R9, R30). -/
def Block.access (b : Block) (off : Nat) (write : Bool) (f : Block → Block) : Block :=
  if off % 4 ≠ 0 then b.sizeErr off write else if unassignedFrom ≤ off then b.unassigned reqPCIe off write else f b

/-- A read of the register at an offset of BAR0. -/
def Block.readAt (b : Block) (off : Nat) : Block := b.access off false (fun b =>
  match portAt readPorts off with
  | some f => f b
  | none => if isPairLo off then b.pairRead off else b.clearRead off)

/-- A read of a read-to-clear counter or field (R12), or of any other register. -/
def execCounterReadClear (off : Nat) (s : State) : Out := runCmd s (fun b => b.readAt off)

/-- A read of NAME_LO (R13). -/
def execPairLoRead (off : Nat) (s : State) : Out := runCmd s (fun b => b.readAt off)

/-! ### Writes -/

/-- A value with a field kept within bounds as its register's table says. -/
def fclamp (v : BitVec 32) (f : Fld) (lo hi : Nat) : BitVec 32 := fput v f (max lo (min hi (fget v f)))

/-- A write of a configuration that a state of its block protects: ignored with the flag `ign` while `locked` (R70, R189, R266, R329, R404). -/
def Block.guarded (b : Block) (locked : Bool) (ign : Fld) (f : Block → Block) : Block := if locked then b.set ign else f b

/-- A write of one register of a pair (R13). -/
def Block.pairWrite (b : Block) (off : Nat) (v : BitVec 32) : Block := if isPairHi off then b.hiWrite off v else b.loWrite off v

/-- A write of RXA_CTL (R170, R171). -/
def Block.rxaCtl (b : Block) (v : BitVec 32) : Block :=
  (b.when (fget v RXA_CTL.FLUSH == 1) (fun b => b.abortLanes (fun _ => true))).rxaEnable (fget v RXA_CTL.EN == 1)

/-- A write of RXA_SYSREF_CFG: SYSREF_SEEN starts anew as SYSREF_EN is set (R135). -/
def Block.sysrefCfg (b : Block) (v : BitVec 32) : Block :=
  let was := b.bit RXA_SYSREF_CFG.SYSREF_EN
  let b := b.regStore RXA_SYSREF_CFG.all.base v
  b.when (!was && b.bit RXA_SYSREF_CFG.SYSREF_EN) (fun b => b.clr RXA_STAT.SYSREF_SEEN)

/-- A write of TXC_CTL (R189, R201). -/
def Block.txcCtl (b : Block) (v : BitVec 32) : Block :=
  let b := b.when (fget v TXC_CTL.DWELL_LOCK == 1) (fun b => b.set TXC_CTL.DWELL_LOCK)
  (b.when (fget v TXC_CTL.FLUSH == 1) Block.txFlush).txcEnable (fget v TXC_CTL.EN == 1)

/-- A write of GRV_CTL (R323, R330). -/
def Block.grvCtl (b : Block) (v : BitVec 32) : Block :=
  let b := ((b.wr GRV_CTL.SWEEP_EN (fget v GRV_CTL.SWEEP_EN)).wr GRV_CTL.HRD_REPL (fget v GRV_CTL.HRD_REPL)).wr GRV_CTL.HRD_EN (fget v GRV_CTL.HRD_EN)
  let b := b.wr GRV_CTL.REPL (fget v GRV_CTL.REPL)
  let b := if fget v GRV_CTL.EN = 1 then b.grvEnable else b.grvDisable
  let b := b.when (fget v GRV_CTL.INIT == 1) Block.grvInit
  let b := b.when (fget v GRV_CTL.RECHK == 1) Block.grvRechk
  let b := b.when (fget v GRV_CTL.FLUSH == 1) Block.grvFlush
  b.when (fget v GRV_CTL.HRD_CLEAR == 1) Block.hrdClear

/-- A write of GRV_HA_CMD starts the operation it names (R329). -/
def Block.haCmd (b : Block) (v : BitVec 32) : Block :=
  match fget v GRV_HA_CMD.OP with
  | 0 => b.haRead
  | 1 => b.haWrite
  | 2 => b.haAllocAny
  | 3 => b.haAllocAt
  | 4 => b.haRelease
  | op => b.haBadOp (op - 5)

/-- A write of SHP_CTX_CMD starts the operation it names (R403, R404). -/
def Block.shpCmd (b : Block) (v : BitVec 32) : Block :=
  match fget v SHP_CTX_CMD.OP with
  | 0 => b.shpCtxRead
  | 1 => b.shpCtxWrite
  | 2 => b.shpCtxFlush
  | _ => b.shpCtxBad

/-- A write of BGH_CTL (R425, R426, R431): FENCE and LOAD first under the EN that stands. -/
def Block.bghCtl (b : Block) (v : BitVec 32) : Block :=
  let b := b.when (fget v BGH_CTL.FENCE == 1) Block.bghFence
  let b := b.when (fget v BGH_CTL.LOAD == 1) Block.bghLoad
  ((b.wr BGH_CTL.REPAIR (fget v BGH_CTL.REPAIR)).wr BGH_CTL.SCRUB_EN (fget v BGH_CTL.SCRUB_EN)).wr BGH_CTL.EN (fget v BGH_CTL.EN)

/-- A write of WFT_EVT_n: clearing FAULT frees WFT_FAULT_n (R265, R270). -/
def Block.wftEvt (b : Block) (n : Nat) (v : BitVec 32) : Block :=
  (b.regStore (WFT_EVT.all.off n) v).when (fget v WFT_EVT.FAULT == 1) (fun b => b.clr WFT_FAULT.VALID n)

/-- A write of SYS_MBX_DB (R33, R35, R38): ABORT is judged in the phase that stands. -/
def Block.mbxDb (b : Block) (v : BitVec 32) : Block :=
  (b.when (fget v SYS_MBX_DB.ABORT == 1) Block.mbxAbort).when (fget v SYS_MBX_DB.RING == 1) Block.mbxRing

/-- A write of TMR_GO_ST (R509, R512). -/
def Block.goStWrite (b : Block) (v : BitVec 32) : Block :=
  ((b.regStore TMR_GO_ST.all.base v).clr TMR_GO_ST.CANCEL).when (fget v TMR_GO_ST.CANCEL == 1) (fun b => b.clr TMR_GO_ST.ARMED)

/-- A write of ICU_TGT_CFG_k: an engine has an event area, another target WAKEABLE (R505). -/
def Block.tgtCfg (b : Block) (k : Nat) (v : BitVec 32) : Block :=
  (b.regStore (ICU_TGT_CFG.all.off k) (if k < 32 then v &&& 0x7FFFFFFF else v &&& 0x80000000)).icuEval

/-- While the epoch state is VALIDATING or ARMED (R70), and while DWELL_LOCK is set (R189). -/
def Block.imageLocked (b : Block) : Bool := b.bit TXC_CTL.DWELL_LOCK || b.epochBusy

/-- The registers of the SYS, PWR, ICU and TMR blocks whose write does more. -/
def writePortsSys : List (RegPort (BitVec 32 → Block → Block)) :=
  [⟨SYS_MBX_CMD.all, 1, fun _ v b => b.guarded b.mbxBusy SYS_MBX_STATE.WR_REJECT (fun b => b.regStore SYS_MBX_CMD.all.base v)⟩,
   ⟨SYS_MBX_ARG.all, 64, fun n v b => b.guarded b.mbxBusy SYS_MBX_STATE.WR_REJECT (fun b => b.regStore (SYS_MBX_ARG.all.off n) v)⟩,
   ⟨SYS_MBX_DB.all, 1, fun _ v b => b.mbxDb v⟩,
   ⟨SYS_MBX_TMO.all, 1, fun _ v b => b.regStore SYS_MBX_TMO.all.base (fclamp v SYS_MBX_TMO.TMO_MS 1 65535)⟩,
   ⟨SYS_GPIO_OUT.all, 2, fun n v b => (b.regStore (SYS_GPIO_OUT.all.off n) v).gpioSettle⟩,
   ⟨SYS_GPIO_OE.all, 2, fun n v b => (b.regStore (SYS_GPIO_OE.all.off n) v).gpioSettle⟩,
   ⟨SYS_GPIO_EVT.all, 2, fun n v b => (b.regStore (SYS_GPIO_EVT.all.off n) v).gpioSettle⟩,
   ⟨SYS_GPIO_CFG.all, 48, fun n v b => b.gpioCfg n v⟩,
   ⟨SYS_SPI_CTL.all, 2, fun n v b => b.spiCtl n v⟩,
   ⟨SYS_SPI_DATA.all, 2, fun n v b => b.spiData n v⟩,
   ⟨SYS_I2C_CTL.all, 2, fun n v b => b.regStore (SYS_I2C_CTL.all.off n) (if fget v SYS_I2C_CTL.SPEED = 3 then fput v SYS_I2C_CTL.SPEED 0 else v)⟩,
   ⟨SYS_I2C_CMD.all, 2, fun n v b => b.i2cCmd n v⟩,
   ⟨SYS_UART_CTL.all, 1, fun _ v b => b.uartCtl v⟩,
   ⟨SYS_UART_DATA.all, 1, fun _ v b => b.uartData v⟩,
   ⟨PWR_CTL.all, 1, fun _ v b => b.pwrCtl v⟩,
   ⟨ICU_RESCUE.all, 1, fun _ v b => (b.wr ICU_RESCUE.TGT (if 0x20 ≤ fget v ICU_RESCUE.TGT ∧ fget v ICU_RESCUE.TGT ≤ 0x24 then fget v ICU_RESCUE.TGT else 0x20)).icuEval⟩,
   ⟨ICU_TGT_CFG.all, 37, fun n v b => b.tgtCfg n v⟩,
   ⟨ICU_DONE.all, 37, fun n v b => b.doneWrite n v⟩,
   ⟨ICU_SRC.all, 256, fun n v b => b.srcWrite n v⟩,
   ⟨TMR_GO.all, 1, fun _ v b => b.eachTimer v.toNat Block.tmrStart⟩,
   ⟨TMR_STOP.all, 1, fun _ v b => b.eachTimer v.toNat Block.tmrStop⟩,
   ⟨TMR_GO_AT_HI.all, 1, fun _ v b => b.goAtArm v⟩,
   ⟨TMR_GO_ST.all, 1, fun _ v b => b.goStWrite v⟩,
   ⟨TMR_CFG.all, 32, fun n v b => b.tmrCfg n v⟩,
   ⟨TMR_TOP.all, 32, fun n v b => b.regStore (TMR_TOP.all.off n) (if v = 0 then 1 else v)⟩]

/-- The registers of the HOOP, RXA, TXC, CLR and MAS blocks whose write does more. -/
def writePortsAir : List (RegPort (BitVec 32 → Block → Block)) :=
  [⟨HOOP_CTL.all, 1, fun _ v b => b.hoopCtl v⟩,
   ⟨HOOP_PTP_OFS_HI.all, 1, fun _ v b => b.ptpSubmit v⟩,
   ⟨HOOP_EPOCH_PEND.all, 1, fun _ v b => b.guarded b.epochBusy HOOP_EPOCH_ST.WR_IGN (fun b => b.regStore HOOP_EPOCH_PEND.all.base v)⟩,
   ⟨HOOP_ACT_SF.all, 1, fun _ v b => b.guarded b.epochBusy HOOP_EPOCH_ST.WR_IGN (fun b => b.regStore HOOP_ACT_SF.all.base v)⟩,
   ⟨HOOP_WARP_COUNT.all, 1, fun _ v b => b.guarded b.epochBusy HOOP_EPOCH_ST.WR_IGN (fun b => b.regStore HOOP_WARP_COUNT.all.base v)⟩,
   ⟨HOOP_EPOCH_CTL.all, 1, fun _ v b => b.epochCtl v⟩,
   ⟨HOOP_WARP_DATA.all, 8, fun n v b => b.warpWrite n v⟩,
   ⟨RXA_CTL.all, 1, fun _ v b => b.rxaCtl v⟩,
   ⟨RXA_SYSREF_CFG.all, 1, fun _ v b => b.sysrefCfg v⟩,
   ⟨RXA_POOL_CFG.all, 1, fun _ v b => b.regStore RXA_POOL_CFG.all.base (fclamp v RXA_POOL_CFG.MAX_LPW 1 8)⟩,
   ⟨RXA_DEC_CFG.all, 1, fun _ v b =>
     let a := fget v RXA_DEC_CFG.ALPHA
     b.regStore RXA_DEC_CFG.all.base (fclamp (if 3 ≤ a ∧ a ≤ 6 then v else fput v RXA_DEC_CFG.ALPHA 5) RXA_DEC_CFG.MAX_ITER 1 20)⟩,
   ⟨RXA_CEN_DEPTH.all, 1, fun _ v b => b.regStore RXA_CEN_DEPTH.all.base (fclamp v RXA_CEN_DEPTH.DEPTH 2 65536)⟩,
   ⟨RXA_CEN_CTL.all, 1, fun _ v b => b.cenCtl v⟩,
   ⟨RXA_LINK_CFG.all, 8, fun n v b => b.rxLinkEnable n v⟩,
   ⟨RXA_LINK_LANES.all, 8, fun n v b => (b.regStore (RXA_LINK_LANES.all.off n) v).testLinks⟩,
   ⟨RXA_BAND.all, 8, fun n v b =>
     let v := fclamp v RXA_BAND.DET_SYMS 2 6
     b.regStore (RXA_BAND.all.off n) (if fget v RXA_BAND.CEN_SF = 7 then fput v RXA_BAND.CEN_SF 4 else v)⟩,
   ⟨TXC_CTL.all, 1, fun _ v b => b.txcCtl v⟩,
   ⟨TXC_PORT_CFG.all, 8, fun n v b => b.txPortCfg n v⟩,
   ⟨TXC_REGION_PEND.all, 64, fun n v b => b.guarded b.imageLocked TXC_EVT.WR_IGN (fun b => b.regStore (TXC_REGION_PEND.all.off n) v)⟩,
   ⟨TXC_DWELL_PEND.all, 512, fun n v b => b.guarded b.imageLocked TXC_EVT.WR_IGN (fun b => b.regStore (TXC_DWELL_PEND.all.off n) v)⟩,
   ⟨CLR_CTL.all, 1, fun _ v b => b.guarded (b.bit TXC_CTL.DWELL_LOCK) TXC_EVT.WR_IGN (fun b => b.clrCtl v)⟩,
   ⟨MAS_CTL.all, 1, fun _ v b => (b.wr MAS_CTL.BCN_EN (fget v MAS_CTL.BCN_EN)).when (fget v MAS_CTL.SEEN_FLUSH == 1) Block.seenFlush⟩,
   ⟨MAS_DOMAIN_ID.all, 1, fun _ v b => if b.bit MAS_CTL.BCN_EN then b else b.regStore MAS_DOMAIN_ID.all.base v⟩,
   ⟨MAS_SEEN_CFG.all, 1, fun _ v b => b.regStore MAS_SEEN_CFG.all.base (fclamp v MAS_SEEN_CFG.LIFETIME 1 65535)⟩]

/-- The registers of the WFT, GRV, HWD, PLQ and SHP blocks whose write does more. -/
def writePortsCore : List (RegPort (BitVec 32 → Block → Block)) :=
  [⟨WFT_CTL.all, 32, fun n v b => b.strandCtl n v⟩,
   ⟨WFT_EVT.all, 32, fun n v b => b.wftEvt n v⟩,
   ⟨WFT_DB.all, 32, fun n v b => b.ringBells n (v.setWidth 4)⟩,
   ⟨WFT_IDATA_LO.all, 32, fun n v b => b.instrHold n v⟩,
   ⟨WFT_IDATA_HI.all, 32, fun n v b => b.instrStore n v⟩,
   ⟨WFT_DDATA.all, 32, fun n v b => b.dmemHost n true v⟩,
   ⟨WFT_SWAP_EN.all, 1, fun _ v b => b.guarded b.swapEnLocked WFT_EVT.WR_IGN (fun b => b.regStore WFT_SWAP_EN.all.base v)⟩,
   ⟨WFT_TBL_DATA_LO.all, 1, fun _ v b => b.tblHold v⟩,
   ⟨WFT_TBL_DATA_HI.all, 1, fun _ v b => b.tblHostStore v⟩,
   ⟨GRV_CTL.all, 1, fun _ v b => b.grvCtl v⟩,
   ⟨GRV_SWEEP_CFG.all, 1, fun _ v b =>
     b.regStore GRV_SWEEP_CFG.all.base (fclamp (fclamp v GRV_SWEEP_CFG.SILENT_N 1 255) GRV_SWEEP_CFG.PERIOD 1 65535)⟩,
   ⟨GRV_HA_CMD.all, 1, fun _ v b => b.haCmd v⟩,
   ⟨GRV_HA_IDX.all, 1, fun _ v b => b.guarded (b.bit GRV_HA_ST.BUSY) GRV_EVT.WR_IGN (fun b => b.regStore GRV_HA_IDX.all.base v)⟩,
   ⟨GRV_HA_DATA.all, 32, fun n v b => b.guarded (b.bit GRV_HA_ST.BUSY) GRV_EVT.WR_IGN (fun b => b.regStore (GRV_HA_DATA.all.off n) v)⟩,
   ⟨GRV_HRD_IDX.all, 1, fun _ v b => b.hrdIdxWrite v⟩,
   ⟨GRV_HRD_KEY.all, 1, fun _ v b => b.hrdKeyWrite v⟩,
   ⟨HWD_TIN_CFG.all, 1, fun _ v b => b.tinWrite v⟩,
   ⟨PLQ_FC_CTL.all, 1, fun _ v b => (b.regStore PLQ_FC_CTL.all.base v).fcDriveFrom (b.rd PLQ_FC_CTL.FCO_POL)⟩,
   ⟨PLQ_CFG.all, 256, fun n v b => b.plqCfg n v⟩,
   ⟨PLQ_WM.all, 256, fun n v b => b.plqWm n v⟩,
   ⟨PLQ_FCO_MASK.all, 128, fun n v b => (b.regStore (PLQ_FCO_MASK.all.off n) v).fcDrive⟩,
   ⟨SHP_CTL.all, 1, fun _ v b => if fget v SHP_CTL.EN = 1 then b.shpEnable else b.shpDisable⟩,
   ⟨SHP_POOL_BASE_LO.all, 1, fun _ v b => b.guarded (b.bit SHP_CTL.EN) SHP_EVT.WR_IGN (fun b => b.pairWrite SHP_POOL_BASE_LO.all.base v)⟩,
   ⟨SHP_POOL_BASE_HI.all, 1, fun _ v b => b.guarded (b.bit SHP_CTL.EN) SHP_EVT.WR_IGN (fun b => b.pairWrite SHP_POOL_BASE_HI.all.base v)⟩,
   ⟨SHP_POOL_COUNT.all, 1, fun _ v b => b.guarded (b.bit SHP_CTL.EN) SHP_EVT.WR_IGN (fun b =>
     b.regStore SHP_POOL_COUNT.all.base (fclamp v SHP_POOL_COUNT.COUNT 0 1048576))⟩,
   ⟨SHP_CTX_IDX.all, 1, fun _ v b => b.guarded (b.bit SHP_CTX_ST.BUSY) SHP_EVT.WR_IGN (fun b => b.regStore SHP_CTX_IDX.all.base v)⟩,
   ⟨SHP_CTX_CMD.all, 1, fun _ v b => b.shpCmd v⟩,
   ⟨SHP_CTX_CFG_0.all, 1, fun _ v b => b.guarded (b.bit SHP_CTX_ST.BUSY) SHP_EVT.WR_IGN (fun b => b.regStore SHP_CTX_CFG_0.all.base v)⟩,
   ⟨SHP_CTX_CFG_1.all, 1, fun _ v b => b.guarded (b.bit SHP_CTX_ST.BUSY) SHP_EVT.WR_IGN (fun b => b.regStore SHP_CTX_CFG_1.all.base v)⟩,
   ⟨SHP_CTX_CFG_2.all, 1, fun _ v b => b.guarded (b.bit SHP_CTX_ST.BUSY) SHP_EVT.WR_IGN (fun b =>
     { b with shp := { b.shp with resv2 := (v &&& 0x3F00FF00) != 0 } }.regStore SHP_CTX_CFG_2.all.base v)⟩,
   ⟨SHP_CTX_CFG_3.all, 1, fun _ v b => b.guarded (b.bit SHP_CTX_ST.BUSY) SHP_EVT.WR_IGN (fun b =>
     { b with shp := { b.shp with resv3 := (v &&& 0xFFFF0000) != 0 } }.regStore SHP_CTX_CFG_3.all.base v)⟩]

/-- A write of one register of a ring's base (R433): ignored while its EN is 1. -/
def Block.ringBase (b : Block) (d2h : Bool) (r off : Nat) (v : BitVec 32) : Block := if b.ringEn d2h r then b else b.pairWrite off v

/-- A write of the recovery flash's address or page buffer (R489). -/
def Block.flStore (b : Block) (off : Nat) (v : BitVec 32) : Block := b.guarded (!b.flOpen) UPD_EVT.WR_IGN (fun b => b.regStore off v)

/-- The registers of the BGH, ETH, PCI, CNP, UPD and RAS blocks whose write does more. -/
def writePortsEdge : List (RegPort (BitVec 32 → Block → Block)) :=
  [⟨BGH_CTL.all, 1, fun _ v b => b.bghCtl v⟩,
   ⟨BGH_SCRUB_CFG.all, 1, fun _ v b => b.regStore BGH_SCRUB_CFG.all.base (fclamp v BGH_SCRUB_CFG.INTERVAL 16 65535)⟩,
   ⟨BGH_ENT_DATA.all, 1, fun _ v b => b.entWrite v⟩,
   ⟨BGH_NH_HI.all, 1, fun _ v b => b.nhStore v⟩,
   ⟨ETH_CTL.all, 2, fun n v b => (b.regStore (ETH_CTL.all.off n) v).when (fget v ETH_CTL.EN == 0) (fun b => b.ethDown n)⟩,
   ⟨PCI_CTL.all, 1, fun _ v b => (b.wr PCI_CTL.DMA_EN (fget v PCI_CTL.DMA_EN)).when (fget v PCI_CTL.DMA_EN == 0) Block.ringsStop⟩,
   ⟨PCI_H2D_BASE_LO.all, 16, fun n v b => b.ringBase false n (PCI_H2D_BASE_LO.all.off n) v⟩,
   ⟨PCI_H2D_BASE_HI.all, 16, fun n v b => b.ringBase false n (PCI_H2D_BASE_HI.all.off n) v⟩,
   ⟨PCI_H2D_CFG.all, 16, fun n v b => b.ringCfg false n v⟩,
   ⟨PCI_H2D_TAIL.all, 16, fun n v b => b.ringTailWrite false n v⟩,
   ⟨PCI_D2H_BASE_LO.all, 16, fun n v b => b.ringBase true n (PCI_D2H_BASE_LO.all.off n) v⟩,
   ⟨PCI_D2H_BASE_HI.all, 16, fun n v b => b.ringBase true n (PCI_D2H_BASE_HI.all.off n) v⟩,
   ⟨PCI_D2H_CFG.all, 16, fun n v b => b.ringCfg true n v⟩,
   ⟨PCI_D2H_TAIL.all, 16, fun n v b => b.ringTailWrite true n v⟩,
   ⟨CNP_CTL.all, 1, fun _ v b => b.cnpCtl v⟩,
   ⟨CNP_ASYM_E.all, 1, fun _ v b => b.asymWrite false v⟩,
   ⟨CNP_ASYM_W.all, 1, fun _ v b => b.asymWrite true v⟩,
   ⟨UPD_FL_ADDR.all, 1, fun _ v b => b.flStore UPD_FL_ADDR.all.base v⟩,
   ⟨UPD_FL_CMD.all, 1, fun _ v b => b.flCmd (fget v UPD_FL_CMD.OP)⟩,
   ⟨UPD_FL_DATA.all, 64, fun n v b => b.flStore (UPD_FL_DATA.all.off n) v⟩,
   ⟨RAS_SCRUB_INT.all, 1, fun _ v b => b.regStore RAS_SCRUB_INT.all.base (fclamp v RAS_SCRUB_INT.INT 256 16777215)⟩,
   ⟨RAS_LOG_RD.all, 1, fun _ v b => b.logRdWrite v⟩,
   ⟨RAS_LOG_SEL.all, 1, fun _ v b => b.logSelWrite v⟩]

/-- What a write of the register at an offset of BAR0 does: its entry's effect, that of a pair, or what its access types say (R10, R11, R13). -/
def Block.writeAt (b : Block) (off : Nat) (v : BitVec 32) : Block :=
  let l := if off < 0x40000 then writePortsSys else if off < 0x200000 then writePortsAir else if off < 0x600000 then writePortsCore else writePortsEdge
  match portAt l off with
  | some f => f v b
  | none => if isPairLo off || isPairHi off then b.pairWrite off v else b.regStore off v

/-- A write of the MSI-X table (R408, R410): the Pending Bit Array is read-only. -/
def Block.msixWrite (b : Block) (off : Nat) (v : BitVec 32) : Block :=
  if off < 0x8000 ∧ off % 4 = 0 then { b with fn := { b.fn with msix := Tbl.put msixReset b.fn.msix (off / 4) v } }.msixFlush else b

/-- A write of a register: in BAR4 of the MSI-X table, else of BAR0 at an aligned offset (R9, R29, R408). -/
def execRegWrite (bar off : Nat) (val : Word) (s : State) : Out := runCmd s (fun b =>
  if bar = 4 then b.msixWrite off val else b.access off true (fun b => b.writeAt off val))

/-! ### Access errors (R9, R30) -/

/-- An access of another size completes without effect and is logged (R9); the data of such a read is open (log entry 2). -/
def execAccessSizeError (off : Nat) (write : Bool) (s : State) : Out := runCmd s (fun b => b.sizeErr off write)

/-- An access of an unassigned offset (R29, R30) by the host (`req` 0) or steward core `req` − 1. -/
def execUnassignedAccess (req off : Nat) (write : Bool) (s : State) : Out := runCmd s (fun b =>
  if off < unassignedFrom then b else b.unassigned (req % 5) off write)

/-! ### The DRAM window (R310, R408) -/

/-- An access of `n` bytes at `a` meets one of the Grove's areas. -/
def Block.inGrove (b : Block) (a n : Nat) : Bool :=
  [(b.grvRec 0, 2 ^ 32), (b.grvMap 0, 2 ^ 22), (b.grvJrnl 0, 2 ^ 18)].any (fun r => decide (a < r.1 + r.2 ∧ r.1 < a + n))

/-- An access through BAR2. -/
def execBar2Access (write : Bool) (off len : Nat) (data : List Byte) (s : State) : Out := runCmd s (fun b =>
  let n := if write then data.length else len
  if b.dramSize < off + n then (b.accessErr reqPCIe 3 off).answer .unsupported
  else if write then
    if b.bit GRV_CTL.EN && b.inGrove off n then (b.accessErr reqPCIe 2 off).answer .done else (b.dramWrite off data).answer .done
  else let b := b.dramTouch off n; b.answer (.bytes (b.dramBytes off n) (b.dramPoisoned off n)))

/-! ### Configuration requests (R407, R409, R503, R540) -/

/-- A configuration request: Request Retry Status until the boot sequence ends, then its effect. -/
def execConfigRequest (req : CfgReq) (s : State) : Out := runCmd s (fun b =>
  if b.stw.rrs then b.answer .retry
  else
    match req with
    | .readVendor => b.answer (.data 0x96401F6B)
    | .readClass => b.answer (.data 0x028000B0)
    | .readSubsystem => b.answer (.data 0x96401F6B)
    | .command m => ({ b with fn := { b.fn with busMaster := m } }.msixFlush.icuEval).answer .done
    | .power d p => ({ b with fn := { b.fn with d3hot := d, pmeEn := p } }.icuEval).answer .done
    | .msix e m => ({ b with fn := { b.fn with msixEn := e, msixMask := m } }.msixFlush.icuEval).answer .done
    | .flr => b.flr.answer .done)

end Sys2Proof.Machine
end

