-- ==== Sys2Proof/Machine/Dispatch.lean ====
section
/-! DEFINITION. One arm per command: a direct call of its meaning. -/

namespace Sys2Proof.Machine

/-- What a command does to the machine (everything but the queue of waiting commands). -/
def exec (i : Instr) (s : State) : Host.Outcome State Fault Refusal :=
  match i with
  | .regWrite bar off val => Sys2Proof.Machine.execRegWrite bar off val s
  | .counterReadClear off => Sys2Proof.Machine.execCounterReadClear off s
  | .pairLoRead off => Sys2Proof.Machine.execPairLoRead off s
  | .accessSizeError off write => Sys2Proof.Machine.execAccessSizeError off write s
  | .unassignedAccess req off write => Sys2Proof.Machine.execUnassignedAccess req off write s
  | .bar2Access write off len data => Sys2Proof.Machine.execBar2Access write off len data s
  | .configRequest req => Sys2Proof.Machine.execConfigRequest req s
  | .mbxRing => Sys2Proof.Machine.execMbxRing s
  | .mbxAbort => Sys2Proof.Machine.execMbxAbort s
  | .mbxComplete => Sys2Proof.Machine.execMbxComplete s
  | .mbxTimeout => Sys2Proof.Machine.execMbxTimeout s
  | .mbxAbortTimeout => Sys2Proof.Machine.execMbxAbortTimeout s
  | .ping => Sys2Proof.Machine.execPing s
  | .getFwInfo => Sys2Proof.Machine.execGetFwInfo s
  | .getHealth => Sys2Proof.Machine.execGetHealth s
  | .stewardWatchdogExpiry => Sys2Proof.Machine.execStewardWatchdogExpiry s
  | .stewardReady => Sys2Proof.Machine.execStewardReady s
  | .cellBoundary => Sys2Proof.Machine.execCellBoundary s
  | .ppsEdge t => Sys2Proof.Machine.execPpsEdge t s
  | .ppsWindowClose => Sys2Proof.Machine.execPpsWindowClose s
  | .ptpSubmit val => Sys2Proof.Machine.execPtpSubmit val s
  | .ptpSourceLost => Sys2Proof.Machine.execPtpSourceLost s
  | .refclkLoss => Sys2Proof.Machine.execRefclkLoss s
  | .refclkRestore => Sys2Proof.Machine.execRefclkRestore s
  | .dspRelock => Sys2Proof.Machine.execDspRelock s
  | .holdMaxExpiry => Sys2Proof.Machine.execHoldMaxExpiry s
  | .psrcWrite val => Sys2Proof.Machine.execPsrcWrite val s
  | .forceSw => Sys2Proof.Machine.execForceSw s
  | .rearm => Sys2Proof.Machine.execRearm s
  | .proofNow => Sys2Proof.Machine.execProofNow s
  | .proofRun => Sys2Proof.Machine.execProofRun s
  | .proofRunEnd mism => Sys2Proof.Machine.execProofRunEnd mism s
  | .hoopInternalFault => Sys2Proof.Machine.execHoopInternalFault s
  | .heartbeatMiss h => Sys2Proof.Machine.execHeartbeatMiss h s
  | .failoverStart => Sys2Proof.Machine.execFailoverStart s
  | .failoverGapEnd flaw => Sys2Proof.Machine.execFailoverGapEnd flaw s
  | .warpDataLoad n => Sys2Proof.Machine.execWarpDataLoad n s
  | .warpDataStore n val => Sys2Proof.Machine.execWarpDataStore n val s
  | .epochCommit => Sys2Proof.Machine.execEpochCommit s
  | .epochCancel => Sys2Proof.Machine.execEpochCancel s
  | .epochValidationDone => Sys2Proof.Machine.execEpochValidationDone s
  | .freezePoint => Sys2Proof.Machine.execFreezePoint s
  | .epochActivation => Sys2Proof.Machine.execEpochActivation s
  | .groupListRead idx => Sys2Proof.Machine.execGroupListRead idx s
  | .slotStrobe idx sf => Sys2Proof.Machine.execSlotStrobe idx sf s
  | .queuedWeaveStart k => Sys2Proof.Machine.execQueuedWeaveStart k s
  | .handoverStart k => Sys2Proof.Machine.execHandoverStart k s
  | .wdogExpiry k => Sys2Proof.Machine.execWdogExpiry k s
  | .hovrLongExpiry k => Sys2Proof.Machine.execHovrLongExpiry k s
  | .sysrefEdge phase => Sys2Proof.Machine.execSysrefEdge phase s
  | .rxLinkEnable n val => Sys2Proof.Machine.execRxLinkEnable n val s
  | .jesdLinkUp x => Sys2Proof.Machine.execJesdLinkUp x s
  | .jesdLinkDown x emb => Sys2Proof.Machine.execJesdLinkDown x emb s
  | .rxaEnable en => Sys2Proof.Machine.execRxaEnable en s
  | .rxaFlush => Sys2Proof.Machine.execRxaFlush s
  | .agcUpdate stream power => Sys2Proof.Machine.execAgcUpdate stream power s
  | .detection win stream t1 q level est power also => Sys2Proof.Machine.execDetection win stream t1 q level est power also s
  | .laneSfdEnd lane ok snr cfo => Sys2Proof.Machine.execLaneSfdEnd lane ok snr cfo s
  | .laneHeaderEnd lane r0 r1 e0 e1 snr cfo => Sys2Proof.Machine.execLaneHeaderEnd lane r0 r1 e0 e1 snr cfo s
  | .codewordDecodeStart lane r => Sys2Proof.Machine.execCodewordDecodeStart lane r s
  | .codewordDecoded lane r iters data => Sys2Proof.Machine.execCodewordDecoded lane r iters data s
  | .rxRecordPost => Sys2Proof.Machine.execRxRecordPost s
  | .ringEntryWrite k => Sys2Proof.Machine.execRingEntryWrite k s
  | .heardUpdate => Sys2Proof.Machine.execHeardUpdate s
  | .shipHdrReceive origin body => Sys2Proof.Machine.execShipHdrReceive origin body s
  | .shipLlrReceive origin body => Sys2Proof.Machine.execShipLlrReceive origin body s
  | .shipFrameReceive origin body => Sys2Proof.Machine.execShipFrameReceive origin body s
  | .censusBlockWrite meas => Sys2Proof.Machine.execCensusBlockWrite meas s
  | .censusBlockLost => Sys2Proof.Machine.execCensusBlockLost s
  | .txPortEnable n val => Sys2Proof.Machine.execTxPortEnable n val s
  | .txLinkDown n => Sys2Proof.Machine.execTxLinkDown n s
  | .txLinkUp n => Sys2Proof.Machine.execTxLinkUp n s
  | .transmissionStart h n clipped => Sys2Proof.Machine.execTransmissionStart h n clipped s
  | .transmissionEnd h n => Sys2Proof.Machine.execTransmissionEnd h n s
  | .txRecordPost => Sys2Proof.Machine.execTxRecordPost s
  | .txcEnable en => Sys2Proof.Machine.execTxcEnable en s
  | .txcFlush => Sys2Proof.Machine.execTxcFlush s
  | .dwellLock => Sys2Proof.Machine.execDwellLock s
  | .clrReqRise => Sys2Proof.Machine.execClrReqRise s
  | .clrReqFall => Sys2Proof.Machine.execClrReqFall s
  | .clearingEnd => Sys2Proof.Machine.execClearingEnd s
  | .ackFaultCheck => Sys2Proof.Machine.execAckFaultCheck s
  | .gateSelfTest n gateOk smpOk rise => Sys2Proof.Machine.execGateSelfTest n gateOk smpOk rise s
  | .beaconPrepare => Sys2Proof.Machine.execBeaconPrepare s
  | .seenFlush => Sys2Proof.Machine.execSeenFlush s
  | .seenFlushDone => Sys2Proof.Machine.execSeenFlushDone s
  | .iEnd k => Sys2Proof.Machine.execIEnd k s
  | .iNop k => Sys2Proof.Machine.execINop k s
  | .iBr k => Sys2Proof.Machine.execIBr k s
  | .iBrl k => Sys2Proof.Machine.execIBrl k s
  | .iJr k => Sys2Proof.Machine.execIJr k s
  | .iTime k => Sys2Proof.Machine.execITime k s
  | .iTwait k => Sys2Proof.Machine.execITwait k s
  | .twaitComplete k => Sys2Proof.Machine.execTwaitComplete k s
  | .iEvwait k => Sys2Proof.Machine.execIEvwait k s
  | .evwaitReturn k => Sys2Proof.Machine.execEvwaitReturn k s
  | .iTkwait k => Sys2Proof.Machine.execITkwait k s
  | .tkwaitComplete k => Sys2Proof.Machine.execTkwaitComplete k s
  | .iSig k => Sys2Proof.Machine.execISig k s
  | .iRrel k => Sys2Proof.Machine.execIRrel k s
  | .iSysr k => Sys2Proof.Machine.execISysr k s
  | .iFbfree k => Sys2Proof.Machine.execIFbfree k s
  | .iAdd k => Sys2Proof.Machine.execIAdd k s
  | .iSub k => Sys2Proof.Machine.execISub k s
  | .iAnd k => Sys2Proof.Machine.execIAnd k s
  | .iOr k => Sys2Proof.Machine.execIOr k s
  | .iXor k => Sys2Proof.Machine.execIXor k s
  | .iShl k => Sys2Proof.Machine.execIShl k s
  | .iShr k => Sys2Proof.Machine.execIShr k s
  | .iSra k => Sys2Proof.Machine.execISra k s
  | .iMin k => Sys2Proof.Machine.execIMin k s
  | .iMax k => Sys2Proof.Machine.execIMax k s
  | .iMinu k => Sys2Proof.Machine.execIMinu k s
  | .iMaxu k => Sys2Proof.Machine.execIMaxu k s
  | .iSel k => Sys2Proof.Machine.execISel k s
  | .iMul k => Sys2Proof.Machine.execIMul k s
  | .iMulhu k => Sys2Proof.Machine.execIMulhu k s
  | .iDiv k => Sys2Proof.Machine.execIDiv k s
  | .iDivs k => Sys2Proof.Machine.execIDivs k s
  | .iRem k => Sys2Proof.Machine.execIRem k s
  | .iCmp k => Sys2Proof.Machine.execICmp k s
  | .iCmpi k => Sys2Proof.Machine.execICmpi k s
  | .iTstb k => Sys2Proof.Machine.execITstb k s
  | .iPand k => Sys2Proof.Machine.execIPand k s
  | .iPor k => Sys2Proof.Machine.execIPor k s
  | .iPxor k => Sys2Proof.Machine.execIPxor k s
  | .iPandn k => Sys2Proof.Machine.execIPandn k s
  | .iAddi k => Sys2Proof.Machine.execIAddi k s
  | .iAndi k => Sys2Proof.Machine.execIAndi k s
  | .iOri k => Sys2Proof.Machine.execIOri k s
  | .iXori k => Sys2Proof.Machine.execIXori k s
  | .iShli k => Sys2Proof.Machine.execIShli k s
  | .iShri k => Sys2Proof.Machine.execIShri k s
  | .iSrai k => Sys2Proof.Machine.execISrai k s
  | .iMovi k => Sys2Proof.Machine.execIMovi k s
  | .iMovhi k => Sys2Proof.Machine.execIMovhi k s
  | .iExtr k => Sys2Proof.Machine.execIExtr k s
  | .iIns k => Sys2Proof.Machine.execIIns k s
  | .iMuli k => Sys2Proof.Machine.execIMuli k s
  | .iLdb k => Sys2Proof.Machine.execILdb k s
  | .iLdh k => Sys2Proof.Machine.execILdh k s
  | .iLdw k => Sys2Proof.Machine.execILdw k s
  | .iLd k => Sys2Proof.Machine.execILd k s
  | .iLdsb k => Sys2Proof.Machine.execILdsb k s
  | .iLdsh k => Sys2Proof.Machine.execILdsh k s
  | .iLdsw k => Sys2Proof.Machine.execILdsw k s
  | .iStb k => Sys2Proof.Machine.execIStb k s
  | .iSth k => Sys2Proof.Machine.execISth k s
  | .iStw k => Sys2Proof.Machine.execIStw k s
  | .iStd k => Sys2Proof.Machine.execIStd k s
  | .iTld k => Sys2Proof.Machine.execITld k s
  | .iTst k => Sys2Proof.Machine.execITst k s
  | .iCtxld k => Sys2Proof.Machine.execICtxld k s
  | .ctxldDelivery k tk => Sys2Proof.Machine.execCtxldDelivery k tk s
  | .iCtxst k => Sys2Proof.Machine.execICtxst k s
  | .ctxstDelivery k tk => Sys2Proof.Machine.execCtxstDelivery k tk s
  | .iKeyreq k => Sys2Proof.Machine.execIKeyreq k s
  | .keyreqDelivery k tk => Sys2Proof.Machine.execKeyreqDelivery k tk s
  | .iSeal k => Sys2Proof.Machine.execISeal k s
  | .sealDelivery k tk => Sys2Proof.Machine.execSealDelivery k tk s
  | .iOpen k => Sys2Proof.Machine.execIOpen k s
  | .openDelivery k tk => Sys2Proof.Machine.execOpenDelivery k tk s
  | .iQpush k => Sys2Proof.Machine.execIQpush k s
  | .qpushStallComplete k => Sys2Proof.Machine.execQpushStallComplete k s
  | .iQtry k => Sys2Proof.Machine.execIQtry k s
  | .iQpop k => Sys2Proof.Machine.execIQpop k s
  | .qpopDelivery k tk => Sys2Proof.Machine.execQpopDelivery k tk s
  | .iSeen k => Sys2Proof.Machine.execISeen k s
  | .seenDelivery k tk => Sys2Proof.Machine.execSeenDelivery k tk s
  | .iRxarm k => Sys2Proof.Machine.execIRxarm k s
  | .iTxarm k => Sys2Proof.Machine.execITxarm k s
  | .wftDoorbell n val => Sys2Proof.Machine.execWftDoorbell n val s
  | .strandEnableWrite n val => Sys2Proof.Machine.execStrandEnableWrite n val s
  | .instrWordLoad n hi => Sys2Proof.Machine.execInstrWordLoad n hi s
  | .instrWordStore n val => Sys2Proof.Machine.execInstrWordStore n val s
  | .dmemHostAccess n write val => Sys2Proof.Machine.execDmemHostAccess n write val s
  | .tableWordLoad hi => Sys2Proof.Machine.execTableWordLoad hi s
  | .tableWordStore val => Sys2Proof.Machine.execTableWordStore val s
  | .grvEnable => Sys2Proof.Machine.execGrvEnable s
  | .grvReplayDone => Sys2Proof.Machine.execGrvReplayDone s
  | .grvDisable => Sys2Proof.Machine.execGrvDisable s
  | .grvDrainDone => Sys2Proof.Machine.execGrvDrainDone s
  | .writeback => Sys2Proof.Machine.execWriteback s
  | .grvInit => Sys2Proof.Machine.execGrvInit s
  | .grvInitDone => Sys2Proof.Machine.execGrvInitDone s
  | .grvRechk => Sys2Proof.Machine.execGrvRechk s
  | .grvRechkDone => Sys2Proof.Machine.execGrvRechkDone s
  | .grvFlush => Sys2Proof.Machine.execGrvFlush s
  | .sweepVisit idx last => Sys2Proof.Machine.execSweepVisit idx last s
  | .hrdClear => Sys2Proof.Machine.execHrdClear s
  | .hrdIndexLoad val => Sys2Proof.Machine.execHrdIndexLoad val s
  | .hrdKeyLookup val => Sys2Proof.Machine.execHrdKeyLookup val s
  | .haRead => Sys2Proof.Machine.execHaRead s
  | .haWrite => Sys2Proof.Machine.execHaWrite s
  | .haAllocAny => Sys2Proof.Machine.execHaAllocAny s
  | .haAllocAt => Sys2Proof.Machine.execHaAllocAt s
  | .haRelease => Sys2Proof.Machine.execHaRelease s
  | .haBadOp op => Sys2Proof.Machine.execHaBadOp op s
  | .haComplete => Sys2Proof.Machine.execHaComplete s
  | .joinReqAdmit idx pkind payload slot retryFull retryOff acked => Sys2Proof.Machine.execJoinReqAdmit idx pkind payload slot retryFull retryOff acked s
  | .routeReportProcess x payload => Sys2Proof.Machine.execRouteReportProcess x payload s
  | .hwdGetState => Sys2Proof.Machine.execHwdGetState s
  | .hwdExtend => Sys2Proof.Machine.execHwdExtend s
  | .hwdGetIdentity => Sys2Proof.Machine.execHwdGetIdentity s
  | .hwdGetFidCert => Sys2Proof.Machine.execHwdGetFidCert s
  | .hwdQuote => Sys2Proof.Machine.execHwdQuote s
  | .hwdSlotLoad => Sys2Proof.Machine.execHwdSlotLoad s
  | .hwdSlotDerive => Sys2Proof.Machine.execHwdSlotDerive s
  | .hwdSlotCommit => Sys2Proof.Machine.execHwdSlotCommit s
  | .hwdSlotCancel => Sys2Proof.Machine.execHwdSlotCancel s
  | .hwdSlotErase => Sys2Proof.Machine.execHwdSlotErase s
  | .hwdSlotExport => Sys2Proof.Machine.execHwdSlotExport s
  | .hwdSlotImport => Sys2Proof.Machine.execHwdSlotImport s
  | .hwdSetWrap => Sys2Proof.Machine.execHwdSetWrap s
  | .hwdWrap => Sys2Proof.Machine.execHwdWrap s
  | .hwdWrapBatch n => Sys2Proof.Machine.execHwdWrapBatch n s
  | .hwdSign => Sys2Proof.Machine.execHwdSign s
  | .hwdVerify => Sys2Proof.Machine.execHwdVerify s
  | .hwdCacheFlush => Sys2Proof.Machine.execHwdCacheFlush s
  | .hwdTamperClear => Sys2Proof.Machine.execHwdTamperClear s
  | .tinCfgLock val => Sys2Proof.Machine.execTinCfgLock val s
  | .unwrapCreditAdd => Sys2Proof.Machine.execUnwrapCreditAdd s
  | .class1Event sensor => Sys2Proof.Machine.execClass1Event sensor s
  | .alarmEnd => Sys2Proof.Machine.execAlarmEnd s
  | .class2Event x => Sys2Proof.Machine.execClass2Event x s
  | .queueEnable n val => Sys2Proof.Machine.execQueueEnable n val s
  | .queueDisable n val => Sys2Proof.Machine.execQueueDisable n val s
  | .watermarkWrite n val => Sys2Proof.Machine.execWatermarkWrite n val s
  | .fcInChange p e => Sys2Proof.Machine.execFcInChange p e s
  | .upqHostRead q cut desc => Sys2Proof.Machine.execUpqHostRead q cut desc s
  | .decompressItem q desc => Sys2Proof.Machine.execDecompressItem q desc s
  | .upqStewardRead q cut => Sys2Proof.Machine.execUpqStewardRead q cut s
  | .shpAdmission dst pkind ctx payload => Sys2Proof.Machine.execShpAdmission dst pkind ctx payload s
  | .shpEnable => Sys2Proof.Machine.execShpEnable s
  | .shpDisable => Sys2Proof.Machine.execShpDisable s
  | .shpCtxRead => Sys2Proof.Machine.execShpCtxRead s
  | .shpCtxWrite => Sys2Proof.Machine.execShpCtxWrite s
  | .shpCtxFlush => Sys2Proof.Machine.execShpCtxFlush s
  | .shpCtxBadOp => Sys2Proof.Machine.execShpCtxBadOp s
  | .shpCtxOpDone => Sys2Proof.Machine.execShpCtxOpDone s
  | .flr => Sys2Proof.Machine.execFlr s
  | .dmaDisable => Sys2Proof.Machine.execDmaDisable s
  | .ringEnable d2h r val => Sys2Proof.Machine.execRingEnable d2h r val s
  | .h2dTailWrite r val => Sys2Proof.Machine.execH2dTailWrite r val s
  | .d2hTailWrite r val => Sys2Proof.Machine.execD2hTailWrite r val s
  | .h2dDescriptorServe d data err t desc => Sys2Proof.Machine.execH2dDescriptorServe d data err t desc s
  | .ringCoalesceTimeout d2h r => Sys2Proof.Machine.execRingCoalesceTimeout d2h r s
  | .ethFrameReceive n frame fcsOk t desc => Sys2Proof.Machine.execEthFrameReceive n frame fcsOk t desc s
  | .ethLinkUp n => Sys2Proof.Machine.execEthLinkUp n s
  | .ethLinkDown n => Sys2Proof.Machine.execEthLinkDown n s
  | .pcieLinkChange up width speed => Sys2Proof.Machine.execPcieLinkChange up width speed s
  | .bghEntWrite val => Sys2Proof.Machine.execBghEntWrite val s
  | .bghEntRead => Sys2Proof.Machine.execBghEntRead s
  | .bghNhStore val => Sys2Proof.Machine.execBghNhStore val s
  | .fence => Sys2Proof.Machine.execFence s
  | .fenceDone => Sys2Proof.Machine.execFenceDone s
  | .bghLoad => Sys2Proof.Machine.execBghLoad s
  | .bghLoadDone => Sys2Proof.Machine.execBghLoadDone s
  | .bghScrubCompare => Sys2Proof.Machine.execBghScrubCompare s
  | .cnpEnable val => Sys2Proof.Machine.execCnpEnable val s
  | .cnpLinkUp west => Sys2Proof.Machine.execCnpLinkUp west s
  | .cnpLinkDown west => Sys2Proof.Machine.execCnpLinkDown west s
  | .flitReceive west flit => Sys2Proof.Machine.execFlitReceive west flit s
  | .cnpCreditEarn west => Sys2Proof.Machine.execCnpCreditEarn west s
  | .localFlitSend west t => Sys2Proof.Machine.execLocalFlitSend west t s
  | .dreqReceive west t2 => Sys2Proof.Machine.execDreqReceive west t2 s
  | .drespReceive west t2 t3 t4 => Sys2Proof.Machine.execDrespReceive west t2 t3 t4 s
  | .markReceive west stamp hops body => Sys2Proof.Machine.execMarkReceive west stamp hops body s
  | .markWindowClose => Sys2Proof.Machine.execMarkWindowClose s
  | .helloReceive west hops own h => Sys2Proof.Machine.execHelloReceive west hops own h s
  | .portUnwrap west => Sys2Proof.Machine.execPortUnwrap west s
  | .messageReassembled origin => Sys2Proof.Machine.execMessageReassembled origin s
  | .dlPktReceive body desc => Sys2Proof.Machine.execDlPktReceive body desc s
  | .digestReceive origin body => Sys2Proof.Machine.execDigestReceive origin body s
  | .updStageBegin bad => Sys2Proof.Machine.execUpdStageBegin bad s
  | .updStageWrite bad => Sys2Proof.Machine.execUpdStageWrite bad s
  | .updStageFinish => Sys2Proof.Machine.execUpdStageFinish s
  | .updStageCancel => Sys2Proof.Machine.execUpdStageCancel s
  | .updCfgList => Sys2Proof.Machine.execUpdCfgList s
  | .updCfgRead => Sys2Proof.Machine.execUpdCfgRead s
  | .updCfgWrite bad => Sys2Proof.Machine.execUpdCfgWrite bad s
  | .updCfgDelete bad => Sys2Proof.Machine.execUpdCfgDelete bad s
  | .updSeedStart => Sys2Proof.Machine.execUpdSeedStart s
  | .updSeedStop => Sys2Proof.Machine.execUpdSeedStop s
  | .updSeedCount => Sys2Proof.Machine.execUpdSeedCount s
  | .seedItemAdmit => Sys2Proof.Machine.execSeedItemAdmit s
  | .seedReportProcess idx session state => Sys2Proof.Machine.execSeedReportProcess idx session state s
  | .updFlRead => Sys2Proof.Machine.execUpdFlRead s
  | .updFlProgram => Sys2Proof.Machine.execUpdFlProgram s
  | .updFlErase => Sys2Proof.Machine.execUpdFlErase s
  | .updFlNop => Sys2Proof.Machine.execUpdFlNop s
  | .updFlDone bad => Sys2Proof.Machine.execUpdFlDone bad s
  | .icuSourceEdge n e => Sys2Proof.Machine.execIcuSourceEdge n e s
  | .icuSrcWrite n val => Sys2Proof.Machine.execIcuSrcWrite n val s
  | .icuClaim k => Sys2Proof.Machine.execIcuClaim k s
  | .icuDone k val => Sys2Proof.Machine.execIcuDone k val s
  | .engineClaimStore k => Sys2Proof.Machine.execEngineClaimStore k s
  | .engineDoneStore k => Sys2Proof.Machine.execEngineDoneStore k s
  | .targetWake k awake => Sys2Proof.Machine.execTargetWake k awake s
  | .tmrGo val => Sys2Proof.Machine.execTmrGo val s
  | .tmrStop val => Sys2Proof.Machine.execTmrStop val s
  | .tmrGoAtArm val => Sys2Proof.Machine.execTmrGoAtArm val s
  | .tmrGoAtCancel => Sys2Proof.Machine.execTmrGoAtCancel s
  | .tmrGoAtStart => Sys2Proof.Machine.execTmrGoAtStart s
  | .timerTick n => Sys2Proof.Machine.execTimerTick n s
  | .tmrCapture trig => Sys2Proof.Machine.execTmrCapture trig s
  | .tmrCntRead n => Sys2Proof.Machine.execTmrCntRead n s
  | .patrolRead ch x => Sys2Proof.Machine.execPatrolRead ch x s
  | .ceWriteback => Sys2Proof.Machine.execCeWriteback s
  | .ondieScrubRead x => Sys2Proof.Machine.execOndieScrubRead x s
  | .tableCheckCompare => Sys2Proof.Machine.execTableCheckCompare s
  | .rasLogRdWrite val => Sys2Proof.Machine.execRasLogRdWrite val s
  | .rasLogSelWrite val => Sys2Proof.Machine.execRasLogSelWrite val s
  | .aonPor => Sys2Proof.Machine.execAonPor s
  | .pwrGoodRise => Sys2Proof.Machine.execPwrGoodRise s
  | .pwrGoodFall => Sys2Proof.Machine.execPwrGoodFall s
  | .sysRst low => Sys2Proof.Machine.execSysRst low s
  | .swRst val => Sys2Proof.Machine.execSwRst val s
  | .perst low => Sys2Proof.Machine.execPerst low s
  | .brownOut => Sys2Proof.Machine.execBrownOut s
  | .thermalTrip => Sys2Proof.Machine.execThermalTrip s
  | .railOutOfTolerance rail ok => Sys2Proof.Machine.execRailOutOfTolerance rail ok s
  | .tempConversion t => Sys2Proof.Machine.execTempConversion t s
  | .internalResetRelease w => Sys2Proof.Machine.execInternalResetRelease w s
  | .pllLock unit => Sys2Proof.Machine.execPllLock unit s
  | .dspSlewDone => Sys2Proof.Machine.execDspSlewDone s
  | .standbyRequest val => Sys2Proof.Machine.execStandbyRequest val s
  | .runRequest val => Sys2Proof.Machine.execRunRequest val s
  | .sleepRequest val => Sys2Proof.Machine.execSleepRequest val s
  | .wake alarm => Sys2Proof.Machine.execWake alarm s
  | .gpioEvent n level => Sys2Proof.Machine.execGpioEvent n level s
  | .gpioCfgWrite n val => Sys2Proof.Machine.execGpioCfgWrite n val s
  | .spiTransfer unit val => Sys2Proof.Machine.execSpiTransfer unit val s
  | .spiDone unit val => Sys2Proof.Machine.execSpiDone unit val s
  | .i2cCmd unit val => Sys2Proof.Machine.execI2cCmd unit val s
  | .i2cStepDone unit byte nack arb => Sys2Proof.Machine.execI2cStepDone unit byte nack arb s
  | .uartDataWrite val => Sys2Proof.Machine.execUartDataWrite val s
  | .uartDataRead => Sys2Proof.Machine.execUartDataRead s
  | .uartRxFrame byte stop => Sys2Proof.Machine.execUartRxFrame byte stop s
  | .uartTxFrameDone => Sys2Proof.Machine.execUartTxFrameDone s
  | .rxarmDelivery k tk => Sys2Proof.Machine.execRxarmDelivery k tk s
  | .txarmDelivery k tk => Sys2Proof.Machine.execTxarmDelivery k tk s
  | .pllLockLoss unit => Sys2Proof.Machine.execPllLockLoss unit s
  | .aonCrystalStart => Sys2Proof.Machine.execAonCrystalStart s
  | .uartCtsChange level => Sys2Proof.Machine.execUartCtsChange level s
  | .hrdClearDone => Sys2Proof.Machine.execHrdClearDone s
  | .caParityAlert => Sys2Proof.Machine.execCaParityAlert s
  | .encoderBlockPrepared => Sys2Proof.Machine.execEncoderBlockPrepared s

end Sys2Proof.Machine
end

