-- ==== Sys2Proof/Machine/Tap.lean ====
section
/-! DEFINITION. The test access port (R557, R564, R565): its controller, its instructions, and what a rising edge of TCK does. -/

namespace Sys2Proof.Machine

/-- The instructions of the table of R564. -/
inductive TapInstr where
  | extest
  | idcode
  | sample
  | extestPulse
  | extestTrain
  | bypass
  deriving DecidableEq, Repr

/-- The instruction that a code names; a code of no row acts as BYPASS (log entry 56). -/
def tapOpcode (c : BitVec 8) : TapInstr :=
  if c = 0x00 then .extest else if c = 0x01 then .idcode else if c = 0x02 then .sample else if c = 0x04 then .extestPulse
  else if c = 0x05 then .extestTrain else .bypass

/-- The IDCODE value (R564). -/
def tapId : BitVec 32 := 0xB9640A4B

/-- How an instruction acts: outside test mode every one but BYPASS, IDCODE and SAMPLE/PRELOAD acts as BYPASS (R565). -/
def tapActs (testMode : Bool) (i : TapInstr) : TapInstr :=
  match i with
  | .bypass => .bypass
  | .idcode => .idcode
  | .sample => .sample
  | .extest => if testMode then .extest else .bypass
  | .extestPulse => if testMode then .extestPulse else .bypass
  | .extestTrain => if testMode then .extestTrain else .bypass

/-- The controller's next state for TMS (IEEE 1149.1; R564, log entry 56). -/
def TapSt.next (s : TapSt) (tms : Bool) : TapSt :=
  match s with
  | .testLogicReset => if tms then .testLogicReset else .runTestIdle
  | .runTestIdle => if tms then .selectDr else .runTestIdle
  | .selectDr => if tms then .selectIr else .captureDr
  | .captureDr => if tms then .exit1Dr else .shiftDr
  | .shiftDr => if tms then .exit1Dr else .shiftDr
  | .exit1Dr => if tms then .updateDr else .pauseDr
  | .pauseDr => if tms then .exit2Dr else .pauseDr
  | .exit2Dr => if tms then .updateDr else .shiftDr
  | .updateDr => if tms then .selectDr else .runTestIdle
  | .selectIr => if tms then .testLogicReset else .captureIr
  | .captureIr => if tms then .exit1Ir else .shiftIr
  | .shiftIr => if tms then .exit1Ir else .shiftIr
  | .exit1Ir => if tms then .updateIr else .pauseIr
  | .pauseIr => if tms then .exit2Ir else .pauseIr
  | .exit2Ir => if tms then .updateIr else .shiftIr
  | .updateIr => if tms then .selectDr else .runTestIdle

/-- The data register that the instruction in force selects, as Capture-DR loads it, its first bit out first: the IDCODE, the one bit of BYPASS, or the
boundary cells, whose number, order and levels are open (log entries 2 and 56). -/
def Block.tapCapture (b : Block) : List Bool :=
  match tapActs b.pins.testEn (tapOpcode b.tap.ir) with
  | .idcode => (List.range 32).map tapId.getLsbD
  | .bypass => [false]
  | _ => (List.range Config.boundaryCells).map (bitOf b.freeNat)

/-- Update-DR: the cells' latches take what was shifted in, where the boundary register is selected. -/
def Block.tapLatch (b : Block) : Tap :=
  match tapActs b.pins.testEn (tapOpcode b.tap.ir) with
  | .idcode => b.tap
  | .bypass => b.tap
  | _ => { b.tap with cells := b.tap.dr }

/-- A rising edge of TCK: the act of the state that the controller is in, then its next state; TRST_n low holds Test-Logic-Reset. -/
def Block.tapEdge (b : Block) (e : TckEdge) : Block :=
  let t := b.tap
  if !e.trstN then { b with tap := { t with st := .testLogicReset, ir := 0x01 } }
  else
    let t : Tap := match t.st with
      | .captureDr => { t with dr := b.tapCapture }
      | .shiftDr => { t with tdo := t.dr.headD false, dr := t.dr.drop 1 ++ [e.tdi] }
      | .updateDr => b.tapLatch
      | .captureIr => { t with irShift := BitVec.ofNat 8 (b.freeNat * 4 + 1) }
      | .shiftIr => { t with tdo := t.irShift.getLsbD 0, irShift := t.irShift >>> 1 ||| (if e.tdi then 0x80 else 0) }
      | .updateIr => { t with ir := t.irShift }
      | _ => t
    let n := t.st.next e.tms
    { b.took with tap := { t with st := n, ir := if n = .testLogicReset then 0x01 else t.ir } }

/-- The oldest edge that waits at the port is taken. -/
def Block.tapClock (b : Block) : Block :=
  match b.tap.edges with
  | e :: rest => ({ b with tap := { b.tap with edges := rest } }).tapEdge e
  | [] => b

/-- A beat in which no command comes (log entry 5): the test access port and the interrupt controller do what they do in every cycle, and the clocks
advance. -/
def Block.idleBeat (b : Block) : Block := b.tapClock.icuEval.beatTick

end Sys2Proof.Machine
end

