-- ==== Sys2Proof/Machine/Step.lean ====
section
/-! DEFINITION. One step of the block: the command at the front of the queue, or a beat of its clock when none waits. -/

namespace Sys2Proof.Machine

/-- A step (log entry 5). The command that waits longest is taken and has its effect on the rest; with none waiting the block idles for one
beat (DESIGN CHOICE): an edge of TCK that waits at the test access port is taken, interrupts are presented, the clocks advance, and nothing else. -/
def step (s : State) : Host.Outcome State Fault Refusal :=
  match s.pending with
  | [] => .next { s with blk := s.blk.idleBeat }
  | c :: rest => exec c { s with pending := rest }

/-- The state with the command that a word spells at the front of its queue; the opcode table gives no row any bits, so no word spells one
(log entry 6). -/
def State.withFetchWord (s : State) (nbits w : Nat) : State :=
  match decodeTableWord nbits w with
  | some c => { s with pending := c :: s.pending }
  | none => s

end Sys2Proof.Machine
end

