-- ==== Sys2Proof/Safety.lean ====
section
/-! DEFINITION. The terms claims are stated in: the canonical form of the memories, what it is for a command to run, and what the commands of a
Weft strand need to issue. -/

namespace Sys2Proof.Machine

/-- Every addressed memory of the block is in its canonical form: keys rise, and no entry holds what an unlisted key reads as. -/
def Block.memWf (b : Block) : Bool :=
  Tbl.wf regReset b.regs && Tbl.wf dramDefault b.dram.bytes && Tbl.wf (fun _ => false) b.dram.poison && Tbl.wf (fun _ => []) b.dram.err
    && Tbl.wf (fun _ => 0) b.wft.ibank
    && Tbl.wf (fun _ => 0) b.wft.dmem && Tbl.wf (fun _ => 0) b.wft.table && Tbl.wf (fun _ => 0) b.hoop.warp.warp
    && Tbl.wf (fun _ => 0) b.bdr.ent && Tbl.wf (fun _ => 0) b.bdr.nh && Tbl.wf flErased b.upd.flash

/-- The invariant of every step: the memories are in their canonical form. -/
def State.Inv (s : State) : Prop := s.blk.memWf = true

/-- The command runs: it answers a next state whose queue is the one it found and whose block meets `P`. -/
def Runs (c : Instr) (s : State) (P : Block → Prop) : Prop := ∃ t, exec c s = .next t ∧ t.pending = s.pending ∧ P t.blk

/-- The command runs and the block it leaves holds exactly what `b` holds. -/
def Gives (c : Instr) (s : State) (b : Block) : Prop := exec c s = .next { s with blk := b.canon }

/-- The command runs and nothing of the block changes but that the answer and the outputs of the last command are over. -/
def NoEffect (c : Instr) (s : State) : Prop := Gives c s s.blk.start

/-- Every register holds the same in both blocks, but those at the offsets `except`. -/
def RegsKept (b c : Block) (except : List Nat) : Prop := ∀ o, o ∉ except → c.reg o = b.reg o

/-- Every byte of DRAM holds the same in both blocks, with the same poison. -/
def DramKept (b c : Block) : Prop := (∀ a, c.dramByte a = b.dramByte a) ∧ ∀ w, c.wordPoisoned w = b.wordPoisoned w

/-- Strand `k` issues the word `w`, of opcode `op`, at once: it can issue, its pc is in the memory, the word it fetches is `w`, the guard
holds, no register or ticket in the lists awaits a delivery (R245, R246, R257, R274), and no higher strand has issued in that beat (R249, R281;
log entry 8). -/
def Block.issues (b : Block) (k op : Nat) (w : BitVec 64) (regs tks : List Nat) : Bool :=
  b.canIssue k && decide ((b.strand k).pc < 8192) && b.fetch k == w && iOp w == op && (b.strand k).guard w
    && !regs.any (b.strand k).awaits && !tks.any (b.strand k).tkBusy
    && !decide (b.wft.lastBeat = (b.strand k).issueBeat b.clk.beat regs ∧ k < b.wft.lastStrand)

/-- The block as an instruction of strand `k` that reads `regs` finds it in its issue beat: time has come to that beat, the claim words due
are in the data memory, it is the last to issue, the results due are written, the pc has advanced, and the next instruction issues a beat later at
the earliest. -/
def Block.issued (b : Block) (k : Nat) (regs : List Nat) : Block :=
  let n := (b.strand k).issueBeat b.clk.beat regs
  ((b.toBeat n).claimSettle.issuedBy k n).onStrand k (fun s => { s.settle n with pc := s.pc + 1, ready := n + 1 })

end Sys2Proof.Machine
end

