-- ==== Sys2Proof/Certificates/Slice0/Obligations.lean ====
section
/-! DEFINITION. The statements for the provers. -/

open Sys2Proof Sys2Proof.Machine

namespace Sys2Proof.Machine

/-- An instruction of a Weft strand that gives its destination one value: the command, its opcode, the latency of its result in beats, the bits
of the fields its word may use, the registers it reads, a condition on the word or the block without which it faults, and the value from the
block as the issue beat finds it. -/
structure ValueOp where
  cmd : Nat → Instr
  op : Nat
  lat : Nat
  used : Nat
  reads : BitVec 64 → List Nat
  ok : Block → Nat → BitVec 64 → Bool
  val : Block → Nat → BitVec 64 → BitVec 64

/-- A register-register operation. -/
def opRR (cmd : Nat → Instr) (op lat : Nat) (f : BitVec 64 → BitVec 64 → BitVec 64) : ValueOp :=
  ⟨cmd, op, lat, uRD ||| uRA ||| uRB, fun w => [iRA w, iRB w], fun _ _ _ => true, fun b k w => f (b.w k (iRA w)) (b.w k (iRB w))⟩

/-- A register-immediate operation; `imm` are the bits of IMM it may use. -/
def opRI (cmd : Nat → Instr) (op lat imm : Nat) (f : BitVec 64 → BitVec 32 → BitVec 64) : ValueOp :=
  ⟨cmd, op, lat, uRD ||| uRA ||| imm, fun w => [iRA w], fun _ _ _ => true, fun b k w => f (b.w k (iRA w)) (iIMM w)⟩

/-- The address of a memory instruction, (RA + the sign-extended offset) modulo 2^64 (R284). -/
def opAddr (b : Block) (k : Nat) (w : BitVec 64) : Nat := (b.w k (iRA w) + (iIMM w).signExtend 64).toNat

/-- A load of `z` bytes from the engine's data memory; `ext` extends what the bytes, least significant first, hold. -/
def opLoad (cmd : Nat → Instr) (op z : Nat) (ext : Nat → BitVec 64) : ValueOp :=
  ⟨cmd, op, 1, uRD ||| uRA ||| uIMM, fun w => [iRA w], fun b k w => decide (opAddr b k w ≤ 0x10000 - z),
    fun b k w => ext ((List.range z).foldl (fun m i => m + (b.dmemByte (k / 4) (opAddr b k w + i)).toNat * 256 ^ i) 0)⟩

/-- The register-register and register-immediate operations of R284, R291 and R292. -/
def aluOps : List ValueOp :=
  [opRR .iAdd 0x10 1 (fun x y => x + y), opRR .iSub 0x11 1 (fun x y => x - y), opRR .iAnd 0x12 1 (fun x y => x &&& y),
   opRR .iOr 0x13 1 (fun x y => x ||| y), opRR .iXor 0x14 1 (fun x y => x ^^^ y), opRR .iShl 0x15 1 (fun x y => x <<< (y.toNat % 64)),
   opRR .iShr 0x16 1 (fun x y => x >>> (y.toNat % 64)), opRR .iSra 0x17 1 (fun x y => x.sshiftRight (y.toNat % 64)),
   opRR .iMin 0x18 1 (fun x y => if x.toInt < y.toInt then x else y), opRR .iMax 0x19 1 (fun x y => if x.toInt < y.toInt then y else x),
   opRR .iMinu 0x1A 1 (fun x y => if x.toNat < y.toNat then x else y), opRR .iMaxu 0x1B 1 (fun x y => if x.toNat < y.toNat then y else x),
   opRR .iMul 0x20 2 (fun x y => x * y), opRR .iMulhu 0x21 2 (fun x y => BitVec.ofNat 64 (x.toNat * y.toNat / 2 ^ 64)),
   opRR .iDiv 0x22 18 (fun x y => if y = 0 then 0xFFFFFFFFFFFFFFFF else BitVec.ofNat 64 (x.toNat / y.toNat)),
   opRR .iDivs 0x23 18 (fun x y => if y = 0 then 0xFFFFFFFFFFFFFFFF else BitVec.ofInt 64 (x.toInt.tdiv y.toInt)),
   opRR .iRem 0x24 18 (fun x y => if y = 0 then x else BitVec.ofNat 64 (x.toNat % y.toNat)),
   opRI .iAddi 0x40 1 uIMM (fun x i => x + i.signExtend 64), opRI .iAndi 0x41 1 uIMM (fun x i => x &&& i.zeroExtend 64),
   opRI .iOri 0x42 1 uIMM (fun x i => x ||| i.zeroExtend 64), opRI .iXori 0x43 1 uIMM (fun x i => x ^^^ i.zeroExtend 64),
   opRI .iShli 0x44 1 0x3F (fun x i => x <<< (i.toNat % 64)), opRI .iShri 0x45 1 0x3F (fun x i => x >>> (i.toNat % 64)),
   opRI .iSrai 0x46 1 0x3F (fun x i => x.sshiftRight (i.toNat % 64)), opRI .iMovhi 0x48 1 uIMM (fun x i => i ++ x.truncate 32),
   opRI .iExtr 0x49 1 0x3F3F (fun x i => BitVec.ofNat 64 (x.toNat / 2 ^ (i.toNat % 64) % 2 ^ (if i.toNat / 256 % 64 = 0 then 64 else i.toNat / 256 % 64))),
   opRI .iMuli 0x4B 2 uIMM (fun x i => x * i.signExtend 64)]

/-- SEL, MOVI, INS, TIME, SYSR and the loads of R290, R292, R293 and R294. -/
def moveOps : List ValueOp :=
  [⟨.iSel, 0x1C, 1, uRD ||| uRA ||| uRB ||| uSUB, fun w => [iRA w, iRB w], fun _ _ _ => true,
      fun b k w => if (b.strand k).p (iSUB w) then b.w k (iRA w) else b.w k (iRB w)⟩,
   ⟨.iMovi, 0x47, 1, uRD ||| uIMM, fun _ => [], fun _ _ _ => true, fun _ _ w => (iIMM w).signExtend 64⟩,
   ⟨.iIns, 0x4A, 1, uRD ||| uRA ||| 0x3F3F, fun w => [iRD w, iRA w], fun _ _ _ => true, fun b k w =>
      let pos := (iIMM w).toNat % 64
      let len := if (iIMM w).toNat / 256 % 64 = 0 then 64 else (iIMM w).toNat / 256 % 64
      let m : BitVec 64 := BitVec.ofNat 64 ((2 ^ len - 1) * 2 ^ pos)
      (b.w k (iRD w) &&& ~~~m) ||| ((b.w k (iRA w) <<< pos) &&& m)⟩,
   ⟨.iTime, 0x05, 1, uRD, fun _ => [], fun _ _ _ => true, fun b _ _ => b.clk.htime⟩,
   ⟨.iSysr, 0x0B, 1, uRD ||| 0xFF, fun _ => [], fun _ _ w => decide ((iIMM w).toNat ≤ 5), fun b k w =>
      BitVec.ofNat 64 (match (iIMM w).toNat with
        | 0 => k
        | 1 => b.rd CNP_STAT.POS
        | 2 => (b.reg HOOP_EPOCH_ACT.all.base).toNat
        | 3 => leNat (b.digestAct.take 4)
        | 4 => b.rd MAS_BCN_CTL.SEQ_OFS
        | _ => (b.reg MAS_DOMAIN_ID.all.base).toNat)⟩,
   opLoad .iLdb 0x50 1 (BitVec.ofNat 64), opLoad .iLdh 0x51 2 (BitVec.ofNat 64), opLoad .iLdw 0x52 4 (BitVec.ofNat 64),
   opLoad .iLd 0x53 8 (BitVec.ofNat 64), opLoad .iLdsb 0x54 1 (fun n => (BitVec.ofNat 8 n).signExtend 64),
   opLoad .iLdsh 0x55 2 (fun n => (BitVec.ofNat 16 n).signExtend 64), opLoad .iLdsw 0x56 4 (fun n => (BitVec.ofNat 32 n).signExtend 64)]

end Sys2Proof.Machine

/-- For every register-register and register-immediate instruction of the opcode map: when strand k issues its word (the guard holds, no operand
awaits a delivery) and the word uses no field the instruction does not use, the command runs, and the block it leaves is the block of the issue beat
with the one result for RD, of the value of the table, due its latency later. The block of the issue beat differs from the one before only in time,
in claim words and results that have come due, in the pc and in the strand's next beat; every other register, strand and memory is unchanged.
COMPLETION: under hypotheses on the state and the operands alone, exec is said here to answer a next state with the own effect of iAdd, iSub, iAnd,
iOr, iXor, iShl, iShr, iSra, iMin, iMax, iMinu, iMaxu, iMul, iMulhu, iDiv, iDivs, iRem, iAddi, iAndi, iOri, iXori, iShli, iShri, iSrai, iMovhi,
iExtr, iMuli. (R245, R246, R247, R273, R275, R284, R291, R292) -/
def Obligations.WeftArithmeticResults : Prop :=
  ∀ o ∈ aluOps, ∀ (s : State) (k : Nat) (w : BitVec 64), s.blk.issues k o.op w (o.reads w) [] = true → onlyUses o.used w = true →
    Gives (o.cmd k) s ((s.blk.start.issued k (o.reads w)).result k (iRD w) (o.val (s.blk.start.issued k (o.reads w)) k w) o.lat)

/-- For SEL, MOVI, INS, TIME, SYSR with a selector up to 5, and the seven local loads within the data memory: when strand k issues the word and it
uses no other field, the command runs, and the block it leaves is the block of the issue beat with the one result for RD, due one beat later. Loads
read the bytes of the strand's engine least significant first and extend them with zeros or with the sign. COMPLETION: under hypotheses on the state
and the operands alone, exec is said here to answer a next state with the own effect of iTime, iSysr, iSel, iMovi, iIns, iLdb, iLdh, iLdw, iLd,
iLdsb, iLdsh, iLdsw. (R249, R284, R290, R292, R293, R294) -/
def Obligations.WeftMoveAndLoadResults : Prop :=
  ∀ o ∈ moveOps, ∀ (s : State) (k : Nat) (w : BitVec 64), s.blk.issues k o.op w (o.reads w) [] = true → onlyUses o.used w = true →
    o.ok (s.blk.start.issued k (o.reads w)) k w = true →
    Gives (o.cmd k) s ((s.blk.start.issued k (o.reads w)).result k (iRD w) (o.val (s.blk.start.issued k (o.reads w)) k w) o.lat)

/-- A synchronous result of register r due in beat d: once the results due by a beat n ≥ d are written and none of them is due later than d (the
results held in order of their beats), register r holds the result (zero for w0), every other register holds what it would hold without the result,
and predicates and pc are as without it; in a beat before d nothing of it is written. (R245, R246, R276, R278) -/
def Obligations.WeftResultIsReadWhenDue : Prop :=
  ∀ (x : Strand) (r : Nat) (v : BitVec 64) (d n : Nat),
    (d ≤ n → x.dues.Pairwise (fun y z => y.beat ≤ z.beat) → (∀ y ∈ x.dues, y.beat ≤ n → y.beat ≤ d) → ((x.result r v d).settle n).w r = if r = 0 then 0 else v)
    ∧ (d ≤ n → ∀ q, q ≠ r → ((x.result r v d).settle n).w q = (x.settle n).w q)
    ∧ (n < d → ∀ q, ((x.result r v d).settle n).w q = (x.settle n).w q)
    ∧ ((x.result r v d).settle n).preds = (x.settle n).preds ∧ ((x.result r v d).settle n).pc = (x.settle n).pc

namespace Sys2Proof.Machine

/-- An instruction of a Weft strand that gives a predicate a value. -/
structure PredOp where
  cmd : Nat → Instr
  op : Nat
  used : Nat
  reads : BitVec 64 → List Nat
  ok : BitVec 64 → Bool
  val : Block → Nat → BitVec 64 → Bool

/-- The conditions of CMP and CMPI (R293), by SUB. -/
def condIs (c : Nat) (x y : BitVec 64) : Bool :=
  if c = 0 then decide (x = y) else if c = 1 then decide (x ≠ y) else if c = 2 then decide (x.toInt < y.toInt)
  else if c = 3 then decide (y.toInt ≤ x.toInt) else if c = 4 then decide (x.toNat < y.toNat) else if c = 5 then decide (y.toNat ≤ x.toNat)
  else decide (x &&& y ≠ 0)

/-- The predicate instructions of R284 and R293. -/
def predOps : List PredOp :=
  [⟨.iCmp, 0x30, uPD ||| uRA ||| uRB ||| uSUB, fun w => [iRA w, iRB w], fun w => iSUB w != 7,
      fun b k w => condIs (iSUB w) (b.w k (iRA w)) (b.w k (iRB w))⟩,
   ⟨.iCmpi, 0x31, uPD ||| uRA ||| uSUB ||| uIMM, fun w => [iRA w], fun w => iSUB w != 7,
      fun b k w => condIs (iSUB w) (b.w k (iRA w)) (if iSUB w < 4 then (iIMM w).signExtend 64 else (iIMM w).zeroExtend 64)⟩,
   ⟨.iTstb, 0x32, uPD ||| uRA ||| 0x3F, fun w => [iRA w], fun _ => true,
      fun b k w => (b.w k (iRA w)).toNat.testBit ((iIMM w).toNat % 64)⟩,
   ⟨.iPand, 0x33, uPD ||| uPA ||| uPB, fun _ => [], fun _ => true, fun b k w => (b.strand k).p (iRA w) && (b.strand k).p (iRB w)⟩,
   ⟨.iPor, 0x34, uPD ||| uPA ||| uPB, fun _ => [], fun _ => true, fun b k w => (b.strand k).p (iRA w) || (b.strand k).p (iRB w)⟩,
   ⟨.iPxor, 0x35, uPD ||| uPA ||| uPB, fun _ => [], fun _ => true, fun b k w => (b.strand k).p (iRA w) != (b.strand k).p (iRB w)⟩,
   ⟨.iPandn, 0x36, uPD ||| uPA ||| uPB, fun _ => [], fun _ => true, fun b k w => (b.strand k).p (iRA w) && !(b.strand k).p (iRB w)⟩]

/-- The local stores with their opcodes and sizes in bytes (R284, R294). -/
def storeOps : List ((Nat → Instr) × Nat × Nat) := [(.iStb, 0x58, 1), (.iSth, 0x59, 2), (.iStw, 0x5A, 4), (.iStd, 0x5B, 8)]

end Sys2Proof.Machine

/-- For CMP, CMPI (conditions 0 to 6), TSTB, PAND, POR, PXOR and PANDN: when strand k issues the word and it uses no other field, the command runs,
and the block it leaves is the block of the issue beat with predicate PD written. A write of a predicate changes that predicate alone, p0 reads 1
whatever is written; a write of a general register changes that register alone, w0 reads 0 whatever is written. COMPLETION: under hypotheses on the
state and the operands alone, exec is said here to answer a next state with the own effect of iCmp, iCmpi, iTstb, iPand, iPor, iPxor, iPandn. (R245,
R277, R284, R293) -/
def Obligations.WeftPredicateResults : Prop :=
  (∀ o ∈ predOps, ∀ (s : State) (k : Nat) (w : BitVec 64), s.blk.issues k o.op w (o.reads w) [] = true → onlyUses o.used w = true → o.ok w = true →
    Gives (o.cmd k) s ((s.blk.start.issued k (o.reads w)).onStrand k
      (fun x => x.setP (iRD w) (o.val (s.blk.start.issued k (o.reads w)) k w))))
  ∧ (∀ (x : Strand) (i j : Nat) (v : Bool), i < 8 → j < 8 →
      (x.setP i v).p j = (if j = 0 then true else if j = i then v else x.p j) ∧ ∀ r, (x.setP i v).w r = x.w r)
  ∧ (∀ (x : Strand) (r q : Nat) (v : BitVec 64), (x.setW r v).w q = (if q = 0 then 0 else if q = r then v else x.w q) ∧ (x.setW r v).preds = x.preds)

/-- A local store whose bytes lie in the data memory: when strand k issues the word and it uses no other field, the command runs; the bytes at the
address are the low bytes of RD, least significant first; every other byte of every data memory, every strand, DRAM and every register but ICU_EVT
are as the issue beat found them. TST below 0x40_0000 stores RD in the shared table word unless a strand of a higher number has stored there in the
same beat, and leaves every other table word. COMPLETION: under hypotheses on the state and the operands alone, exec is said here to answer a next
state with the own effect of iTst, iStb, iSth, iStw, iStd. (R249, R250, R275, R284, R294, R295, R502) -/
def Obligations.WeftStores : Prop :=
  (∀ o ∈ storeOps, ∀ (s : State) (k : Nat) (w : BitVec 64), s.blk.issues k o.2.1 w [iRA w, iRD w] [] = true →
    onlyUses (uRD ||| uRA ||| uIMM) w = true → opAddr (s.blk.start.issued k [iRA w, iRD w]) k w ≤ 0x10000 - o.2.2 →
    Runs (o.1 k) s (fun t =>
      let x := s.blk.start.issued k [iRA w, iRD w]
      let a := opAddr x k w
      (∀ i, i < o.2.2 → t.dmemByte (k / 4) (a + i) = BitVec.ofNat 8 ((x.w k (iRD w)).toNat / 256 ^ i))
      ∧ (∀ n c, c < 0x10000 → ¬ (n = k / 4 ∧ a ≤ c ∧ c < a + o.2.2) → t.dmemByte n c = x.dmemByte n c)
      ∧ (∀ j, t.strand j = x.strand j) ∧ RegsKept s.blk t [ICU_EVT.all.base] ∧ DramKept s.blk t))
  ∧ (∀ (s : State) (k : Nat) (w : BitVec 64), s.blk.issues k 0x5D w [iRA w, iRD w] [] = true → onlyUses (uRD ||| uRA ||| uIMM) w = true →
    opAddr (s.blk.start.issued k [iRA w, iRD w]) k w < 0x400000 →
    Runs (.iTst k) s (fun t =>
      let x := s.blk.start.issued k [iRA w, iRD w]
      let i := opAddr x k w / 8
      t.tblWord i = (match x.tblStoreNow i with | some y => if k < y.strand then x.tblWord i else x.w k (iRD w) | none => x.w k (iRD w))
      ∧ (∀ j, j ≠ i → t.tblWord j = x.tblWord j) ∧ (∀ j, t.strand j = x.strand j) ∧ RegsKept s.blk t [] ∧ DramKept s.blk t))

/-- When strand k issues the word and it uses no other field, the command runs: NOP leaves the block of the issue beat; BR sets the pc to IMM[12:0];
BRL also gives RD the 13-bit index of the instruction after it; JR sets the pc to RA up to 8,191; TWAIT, EVWAIT and TKWAIT make the strand wait for
their time, events or tickets; SIG sets the doorbells IMM[3:0] of the strand's engine at the end of its beat, so that they stand from the next beat
on, and, with IMM[4], SIG; RREL frees the oldest record and does nothing to an empty ring; FBFREE releases a buffer that the weave holds and leaves
any other handle; TLD below 0x40_0000 gives RD the table word as at the start of the beat 8 beats later, zero for a word that was poisoned, which is
counted (of a word with no error in its array); END with tickets outstanding lets the weave end with the last of them, and without any the strand
runs no weave and is free in the next beat, its results still due. COMPLETION: under hypotheses on the state and the operands alone, exec is said
here to answer a next state with the own effect of iEnd, iNop, iBr, iBrl, iJr, iTwait, iEvwait, iTkwait, iSig, iRrel, iFbfree, iTld. (R257, R262,
R263, R264, R283, R284, R285, R286, R287, R288, R289, R295) -/
def Obligations.WeftBranchesAndEvents : Prop :=
  ∀ (s : State) (k : Nat) (w : BitVec 64),
    (s.blk.issues k 0x01 w [] [] = true → onlyUses 0 w = true → Gives (.iNop k) s (s.blk.start.issued k []))
    ∧ (s.blk.issues k 0x02 w [] [] = true → onlyUses 0x1FFF w = true →
      Gives (.iBr k) s ((s.blk.start.issued k []).onStrand k (fun x => { x with pc := (iIMM w).toNat })))
    ∧ (s.blk.issues k 0x03 w [] [] = true → onlyUses (uRD ||| 0x1FFF) w = true →
      Gives (.iBrl k) s (((s.blk.start.issued k []).result k (iRD w) (BitVec.ofNat 64 (((s.blk.strand k).pc + 1) % 8192)) 1).onStrand k
        (fun x => { x with pc := (iIMM w).toNat })))
    ∧ (s.blk.issues k 0x04 w [iRA w] [] = true → onlyUses uRA w = true → ((s.blk.start.issued k [iRA w]).w k (iRA w)).toNat ≤ 8191 →
      Gives (.iJr k) s ((s.blk.start.issued k [iRA w]).onStrand k (fun x => { x with pc := ((s.blk.start.issued k [iRA w]).w k (iRA w)).toNat })))
    ∧ (s.blk.issues k 0x06 w [iRA w] [] = true → onlyUses uRA w = true →
      Gives (.iTwait k) s ((s.blk.start.issued k [iRA w]).onStrand k (fun x => { x with wait := .twait (x.w (iRA w)) })))
    ∧ (s.blk.issues k 0x07 w [iRA w] [] = true → onlyUses (uRD ||| uRA ||| 7) w = true →
      Gives (.iEvwait k) s ((s.blk.start.issued k [iRA w]).onStrand k (fun x => { x with wait := .evwait (iRD w) (iIMM w).toNat (x.w (iRA w)) })))
    ∧ (s.blk.issues k 0x08 w [] [] = true → onlyUses 0xFF w = true →
      Gives (.iTkwait k) s ((s.blk.start.issued k []).onStrand k (fun x => { x with wait := .tkwait (iIMM w).toNat })))
    ∧ (s.blk.issues k 0x09 w [] [] = true → onlyUses 0x1F w = true →
      Gives (.iSig k) s
        (let x := s.blk.start.issued k []
         let m := BitVec.ofNat 4 (iIMM w).toNat
         let y := x.onEngine (k / 4) (fun e => if e.bellsAt < x.clk.beat
           then { e with doorbells := e.doorbells ||| e.bellsDue, bellsDue := m, bellsAt := x.clk.beat }
           else { e with bellsDue := e.bellsDue ||| m, bellsAt := x.clk.beat })
         if (iIMM w).toNat.testBit 4 then y.set WFT_EVT.SIG (k / 4) else y))
    ∧ (∀ n, s.blk.bells n = if (s.blk.engine n).bellsAt < s.blk.clk.beat then (s.blk.engine n).doorbells ||| (s.blk.engine n).bellsDue
        else (s.blk.engine n).doorbells)
    ∧ (s.blk.issues k 0x0A w [] [] = true → onlyUses 0 w = true →
      Gives (.iRrel k) s ((s.blk.start.issued k []).onStrand k
        (fun x => if x.ringCount = 0 then x else { x with ringHead := (x.ringHead + 1) % 8, ringCount := x.ringCount - 1 })))
    ∧ (s.blk.issues k 0x0C w [iRA w] [] = true → onlyUses uRA w = true →
      Runs (.iFbfree k) s (fun t =>
        let x := s.blk.start.issued k [iRA w]
        let h := (x.w k (iRA w)).toNat % 1024
        (t.strand k).fbufs = (x.strand k).fbufs.filter (fun y => y != h) ∧ (t.strand k).w = (x.strand k).w ∧ (t.strand k).pc = (x.strand k).pc
        ∧ (∀ j, j ≠ k → t.strand j = x.strand j) ∧ RegsKept s.blk t [] ∧ DramKept s.blk t))
    ∧ (s.blk.issues k 0x5C w [iRA w] [] = true → onlyUses (uRD ||| uRA ||| uIMM) w = true →
      opAddr (s.blk.start.issued k [iRA w]) k w < 0x400000 →
      Tbl.get (fun _ => []) s.blk.ras.err (odKey 6 (opAddr (s.blk.start.issued k [iRA w]) k w / 8)) = [] →
      Runs (.iTld k) s (fun t =>
        let x := s.blk.start.issued k [iRA w]
        let i := opAddr x k w / 8
        let bad := match x.tblStoreNow i with | some y => y.oldBad | none => Tbl.get (fun _ => false) x.wft.tblPoison i
        let v := match x.tblStoreNow i with | some y => y.old | none => if bad then 0 else x.tblWord i
        t.strand k = (x.strand k).result (iRD w) v (x.clk.beat + 8) ∧ (∀ j, j ≠ k → t.strand j = x.strand j)
        ∧ t.rd RAS_UE_CNT.all = (if bad then min (s.blk.rd RAS_UE_CNT.all + 1) (2 ^ 32 - 1) else s.blk.rd RAS_UE_CNT.all)
        ∧ (∀ j, t.tblWord j = x.tblWord j) ∧ RegsKept s.blk t [RAS_UE_CNT.all.base] ∧ DramKept s.blk t))
    ∧ (s.blk.issues k 0x00 w [] [] = true → onlyUses 0 w = true →
      Runs (.iEnd k) s (fun t =>
        let x := s.blk.start.issued k []
        if (s.blk.strand k).tks = [] then
          (t.strand k).weave = none ∧ (t.strand k).freeAt = x.clk.beat + 1 ∧ (t.strand k).w = (x.strand k).w ∧ (t.strand k).dues = (x.strand k).dues
        else (t.strand k).weave = (s.blk.strand k).weave ∧ (t.strand k).ending = true ∧ (t.strand k).tks = (s.blk.strand k).tks))

/-- For the arithmetic, move and load instructions: when strand k could issue the word but its guard is false (and its fields are in use), the
command runs and only time to the ready beat, the pc and the next beat change; when the word has a field the instruction does not use, or SYSR a
selector above 5, the command runs and the strand faults with ILLEGAL whatever the guard. A local load or store above its range faults with
DMEM_RANGE, TLD and TST at or above 0x40_0000 with TBL_RANGE, JR above 8,191 and a fetch past 8,191 with PC_RANGE. A fault counts in
WFT_CNT_FAULT_n, sets FAULT, and where no fault stands recorded WFT_FAULT_n shows its code, strand and pc. (R245, R265, R274, R275, R284, R285,
R294, R295) -/
def Obligations.WeftGuardAndFaults : Prop :=
  (∀ o ∈ aluOps ++ moveOps, ∀ (s : State) (k : Nat), s.blk.canIssue k = true → (s.blk.strand k).pc < 8192 → iOp (s.blk.fetch k) = o.op →
    (onlyUses o.used (s.blk.fetch k) = true → (o.op = 0x0B → (iIMM (s.blk.fetch k)).toNat ≤ 5) → (s.blk.strand k).guard (s.blk.fetch k) = false →
      Gives (o.cmd k) s ((s.blk.start.toBeat (s.blk.strand k).ready).onStrand k
        (fun x => { x with pc := x.pc + 1, ready := max s.blk.clk.beat x.ready + 1 })))
    ∧ (onlyUses o.used (s.blk.fetch k) = false ∨ (o.op = 0x0B ∧ 5 < (iIMM (s.blk.fetch k)).toNat) →
      Gives (o.cmd k) s ((s.blk.start.toBeat (s.blk.strand k).ready).weftFault k 1 (s.blk.strand k).pc)))
  ∧ (∀ (s : State) (k : Nat), s.blk.canIssue k = true → 8192 ≤ (s.blk.strand k).pc →
      Gives (.iNop k) s ((s.blk.start.toBeat (s.blk.strand k).ready).weftFault k 4 8191))
  ∧ (∀ o ∈ storeOps, ∀ (s : State) (k : Nat) (w : BitVec 64), s.blk.issues k o.2.1 w [iRA w, iRD w] [] = true →
      onlyUses (uRD ||| uRA ||| uIMM) w = true → 0x10000 - o.2.2 < opAddr (s.blk.start.issued k [iRA w, iRD w]) k w →
      Gives (o.1 k) s ((s.blk.start.issued k [iRA w, iRD w]).weftFault k 2 (s.blk.strand k).pc))
  ∧ (∀ (s : State) (k : Nat) (w : BitVec 64), s.blk.issues k 0x5D w [iRA w, iRD w] [] = true → onlyUses (uRD ||| uRA ||| uIMM) w = true →
      0x400000 ≤ opAddr (s.blk.start.issued k [iRA w, iRD w]) k w →
      Gives (.iTst k) s ((s.blk.start.issued k [iRA w, iRD w]).weftFault k 3 (s.blk.strand k).pc))
  ∧ (∀ (s : State) (k : Nat) (w : BitVec 64), s.blk.issues k 0x04 w [iRA w] [] = true → onlyUses uRA w = true →
      8191 < ((s.blk.start.issued k [iRA w]).w k (iRA w)).toNat →
      Gives (.iJr k) s ((s.blk.start.issued k [iRA w]).weftFault k 4 (s.blk.strand k).pc))
  ∧ (∀ (b : Block) (k code pc : Nat), k < 128 → code < 32 → pc < 8192 →
      (b.weftFault k code pc).bit WFT_EVT.FAULT (k / 4) = true
      ∧ (b.weftFault k code pc).rd WFT_CNT_FAULT.all (k / 4) = min (b.rd WFT_CNT_FAULT.all (k / 4) + 1) (2 ^ 32 - 1)
      ∧ (b.bit WFT_FAULT.VALID (k / 4) = false →
        (b.weftFault k code pc).rd WFT_FAULT.CODE (k / 4) = code ∧ (b.weftFault k code pc).rd WFT_FAULT.STRAND (k / 4) = k % 4
        ∧ (b.weftFault k code pc).rd WFT_FAULT.PC (k / 4) = pc ∧ (b.weftFault k code pc).bit WFT_FAULT.VALID (k / 4) = true))

/-- A strand in a TWAIT continues in the first beat at or after its target, one in a TKWAIT when none of its tickets is outstanding, one in an
EVWAIT at once with the enabled events present (and 8 where the timeout has passed), in the next beat where a SIG of this beat brings its event, or
at its timeout with 8. A free strand takes the oldest queued strobe: the weave starts at ENTRY with w1 the slot start, w16 to w31 as they were and
still due what was due, and the registers w6 to w15 zero, and the strobe leaves the queue. A pending handover starts once the strand runs nothing,
with w1 HTIME ACT_SF:0. A weave not retired at its WDOG time faults with WDOG, whether its END has issued or not, a handover weave not retired in
512 beats with HOVR_LONG. COMPLETION: under hypotheses on the state and the operands alone, exec is said here to answer a next state with the own
effect of queuedWeaveStart, handoverStart, wdogExpiry, hovrLongExpiry, twaitComplete, evwaitReturn, tkwaitComplete. (R252, R253, R257, R261, R262,
R264, R265, R268, R287, R548) -/
def Obligations.WeftWaitsEnd : Prop :=
  (∀ (s : State) (k : Nat) (u : BitVec 64), (s.blk.strand k).wait = .twait u →
    Gives (.twaitComplete k) s (let y := (s.blk.start.toBeat (s.blk.strand k).ready).toTime u
      y.onStrand k (fun x => { x with wait := .none, ready := y.clk.beat })))
  ∧ (∀ (s : State) (k m : Nat), (s.blk.strand k).wait = .tkwait m → (∀ j, j < 8 → m.testBit j = true → Tbl.find (s.blk.strand k).tks j = none) →
    Gives (.tkwaitComplete k) s ((s.blk.start.toBeat (max (s.blk.strand k).ready s.blk.clk.beat)).onStrand k
      (fun x => { x with wait := .none, ready := max (s.blk.strand k).ready s.blk.clk.beat })))
  ∧ (∀ (s : State) (k rd mask : Nat) (u : BitVec 64), (s.blk.strand k).wait = .evwait rd mask u →
    let y := s.blk.start.toBeat (s.blk.strand k).ready
    let y' := y.toBeat (y.clk.beat + 1)
    let back (x : Block) := Runs (.evwaitReturn k) s (fun t =>
      (t.strand k).wait = .none ∧ (rd ≠ 0 → (t.strand k).w rd = BitVec.ofNat 64 ((x.events k &&& mask)
        + (if u ≠ 0xFFFFFFFFFFFFFFFF ∧ u.toNat ≤ x.clk.htime.toNat then 8 else 0)))
      ∧ (mask.testBit 2 = true → x.events k &&& 4 ≠ 0 → (t.bells (k / 4)).getLsbD (k % 4) = false) ∧ t.clk = x.clk ∧ RegsKept s.blk t [])
    (y.events k &&& mask ≠ 0 → back y)
    ∧ (y.events k &&& mask = 0 → (u = 0xFFFFFFFFFFFFFFFF ∨ y.clk.htime.toNat < u.toNat) → y'.events k &&& mask ≠ 0 → back y')
    ∧ (y.events k &&& mask = 0 → y'.events k &&& mask = 0 → u = 0xFFFFFFFFFFFFFFFF → Gives (.evwaitReturn k) s y)
    ∧ (y.events k &&& mask = 0 → y'.events k &&& mask = 0 → u ≠ 0xFFFFFFFFFFFFFFFF → (y.toTime u).events k &&& mask = 0 →
      Runs (.evwaitReturn k) s (fun t => (t.strand k).wait = .none ∧ (rd ≠ 0 → (t.strand k).w rd = 8) ∧ t.clk = (y.toTime u).clk)))
  ∧ (∀ (s : State) (k : Nat) (q : Queued) (rest : List Queued),
    let y := s.blk.start.toBeat (s.blk.strand k).freeAt
    (s.blk.engine (k / 4)).queue = q :: rest → y.strandFree k = true → s.blk.standby = false → k < 128 →
    Runs (.queuedWeaveStart k) s (fun t =>
      (t.strand k).weave.isSome = true ∧ (t.strand k).pc = q.strobe.entry ∧ (t.strand k).w 1 = q.strobe.slotStart
      ∧ (∀ r, 6 ≤ r → r < 16 → (t.strand k).w r = 0) ∧ (∀ r, 16 ≤ r → (t.strand k).w r = (s.blk.strand k).w r) ∧ (t.strand k).preds = 1
      ∧ (t.strand k).dues = (s.blk.strand k).dues.filter (fun d => decide (16 ≤ d.reg))
      ∧ (t.engine (k / 4)).queue = rest ∧ (∀ j, j ≠ k → t.strand j = s.blk.strand j)
      ∧ t.rd WFT_CNT_QUEUED.all (k / 4) = min (s.blk.rd WFT_CNT_QUEUED.all (k / 4) + 1) (2 ^ 32 - 1)))
  ∧ (∀ (s : State) (k : Nat) (act : BitVec 64), (s.blk.strand k).hovr = some act → (s.blk.strand k).weave = none → s.blk.standby = false → k < 128 →
    Runs (.handoverStart k) s (fun t =>
      (∃ wv, (t.strand k).weave = some wv ∧ wv.handover = true) ∧ (t.strand k).pc = 0 ∧ (t.strand k).w 1 = act ∧ (t.strand k).w 2 = 0x80000000
      ∧ (t.strand k).w 3 = 0 ∧ (t.strand k).hovr = none ∧ (∀ r, 16 ≤ r → (t.strand k).w r = (s.blk.strand k).w r)))
  ∧ (∀ (s : State) (k : Nat) (wv : Weave), (s.blk.strand k).weave = some wv → wv.timed = false →
    let fault (y : Block) (code : Nat) : Block := (y.weftFault k code (s.blk.strand k).pc).onStrand k
      (fun x => { x with weave := x.weave.map (fun v => { v with timed := true }) })
    (wv.handover = false → s.blk.rd WFT_WDOG.WDOG (k / 4) ≠ 0 → Gives (.wdogExpiry k) s
      (fault (s.blk.start.toTime (wv.slotEnd + BitVec.ofNat 64 (s.blk.rd WFT_WDOG.WDOG (k / 4) * 2 ^ 17))) 5))
    ∧ (wv.handover = false → s.blk.rd WFT_WDOG.WDOG (k / 4) = 0 → NoEffect (.wdogExpiry k) s)
    ∧ (wv.handover = true → Gives (.hovrLongExpiry k) s (fault (s.blk.start.toBeat (wv.first + 512)) 6)))

/-- When n beats pass, HTIME and the part of a unit not yet counted grow together by exactly n times the advance of a beat at the rate in force,
modulo 2^64 units, and the beat counter by n. With the rate within 10 ppm and a time ahead of HTIME, waiting for that time brings HTIME to it or
past it, in the first beat of which that is so. (R45, R49, R52, R244) -/
def Obligations.TimeAdvancesAtTheRate : Prop :=
  (∀ (c : Clk) (n : Nat), ((c.add n).htime.toNat * htDen + (c.add n).frac) % (2 ^ 64 * htDen)
      = (c.htime.toNat * htDen + c.frac + n * htNum c.rate) % (2 ^ 64 * htDen)
    ∧ (c.add n).beat = c.beat + n ∧ (c.add n).rate = c.rate ∧ (c.add n).cell = c.cell)
  ∧ (∀ (c : Clk) (u : BitVec 64), -10000000 ≤ c.rate → c.rate ≤ 10000000 → c.frac < htDen → c.htime.toNat < u.toNat → u.toNat + 2 ^ 8 < 2 ^ 64 →
      u.toNat ≤ (c.add (c.beatsTo u)).htime.toNat ∧ (c.add (c.beatsTo u - 1)).htime.toNat < u.toNat)

/-- A doorbell write sets the named bells and nothing else; a write of WFT_CTL_n stores its bits and releases the strands named; a read of
WFT_IDATA_LO_n answers the low half of the addressed word and keeps the word, of WFT_IDATA_HI_n its high half; a store through WFT_IDATA_HI_n
reaches the addressed word of the pending bank with the low half held, while a store to the active bank or a protected one changes no instruction
and sets WR_IGN; an access through WFT_DDATA_n reads or writes the addressed word of data memory; the table window likewise reads a word, zero where
it is poisoned, which is counted (of a word with no error in its array), and stores one. COMPLETION: under hypotheses on the state and the operands
alone, exec is said here to answer a next state with the own effect of wftDoorbell, strandEnableWrite, instrWordLoad, instrWordStore,
dmemHostAccess, tableWordLoad, tableWordStore. (R13, R248, R249, R250, R261, R265, R266, R270, R271) -/
def Obligations.WeftHostAccesses : Prop :=
  (∀ (s : State) (n : Nat) (v : Word), n < 32 →
    Gives (.wftDoorbell n v) s (s.blk.start.onEngine n (fun e => { e with doorbells := e.doorbells ||| BitVec.ofNat 4 v.toNat }))
    ∧ Runs (.strandEnableWrite n v) s (fun t => t.reg (WFT_CTL.all.off n) = v &&& 0x10F ∧ RegsKept s.blk t [WFT_CTL.all.off n]
      ∧ ∀ i, i < 4 → (t.strand (4 * n + i)).stopped = ((s.blk.strand (4 * n + i)).stopped && !v.toNat.testBit i))
    ∧ Gives (.instrWordLoad n false) s
      (let x := s.blk.iword n (s.blk.iaddrBank n) (s.blk.rd WFT_IADDR.INDEX n)
       { s.blk.start with wft := { s.blk.wft with ird := Tbl.put (fun _ => 0) s.blk.wft.ird n x }, resp := .data (x.truncate 32) })
    ∧ Runs (.instrWordLoad n true) s (fun t => t.resp = .data ((Tbl.get (fun _ => 0) s.blk.wft.ird n >>> 32).truncate 32)
      ∧ t.rd WFT_IADDR.INDEX n = (if s.blk.bit WFT_IADDR.AUTO_INC n then (s.blk.rd WFT_IADDR.INDEX n + 1) % 8192 else s.blk.rd WFT_IADDR.INDEX n)
      ∧ RegsKept s.blk t [WFT_IADDR.all.off n])
    ∧ (s.blk.bit WFT_IADDR.BANK_SEL n = false → s.blk.bankLocked n = false → Runs (.instrWordStore n v) s (fun t =>
      t.iword n (1 - (s.blk.engine n).bank) (s.blk.rd WFT_IADDR.INDEX n) = join32 v (Tbl.get (fun _ => 0) s.blk.wft.iwr n)
      ∧ (∀ m c i, ibKey m c i ≠ ibKey n (1 - (s.blk.engine n).bank) (s.blk.rd WFT_IADDR.INDEX n) → t.iword m c i = s.blk.iword m c i)
      ∧ RegsKept s.blk t [WFT_IADDR.all.off n] ∧ DramKept s.blk t))
    ∧ (s.blk.bit WFT_IADDR.BANK_SEL n = true ∨ s.blk.bankLocked n = true → Runs (.instrWordStore n v) s (fun t =>
      t.bit WFT_EVT.WR_IGN n = true ∧ (∀ m c i, t.iword m c i = s.blk.iword m c i) ∧ RegsKept s.blk t [WFT_IADDR.all.off n, WFT_EVT.all.off n]))
    ∧ Runs (.dmemHostAccess n false v) s (fun t =>
      t.resp = .data (BitVec.ofNat 32 (leNat (s.blk.dmemBytes n (4 * s.blk.rd WFT_DADDR.ADDR n) 4)))
      ∧ (∀ m c, t.dmemByte m c = s.blk.dmemByte m c) ∧ RegsKept s.blk t [WFT_DADDR.all.off n])
    ∧ Runs (.dmemHostAccess n true v) s (fun t =>
      (∀ i, i < 4 → t.dmemByte n (4 * s.blk.rd WFT_DADDR.ADDR n + i) = BitVec.ofNat 8 (v.toNat / 256 ^ i)) ∧ RegsKept s.blk t [WFT_DADDR.all.off n]))
  ∧ (∀ (s : State) (v : Word),
    (Tbl.get (fun _ => []) s.blk.ras.err (odKey 6 (s.blk.rd WFT_TBL_ADDR.INDEX)) = [] → Runs (.tableWordLoad false) s (fun t =>
      let i := s.blk.rd WFT_TBL_ADDR.INDEX
      let bad := Tbl.get (fun _ => false) s.blk.wft.tblPoison i
      let x := if bad then 0 else s.blk.tblWord i
      t.wft.trd = x ∧ t.resp = .data (x.truncate 32)
      ∧ t.rd RAS_UE_CNT.all = (if bad then min (s.blk.rd RAS_UE_CNT.all + 1) (2 ^ 32 - 1) else s.blk.rd RAS_UE_CNT.all)
      ∧ (∀ j, t.tblWord j = s.blk.tblWord j) ∧ RegsKept s.blk t [RAS_UE_CNT.all.base]))
    ∧ Runs (.tableWordLoad true) s (fun t => t.resp = .data ((s.blk.wft.trd >>> 32).truncate 32) ∧ RegsKept s.blk t [WFT_TBL_ADDR.all.base])
    ∧ Runs (.tableWordStore v) s (fun t => t.tblWord (s.blk.rd WFT_TBL_ADDR.INDEX) =
        (match s.blk.tblStoreNow (s.blk.rd WFT_TBL_ADDR.INDEX) with
          | some y => if 128 < y.strand then s.blk.tblWord (s.blk.rd WFT_TBL_ADDR.INDEX) else join32 v s.blk.wft.twr
          | none => join32 v s.blk.wft.twr)
      ∧ (∀ j, j ≠ s.blk.rd WFT_TBL_ADDR.INDEX → t.tblWord j = s.blk.tblWord j) ∧ RegsKept s.blk t [WFT_TBL_ADDR.all.base]))

namespace Sys2Proof.Machine

/-- An instruction of an asynchronous unit: the command, its opcode and unit, which words are legal, what it reads, the key holder it names, the
data-memory area it checks, and the latencies its delivery may have. -/
structure AsyOp where
  cmd : Nat → Instr
  op : Nat
  unit : TkUnit
  legal : BitVec 64 → Bool
  reads : BitVec 64 → List Nat
  holders : BitVec 64 → List Nat
  area : Block → Nat → BitVec 64 → Nat
  lats : Nat → Bool

/-- The asynchronous instructions of R284 and R296 to R309 with the latencies of R247. -/
def asyOps : List AsyOp :=
  [⟨.iCtxld, 0x80, .ctxld, onlyUses (uAsy 1 ||| uRA ||| uDADDR), fun w => [iRA w], fun _ => [], fun _ _ _ => 128, fun n => n == 24 || n == 640⟩,
   ⟨.iCtxst, 0x81, .ctxst, onlyUses (uAsy 1 ||| uRA ||| uDADDR), fun w => [iRA w], fun _ => [], fun _ _ _ => 128, fun n => n == 4⟩,
   ⟨.iKeyreq, 0x84, .keyreq,
      fun w => if (iAUX w).testBit 15 then onlyUses (uAsy 0x803F) w else onlyUses (uAsy 0 ||| uRA ||| uDADDR) w,
      fun w => if (iAUX w).testBit 15 then [] else [iRA w], fun _ => [], fun _ _ w => if (iAUX w).testBit 15 then 0 else 56,
      fun n => n == 12 || n == 96⟩,
   ⟨.iSeal, 0x85, .seal,
      fun w => onlyUses (uAsy 0x8037 ||| uRB ||| uDADDR) w && (!(iAUX w).testBit 15 || iAUX w % 8 == 0),
      fun w => [iRB w], fun w => if (iAUX w).testBit 15 then [] else [iAUX w % 8],
      fun b k w => hLen ((b.w k (iRB w)).toNat % 65536) - (if (iAUX w).testBit 15 then 4 else 12), fun n => decide (40 ≤ n)⟩,
   ⟨.iOpen, 0x86, .opened,
      fun w => onlyUses (uAsy 0x8037 ||| uRA ||| uRB ||| uDADDR) w && (!(iAUX w).testBit 15 || iAUX w % 8 == 0),
      fun w => [iRA w, iRB w], fun w => if (iAUX w).testBit 15 then [] else [iAUX w % 8],
      fun b k w => hLen ((b.w k (iRB w)).toNat % 2 ^ 24) - (if (iAUX w).testBit 15 then 0 else 12), fun n => decide (40 ≤ n)⟩,
   ⟨.iQpop, 0x8A, .qpop, fun w => onlyUses (uAsy 0x3FF ||| uRA ||| uDADDR ||| (if (iAUX w).testBit 8 then uRB else 0)) w,
      fun w => if (iAUX w).testBit 8 then [iRA w, iRB w] else [iRA w], fun _ => [], fun b k w => (b.w k (iRA w)).toNat % 2048, fun n => n == 6⟩,
   ⟨.iSeen, 0x8C, .seen, onlyUses (uAsy 1 ||| uRA ||| uRB), fun w => [iRA w, iRB w], fun _ => [], fun _ _ _ => 0, fun n => n == 10⟩,
   ⟨.iRxarm, 0x90, .rxarm,
      fun w => onlyUses (uAsy 0xFD00 ||| uRA ||| uRB ||| (if (iAUX w).testBit 15 then 0 else uDADDR)) w
        && (decide (2 ≤ iAUX w / 2 ^ 13 % 4) || iAUX w / 2 ^ 10 % 8 == 0),
      fun w => [iRA w, iRB w], fun _ => [], fun _ _ w => if (iAUX w).testBit 15 then 0 else 8, fun n => n == 3⟩,
   ⟨.iTxarm, 0x91, .txarm,
      fun w => onlyUses (uAsy 0xF0FF ||| uRA ||| uRB ||| (if (iAUX w).testBit 15 then 0 else uDADDR)) w
        && (!(iAUX w).testBit 14 || iAUX w / 2 ^ 12 % 4 == 0),
      fun w => [iRA w, iRB w], fun _ => [], fun _ _ w => if (iAUX w).testBit 15 then 0 else 8, fun n => n == 3⟩]

end Sys2Proof.Machine

/-- For CTXLD, CTXST, KEYREQ, SEAL, OPEN, QPOP, SEEN, RXARM and TXARM: when strand k issues the word, its fields are legal, the key holder it names
is settled and its data-memory area lies within the memory, the command runs. Then ticket TK of the strand awaits a delivery of that unit to the
status register RD, due one of the unit's latencies after the issue beat; in the non-blocking form the strand goes on, in the blocking form it waits
for the ticket; and DRAM is as before but for a CTXLD or CTXST that makes room in the Grove. With an area beyond 0xFFFF nothing starts and the
strand faults with DMEM_RANGE. COMPLETION: under hypotheses on the state and the operands alone, exec is said here to answer a next state with the
own effect of iCtxld, iCtxst, iKeyreq, iSeal, iOpen, iQpop, iSeen, iRxarm, iTxarm. (R247, R255, R257, R280, R296, R297, R298, R300, R301, R304,
R305, R309) -/
def Obligations.WeftAsynchronousIssue : Prop :=
  ∀ o ∈ asyOps, ∀ (s : State) (k : Nat) (w : BitVec 64), s.blk.issues k o.op w (o.reads w) [iTK w] = true → o.legal w = true →
    (o.holders w).any (s.blk.strand k).khBusy = false →
    (iDADDR w + o.area (s.blk.start.issued k (o.reads w)) k w ≤ 0x10000 → Runs (o.cmd k) s (fun t =>
      (∃ x, Tbl.find (t.strand k).tks (iTK w) = some x ∧ x.unit = o.unit ∧ x.rs = iRD w ∧ t.clk.beat ≤ x.due ∧ o.lats (x.due - t.clk.beat) = true)
      ∧ (t.strand k).wait = (if iNB w then (s.blk.strand k).wait else .ticket (iTK w))
      ∧ (o.unit ≠ .ctxld → o.unit ≠ .ctxst → DramKept s.blk t)))
    ∧ (0x10000 < iDADDR w + o.area (s.blk.start.issued k (o.reads w)) k w →
      Gives (o.cmd k) s ((s.blk.start.issued k (o.reads w)).weftFault k 2 (s.blk.strand k).pc))

/-- When ticket TK of strand k awaits a delivery of the command's unit, the delivery runs, in the ticket's due beat: its status register holds the
status (when no synchronous result of that register is due up to then and no later-issued instruction has delivered to it in that beat; w0 stays 0),
the bytes of its area hold its data, the ticket is free, and a strand that waited for it goes on in that beat. The last delivery of a weave that has
ended retires the weave. For a ticket that is free or of another unit the delivery does nothing. COMPLETION: under hypotheses on the state and the
operands alone, exec is said here to answer a next state with the own effect of ctxldDelivery, ctxstDelivery, keyreqDelivery, sealDelivery,
openDelivery, qpopDelivery, seenDelivery, rxarmDelivery, txarmDelivery. (R255, R257, R258, R264, R276, R278, R279, R282) -/
def Obligations.WeftDeliveries : Prop :=
  ∀ o ∈ ([(.ctxldDelivery, .ctxld), (.ctxstDelivery, .ctxst), (.keyreqDelivery, .keyreq), (.sealDelivery, .seal), (.openDelivery, .opened),
       (.qpopDelivery, .qpop), (.seenDelivery, .seen), (.rxarmDelivery, .rxarm), (.txarmDelivery, .txarm)] : List ((Nat → Nat → Instr) × TkUnit)), ∀ (s : State) (k tk : Nat),
    (∀ x, Tbl.find (s.blk.strand k).tks tk = some x → x.unit = o.2 →
      ((s.blk.strand k).ending = false ∨ Tbl.erase (s.blk.strand k).tks tk ≠ [] → Runs (o.1 k tk) s (fun t =>
        t.clk.beat = max s.blk.clk.beat x.due ∧ (t.strand k).tks = Tbl.erase (s.blk.strand k).tks tk
        ∧ (t.strand k).wait = (if (s.blk.strand k).wait = .ticket tk then .none else (s.blk.strand k).wait)
        ∧ ((s.blk.strand k).wait = .ticket tk → (t.strand k).ready = x.due)
        ∧ (x.rs ≠ 0 → (∀ d ∈ (s.blk.strand k).dues, d.reg = x.rs → x.due < d.beat) →
            (∀ d q, Tbl.find (s.blk.strand k).lastDel x.rs = some (d, q) → ¬ (d = x.due ∧ x.seq < q)) → (t.strand k).w x.rs = x.status)
        ∧ (t.strand k).w 0 = 0
        ∧ (∀ i, i < x.data.length → t.dmemByte (k / 4) (x.area + i) = x.data.getD i 0)))
      ∧ ((s.blk.strand k).ending = true → Tbl.erase (s.blk.strand k).tks tk = [] → Runs (o.1 k tk) s (fun t =>
        (t.strand k).weave = none ∧ (t.strand k).tks = [] ∧ (t.strand k).freeAt = x.due + 1)))
    ∧ ((∀ x, Tbl.find (s.blk.strand k).tks tk = some x → x.unit ≠ o.2) → NoEffect (o.1 k tk) s)

/-- When strand k issues a QPUSH or a QTRY whose area lies in the data memory, the item is the bytes of the area. With a queue above 127 or not
enabled the status is BAD_QUEUE, with no bytes LEN; with space for it the item is placed last in the queue and the status is 0; each is the result
for RD one beat later. With no space QTRY gives status 1 and counts, and QPUSH stalls the strand with the item. A stalled QPUSH that finds space, in
the beat after space was freed at the earliest, places its item: the strand goes on in the beat after, with status 0; on a queue disabled meanwhile
it completes so with BAD_QUEUE. COMPLETION: under hypotheses on the state and the operands alone, exec is said here to answer a next state with the
own effect of iQpush, qpushStallComplete, iQtry. (R256, R260, R303, R376, R379, R380, R383, R384, R391) -/
def Obligations.WeftQueuePushes : Prop :=
  (∀ (s : State) (k : Nat) (w : BitVec 64),
    let x := s.blk.start.issued k [iRA w]
    let n := (x.w k (iRA w)).toNat % 2048
    let q := iAUX w % 256
    onlyUses (uRD ||| uRA ||| uDADDR ||| 0xFF) w = true → iDADDR w + n ≤ 0x10000 →
    (s.blk.issues k 0x88 w [iRA w] [] = true →
      (128 ≤ q ∨ x.qEnabled q = false → Gives (.iQpush k) s (x.result k (iRD w) (failSt 2 0) 1))
      ∧ (q < 128 → x.qEnabled q = true → n = 0 → Gives (.iQpush k) s (x.result k (iRD w) (failSt 3 0) 1))
      ∧ (q < 128 → 0 < n → x.qSpace q n false = true → Gives (.iQpush k) s
          ((((x.qPlace q (x.dmemBytes (k / 4) (iDADDR w) n)).inc PLQ_CNT_PUSH.all).took).result k (iRD w) 0 1))
      ∧ (q < 128 → x.qEnabled q = true → 0 < n → x.qSpace q n false = false → Gives (.iQpush k) s
          (x.took.onStrand k (fun y => { y with wait := .push q (x.dmemBytes (k / 4) (iDADDR w) n) (iRD w) x.clk.beat }))))
    ∧ (s.blk.issues k 0x89 w [iRA w] [] = true →
      (128 ≤ q ∨ x.qEnabled q = false → Gives (.iQtry k) s (x.result k (iRD w) (failSt 2 0) 1))
      ∧ (q < 128 → 0 < n → x.qSpace q n false = true → Gives (.iQtry k) s
          ((((x.qPlace q (x.dmemBytes (k / 4) (iDADDR w) n)).inc PLQ_CNT_PUSH.all).took).result k (iRD w) 0 1))
      ∧ (q < 128 → x.qEnabled q = true → 0 < n → x.qSpace q n false = false → Gives (.iQtry k) s
          ((x.took.inc PLQ_CNT_FULL.all).result k (iRD w) (failSt 1 0) 1))))
  ∧ (∀ (s : State) (k q rs since : Nat) (d : List Byte), (s.blk.strand k).wait = .push q d rs since → q < 128 → d ≠ [] →
    let x := s.blk.start.toBeat (max since (s.blk.queue q).freedBeat + 1)
    (x.qSpace q d.length false = true → Runs (.qpushStallComplete k) s (fun t =>
      (t.strand k).wait = .none ∧ (t.strand k).ready = x.clk.beat + 1 ∧ t.clk.beat = x.clk.beat
      ∧ (x.checkWrite q).queue q = x.queue q → (t.queue q).items = (x.queue q).items ++ [{ bytes := d, poison := [] }]))
    ∧ (x.qEnabled q = false → Runs (.qpushStallComplete k) s (fun t =>
      (t.strand k).wait = .none ∧ (t.strand k).ready = x.clk.beat + 1 ∧ (t.strand k).dues = ((x.strand k).result rs (failSt 2 0) (x.clk.beat + 1)).dues
      ∧ t.clk.beat = x.clk.beat ∧ ∀ p, t.queue p = x.queue p))
    ∧ (x.qEnabled q = true → x.qSpace q d.length false = false → Gives (.qpushStallComplete k) s x.took))
  ∧ (∀ (b : Block) (q : Nat) (d : List Byte), q < 256 → (b.queue q).wpA = ~~~(b.queue q).wpB →
      ((b.qPlace q d).queue q).items = (b.queue q).items ++ [{ bytes := d, poison := [] }]
      ∧ (∀ p, p ≠ q → (b.qPlace q d).queue p = b.queue p)
      ∧ (b.qPlace q d).rd PLQ_ITEMS.ITEMS q = ((b.queue q).items.length + 1) % 2 ^ PLQ_ITEMS.ITEMS.width)

/-- A write that sets EN of a queue not enabled, with SIZE 2 to 8,192, a region within the RAM and apart from those of all enabled queues, enables
the queue empty with BASE and SIZE as written and clears ERR; with any of these violated EN stays 0, ERR and CFG set. A write that clears EN of an
enabled queue discards its contents, and a QPUSH stalled on it goes on in the next beat. Other queues keep theirs. A write of PLQ_WM_n stores it and
decides the watermark state: off with HIGH 0, on at HIGH and above, off at LOW and below, else as it was. FC_IN_p takes its level, which governs
from the first beat that begins four cycles or more after the edge, and leaves every register and DRAM. COMPLETION: under hypotheses on the state
and the operands alone, exec is said here to answer a next state with the own effect of queueEnable, queueDisable, watermarkWrite, fcInChange.
(R376, R377, R386, R387, R388, R402) -/
def Obligations.PlaitQueueConfiguration : Prop :=
  (∀ (s : State) (n : Nat) (v : Word), n < 256 →
    let size := fget v PLQ_CFG.SIZE
    let base := fget v PLQ_CFG.BASE
    let good := 2 ≤ size ∧ size ≤ 8192 ∧ base + size ≤ 8192 ∧ ∀ m, m < 256 → m ≠ n → s.blk.bit PLQ_CFG.EN m = true →
      s.blk.rd PLQ_CFG.BASE m + s.blk.rd PLQ_CFG.SIZE m ≤ base ∨ base + size ≤ s.blk.rd PLQ_CFG.BASE m
    (s.blk.bit PLQ_CFG.EN n = false →
      (good → Runs (.queueEnable n v) s (fun t => t.bit PLQ_CFG.EN n = true ∧ t.bit PLQ_CFG.ERR n = false ∧ t.rd PLQ_CFG.SIZE n = size
        ∧ t.rd PLQ_CFG.BASE n = base ∧ t.queue n = Queue.fresh ∧ (∀ m, m ≠ n → t.queue m = s.blk.queue m) ∧ DramKept s.blk t))
      ∧ (¬ good → Runs (.queueEnable n v) s (fun t => t.bit PLQ_CFG.EN n = false ∧ t.bit PLQ_CFG.ERR n = true ∧ t.bit PLQ_EVT.CFG = true
        ∧ (∀ m, t.queue m = s.blk.queue m) ∧ RegsKept s.blk t [PLQ_CFG.all.off n, PLQ_EVT.all.base])))
    ∧ (s.blk.bit PLQ_CFG.EN n = true → Runs (.queueDisable n v) s (fun t => t.bit PLQ_CFG.EN n = false ∧ t.queue n = { Queue.fresh with freedBeat := s.blk.clk.beat }
        ∧ (∀ m, m ≠ n → t.queue m = s.blk.queue m) ∧ DramKept s.blk t)))
  ∧ (∀ (s : State) (n : Nat) (v : Word), n < 256 →
    let f := (s.blk.queue n).fill
    let hi := 16 * fget v PLQ_WM.HIGH
    let lo := 16 * fget v PLQ_WM.LOW
    Runs (.watermarkWrite n v) s (fun t => t.reg (PLQ_WM.all.off n) = v &&& 0x1FFF1FFF
      ∧ t.qWm n = (if hi = 0 then false else if hi ≤ f then true else if f ≤ lo then false else s.blk.qWm n)
      ∧ (∀ m, m < 256 → m ≠ n → t.qWm m = s.blk.qWm m) ∧ ∀ m, t.queue m = s.blk.queue m))
  ∧ (∀ (s : State) (p cyc : Nat) (v : Bool), p < 8 → cyc < 4 → Runs (.fcInChange p ⟨v, cyc⟩) s (fun t => t.pins.fcIn.getLsbD p = v
      ∧ (∀ n, s.blk.clk.beat + (if cyc = 0 then 1 else 2) ≤ n → (t.toBeat n).fcLevel p = v)
      ∧ (∀ i, i < 8 → i ≠ p → t.pins.fcIn.getLsbD i = s.blk.pins.fcIn.getLsbD i) ∧ RegsKept s.blk t [] ∧ DramKept s.blk t))

/-- EN set fills the bucket of every enabled context; EN cleared discards every packet held and empties the wheels. A context operation while BUSY
is ignored and sets WR_IGN. Otherwise READ shows RATE, DEPTH and OVH of the context in its registers; WRITE stages the configuration of the
registers and schedules the context for the next refill cell, or with DQ below 128, a reserved SF or a reserved bit completes BAD_CFG and stages
none; FLUSH discards the context's packets; OP 3 completes BAD_OP; all set BUSY, and completion clears it and shows the status. A packet is admitted
and counted when the shaper and its context (not 0) are enabled and the context's bound and the pool leave room for it; with the shaper disabled, or
a payload beyond 2,031 bytes, it is dropped and counted. COMPLETION: under hypotheses on the state and the operands alone, exec is said here to
answer a next state with the own effect of shpAdmission, shpEnable, shpDisable, shpCtxRead, shpCtxWrite, shpCtxFlush, shpCtxBadOp, shpCtxOpDone.
(R393, R395, R398, R399, R400, R401, R403, R404) -/
def Obligations.ShaperCommands : Prop :=
  (∀ s : State, s.blk.bit SHP_CTL.EN = false → Runs .shpEnable s (fun t => t.bit SHP_CTL.EN = true ∧ RegsKept s.blk t [SHP_CTL.all.base]
    ∧ ∀ x, (t.ctx x).cfg = (s.blk.ctx x).cfg ∧ (t.ctx x).held = (s.blk.ctx x).held
      ∧ (t.ctx x).tokens = (if (s.blk.ctx x).cfg.en then (((s.blk.ctx x).cfg.depth * 65536 : Nat) : Int) else (s.blk.ctx x).tokens)))
  ∧ (∀ s : State, s.blk.bit SHP_CTL.EN = true → Runs .shpDisable s (fun t => t.bit SHP_CTL.EN = false
    ∧ ∀ x, (t.ctx x).held = [] ∧ (t.ctx x).sched = none ∧ (t.ctx x).cfg = (s.blk.ctx x).cfg))
  ∧ (∀ s : State, s.blk.bit SHP_CTX_ST.BUSY = true →
    Gives .shpCtxRead s (s.blk.start.set SHP_EVT.WR_IGN) ∧ Gives .shpCtxWrite s (s.blk.start.set SHP_EVT.WR_IGN)
    ∧ Gives .shpCtxFlush s (s.blk.start.set SHP_EVT.WR_IGN) ∧ Gives .shpCtxBadOp s (s.blk.start.set SHP_EVT.WR_IGN))
  ∧ (∀ s : State, s.blk.bit SHP_CTX_ST.BUSY = false →
    let x := s.blk.rd SHP_CTX_IDX.CTX
    let g : ShpCfg := { en := s.blk.bit SHP_CTX_CFG_2.EN, rate := (s.blk.reg SHP_CTX_CFG_0.all.base).toNat, depth := s.blk.rd SHP_CTX_CFG_1.DEPTH,
                        ovh := s.blk.rd SHP_CTX_CFG_1.OVH, air := s.blk.rd SHP_CTX_CFG_2.AIR, ackc := s.blk.bit SHP_CTX_CFG_2.ACKC,
                        dq := s.blk.rd SHP_CTX_CFG_2.DQ, qmax := s.blk.rd SHP_CTX_CFG_3.QMAX }
    let bad := g.dq < 128 ∨ g.air % 8 = 7 ∨ s.blk.shp.resv2 = true ∨ s.blk.shp.resv3 = true
    Runs .shpCtxRead s (fun t => t.bit SHP_CTX_ST.BUSY = true ∧ t.shp.op = some 0 ∧ t.shp.ctxs = s.blk.shp.ctxs
      ∧ t.reg SHP_CTX_CFG_0.all.base = BitVec.ofNat 32 (s.blk.ctx x).cfg.rate
      ∧ t.reg SHP_CTX_CFG_1.all.base = BitVec.ofNat 32 ((s.blk.ctx x).cfg.ovh * 2 ^ 24 + (s.blk.ctx x).cfg.depth)
      ∧ t.reg SHP_CTX_CFG_3.all.base = BitVec.ofNat 32 (s.blk.ctx x).cfg.qmax)
    ∧ (bad → Runs .shpCtxWrite s (fun t => t.bit SHP_CTX_ST.BUSY = true ∧ t.shp.op = some 1 ∧ t.shp.ctxs = s.blk.shp.ctxs))
    ∧ (¬ bad → Runs .shpCtxWrite s (fun t => t.bit SHP_CTX_ST.BUSY = true ∧ t.shp.op = some 0 ∧ (t.ctx x).staged = some g
        ∧ (t.ctx x).cfg = (s.blk.ctx x).cfg ∧ (t.ctx x).sched.isSome = true ∧ ∀ y, y ≠ x → t.ctx y = s.blk.ctx y))
    ∧ Runs .shpCtxFlush s (fun t => t.bit SHP_CTX_ST.BUSY = true ∧ t.shp.op = some 0 ∧ (t.ctx x).held = [] ∧ (t.ctx x).sched = none
        ∧ ∀ y, y ≠ x → t.ctx y = s.blk.ctx y)
    ∧ Runs .shpCtxBadOp s (fun t => t.bit SHP_CTX_ST.BUSY = true ∧ t.shp.op = some 2 ∧ t.shp.ctxs = s.blk.shp.ctxs))
  ∧ (∀ (s : State) (n : Nat), s.blk.shp.op = some n → Runs .shpCtxOpDone s (fun t => t.bit SHP_CTX_ST.BUSY = false
      ∧ t.rd SHP_CTX_ST.STATUS = n % 2 ^ SHP_CTX_ST.STATUS.width ∧ t.shp.op = none ∧ RegsKept s.blk t [SHP_CTX_ST.all.base]))
  ∧ (∀ (s : State) (dst pkind x : Nat) (payload : List Byte), s.blk.bit SHP_CTL.EN = true → 0 < x → x < 65536 → (s.blk.ctx x).cfg.en = true →
      (s.blk.ctx x).staged = none → (s.blk.ctx x).cfg.qmax = 0 ∨ (s.blk.ctx x).held.length ≠ (s.blk.ctx x).cfg.qmax →
      s.blk.poolUsed.length < s.blk.rd SHP_POOL_COUNT.COUNT → payload.length ≤ 2031 → Runs (.shpAdmission dst pkind x payload) s (fun t =>
        t.rd SHP_CNT_ADMIT.all = min (s.blk.rd SHP_CNT_ADMIT.all + 1) (2 ^ 32 - 1)))
  ∧ (∀ (s : State) (dst pkind x : Nat) (payload : List Byte), s.blk.bit SHP_CTL.EN = true → 0 < x → x < 65536 → (s.blk.ctx x).cfg.en = true →
      (s.blk.ctx x).staged = none → (s.blk.ctx x).cfg.qmax = 0 ∨ (s.blk.ctx x).held.length ≠ (s.blk.ctx x).cfg.qmax →
      s.blk.poolUsed.length < s.blk.rd SHP_POOL_COUNT.COUNT → 2031 < payload.length → Runs (.shpAdmission dst pkind x payload) s (fun t =>
        t.rd SHP_CNT_DROP_CFG.all = min (s.blk.rd SHP_CNT_DROP_CFG.all + 1) (2 ^ 32 - 1) ∧ t.rd SHP_CNT_ADMIT.all = s.blk.rd SHP_CNT_ADMIT.all
        ∧ t.bit SHP_EVT.DROP = true))
  ∧ (∀ (s : State) (dst pkind x : Nat) (payload : List Byte), s.blk.bit SHP_CTL.EN = false → (s.blk.ctx (x % 65536)).staged = none →
      (s.blk.ctx 0).staged = none → (s.blk.ctx (x % 65536)).held = [] → (s.blk.ctx 0).held = [] → Runs (.shpAdmission dst pkind x payload) s (fun t =>
        t.rd SHP_CNT_DROP_CFG.all = min (s.blk.rd SHP_CNT_DROP_CFG.all + 1) (2 ^ 32 - 1) ∧ t.bit SHP_EVT.DROP = true
        ∧ RegsKept s.blk t [SHP_CNT_DROP_CFG.all.base, SHP_EVT.all.base]))

/-- With SYSREF_EN 0 a SYSREF edge does nothing; with it, SYSREF_SEEN sets, every enabled receive link not yet aligned is aligned to the phase, and
a link that is up and off its stored phase by more than one cycle sets SYSREF_ERR under CHECK. A write of RXA_LINK_CFG_n stores its bits, and
CFG_ERR of every link tells whether it is valid; where EN changes the link is down and not aligned. A link with lock on all lanes comes up, setting
LINK_UP, exactly when it is enabled, aligned and valid and is not up, and its samples are erased until the next cell boundary and no longer; a lock
lost takes a link that is up down, sets LINK_DOWN and begins a time of erased samples. Each report counts its CRC-12 errors. COMPLETION: under
hypotheses on the state and the operands alone, exec is said here to answer a next state with the own effect of sysrefEdge, rxLinkEnable,
jesdLinkUp, jesdLinkDown. (R134, R135, R137, R171) -/
def Obligations.ReceiveLinks : Prop :=
  (∀ (s : State) (ph : Nat), s.blk.bit RXA_SYSREF_CFG.SYSREF_EN = false → NoEffect (.sysrefEdge ph) s)
  ∧ (∀ (s : State) (ph : Nat), s.blk.bit RXA_SYSREF_CFG.SYSREF_EN = true → Runs (.sysrefEdge ph) s (fun t =>
      t.bit RXA_STAT.SYSREF_SEEN = true
      ∧ ∀ i, i < 8 →
        (Tbl.find s.blk.rxa.lemc i = none → s.blk.bit RXA_LINK_CFG.EN i = true →
          Tbl.find t.rxa.lemc i = some (ph % 512) ∧ t.bit RXA_LINK_ST.ALIGNED i = true)
        ∧ (Tbl.find s.blk.rxa.lemc i = none → s.blk.bit RXA_LINK_CFG.EN i = false → Tbl.find t.rxa.lemc i = none)
        ∧ (∀ x, Tbl.find s.blk.rxa.lemc i = some x → Tbl.find t.rxa.lemc i = some x
          ∧ (s.blk.bit RXA_LINK_ST.UP i = true → s.blk.bit RXA_SYSREF_CFG.CHECK = true → 1 < (x + 512 - ph % 512) % 512 →
              (x + 512 - ph % 512) % 512 < 511 → t.bit RXA_EVT.SYSREF_ERR = true))))
  ∧ (∀ (s : State) (n : Nat) (v : Word), n < 8 → Runs (.rxLinkEnable n v) s (fun t =>
      t.reg (RXA_LINK_CFG.all.off n) = v &&& 0xFFCF ∧ (∀ l, l < 8 → t.bit RXA_LINK_ST.CFG_ERR l = !t.linkValid l)
      ∧ (if fget v RXA_LINK_CFG.EN = s.blk.rd RXA_LINK_CFG.EN n then
          t.rxa = s.blk.rxa ∧ ∀ l, l < 8 → t.bit RXA_LINK_ST.UP l = s.blk.bit RXA_LINK_ST.UP l ∧ t.bit RXA_LINK_ST.ALIGNED l = s.blk.bit RXA_LINK_ST.ALIGNED l
        else t.bit RXA_LINK_ST.UP n = false ∧ t.bit RXA_LINK_ST.ALIGNED n = false ∧ (s.blk.bit RXA_LINK_ST.UP n = true → t.bit RXA_EVT.LINK_DOWN = true))
      ∧ RegsKept s.blk t (RXA_LINK_CFG.all.off n :: RXA_STAT.all.base :: RXA_EVT.all.base :: (List.range 8).map RXA_LINK_ST.all.off)))
  ∧ (∀ (s : State) (n crc : Nat), n < 8 → Runs (.jesdLinkUp ⟨n, crc⟩) s (fun t =>
      let u := (cellOf s.blk.clk.htime + 1) * 2 ^ 24 * qHt
      t.bit RXA_LINK_ST.SH_LOCK n = true ∧ t.bit RXA_LINK_ST.EMB_LOCK n = true
      ∧ t.rd RXA_LINK_ERR.all n = min (s.blk.rd RXA_LINK_ERR.all n + crc) (2 ^ RXA_LINK_ERR.all.width - 1)
      ∧ (if s.blk.bit RXA_LINK_CFG.EN n = true ∧ s.blk.bit RXA_LINK_ST.ALIGNED n = true ∧ s.blk.bit RXA_LINK_ST.CFG_ERR n = false
            ∧ s.blk.bit RXA_LINK_ST.UP n = false then
          t.bit RXA_LINK_ST.UP n = true ∧ t.bit RXA_EVT.LINK_UP = true
          ∧ (∀ g ∈ t.rxa.gaps, g.src = n → ∀ q, u ≤ q → g.covers q = false)
          ∧ (∀ g ∈ s.blk.rxa.gaps, g.src = n → g.stop = none → { g with stop := some u } ∈ t.rxa.gaps)
        else t.bit RXA_LINK_ST.UP n = s.blk.bit RXA_LINK_ST.UP n ∧ t.rxa = s.blk.rxa)
      ∧ RegsKept s.blk t [RXA_LINK_ST.all.off n, RXA_LINK_ERR.all.off n, RXA_STAT.all.base, RXA_EVT.all.base]))
  ∧ (∀ (s : State) (n crc : Nat) (emb : Bool), n < 8 → Runs (.jesdLinkDown ⟨n, crc⟩ emb) s (fun t =>
      t.bit RXA_LINK_ST.UP n = false
      ∧ (s.blk.bit RXA_LINK_ST.UP n = true → t.bit RXA_EVT.LINK_DOWN = true
        ∧ t.rxa.gaps = s.blk.rxa.gaps ++ [{ src := n, ports := 0, start := s.blk.nowQ, stop := none }])
      ∧ (s.blk.bit RXA_LINK_ST.UP n = false → t.rxa = s.blk.rxa)
      ∧ t.bit (if emb then RXA_LINK_ST.EMB_LOCK else RXA_LINK_ST.SH_LOCK) n = false
      ∧ t.rd RXA_LINK_ERR.all n = min (s.blk.rd RXA_LINK_ERR.all n + crc) (2 ^ RXA_LINK_ERR.all.width - 1)
      ∧ RegsKept s.blk t [RXA_LINK_ST.all.off n, RXA_LINK_ERR.all.off n, RXA_STAT.all.base, RXA_EVT.all.base]))

namespace Sys2Proof.Machine

/-- The command of the firings of one DSP_CLK cycle, `f` and `also` (R146, R149). -/
abbrev firingsOf (f : Firing) (also : List Firing) : Instr :=
  .detection f.win f.stream f.t1 f.q f.level ⟨f.psnr, f.rssi, f.phase⟩ f.power also

end Sys2Proof.Machine

/-- EN of RXA_CTL set restarts every AGC in FAST at code 0x80; cleared, or by FLUSH, every lane goes IDLE and posts ABORTED to its window 64 DSP_CLK
cycles later. An AGC whose samples are erased does not move; one that a lane holds keeps its gain and notes the power; another moves its gain by its
error, 1 at most in SLOW and 48 in FAST, and takes its next mode. With EN 0 detections do nothing. A firing below DET_THR is none. One that is a
detection of a covered stream in a window's range, the first of that stream there, counts in RXA_CNT_DET and in the census. The firings of a cycle
have one effect in whatever order they are given. At the end of the SFD a lane goes on to its header or posts SFD_FAIL; at the end of the header it
posts HDR_FAIL for a header that fails, TYPE_MISMATCH for a kind the window does not take, ACK_OK or ECHO_FAIL for an ACK, and HDR_OK or, with no
buffer free, NO_BUF for a frame. A codeword of a PAY lane starts when a decoder is free and none with an earlier deadline waits, of a SHIP lane it
is sent; a codeword is done when its decoder ends. COMPLETION: under hypotheses on the state and the operands alone, exec is said here to answer a
next state with the own effect of rxaEnable, rxaFlush, agcUpdate, laneSfdEnd, laneHeaderEnd, codewordDecodeStart, codewordDecoded, detection. (R140,
R141, R146, R147, R149, R151, R153, R154, R155, R156, R157, R171) -/
def Obligations.ReceiveLanes : Prop :=
  (∀ s : State, s.blk.bit RXA_CTL.EN = false →
    Gives (.rxaEnable true) s ({ s.blk.start with rxa := { s.blk.rxa with agc := [] } }.set RXA_CTL.EN) ∧ NoEffect (.rxaEnable false) s)
  ∧ (∀ s : State, s.blk.bit RXA_CTL.EN = true → NoEffect (.rxaEnable true) s ∧ Runs (.rxaEnable false) s (fun t => t.bit RXA_CTL.EN = false ∧ t.rxa.lanes = []
      ∧ ∀ (n : Nat) (l : Lane) (w : Window), Tbl.find s.blk.rxa.lanes n = some l → Tbl.find s.blk.rxa.wins l.win = some w →
        ∃ p ∈ t.rxa.posts, p.win = l.win ∧ p.lane = none ∧ p.res = some 12 ∧ p.due = htQ s.blk.clk.htime + 64 * qDsp))
  ∧ (∀ s : State, Runs .rxaFlush s (fun t => t.bit RXA_CTL.EN = s.blk.bit RXA_CTL.EN ∧ t.rxa.lanes = []
      ∧ ∀ (n : Nat) (l : Lane) (w : Window), Tbl.find s.blk.rxa.lanes n = some l → Tbl.find s.blk.rxa.wins l.win = some w →
        ∃ p ∈ t.rxa.posts, p.win = l.win ∧ p.lane = none ∧ p.res = some 12 ∧ p.due = htQ s.blk.clk.htime + 64 * qDsp))
  ∧ (∀ (s : State) (x : Nat) (pw : Int),
      (s.blk.streamErased x = true → NoEffect (.agcUpdate x pw) s)
      ∧ (s.blk.streamErased x = false → s.blk.streamBusy x = true → Runs (.agcUpdate x pw) s (fun t => t.agc x = { s.blk.agc x with power := pw }
          ∧ (∀ y, y ≠ x → t.agc y = s.blk.agc y) ∧ RegsKept s.blk t [] ∧ DramKept s.blk t))
      ∧ (s.blk.streamErased x = false → s.blk.streamBusy x = false →
        let e : Int := -(s.blk.rd RXA_AGC_CFG.TARGET : Int) - pw
        let fast : Bool := (s.blk.agc x).mode == .fast
        let lim : Int := if fast then 48 else 1
        Runs (.agcUpdate x pw) s (fun t => ((t.agc x).gain : Int) = max 0 (min 255 ((s.blk.agc x).gain + max (-lim) (min lim e))) ∧ (t.agc x).power = pw
          ∧ (t.agc x).mode = (if fast then (if 8 ≤ (if e.natAbs ≤ 4 then (s.blk.agc x).run + 1 else 0) then .slow else .fast)
              else if 24 < e.natAbs then .fast else .slow)
          ∧ (∀ y, y ≠ x → t.agc y = s.blk.agc y) ∧ RegsKept s.blk t [] ∧ DramKept s.blk t)))
  ∧ (∀ (s : State) (f : Firing) (l : List Firing), s.blk.bit RXA_CTL.EN = false → NoEffect (firingsOf f l) s)
  ∧ (∀ (s : State) (f g : Firing), f.level ≠ g.level ∨ f.stream ≠ g.stream → exec (firingsOf f [g]) s = exec (firingsOf g [f]) s)
  ∧ (∀ (s : State) (f : Firing) (w : Window) (a band ch : Nat), s.blk.bit RXA_CTL.EN = true → s.blk.streamOf f.stream = some (a, band, ch) →
      Tbl.find s.blk.rxa.wins f.win = some w →
      let e := htQ f.t1 + s.blk.rd RXA_BAND.DET_SYMS band * (sfOfCode w.sfc * tcQ (s.blk.bandProfile band))
      (f.level < s.blk.rd RXA_BAND.DET_THR band → Gives (firingsOf f []) s (s.blk.start.toQ (e + s.blk.rxDelay (f.stream / 64) (s.blk.bandProfile band))))
      ∧ (s.blk.rd RXA_BAND.DET_THR band ≤ f.level → s.blk.erasedAt f.stream e = false → f.q = 0 ∨ f.q ∈ s.blk.winSeqs w → w.live = true →
        s.blk.winCovers w f.stream = true → w.holds f.t1 = true → Tbl.find w.dets f.stream = none →
        Runs (firingsOf f []) s (fun t => t.rd RXA_CNT_DET.all = min (s.blk.rd RXA_CNT_DET.all + 1) (2 ^ 32 - 1)
          ∧ (Tbl.get (fun _ => CenCount.fresh) t.rxa.cenNow f.stream).det
              = min 255 ((Tbl.get (fun _ => CenCount.fresh) s.blk.rxa.cenNow f.stream).det + 1))))
  ∧ (∀ (s : State) (n : Nat) (ok : Bool) (snr cfo : Nat) (l : Lane) (w : Window), Tbl.find s.blk.rxa.lanes n = some l → Tbl.find s.blk.rxa.wins l.win = some w →
      l.st = .acq → Runs (.laneSfdEnd n ok snr cfo) s (fun t =>
        Tbl.find t.rxa.lanes n = some { l with st := .hdr, snr := snr % 65536, cfo := cfo % 65536 }
        ∧ (if ok then t.rxa.posts = s.blk.rxa.posts else ∃ p, t.rxa.posts = s.blk.rxa.posts ++ [p] ∧ p.lane = some n ∧ p.res = some 4 ∧ p.release = true
            ∧ p.due = s.blk.laneAt l w 12 + 64 * qDsp)
        ∧ RegsKept s.blk t []))
  ∧ (∀ (s : State) (n r0 r1 e0 e1 snr cfo : Nat) (l : Lane) (w : Window), Tbl.find s.blk.rxa.lanes n = some l → Tbl.find s.blk.rxa.wins l.win = some w →
      l.st = .hdr → l.hdr = 0 → (∀ p ∈ s.blk.rxa.posts, p.lane ≠ some n) →
      let hd := golayBlockDecode r0 r1 s.blk.freeNat
      let ec := golayBlockDecode e0 e1 (s.blk.freeNat / 2 ^ 24)
      Runs (.laneHeaderEnd n r0 r1 e0 e1 snr cfo) s (fun t =>
        (∃ l', Tbl.find t.rxa.lanes n = some l' ∧ l'.hdr = hd)
        ∧ (hdrOk hd = false → ∃ p ∈ t.rxa.posts, p.lane = some n ∧ p.res = some 5 ∧ p.release = true)
        ∧ (hdrOk hd = true → (hType hd == tyACK) ≠ w.ack → ∃ p ∈ t.rxa.posts, p.lane = some n ∧ p.res = some 6 ∧ p.release = true)
        ∧ (hdrOk hd = true → w.ack = true → hType hd = tyACK → ∃ p ∈ t.rxa.posts, p.lane = some n ∧ p.res = some (if echoOk ec then 1 else 13))
        ∧ (hdrOk hd = true → w.ack = false → hType hd ≠ tyACK → (w.mode = 2 ∨ s.blk.fbufsFree ≠ []) →
            ∃ p ∈ t.rxa.posts, p.lane = some n ∧ p.res = some 2 ∧ p.release = false)
        ∧ (hdrOk hd = true → w.ack = false → hType hd ≠ tyACK → w.mode ≠ 2 → s.blk.fbufsFree = [] →
            ∃ p ∈ t.rxa.posts, p.lane = some n ∧ p.res = some 9 ∧ p.release = true)))
  ∧ (∀ (s : State) (n r : Nat) (l : Lane) (w : Window) (c : Codeword), Tbl.find s.blk.rxa.lanes n = some l → Tbl.find s.blk.rxa.wins l.win = some w →
      l.cws[r]? = some c → c.started = false →
      let b := s.blk.start.toQ (s.blk.cwReady l w r)
      (l.st = .pay → b.decoding < 8 → b.earlierWaits l.p = false → Runs (.codewordDecodeStart n r) s (fun t =>
        ∃ l' c', Tbl.find t.rxa.lanes n = some l' ∧ l'.cws = l.cws.set r c' ∧ c'.started = true ∧ c'.startQ = b.nowQ ∧ c'.done = false
          ∧ c'.allowed = iterFit (hCode l.hdr) (hLen l.hdr) r b.nowQ l.p (s.blk.rd RXA_DEC_CFG.MAX_ITER)))
      ∧ (l.st = .ship → Runs (.codewordDecodeStart n r) s (fun t => Tbl.find t.rxa.lanes n = some { l with cws := l.cws.set r { c with started := true } })))
  ∧ (∀ (s : State) (n r iters data h : Nat) (l : Lane) (c : Codeword), Tbl.find s.blk.rxa.lanes n = some l → l.cws[r]? = some c → l.fbuf = some h →
      c.started = true → c.done = false → c.allowed ≠ 0 → Runs (.codewordDecoded n r iters data) s (fun t =>
        (∃ l', Tbl.find t.rxa.lanes n = some l' ∧ l'.cws = l.cws.set r { c with done := true }) ∧ RegsKept s.blk t [] ∧ DramKept s.blk t))

/-- With no record to post nothing happens; a record of no lane posts at its instant into its window's queue, or as the ninth marks the last with
WIN_OVF. A strand with a record visible and a free ring entry gains one entry. A shipment matched to a lane of an XC window joins it, with its port
entries, their DTOA relative to the lane's first chip, and its frame; one that no XC window takes, or with EN 0, and soft values for a codeword
already started or of no lane, count in RXA_CNT_LATESHIP and set LATE_SHIP; soft values for another codeword join its lane. The oldest census block
waiting is written and WR advances, or after the cell it is discarded and CEN_LOST sets. COMPLETION: under hypotheses on the state and the operands
alone, exec is said here to answer a next state with the own effect of rxRecordPost, ringEntryWrite, shipHdrReceive, shipLlrReceive,
shipFrameReceive, censusBlockWrite, censusBlockLost. (R157, R158, R160, R161, R166, R168, R169, R171, R263, R457, R458) -/
def Obligations.ReceiveRecordsAndCensus : Prop :=
  (∀ s : State, s.blk.rxa.posts = [] → NoEffect .rxRecordPost s)
  ∧ (∀ (s : State) (p : RxPost) (w : Window), nextPost s.blk.rxa.posts = some p → p.lane = none → Tbl.find s.blk.rxa.wins p.win = some w → w.live = true →
      Runs .rxRecordPost s (fun t => t.rxa.posts = s.blk.rxa.posts.erase p
        ∧ (w.queue.length < 8 → ∃ x w', Tbl.find t.rxa.wins p.win = some w' ∧ w'.queue = w.queue ++ [x])
        ∧ (8 ≤ w.queue.length → t.bit RXA_EVT.WIN_OVF = true ∧ ∃ w', Tbl.find t.rxa.wins p.win = some w' ∧ w'.queue.length = w.queue.length)))
  ∧ (∀ (s : State) (k : Nat), s.blk.ringCands k = [] ∨ 8 ≤ (s.blk.strand k).ringCount → NoEffect (.ringEntryWrite k) s)
  ∧ (∀ (s : State) (k : Nat), s.blk.ringCands k ≠ [] → (s.blk.strand k).ringCount < 8 → (s.blk.strand k).weave.isSome = true →
      Runs (.ringEntryWrite k) s (fun t => (t.strand k).ringCount = (s.blk.strand k).ringCount + 1 ∧ (t.strand k).ringHead = (s.blk.strand k).ringHead
        ∧ (t.strand k).w = (s.blk.strand k).w ∧ ∀ j, j ≠ k → t.strand j = s.blk.strand j))
  ∧ (∀ (s : State) (o : Nat) (body : List Byte), (s.blk.bit RXA_CTL.EN = false
        ∨ s.blk.xcWindows (leAt body 2 1) (leAt body 3 1) (leAt body 4 1 % 8) (BitVec.ofNat 64 (leAt body 12 8)) = []) →
      Gives (.shipHdrReceive o body) s ((s.blk.start.inc RXA_CNT_LATESHIP.all).set RXA_EVT.LATE_SHIP)
      ∧ Gives (.shipFrameReceive o body) s ((s.blk.start.inc RXA_CNT_LATESHIP.all).set RXA_EVT.LATE_SHIP))
  ∧ (∀ (s : State) (o n : Nat) (body : List Byte) (l : Lane) (w : Window),
      let t1 : DWord := BitVec.ofNat 64 (leAt body 12 8)
      let hs := s.blk.xcWindows (leAt body 2 1) (leAt body 3 1) (leAt body 4 1 % 8) t1
      let dtoa (e : List Byte) : List Byte := splice e 2 (leBytes 2 (unsigned 16 (satSym 16 (signed 16 (leAt e 2 2) + ((t1.toNat : Int) - l.t1.toNat)))))
      s.blk.bit RXA_CTL.EN = true → hs ≠ [] → Tbl.find s.blk.rxa.wins (s.blk.pick hs) = some w →
      nearest t1 ((s.blk.winLanes (s.blk.pick hs)).filter (fun e => e.2.hdr == leAt body 8 4 % 2 ^ 24
        && (e.2.st == .pay || e.2.st == .hdr) && within t1 e.2.t1 (s.blk.rd RXA_CAS_CFG.XC_WIN) (10 ^ 9))) = some (n, l) →
      Runs (.shipHdrReceive o body) s (fun t => ∃ l', Tbl.find t.rxa.lanes n = some l' ∧ l'.xc = true ∧ l'.ships = l.ships ++ [(o, leAt body 0 2)]
        ∧ l'.remote = l.remote ++ (List.range (leAt body 6 1)).map (fun i => dtoa (slice body (20 + 8 * i) 8)) ∧ l'.shipFrame = l.shipFrame)
      ∧ Runs (.shipFrameReceive o body) s (fun t => ∃ l', Tbl.find t.rxa.lanes n = some l' ∧ l'.xc = true ∧ l'.ships = l.ships ++ [(o, leAt body 0 2)]
        ∧ l'.shipFrame = some (slice body (20 + 8 * leAt body 6 1) (hLen (leAt body 8 4 % 2 ^ 24)))))
  ∧ (∀ (s : State) (o n : Nat) (body : List Byte) (l : Lane), s.blk.rxa.lanes.find? (fun e => e.2.ships.contains (o, leAt body 0 2)) = some (n, l) →
      (∀ c, l.cws[leAt body 2 1]? = some c → c.started = false → Gives (.shipLlrReceive o body) s
        (s.blk.start.setLane n { l with llrs := l.llrs ++ [(leAt body 2 1, body.drop 8)] }))
      ∧ ((∀ c, l.cws[leAt body 2 1]? = some c → c.started = true) → Gives (.shipLlrReceive o body) s
        ((s.blk.start.inc RXA_CNT_LATESHIP.all).set RXA_EVT.LATE_SHIP)))
  ∧ (∀ s : State, s.blk.rxa.cenPend = [] → NoEffect .censusBlockLost s ∧ ∀ m, NoEffect (.censusBlockWrite m) s)
  ∧ (∀ (s : State) (c : CenCell) (rest : List CenCell), s.blk.rxa.cenPend = c :: rest →
      (∀ m, Runs (.censusBlockWrite m) s (fun t => t.rxa.cenPend = rest ∧ t.rxa.cenLost = false
        ∧ t.rd RXA_CEN_WR.WR = (s.blk.rd RXA_CEN_WR.WR + 1) % max 2 (s.blk.rd RXA_CEN_DEPTH.DEPTH) % 2 ^ 17))
      ∧ Runs .censusBlockLost s (fun t => t.rxa.cenPend = rest ∧ t.rxa.cenLost = true ∧ t.bit RXA_EVT.CEN_LOST = true
        ∧ RegsKept s.blk t [RXA_EVT.all.base] ∧ DramKept s.blk t))

namespace Sys2Proof.Machine

/-- The gate self-test of port `n` is due in this cell (R199): it runs in this superframe and cell, the port is gated, CLR_REQ is low, no pin
sequence of the port overlaps the first 64 DSP_CLK cycles, and the port was not tested in this superframe. -/
def Block.testDue (b : Block) (n : Nat) : Bool :=
  let cs := cellOf b.clk.htime * 2 ^ 24 * qHt
  b.rd CLR_CTL.TEST_LOG2 != 15 && bitOf (b.rd CLR_CTL.PORTMASK) n && b.sf % 2 ^ b.rd CLR_CTL.TEST_LOG2 == 0 && cellOf b.clk.htime % 256 != 0
    && !b.pins.clrReq && !b.pinsBusy n cs (cs + 64 * qDsp) && Tbl.get (fun _ => 2 ^ 32) b.txc.tested n != b.sf

end Sys2Proof.Machine

/-- A write of TXC_PORT_CFG_n that keeps EN stores its bits and keeps ERR. One that changes EN leaves the link down and not aligned, and where it
sets EN, ERR tells whether the port is refused. A link comes up, setting LINK_UP and its bit of LINKS, exactly when it is enabled, of a valid rate,
aligned and down. A link that goes down sets LINK_DOWN and ends there, at that instant, every transmission live on the port whose radiated interval
has not ended; a link already down does nothing. A port of a transmission that is live and not started starts at the instant of its PA enable: under
a clearing that gates the port it is suppressed; else the switch falls TRSW_LEAD before the enable and blanking begins BLK_PRE before it where the
enable was not asserted, the chips of its symbols follow at their level, ACTIVE and PA set, the clipped samples count, and with any every
transmission active on the port carries CLIP. Its end marks the port as sent in full, and where it was the only transmission the enable rises PA_LAG
later, the switch TRSW_LAG after it, blanking ends BLK_POST after it, and ACTIVE clears. The next record posts at its instant: the transmission is
gone, its outcome is counted, and a running weave's record waits for its ring. COMPLETION: under hypotheses on the state and the operands alone,
exec is said here to answer a next state with the own effect of txPortEnable, txLinkDown, txLinkUp, transmissionStart, transmissionEnd,
txRecordPost. (R135, R172, R173, R174, R177, R182, R183, R184, R185, R188, R197, R263) -/
def Obligations.TransmitPorts : Prop :=
  (∀ (s : State) (n : Nat) (v : Word), n < 8 → fget v TXC_PORT_CFG.EN = s.blk.rd TXC_PORT_CFG.EN n → Runs (.txPortEnable n v) s (fun t =>
      t.reg (TXC_PORT_CFG.all.off n) = fput (v &&& 0xE71) TXC_PORT_CFG.ERR (s.blk.rd TXC_PORT_CFG.ERR n) ∧ t.txc = s.blk.txc
      ∧ RegsKept s.blk t [TXC_PORT_CFG.all.off n]))
  ∧ (∀ (s : State) (n : Nat) (v : Word), n < 8 → fget v TXC_PORT_CFG.EN ≠ s.blk.rd TXC_PORT_CFG.EN n → Runs (.txPortEnable n v) s (fun t =>
      t.rd TXC_PORT_CFG.EN n = fget v TXC_PORT_CFG.EN ∧ t.bit TXC_PORT_ST.LINK_UP n = false ∧ t.bit TXC_PORT_ST.ALIGNED n = false
      ∧ (fget v TXC_PORT_CFG.EN = 1 → t.bit TXC_PORT_CFG.ERR n = t.portRefused n)))
  ∧ (∀ (s : State) (n : Nat), n < 8 →
      if s.blk.bit TXC_PORT_CFG.EN n = true ∧ s.blk.rd TXC_PORT_CFG.RATE n ≠ 3 ∧ s.blk.bit TXC_PORT_ST.ALIGNED n = true
          ∧ s.blk.bit TXC_PORT_ST.LINK_UP n = false then
        Gives (.txLinkUp n) s (((s.blk.start.set TXC_PORT_ST.LINK_UP n).wr TXC_STAT.LINKS (s.blk.rd TXC_STAT.LINKS ||| 2 ^ n)).set TXC_EVT.LINK_UP)
      else NoEffect (.txLinkUp n) s)
  ∧ (∀ (s : State) (n : Nat), n < 8 → s.blk.bit TXC_PORT_ST.LINK_UP n = false → NoEffect (.txLinkDown n) s)
  ∧ (∀ (s : State) (n : Nat), n < 8 → s.blk.bit TXC_PORT_ST.LINK_UP n = true → Runs (.txLinkDown n) s (fun t =>
      t.bit TXC_PORT_ST.LINK_UP n = false ∧ bitOf (t.rd TXC_STAT.LINKS) n = false ∧ t.bit TXC_EVT.LINK_DOWN = true
      ∧ ∀ h x, Tbl.find s.blk.txc.txs h = some x → s.blk.nowQ < x.endQ → Tbl.find t.txc.txs h = some { x with
          ports := x.ports.map (fun p => if p.port == n && p.ended == .live then { p with ended := .down s.blk.nowQ } else p) }))
  ∧ (∀ (s : State) (h n c : Nat), (∀ x, Tbl.find s.blk.txc.txs h = some x → ∀ p ∈ x.ports, p.port = n → p.started = true ∨ p.ended ≠ .live) →
      NoEffect (.transmissionStart h n c) s)
  ∧ (∀ (s : State) (h n c : Nat) (x : Tx), n < 8 → Tbl.find s.blk.txc.txs h = some x →
      x.ports.any (fun p => p.port == n && !p.started && p.ended == .live) = true →
      let b := s.blk.start.toQ (x.startQ - s.blk.paLead n)
      (s.blk.bit CLR_STAT.ACTIVE = true → bitOf (s.blk.rd CLR_CTL.PORTMASK) n = true → Gives (.transmissionStart h n c) s ((b.setTx h { x with
          ports := x.ports.map (fun p => if p.port == n && p.ended == .live then { p with ended := .supp } else p) }).paSettle n b.nowQ))
      ∧ (s.blk.bit CLR_STAT.ACTIVE = false ∨ bitOf (s.blk.rd CLR_CTL.PORTMASK) n = false → Runs (.transmissionStart h n c) s (fun t =>
          t.clk = b.clk ∧ t.rd TXC_STAT.PA = s.blk.rd TXC_STAT.PA ||| 2 ^ n ∧ t.bit TXC_PORT_ST.ACTIVE n = true
          ∧ t.rd TXC_CNT_CLIP.all = min (s.blk.rd TXC_CNT_CLIP.all + c) (2 ^ 32 - 1) ∧ (c ≠ 0 → t.bit TXC_EVT.CLIP = true)
          ∧ (let q := x.startQ - s.blk.paLead n
             let r : Output := .radiate n x.ch x.sfc (s.blk.txSeq x) x.t1 (-72 - (x.atten : Int)) (s.blk.txSymbols x)
               (chipsOf (spreadSeq x.sfc (s.blk.txSeq x)) (s.blk.txSymbols x))
             if b.paOn n then t.out = [r] ∧ t.rxa = s.blk.rxa
             else t.out = [.pinAt "TR_SW" n false (q - s.blk.rd TXC_PORT_TRSW.LEAD n * qDsp), .pinAt "PA_EN" n false q, r]
               ∧ t.rxa.gaps = s.blk.rxa.gaps ++
                  [{ src := 8 + n, ports := s.blk.reg (TXC_BLANK.all.off n), start := q - s.blk.rd TXC_BLK_MARG.PRE * qDsp, stop := none }])
          ∧ (c ≠ 0 → ∀ j u, Tbl.find s.blk.txc.txs j = some u → u.ports.any (fun p => p.port == n && p.started && p.ended == .live) = true →
              ∃ u', Tbl.find t.txc.txs j = some u' ∧ u'.clip = true)
          ∧ ∃ y, Tbl.find t.txc.txs h = some y ∧ y.ports = x.ports.map (fun p => if p.port == n then { p with started := true } else p)
            ∧ y.clip = (x.clip || decide (c ≠ 0)))))
  ∧ (∀ (s : State) (h n : Nat), (∀ x, Tbl.find s.blk.txc.txs h = some x → ∀ p ∈ x.ports, p.port = n → p.started = false ∨ p.ended ≠ .live) →
      NoEffect (.transmissionEnd h n) s)
  ∧ (∀ (s : State) (h n : Nat) (x : Tx), n < 8 → Tbl.find s.blk.txc.txs h = some x →
      x.ports.any (fun p => p.port == n && p.started && p.ended == .live) = true → Runs (.transmissionEnd h n) s (fun t =>
        t.clk = (s.blk.start.toQ x.endQ).clk
        ∧ Tbl.find t.txc.txs h = some { x with ports := x.ports.map (fun p => if p.port == n && p.ended == .live then { p with ended := .full } else p) }
        ∧ (s.blk.txc.txs = [(h, x)] → bitOf (s.blk.rd TXC_STAT.PA) n = true →
            let q := x.endQ + s.blk.rd TXC_PORT_PA.LAG n * qDsp
            bitOf (t.rd TXC_STAT.PA) n = false ∧ t.bit TXC_PORT_ST.ACTIVE n = false
            ∧ t.out = [.pinAt "PA_EN" n true q, .pinAt "TR_SW" n true (q + s.blk.rd TXC_PORT_TRSW.LAG n * qDsp)]
            ∧ ∀ g ∈ t.rxa.gaps, g.src = 8 + n → ∀ u, q + s.blk.rd TXC_BLK_MARG.POST * qDsp ≤ u → g.covers u = false)))
  ∧ (∀ s : State, s.blk.txc.txs = [] → NoEffect .txRecordPost s)
  ∧ (∀ (s : State) (h : Nat) (x : Tx), nextTx s.blk.txc.txs = some (h, x) →
      let b := s.blk.start.toQ x.due
      Runs .txRecordPost s (fun t => t.txc.txs = Tbl.erase s.blk.txc.txs h
        ∧ t.rd TXC_CNT_SENT.all = min (s.blk.rd TXC_CNT_SENT.all + if x.res = 0 then 1 else 0) (2 ^ 32 - 1)
        ∧ t.rd TXC_CNT_CLEARED.all = min (s.blk.rd TXC_CNT_CLEARED.all + if x.res = 1 then 1 else 0) (2 ^ 32 - 1)
        ∧ t.rd TXC_CNT_SUPPR.all = min (s.blk.rd TXC_CNT_SUPPR.all + if x.res = 2 then 1 else 0) (2 ^ 32 - 1)
        ∧ t.txc.recs = s.blk.txc.recs ++ (match x.owner with
            | .strand k => [⟨k, h, ⟨b.txRecord x, b.visibleBeat⟩⟩]
            | .orphan _ => []
            | .beacon => [])))

/-- EN of TXC_CTL sets; cleared it acts as FLUSH, which stops now every armed transmission whose radiated interval has not ended, each to post
ABORTED. DWELL_LOCK stays. A rise of CLR_REQ is captured and stamped, counts, sets CLR_START and REQ, makes clearing active, closes the sample gates
of the gated ports 40 DSP_CLK cycles later, and cuts every live transmission of a gated port in its radiated interval; while a reset is held it only
forces the pads; its fall opens the PA gate. Clearing ends with CLR_END after CLR_REQ is low and the hold is over. CLR_ACK still low two CLR_CLK
cycles into a request, by the pads the board holds low, sets ACK_FAULT. A test that is not due does nothing, one that CLR_REQ abandons counts in
SKIPPED. A test that is done writes the port's bits of PA_FAIL and SMP_FAIL and no other port's, sets the event of each failure, clears the port's
STOPPED where it passes, and where it fails sets STOPPED under FAIL_STOP and leaves it else. A pad the board holds low fails the test of the PA
gate. COMPLETION: under hypotheses on the state and the operands alone, exec is said here to answer a next state with the own effect of txcEnable,
txcFlush, dwellLock, clrReqRise, clrReqFall, clearingEnd, ackFaultCheck, gateSelfTest. (R189, R192, R193, R194, R195, R196, R197, R199, R200, R201)
-/
def Obligations.TransmitterStopsAndClears : Prop :=
  (∀ s : State, Gives (.txcEnable true) s (s.blk.start.set TXC_CTL.EN) ∧ Gives .dwellLock s (s.blk.start.set TXC_CTL.DWELL_LOCK)
    ∧ (s.blk.bit TXC_CTL.EN = false → NoEffect (.txcEnable false) s)
    ∧ (s.blk.bit TXC_CTL.EN = true → Gives (.txcEnable false) s (s.blk.start.clr TXC_CTL.EN).txFlush)
    ∧ Gives .txcFlush s s.blk.start.txFlush)
  ∧ (∀ (b : Block) (h : Nat) (x : Tx), Tbl.find b.txc.txs h = some x → (∀ y, (h, y) ∈ b.txc.txs → y = x) → b.nowQ < x.endQ →
      Tbl.find b.txFlush.txc.txs h = some { x with
        ports := x.ports.map (fun p => if decide (p.port < 8) && p.ended == .live then { p with ended := .stop b.nowQ } else p),
        aborted := x.aborted || x.ports.any (fun p => decide (p.port < 8)) })
  ∧ (∀ s : State, s.blk.pins.clrReq = true → NoEffect .clrReqRise s ∧ NoEffect .clearingEnd s)
  ∧ (∀ s : State, s.blk.bit CLR_STAT.ACTIVE = false → NoEffect .clearingEnd s)
  ∧ (∀ s : State, s.blk.pins.clrReq = false → NoEffect .clrReqFall s
      ∧ NoEffect .ackFaultCheck s)
  ∧ (∀ s : State, s.blk.pins.clrReq = false → s.blk.pwr.rst.isSome = true →
      let b := { s.blk.start with pins := { s.blk.pins with clrReq := true } }
      Gives .clrReqRise s (b.emit (.pin "CLR_ACK" 0 b.clrAck)))
  ∧ (∀ s : State, s.blk.pins.clrReq = false → s.blk.pwr.rst = none → Runs .clrReqRise s (fun t =>
      t.pins = { s.blk.pins with clrReq := true } ∧ (∀ n, n < 8 → bitOf (s.blk.rd CLR_CTL.PORTMASK) n = true →
        .sampleGate n true (s.blk.nowQ + 40 * qDsp) ∈ t.out) ∧ t.bit CLR_STAT.ACTIVE = true ∧ t.bit CLR_STAT.REQ = true ∧ t.bit CLR_EVT.CLR_START = true
      ∧ t.rd CLR_CNT.all = min (s.blk.rd CLR_CNT.all + 1) (2 ^ 32 - 1) ∧ t.txc.clr.capture = s.blk.nowQ
      ∧ t.rd64 CLR_LAST_LO.all CLR_LAST_HI.all = s.blk.clk.htime.toNat
      ∧ ∀ h x, Tbl.find s.blk.txc.txs h = some x → x.startQ ≤ s.blk.nowQ → s.blk.nowQ ≤ x.endQ → ∃ y, Tbl.find t.txc.txs h = some y
        ∧ y.ports = x.ports.map (fun p => if decide (p.port < 8) && bitOf (s.blk.rd CLR_CTL.PORTMASK) p.port && p.ended == .live then
            { p with ended := .cut s.blk.nowQ } else p)))
  ∧ (∀ s : State, s.blk.pins.clrReq = true → Runs .clrReqFall s (fun t =>
      t.pins = { s.blk.pins with clrReq := false } ∧ t.bit CLR_STAT.REQ = false ∧ t.bit CLR_STAT.ACTIVE = s.blk.bit CLR_STAT.ACTIVE
      ∧ t.txc.clr.fall = s.blk.nowQ ∧ t.out = [.pin "CLR_ACK" 0 false] ∧ RegsKept s.blk t [CLR_STAT.all.base] ∧ t.txc.txs = s.blk.txc.txs))
  ∧ (∀ s : State, s.blk.pins.clrReq = false → s.blk.bit CLR_STAT.ACTIVE = true → Runs .clearingEnd s (fun t =>
      t.bit CLR_STAT.ACTIVE = false ∧ t.bit CLR_EVT.CLR_END = true ∧ RegsKept s.blk t [CLR_STAT.all.base, CLR_EVT.all.base, CLR_TIME.all.base]
      ∧ t.clk.beat = (s.blk.start.toQ (max (s.blk.txc.clr.fall + s.blk.freeNat % 25 * qDsp)
          (s.blk.txc.clr.capture + s.blk.rd CLR_CTL.MIN_HOLD * 8 * qDsp))).clk.beat))
  ∧ (∀ s : State, s.blk.pins.clrReq = true →
      let b := s.blk.start.toQ (s.blk.txc.clr.capture + 16 * qDsp)
      Gives .ackFaultCheck s (if b.clrAck = true then b else b.set CLR_EVT.ACK_FAULT))
  ∧ (∀ (s : State) (n : Nat) (g m r : Bool), n < 8 → s.blk.testDue n = false → NoEffect (.gateSelfTest n g m r) s)
  ∧ (∀ (s : State) (n : Nat) (g m : Bool), n < 8 → s.blk.testDue n = true → Gives (.gateSelfTest n g m true) s (s.blk.start.inc CLR_TEST_ST.SKIPPED))
  ∧ (∀ (s : State) (n : Nat) (g m : Bool), n < 8 → s.blk.testDue n = true →
      let pa := g && !s.blk.pins.padLow.getLsbD n
      Runs (.gateSelfTest n g m false) s (fun t =>
        (∀ j, j < 8 → bitOf (t.rd CLR_TEST_ST.PA_FAIL) j = if j = n then !pa else bitOf (s.blk.rd CLR_TEST_ST.PA_FAIL) j)
        ∧ (∀ j, j < 8 → bitOf (t.rd CLR_TEST_ST.SMP_FAIL) j = if j = n then !m else bitOf (s.blk.rd CLR_TEST_ST.SMP_FAIL) j)
        ∧ (pa = false → t.bit CLR_EVT.TEST_FAIL_PA = true) ∧ (m = false → t.bit CLR_EVT.TEST_FAIL_SMP = true)
        ∧ (∀ j, j < 8 → bitOf (t.rd TXC_STAT.STOPPED) j = if j = n then (if pa && m then false else if s.blk.bit CLR_CTL.FAIL_STOP then true
            else bitOf (s.blk.rd TXC_STAT.STOPPED) j) else bitOf (s.blk.rd TXC_STAT.STOPPED) j)
        ∧ Tbl.get (fun _ => 2 ^ 32) t.txc.tested n = s.blk.sf))

/-- SEEN_FLUSH empties the seen cache and reads 1 until the flush is done. With BCN_EN 0 no beacon is prepared. A beacon is withheld in tq 5 and 7
without BCN_OVR, and counts in BEACON_LOST on every channel; without a half of a FC key slot that allows its use it fails with RESULT 3; else the
frame of R208 with its tag and checksum is armed on every channel, in ascending band. A channel whose arming is refused keeps its status with RESULT
2, BEACON_LOST counts and BCN_REFUSED sets. COMPLETION: under hypotheses on the state and the operands alone, exec is said here to answer a next
state with the own effect of beaconPrepare, seenFlush, seenFlushDone. (R123, R207, R208, R209, R210, R231) -/
def Obligations.SeenCacheAndBeacons : Prop :=
  (∀ s : State, Gives .seenFlush s (({ s.blk.start with mas := { s.blk.mas with seen := [] } }.wr MAS_SEEN_ST.VALID 0).set MAS_CTL.SEEN_FLUSH)
    ∧ Gives .seenFlushDone s (s.blk.start.clr MAS_CTL.SEEN_FLUSH)
    ∧ (s.blk.bit MAS_CTL.BCN_EN = false → Gives .beaconPrepare s (s.blk.start.toTime (htAt s.blk.sf 0xFF000000))))
  ∧ (∀ s : State, s.blk.bit MAS_CTL.BCN_EN = true →
      let b := s.blk.start.toTime (htAt s.blk.sf 0xFF000000)
      let a := b.announce.2
      let half := (b.slot (b.rd MAS_BCN_CTL.BKSLOT)).halfFor (b.sf + 1) b.clk.beat
      let tq := s.blk.rd HOOP_STATE.TQ
      (tq = 5 ∨ tq = 7 → s.blk.bit HOOP_CTL.BCN_OVR = false →
        Gives .beaconPrepare s (((a.wr MAS_BCN_ST.RESULT 1).incBy MAS_CNT_BCN_LOST.all s.blk.beaconAll.length).set MAS_EVT.BCN_WITHHELD))
      ∧ ((tq ≠ 5 ∧ tq ≠ 7) ∨ s.blk.bit HOOP_CTL.BCN_OVR = true →
          (s.blk.hwdNormal = false ∨ half.typ ≠ 1 ∨ half.allows mkFC = false →
            Gives .beaconPrepare s (((a.wr MAS_BCN_ST.RESULT 3).incBy MAS_CNT_BCN_LOST.all s.blk.beaconAll.length).set MAS_EVT.BCN_KEY_FAIL))
          ∧ (s.blk.hwdNormal = true → half.typ = 1 → half.allows mkFC = true →
            let ann := b.announce.1
            let body := a.beaconHead (b.sf + 1) (ann.length / 8) ++ ann
            let nonce := leBytes 4 (s.blk.rd CNP_STAT.POS * 2 ^ 25) ++ leBytes 4 (b.sf + 1) ++ [3] ++ leBytes 4 (s.blk.reg MAS_DOMAIN_ID.all.base).toNat
            let sealed := body ++ ccmTag half.key nonce (leBytes 2 (tyBEACON + (42 + ann.length) * 4) ++ body) []
            8 ∣ ann.length → Gives .beaconPrepare s (s.blk.beaconAll.foldl
              (fun c x => c.beaconArm (sealed ++ leBytes 4 (crc32 sealed)) (b.sf + 1) x) a))))
  ∧ (∀ b : Block, 8 ∣ b.announce.1.length ∧ b.announce.1.length ≤ 64)
  ∧ (∀ (b : Block) (f : List Byte) (s : Nat) (x : Nat × Nat),
      let ask : TxAsk := ⟨.beacon, b.rd MAS_BCN_BAND.TX_PORTS x.1, x.1, x.2, b.rd MAS_BCN_BAND.SF_CODE x.1, 0, 0, .bytes tyBEACON f, htAt s 0,
        b.rd MAS_BCN_BAND.ATTEN x.1⟩
      (b.txStatus ask b.clk.htime ≠ 0 → (b.beaconArm f s x).rd MAS_BCN_ST.TXSTAT = b.txStatus ask b.clk.htime % 256
        ∧ (b.beaconArm f s x).rd MAS_BCN_ST.RESULT = 2 ∧ (b.beaconArm f s x).bit MAS_EVT.BCN_REFUSED = true)
      ∧ (b.txStatus ask b.clk.htime = 0 → ∃ h t, Tbl.find (b.beaconArm f s x).txc.txs h = some t ∧ t.owner = .beacon ∧ t.t1 = htAt s 0 ∧ t.ch = x.2
        ∧ t.frame = .bytes tyBEACON f))

namespace Sys2Proof.Machine

/-- A PPS_IN edge stamped `t` is accepted (R50): it is the first of the source, the window of four seconds has closed, or it lies within 1 µs of a
whole number of seconds, at least one, after the last accepted edge. -/
def ppsAccepted (y : HoopSync) (t : BitVec 64) : Bool :=
  match y.ppsLast with
  | none => true
  | some a =>
    let d := t.toNat - a.toNat
    let n := (d + 2 ^ 31) / 2 ^ 32
    decide (4 ≤ y.ppsClosed) || (decide (1 ≤ n) && decide (((d : Int) - (n * 2 ^ 32 : Nat)).natAbs * 10 ^ 6 ≤ 2 ^ 32))

/-- The lock state when the phase source or REFCLK is lost (R56). -/
def lockLost (l : Nat) : Nat := if l = lkLOCKED then lkHOLDOVER else if l = lkACQUIRING then lkUNLOCKED else l

end Sys2Proof.Machine

/-- While no copy of the Hoop drives the outputs nothing is measured and no source is lost. Else an accepted PPS edge or PTP submission is kept and
shown and, where its source is in force, measured; an edge not accepted only passes time, a stale PTP stamp sets PTP_STALE. A window that closes, or
4 s without PTP, clears the source's OK bit, and the source in force is lost after two closed windows or at once. A measurement is shown in
PHASE_ERR; with REF_OK it makes UNLOCKED ACQUIRING, eight passing ones in a row make LOCKED, three in a row above STEP_THR make LOCKED ACQUIRING,
and one above STEP_THR under STEP_EN leaves a step waiting while not LOCKED. The loss of REFCLK clears REF_OK and REFCLK_OK, takes the slew out of
the rate and the lock state as a lost source does, and holds DSP_CLK once it has run from REFCLK; its return sets both again, under PSRC NONE at the
REFCLK rate, and DSP_HOLD ends with the relock. HOLD_MAX superframes of HOLDOVER end in UNLOCKED. A write of HOOP_CTL stores its fields, unlocks
where PSRC changes, and rearms or forces a switch as asked. COMPLETION: under hypotheses on the state and the operands alone, exec is said here to
answer a next state with the own effect of ppsEdge, ppsWindowClose, ptpSubmit, ptpSourceLost, refclkLoss, refclkRestore, dspRelock, holdMaxExpiry,
psrcWrite. (R50, R51, R52, R53, R54, R55, R56, R80, R83, R138) -/
def Obligations.HoopMeasurements : Prop :=
  (∀ (s : State) (v : Word), s.blk.hoopDown = true → (∀ t, NoEffect (.ppsEdge t) s) ∧ NoEffect .ppsWindowClose s ∧ NoEffect .ptpSourceLost s
      ∧ NoEffect .holdMaxExpiry s ∧ Gives (.ptpSubmit v) s (s.blk.start.hiWrite HOOP_PTP_OFS_HI.all.base v) ∧ ∀ e, s.blk.measure e = s.blk)
  ∧ (∀ (s : State) (t : BitVec 64), s.blk.hoopDown = false → ppsAccepted s.blk.hoop.sync t = false → Gives (.ppsEdge t) s (s.blk.start.toTime t))
  ∧ (∀ (s : State) (t : BitVec 64), s.blk.hoopDown = false → ppsAccepted s.blk.hoop.sync t = true →
      let b := ((s.blk.start.toTime t).setSync { s.blk.hoop.sync with ppsLast := some t, ppsClosed := 0 }).set HOOP_STATE.PPS_OK
      Gives (.ppsEdge t) s (if s.blk.phaseSource = psPPS then
        b.measure ((t.toNat : Int) - ((t.toNat + 2 ^ 31) / 2 ^ 32 * 2 ^ 32 : Nat)) else b))
  ∧ (∀ s : State, s.blk.hoop.sync.ppsLast = none ∨ 4 ≤ s.blk.hoop.sync.ppsClosed → NoEffect .ppsWindowClose s)
  ∧ (∀ (s : State) (a : BitVec 64), s.blk.hoopDown = false → s.blk.hoop.sync.ppsLast = some a → s.blk.hoop.sync.ppsClosed < 4 → Runs .ppsWindowClose s (fun t =>
      t.bit HOOP_STATE.PPS_OK = false ∧ t.hoop.sync.ppsClosed = s.blk.hoop.sync.ppsClosed + 1 ∧ t.hoop.sync.ppsLast = some a
      ∧ t.lock = (if s.blk.phaseSource = psPPS ∧ 1 ≤ s.blk.hoop.sync.ppsClosed then lockLost s.blk.lock else s.blk.lock)))
  ∧ (∀ (s : State) (v : Word), s.blk.hoopDown = false →
      let b := s.blk.start.hiWrite HOOP_PTP_OFS_HI.all.base v
      (s.blk.rd64 HOOP_PTP_STAMP_LO.all HOOP_PTP_STAMP_HI.all + 2 ^ 32 < s.blk.clk.htime.toNat → Gives (.ptpSubmit v) s (b.set HOOP_EVT.PTP_STALE))
      ∧ (s.blk.clk.htime.toNat ≤ s.blk.rd64 HOOP_PTP_STAMP_LO.all HOOP_PTP_STAMP_HI.all + 2 ^ 32 →
        let c := (b.setSync { s.blk.hoop.sync with ptpLast := some s.blk.clk.htime }).set HOOP_STATE.PTP_OK
        Gives (.ptpSubmit v) s (if s.blk.phaseSource = psPTP then
          c.measure (-(signed 64 (b.rd64 HOOP_PTP_OFS_LO.all HOOP_PTP_OFS_HI.all))) else c)))
  ∧ (∀ s : State, s.blk.hoop.sync.ptpLast = none → NoEffect .ptpSourceLost s)
  ∧ (∀ s : State, s.blk.hoopDown = false → s.blk.hoop.sync.ptpLast ≠ none → Runs .ptpSourceLost s (fun t =>
      t.bit HOOP_STATE.PTP_OK = false ∧ t.hoop.sync.ptpLast = none
      ∧ t.lock = (if s.blk.phaseSource = psPTP then lockLost s.blk.lock else s.blk.lock)))
  ∧ (∀ (b : Block) (e : Int), b.hoopDown = false → b.bit HOOP_STATE.REF_OK = false → b.measure e = b.wr HOOP_PHASE_ERR.all (unsigned 32 (satSym 32 e)))
  ∧ (∀ (b : Block) (e : Int), b.hoopDown = false → b.bit HOOP_STATE.REF_OK = true →
      let y := b.hoop.sync
      (b.measure e).lock = (if b.lock = lkUNLOCKED then lkACQUIRING
        else if b.lock = lkLOCKED then (if b.errBig e = true ∧ 3 ≤ y.failRun + 1 then lkACQUIRING else lkLOCKED)
        else if b.errPasses e = true ∧ 8 ≤ y.passRun + 1 then lkLOCKED else b.lock)
      ∧ ((b.measure e).lock = lkLOCKED → b.lock ≠ lkHOLDOVER → (b.measure e).clk.rate.natAbs ≤ 10 ^ 7)
      ∧ ((b.measure e).lock ≤ lkACQUIRING → b.lock ≤ lkACQUIRING → b.bit HOOP_CTL.STEP_EN = true → b.errBig e = true →
          (b.measure e).hoop.sync.pendStep = some e)
      ∧ (b.measure e).rd HOOP_PHASE_ERR.all = unsigned 32 (satSym 32 e))
  ∧ (∀ s : State, s.blk.bit HOOP_STATE.REF_OK = false → NoEffect .refclkLoss s)
  ∧ (∀ s : State, s.blk.bit HOOP_STATE.REF_OK = true → Runs .refclkLoss s (fun t =>
      t.bit HOOP_STATE.REF_OK = false ∧ t.bit RXA_STAT.REFCLK_OK = false
      ∧ (s.blk.hoopDown = true → t.lock = s.blk.lock ∧ t.clk.rate = s.blk.clk.rate)
      ∧ (s.blk.hoopDown = false → t.lock = lockLost s.blk.lock
        ∧ t.clk.rate = (let m : Int := if lkLOCKED ≤ s.blk.lock then 10 ^ 7 else 10 ^ 12 - 1
            if s.blk.lock = lkLOCKED ∨ s.blk.phaseSource ≠ psNONE then max (-m) (min m s.blk.hoop.sync.integ) else s.blk.clk.rate)) ∧ t.clk.htime = s.blk.clk.htime
      ∧ t.bit RXA_STAT.DSP_HOLD = (s.blk.bit RXA_STAT.DSP_HOLD || s.blk.bit PWR_PLL_ST.DSP_SRC)))
  ∧ (∀ s : State,
      let b := (s.blk.start.set HOOP_STATE.REF_OK).set RXA_STAT.REFCLK_OK
      Gives .refclkRestore s (if s.blk.rd HOOP_CTL.PSRC = psNONE ∧ s.blk.hoopDown = false then b.setRate 0 else b))
  ∧ (∀ s : State, if s.blk.bit RXA_STAT.DSP_HOLD = true ∧ s.blk.bit HOOP_STATE.REF_OK = true then
      Runs .dspRelock s (fun t => t.bit RXA_STAT.DSP_HOLD = false ∧ RegsKept s.blk t [RXA_STAT.all.base, RXA_EVT.all.base]
        ∧ t.bit RXA_EVT.LINK_UP = (s.blk.bit RXA_EVT.LINK_UP || s.blk.rd RXA_STAT.LINKS_UP != 0))
      else NoEffect .dspRelock s)
  ∧ (∀ s : State, s.blk.lock ≠ lkHOLDOVER ∨ s.blk.reg HOOP_HOLD_MAX.all.base = 0 → NoEffect .holdMaxExpiry s)
  ∧ (∀ s : State, s.blk.hoopDown = false → s.blk.lock = lkHOLDOVER → s.blk.reg HOOP_HOLD_MAX.all.base ≠ 0 → Runs .holdMaxExpiry s (fun t =>
      t.lock = lkUNLOCKED ∧ t.bit HOOP_EVT.LOCK_CHG = true ∧ RegsKept s.blk t [HOOP_STATE.all.base, HOOP_EVT.all.base]
      ∧ t.clk = (s.blk.toTime (s.blk.hoop.sync.holdStart + BitVec.ofNat 64 ((s.blk.reg HOOP_HOLD_MAX.all.base).toNat * 2 ^ 32))).clk))
  ∧ (∀ (s : State) (v : Word), Runs (.psrcWrite v) s (fun t =>
      t.reg HOOP_CTL.all.base = fput (v &&& 0x3F) HOOP_CTL.PROOF_NOW (max (s.blk.rd HOOP_CTL.PROOF_NOW) (fget v HOOP_CTL.PROOF_NOW))
      ∧ t.lock = (if t.rd HOOP_CTL.PSRC = s.blk.rd HOOP_CTL.PSRC then s.blk.lock else lkUNLOCKED)
      ∧ (fget v HOOP_CTL.REARM = 1 → s.blk.rd HOOP_STATE.STBY = 3 → s.blk.hoop.red.dead = false → t.hoop.red.rearmed = true)
      ∧ (fget v HOOP_CTL.FORCE_SW = 1 → s.blk.rd HOOP_STATE.STBY ≠ 3 → s.blk.hoop.red.dead = false → t.hoop.red.gap = true)
      ∧ (fget v HOOP_CTL.FORCE_SW = 0 → t.hoop.red.gap = s.blk.hoop.red.gap)))

/-- REARM, FORCE_SW and PROOF_NOW act where they may. A proof run that is due starts from READY or SUSPECT; it ends READY with its cell, or with a
mismatch SUSPECT, with another run in the next cell, and then FAILED, with PROOF_FAIL counted. A heartbeat that comes with its sequence number and
parity is good; another is a miss, which counts in the row of its path and is reported while the other path is good; after an internal fault none
comes. Failover is due 264 HOOP cycles after the last good heartbeat of either path once both have missed 4; it freezes the outputs for 512 beats,
or, with no standby, until reset. At the end of the gap the copies change roles with STBY FAILED, FAILOVER sets, the lock state and rate are the
checkpoint's, every strobe collected counts as late, and a cell boundary passed in it is pulsed. While no copy drives the outputs none of these but
the end of the gap happens. COMPLETION: under hypotheses on the state and the operands alone, exec is said here to answer a next state with the own
effect of forceSw, rearm, proofNow, proofRun, proofRunEnd, hoopInternalFault, heartbeatMiss, failoverStart, failoverGapEnd. (R75, R76, R77, R78,
R79, R80, R81, R82, R83) -/
def Obligations.HoopRedundancy : Prop :=
  (∀ s : State, (if s.blk.rd HOOP_STATE.STBY = 3 ∧ s.blk.hoop.red.dead = false then
        Gives .rearm s (s.blk.start.setRed { s.blk.hoop.red with rearmed := true, proofMism := 0, proofFrom := none }) else NoEffect .rearm s)
      ∧ Gives .proofNow s ((s.blk.start.wr HOOP_CTL.PROOF_NOW 1).setRed { s.blk.hoop.red with
          proofFrom := some (s.blk.hoop.red.proofFrom.getD (s.blk.clk.cell + 1)) })
      ∧ (s.blk.hoopDown = false → Gives .hoopInternalFault s (s.blk.start.setRed { s.blk.hoop.red with
          hbStop := some (s.blk.hoop.red.hbStop.getD ((2 * s.blk.clk.beat - s.blk.hoop.red.hbFrom) / 64)) })))
  ∧ (∀ s : State, s.blk.hoop.red.gap = true ∨ s.blk.hoop.red.dead = true → NoEffect .failoverStart s ∧ NoEffect .forceSw s ∧ NoEffect .proofRun s
      ∧ NoEffect .hoopInternalFault s ∧ (∀ m, NoEffect (.proofRunEnd m) s) ∧ ∀ y g, NoEffect (.heartbeatMiss ⟨y, g⟩) s)
  ∧ (∀ b : Block, b.hoop.red.hbStop = none → b.failoverDue =
      (let m := min (b.hbRun false) (b.hbRun true)
       let i := (2 * b.clk.beat - b.hoop.red.hbFrom) / 64
       if 4 ≤ m then some ((b.hoop.red.hbFrom + (64 * (i - m) + 264)) / 2) else none))
  ∧ (∀ s : State, s.blk.failoverDue = none → NoEffect .failoverStart s)
  ∧ (∀ s : State, s.blk.rd HOOP_STATE.STBY = 3 → NoEffect .forceSw s)
  ∧ (∀ s : State, s.blk.hoop.red.gap = false → s.blk.hoop.red.dead = false → s.blk.rd HOOP_STATE.STBY ≠ 3 →
      let gap (b : Block) : Block := b.setRed { s.blk.hoop.red with gap := true, gapEnd := b.clk.beat + 512, gapStrobes := [] }
      Gives .forceSw s (gap s.blk.start) ∧ ∀ n, s.blk.failoverDue = some n → Gives .failoverStart s (gap (s.blk.start.toBeat n)))
  ∧ (∀ (s : State) (n : Nat), s.blk.hoop.red.gap = false → s.blk.hoop.red.dead = false → s.blk.rd HOOP_STATE.STBY = 3 → s.blk.failoverDue = some n →
      Runs .failoverStart s (fun t => t.hoop.red.dead = true ∧ t.hoop.red.gap = false ∧ t.bit HOOP_EVT.STBY_FAILED = true
        ∧ t.clk = (s.blk.start.toBeat n).clk))
  ∧ (∀ s : State, s.blk.hoopDown = false → if s.blk.proofDue = true ∧ (s.blk.rd HOOP_STATE.STBY = 0 ∨ s.blk.rd HOOP_STATE.STBY = 2) then
      Runs .proofRun s (fun t => t.rd HOOP_STATE.STBY = 1 ∧ t.hoop.red.proofCell = some s.blk.clk.cell ∧ RegsKept s.blk t [HOOP_STATE.all.base, HOOP_CTL.all.base]
        ∧ (∀ f, s.blk.hoop.red.proofFrom = some f → f ≤ s.blk.clk.cell → t.rd HOOP_CTL.PROOF_NOW = 0 ∧ t.hoop.red.proofFrom = none)) else NoEffect .proofRun s)
  ∧ (∀ (s : State) (m : Bool), s.blk.rd HOOP_STATE.STBY ≠ 1 → NoEffect (.proofRunEnd m) s)
  ∧ (∀ s : State, s.blk.hoopDown = false → s.blk.rd HOOP_STATE.STBY = 1 →
      let next := s.blk.hoop.red.proofCell.getD s.blk.clk.cell + 1
      Gives (.proofRunEnd false) s (((s.blk.start.toTime (BitVec.ofNat 64 (next * 2 ^ 24))).wr HOOP_STATE.STBY 0).setRed { s.blk.hoop.red with proofMism := 0 })
      ∧ Runs (.proofRunEnd true) s (fun t => t.bit HOOP_EVT.PROOF_FAIL = true
        ∧ t.rd HOOP_RED_ST.PROOF_FAILS = min (s.blk.rd HOOP_RED_ST.PROOF_FAILS + 1) 255
        ∧ t.rd HOOP_STATE.STBY = (if s.blk.hoop.red.proofMism = 0 then 2 else 3)
        ∧ (s.blk.hoop.red.proofMism ≠ 0 → t.bit HOOP_EVT.STBY_FAILED = true)
        ∧ (s.blk.hoop.red.proofMism = 0 → t.hoop.red.proofFrom = some (min next (s.blk.hoop.red.proofFrom.getD next)))))
  ∧ (∀ (s : State) (y : Bool) (got : Option (Nat × Bool)), s.blk.hoopDown = false →
      let r := s.blk.hoop.red
      let p := if y then r.hbY else r.hbX
      let i := (2 * s.blk.clk.beat - r.hbFrom) / 64
      let k := if 1 ≤ i ∧ (r.hbFrom + 64 * i) / 2 = s.blk.clk.beat ∧ p.last ≠ i then i else i + 1
      let b := s.blk.start.toBeat ((r.hbFrom + 64 * k) / 2)
      let sent := ∀ x, r.hbStop = some x → k ≤ x
      (¬ sent ∨ got = some (k % 64, true) → Gives (.heartbeatMiss ⟨y, got⟩) s b)
      ∧ (sent → got ≠ some (k % 64, true) → Runs (.heartbeatMiss ⟨y, got⟩) s (fun t => t.clk = b.clk
        ∧ (if y then t.hoop.red.hbY else t.hoop.red.hbX) = { last := k, run := (if p.last = k - 1 then p.run else 0) + 1 }
        ∧ t.bit (if y then HOOP_EVT.HB_Y_MISS else HOOP_EVT.HB_X_MISS)
          = (s.blk.bit (if y then HOOP_EVT.HB_Y_MISS else HOOP_EVT.HB_X_MISS) || b.hbRun (!y) == 0))))
  ∧ (∀ (s : State) (f : Bool), s.blk.hoop.red.gap = false → NoEffect (.failoverGapEnd f) s)
  ∧ (∀ (s : State) (f : Bool), s.blk.hoop.red.gap = true →
      let b := s.blk.start.gapOver f
      Gives (.failoverGapEnd f) s (if b.clk.cell < cellOf b.clk.htime then b.cellStart (cellOf b.clk.htime) true else b))
  ∧ (∀ (b : Block) (f : Bool),
      let c := if b.hoop.red.ckptSel != f then b.hoop.red.ckptB else b.hoop.red.ckptA
      let t := b.gapOver f
      t.hoop.red.gap = false ∧ t.hoop.red.gapStrobes = [] ∧ t.bit HOOP_EVT.FAILOVER = true
      ∧ t.rd HOOP_RED_ST.FAILOVERS = min (b.rd HOOP_RED_ST.FAILOVERS + 1) 255 ∧ t.rd HOOP_STATE.STBY = 3
      ∧ t.rd HOOP_STATE.ACTIVE = 1 - b.rd HOOP_STATE.ACTIVE ∧ (f = true → t.bit HOOP_EVT.CKPT_ERR = true)
      ∧ (∀ k, c = some k → b.bit HOOP_STATE.REF_OK = true → t.lock = k.lock % 2 ^ HOOP_STATE.LOCK.width ∧ t.clk.rate = k.rate)
      ∧ t.rd HOOP_LATE_CNT.all = min (b.rd HOOP_LATE_CNT.all + b.hoop.red.gapStrobes.length) (2 ^ 32 - 1))

/-- A read of word 0 loads all eight words of the descriptor, reads of the other words answer what was loaded, and word 7 advances INDEX under
AUTO_INC. Writes of words 0 to 6 are held, a write of word 7 stores the eight words into the descriptor of the bank that is not active and leaves
every other descriptor; for the active bank, or while an epoch is VALIDATING or ARMED, it stores nothing and sets WR_IGN. COMPLETION: under
hypotheses on the state and the operands alone, exec is said here to answer a next state with the own effect of warpDataLoad, warpDataStore. (R59,
R70, R84) -/
def Obligations.WarpWindow : Prop :=
  (∀ s : State, Runs (.warpDataLoad 0) s (fun t =>
      let i := s.blk.rd HOOP_WARP_ADDR.INDEX
      t.resp = .data (s.blk.warpWord s.blk.warpAddrBank i 0) ∧ t.hoop.warp.rd = (List.range 8).map (s.blk.warpWord s.blk.warpAddrBank i)
      ∧ RegsKept s.blk t [] ∧ ∀ x y z, t.warpWord x y z = s.blk.warpWord x y z))
  ∧ (∀ (s : State) (n : Nat), 0 < n → n < 8 → Runs (.warpDataLoad n) s (fun t =>
      t.resp = .data (s.blk.hoop.warp.rd.getD n 0) ∧ t.hoop.warp.rd = s.blk.hoop.warp.rd
      ∧ t.rd HOOP_WARP_ADDR.INDEX = (s.blk.rd HOOP_WARP_ADDR.INDEX + if n = 7 ∧ s.blk.bit HOOP_WARP_ADDR.AUTO_INC = true then 1 else 0) % 131072
      ∧ ∀ x y z, t.warpWord x y z = s.blk.warpWord x y z))
  ∧ (∀ (s : State) (n : Nat) (v : Word), n < 7 → Gives (.warpDataStore n v) s (s.blk.start.setWarp { s.blk.hoop.warp with
      wr := (List.range 8).map (fun i => if i = n then v else s.blk.hoop.warp.wr.getD i 0) }))
  ∧ (∀ (s : State) (v : Word), Runs (.warpDataStore 7 v) s (fun t =>
      let i := s.blk.rd HOOP_WARP_ADDR.INDEX
      t.rd HOOP_WARP_ADDR.INDEX = (i + if s.blk.bit HOOP_WARP_ADDR.AUTO_INC = true then 1 else 0) % 131072
      ∧ (s.blk.bit HOOP_WARP_ADDR.BANK_SEL = true ∨ s.blk.epochBusy = true →
          t.bit HOOP_EPOCH_ST.WR_IGN = true ∧ ∀ x y z, t.warpWord x y z = s.blk.warpWord x y z)
      ∧ (s.blk.bit HOOP_WARP_ADDR.BANK_SEL = false → s.blk.epochBusy = false →
          (∀ j, j < 8 → t.warpWord (1 - s.blk.hoop.warp.bank) i j = if j = 7 then v else s.blk.hoop.warp.wr.getD j 0)
          ∧ (∀ x y z, y < 131072 → z < 8 → ¬ (x = 1 - s.blk.hoop.warp.bank ∧ y = i) → t.warpWord x y z = s.blk.warpWord x y z)
          ∧ RegsKept s.blk t [HOOP_WARP_ADDR.all.base])))

/-- COMMIT starts validation unless an epoch is VALIDATING or ARMED, then it sets WR_IGN; CANCEL returns to IDLE but for a frozen epoch. Validation
refuses with the first reason that applies, or arms. The freeze point holds an epoch on a recent pending mismatch under HOLD_EN, else freezes it. An
armed epoch that is not held activates: EPOCH and H, the sequence offset, the digest and the digest expectations become the pending ones, the warp
banks and counts exchange under SWAP bit 0, and EPOCH_ACT sets with ST IDLE. While no copy of the Hoop drives the outputs no validation ends,
freezes or activates. COMPLETION: under hypotheses on the state and the operands alone, exec is said here to answer a next state with the own effect
of epochCommit, epochCancel, epochValidationDone, freezePoint, epochActivation. (R68, R69, R70, R71, R72, R73, R241, R266, R461) -/
def Obligations.HoopEpochs : Prop :=
  (∀ s : State, (if s.blk.epochBusy = true then Gives .epochCommit s (s.blk.start.set HOOP_EPOCH_ST.WR_IGN) else
        Gives .epochCommit s ((s.blk.start.epochState epVALIDATING 0 0).setWarp { s.blk.hoop.warp with commitSf := s.blk.sf, frozen := false }))
      ∧ (if s.blk.rd HOOP_EPOCH_ST.ST = epIDLE ∨ (s.blk.rd HOOP_EPOCH_ST.ST = epARMED ∧ s.blk.hoop.warp.frozen = true) then NoEffect .epochCancel s
        else Gives .epochCancel s (s.blk.start.epochState epIDLE 0 0))
      ∧ (s.blk.rd HOOP_EPOCH_ST.ST ≠ epVALIDATING → NoEffect .epochValidationDone s)
      ∧ (s.blk.rd HOOP_EPOCH_ST.ST ≠ epARMED → NoEffect .epochActivation s)
      ∧ (s.blk.rd HOOP_EPOCH_ST.ST ≠ epARMED ∨ s.blk.hoop.warp.frozen = true → NoEffect .freezePoint s)
      ∧ (s.blk.hoopDown = true → NoEffect .epochValidationDone s ∧ NoEffect .epochActivation s ∧ NoEffect .freezePoint s))
  ∧ (∀ s : State, s.blk.hoopDown = false → s.blk.rd HOOP_EPOCH_ST.ST = epVALIDATING →
      let w := s.blk.hoop.warp
      let h := s.blk.rd HOOP_EPOCH_PEND.H
      let sw := bitOf (s.blk.rd HOOP_EPOCH_PEND.SWAP) 0
      let n := if sw then s.blk.rd HOOP_WARP_COUNT.COUNT else s.blk.rd HOOP_WARP_ACT_COUNT.COUNT
      let bad := s.blk.badDesc (if sw then 1 - w.bank else w.bank) n h
      let refused (r i : Nat) : Prop := Gives .epochValidationDone s ((s.blk.start.epochState epREFUSED r i).set HOOP_EVT.EPOCH_REFUSED)
      if sw = true ∧ 131072 < n then refused 4 0
      else if 12 < h then refused 6 0
      else if s.blk.rd HOOP_EPOCH_PEND.EPOCH = s.blk.rd HOOP_EPOCH_ACT.EPOCH then refused 3 0
      else if s.blk.actSf < w.commitSf + 2 then refused 2 0
      else (∀ i, bad = some i → refused 1 i) ∧ (bad = none → Runs .epochValidationDone s (fun t =>
        t.rd HOOP_EPOCH_ST.ST = epARMED ∧ t.rd HOOP_EPOCH_ST.REASON = 0 ∧ t.hoop.warp.digPend = s.blk.digestNext ∧ t.hoop.warp.frozen = false
        ∧ RegsKept s.blk t [HOOP_EPOCH_ST.all.base])))
  ∧ (∀ s : State, s.blk.hoopDown = false → s.blk.rd HOOP_EPOCH_ST.ST = epARMED → s.blk.hoop.warp.frozen = false →
      let held := s.blk.bit HOOP_CTL.HOLD_EN = true ∧ ∃ x, s.blk.hoop.warp.pendMm = some x ∧ s.blk.actSf ≤ x + 2
      (held → Runs .freezePoint s (fun t => t.rd HOOP_EPOCH_ST.ST = epHELD ∧ t.rd HOOP_EPOCH_ST.REASON = 5 ∧ t.bit HOOP_EVT.EPOCH_HELD = true)
        ∧ Runs .epochActivation s (fun t => t.rd HOOP_EPOCH_ST.ST = epHELD ∧ t.rd HOOP_EPOCH_ACT.EPOCH = s.blk.rd HOOP_EPOCH_ACT.EPOCH))
      ∧ (¬ held → Runs .freezePoint s (fun t => t.rd HOOP_EPOCH_ST.ST = epARMED ∧ t.hoop.warp.frozen = true)))
  ∧ (∀ s : State, s.blk.hoopDown = false → s.blk.rd HOOP_EPOCH_ST.ST = epARMED → (s.blk.hoop.warp.frozen = true ∨ s.blk.bit HOOP_CTL.HOLD_EN = false) →
      Runs .epochActivation s (fun t => t.rd HOOP_EPOCH_ST.ST = epIDLE ∧ t.bit HOOP_EVT.EPOCH_ACT = true
        ∧ t.rd HOOP_EPOCH_ACT.EPOCH = s.blk.rd HOOP_EPOCH_PEND.EPOCH ∧ t.rd HOOP_EPOCH_ACT.H = s.blk.rd HOOP_EPOCH_PEND.H
        ∧ t.hoop.warp.digAct = some s.blk.hoop.warp.digPend ∧ t.hoop.warp.frozen = false
        ∧ t.rd MAS_BCN_CTL.SEQ_OFS = s.blk.rd MAS_BCN_CTL.SEQ_OFS_PEND
        ∧ (∀ i, i < 8 → t.reg (CNP_EXPA_LO.all.off i) = s.blk.reg (CNP_EXPP_LO.all.off i) ∧ t.reg (CNP_EXPA_HI.all.off i) = s.blk.reg (CNP_EXPP_HI.all.off i))
        ∧ (if bitOf (s.blk.rd HOOP_EPOCH_PEND.SWAP) 0 = true then
            t.hoop.warp.bank = 1 - s.blk.hoop.warp.bank ∧ t.rd HOOP_WARP_ACT_COUNT.COUNT = s.blk.rd HOOP_WARP_COUNT.COUNT
            ∧ t.rd HOOP_WARP_COUNT.COUNT = s.blk.rd HOOP_WARP_ACT_COUNT.COUNT
          else t.hoop.warp.bank = s.blk.hoop.warp.bank ∧ t.rd HOOP_WARP_ACT_COUNT.COUNT = s.blk.rd HOOP_WARP_ACT_COUNT.COUNT)))

/-- The entry of a group descriptor in use in the next superframe is read and kept: the DRAM word, or in error where it is poisoned or beyond DRAM
(of a memory with no error in its array). The strobe of an occupied descriptor that is not a group, whose time has not been passed over and that has
not issued, issues in the first HOOP cycle from its time on that no strobe has taken, with its node, user word, slip and lock; in a failover gap it
is collected with the cycle it was due in. Any other leaves the block as it was, and a group whose entry says SKIP issues none. COMPLETION: under
hypotheses on the state and the operands alone, exec is said here to answer a next state with the own effect of groupListRead, slotStrobe. (R61,
R62, R64, R65, R66, R78) -/
def Obligations.HoopGroupsAndStrobes : Prop :=
  (∀ (s : State) (i : Nat),
      let f := s.blk.sf + 1
      let k := s.blk.bankFor f
      (s.blk.countFor f ≤ i ∨ s.blk.occupied k i f = false ∨ s.blk.dsc k i 2 11 11 = 0 ∨ s.blk.hoopDown = true → NoEffect (.groupListRead i) s)
      ∧ (s.blk.hoopDown = false → i < s.blk.countFor f → s.blk.occupied k i f = true → s.blk.dsc k i 2 11 11 ≠ 0 →
        Runs (.groupListRead i) s (fun t => t.groupOf i f = some (s.blk.groupFetch k i f).1
          ∧ ∀ j g, ¬ (j = i ∧ g = f) → t.groupOf j g = s.blk.groupOf j g)))
  ∧ (∀ (b : Block) (k i f : Nat), b.dram.err = [] →
      let a := (b.warpWord k i 3).toNat * 64 + 4 * (f % max 1 (b.dsc k i 4 24 0))
      (b.groupFetch k i f).1 = if b.dramSize ≤ a ∨ b.dramPoisoned a 4 = true then { idx := i, sf := f, word := 0, err := true }
        else { idx := i, sf := f, word := BitVec.ofNat 32 (b.dramLe a 4), err := false })
  ∧ (∀ (s : State) (i f : Nat), s.blk.countFor f ≤ i ∨ s.blk.occupied (s.blk.bankFor f) i f = false
      ∨ s.blk.strobeTime (s.blk.bankFor f) i f < s.blk.hoop.sync.strobeFloor.toNat ∨ s.blk.strobeTime (s.blk.bankFor f) i f < s.blk.hoop.warp.scan
      ∨ s.blk.hoop.red.dead = true
      ∨ s.blk.hoop.red.journal.contains (i, f) = true → NoEffect (.slotStrobe i f) s)
  ∧ (∀ (s : State) (i f : Nat), i < s.blk.countFor f → s.blk.occupied (s.blk.bankFor f) i f = true →
      s.blk.hoop.sync.strobeFloor.toNat ≤ s.blk.strobeTime (s.blk.bankFor f) i f → s.blk.hoop.warp.scan ≤ s.blk.strobeTime (s.blk.bankFor f) i f → s.blk.hoop.red.dead = false →
      s.blk.hoop.red.journal.contains (i, f) = false →
      let k := s.blk.bankFor f
      let due := s.blk.clk.cycleOf (s.blk.strobeTime k i f)
      let st : Strobe := ⟨i, k, f, BitVec.ofNat 64 (s.blk.slotStart k i f), (s.blk.warpWord k i 3).toNat % 2 ^ 28, s.blk.warpWord k i 7,
        max due s.blk.hoop.warp.nextCycle - due, false, decide (s.blk.lock ≤ 1), false, (s.blk.warpWord k i 5).toNat % 32,
        (s.blk.warpWord k i 5).toNat / 32 % 8192⟩
      (s.blk.dsc k i 2 11 11 ≠ 1 →
        (s.blk.hoop.red.gap = false → Runs (.slotStrobe i f) s (fun t => t.out = [.strobe st]
          ∧ t.hoop.warp.nextCycle = max due s.blk.hoop.warp.nextCycle + 1 ∧ t.hoop.red.journal = s.blk.hoop.red.journal ++ [(i, f)]
          ∧ (st.slip ≠ 0 → t.bit HOOP_EVT.SLIP = true)))
        ∧ (s.blk.hoop.red.gap = true → Runs (.slotStrobe i f) s (fun t => t.out = [] ∧ RegsKept s.blk t []
          ∧ t.hoop.red.gapStrobes = s.blk.hoop.red.gapStrobes ++ [(due, st)])))
      ∧ (∀ g, s.blk.dsc k i 2 11 11 = 1 → s.blk.groupOf i f = some g →
        (g.word.getLsbD 31 = true → Gives (.slotStrobe i f) s (s.blk.start.toTime (BitVec.ofNat 64 (s.blk.strobeTime k i f))))
        ∧ (g.word.getLsbD 31 = false → s.blk.hoop.red.gap = false → Runs (.slotStrobe i f) s (fun t =>
          t.out = [.strobe { st with node := g.word.toNat % 2 ^ 28, grperr := g.err }] ∧ (g.err = true → t.bit HOOP_EVT.GROUP_ERR = true)))))

/-- While a copy of the Hoop drives the outputs the command brings HTIME to the next cell boundary and starts the cell in every block; where a step
waits whose instant comes no later, HTIME is brought there and stepped by the phase error, and the cell of the stepped scale starts. In a switchover
gap time passes up to a boundary that lies in it, and no cell starts; with both copies lost the cell only counts on. A step writes the
resynchronisation base, the number of the superframe after it, sets STEP and SYNC_STEP and holds sealed messages back when it goes backward. At a
cell the cell number is the new one, HTIME and the memories stand (DRAM with no error in its array), and, unless a gap, a dead Hoop or a stopped
heartbeat prevents it, the journal is cleared and the checkpoint of the instant is in the buffer that was not the latest. COMPLETION: under
hypotheses on the state and the operands alone, exec is said here to answer a next state with the own effect of cellBoundary. (R46, R53, R76, R213)
-/
def Obligations.CellBoundaryAndSteps : Prop :=
  (∀ s : State,
      let b := s.blk.start.toTime (BitVec.ofNat 64 ((s.blk.clk.cell + 1) * 2 ^ 24))
      (s.blk.hoop.red.dead = true → Gives .cellBoundary s { b with clk := { b.clk with cell := s.blk.clk.cell + 1 } })
      ∧ (s.blk.hoop.red.dead = false → s.blk.hoop.red.gap = true → Gives .cellBoundary s (if b.clk.beat ≤ s.blk.hoop.red.gapEnd then b else s.blk.start))
      ∧ (s.blk.hoopDown = false → s.blk.stepDue = none → Gives .cellBoundary s (b.cellStart (s.blk.clk.cell + 1) false)))
  ∧ (∀ (s : State) (e : Int), s.blk.hoopDown = false → s.blk.stepDue = some e →
      (((s.blk.clk.cell + 1) * 2 ^ 24 < stepInstant s.blk.clk.htime e) →
        Gives .cellBoundary s ((s.blk.start.toTime (BitVec.ofNat 64 ((s.blk.clk.cell + 1) * 2 ^ 24))).cellStart (s.blk.clk.cell + 1) false))
      ∧ (stepInstant s.blk.clk.htime e ≤ (s.blk.clk.cell + 1) * 2 ^ 24 →
        let b := (s.blk.start.toTime (BitVec.ofNat 64 (stepInstant s.blk.clk.htime e))).stepNow e
        Gives .cellBoundary s (b.cellStart (cellOf b.clk.htime) false)))
  ∧ (∀ (b : Block) (e : Int),
      let t := b.stepNow e
      t.clk.htime = BitVec.ofInt 64 ((b.clk.htime.toNat : Int) - e) ∧ t.clk.beat = b.clk.beat ∧ t.hoop.sync.pendStep = none
      ∧ t.reg MAS_SYNC_BASE.all.base = BitVec.ofNat 32 (t.sf + 1) ∧ t.bit HOOP_EVT.STEP = true ∧ t.bit MAS_EVT.SYNC_STEP = true
      ∧ (0 ≤ e → t.cnp.sealHold = true ∧ t.hoop.sync.strobeFloor = b.hoop.sync.lastStrobe + 1)
      ∧ (e < 0 → t.cnp.sealHold = b.cnp.sealHold
        ∧ t.hoop.sync.strobeFloor.toNat = max b.hoop.sync.strobeFloor.toNat t.clk.htime.toNat)
      ∧ t.hoop.warp.scan = t.clk.htime.toNat)
  ∧ (∀ (b : Block) (n : Nat) (g : Bool),
      let t := b.cellStart n g
      t.clk.cell = n ∧ t.clk.htime = b.clk.htime ∧ t.clk.beat = b.clk.beat ∧ (b.dram.err = [] → ∀ a, t.dramByte a = b.dramByte a)
      ∧ ∀ x y z, t.warpWord x y z = b.warpWord x y z)
  ∧ (∀ b : Block, b.hoop.red.gap = false → b.hoop.red.dead = false → b.hoop.red.hbStop = none →
      let t := b.hoopCell
      t.hoop.red.journal = [] ∧ t.hoop.red.ckptSel = !b.hoop.red.ckptSel
      ∧ ∃ c, (if b.hoop.red.ckptSel = true then t.hoop.red.ckptA else t.hoop.red.ckptB) = some c ∧ c.stamp = b.clk.beat ∧ c.htime = b.clk.htime
        ∧ c.rate = b.clk.rate ∧ c.lock = b.lock)

namespace Sys2Proof.Machine

/-- The `n` bytes from `a` and the `m` bytes from `c` have none in common. -/
def apart (a n c m : Nat) : Prop := a + n ≤ c ∨ c + m ≤ a

/-- No word of a protected memory has an error in the array that no read has found yet. -/
def Block.noErrors (b : Block) : Prop := b.dram.err = [] ∧ b.ras.err = []

end Sys2Proof.Machine

/-- EN sets REPLAYING; the replay ends with READY, JRNL_DROP and REPLAYED telling what it met, and a single whole entry is home. EN cleared writes
every dirty line back, empties the cache, releases the locks and drains; FLUSH writes dirty lines back and keeps them clean; both end when the queue
is empty. The queue holds 512 write-backs, and those beyond wait in their order for a place. A write-back writes its journal entry with VALID 1,
then the record, then INDEX with VALID 0, and then leaves with SEQ and the count one up, and the one that waits longest takes its place. What DRAM
holds is stated where no word of it has an error that no read has found yet. COMPLETION: under hypotheses on the state and the operands alone, exec
is said here to answer a next state with the own effect of grvEnable, grvReplayDone, grvDisable, grvDrainDone, writeback, grvFlush. (R319, R320,
R321, R322, R323, R330) -/
def Obligations.GroveJournalAndDrain : Prop :=
  (∀ s : State, (if s.blk.bit GRV_CTL.EN = true then NoEffect .grvEnable s else
        Gives .grvEnable s ((s.blk.start.set GRV_CTL.EN).set GRV_STAT.REPLAYING))
      ∧ (s.blk.bit GRV_STAT.REPLAYING = false → NoEffect .grvReplayDone s)
      ∧ (s.blk.bit GRV_CTL.EN = false → NoEffect .grvDisable s ∧ Gives .grvFlush s (s.blk.start.set GRV_EVT.WR_IGN))
      ∧ (if s.blk.grv.wb = [] then Gives .grvDrainDone s ((s.blk.start.clr GRV_STAT.DRAINING).clr GRV_CTL.FLUSH) ∧ NoEffect .writeback s
        else NoEffect .grvDrainDone s))
  ∧ (∀ s : State, s.blk.bit GRV_STAT.REPLAYING = true → s.blk.noErrors →
      let es := (List.range 1024).map s.blk.jrnlEntry
      Runs .grvReplayDone s (fun t => t.bit GRV_STAT.REPLAYING = false ∧ t.bit GRV_STAT.READY = true
        ∧ t.bit GRV_EVT.JRNL_DROP = (s.blk.bit GRV_EVT.JRNL_DROP || es.any (·.2))
        ∧ t.bit GRV_EVT.REPLAYED = (s.blk.bit GRV_EVT.REPLAYED || es.any (·.1.isSome))
        ∧ ∀ n i im, es.filterMap (·.1) = [(n, i, im)] → apart (s.blk.grvRec i) 128 (s.blk.grvJrnl 0) (2 ^ 18) →
          t.dramBytes (s.blk.grvRec i) 128 = im))
  ∧ (∀ s : State, s.blk.bit GRV_CTL.EN = true →
      let q := s.blk.grv.wb ++ s.blk.grv.wbWait ++ (s.blk.grv.lines.filter (fun e => e.2.dirty)).map (fun e => (⟨e.2.idx, e.2.data⟩ : WriteBack))
      let queued (t : Block) : Prop := t.grv.wb ++ t.grv.wbWait = q
        ∧ (s.blk.grv.wbWait = [] ∨ s.blk.grv.wb.length = 512 → s.blk.grv.wb.length ≤ 512 → t.grv.wb = q.take 512)
      Runs .grvDisable s (fun t => queued t ∧ t.grv.lines = [] ∧ t.rd GRV_LOCKS.LOCKS = 0 ∧ t.bit GRV_CTL.EN = false
        ∧ t.bit GRV_STAT.READY = false ∧ t.bit GRV_STAT.REPLAYING = false ∧ t.bit GRV_STAT.DRAINING = true ∧ DramKept s.blk t)
      ∧ Runs .grvFlush s (fun t => queued t ∧ t.grv.lines = s.blk.grv.lines.map (fun e => (e.1, { e.2 with dirty := false }))
        ∧ t.bit GRV_CTL.FLUSH = true ∧ t.bit GRV_STAT.DRAINING = true ∧ DramKept s.blk t))
  ∧ (∀ (s : State) (w : WriteBack) (rest : List WriteBack), s.blk.grv.wb = w :: rest → s.blk.noErrors →
      let j := s.blk.grvJrnl (s.blk.grv.seq % 1024)
      let e := leBytes 4 (w.idx + 2 ^ 31) ++ leBytes 4 s.blk.grv.seq ++ List.replicate 8 0 ++ slice w.image 0 128 ++ List.replicate 108 0
      (s.blk.grv.wbStep = 0 → j % 8 = 0 → Runs .writeback s (fun t => t.grv = { s.blk.grv with wbStep := 1 }
        ∧ t.dramBytes j 256 = e ++ leBytes 4 (crc32 e) ∧ (∀ a, a < j ∨ j + 256 ≤ a → t.dramByte a = s.blk.dramByte a) ∧ RegsKept s.blk t []))
      ∧ (s.blk.grv.wbStep = 1 → Runs .writeback s (fun t => t.grv = { s.blk.grv with wbStep := 2 }
        ∧ t.dramBytes (s.blk.grvRec w.idx) 128 = slice w.image 0 128
        ∧ (∀ a, a < s.blk.grvRec w.idx ∨ s.blk.grvRec w.idx + 128 ≤ a → t.dramByte a = s.blk.dramByte a) ∧ RegsKept s.blk t []))
      ∧ (2 ≤ s.blk.grv.wbStep → j % 8 = 0 → s.blk.wordPoisoned (j / 8) = false → Runs .writeback s (fun t =>
        t.grv = { s.blk.grv with wb := rest ++ s.blk.grv.wbWait.take 1, wbWait := s.blk.grv.wbWait.drop 1, wbStep := 0, seq := (s.blk.grv.seq + 1) % 2 ^ 32 } ∧ t.dramBytes j 4 = leBytes 4 w.idx
        ∧ (∀ a, a < j ∨ j + 4 ≤ a → t.dramByte a = s.blk.dramByte a)
        ∧ t.rd GRV_CNT_WB.all = min (s.blk.rd GRV_CNT_WB.all + 1) (2 ^ 32 - 1) ∧ RegsKept s.blk t [GRV_CNT_WB.all.base])))

/-- With EN 1, INIT and RECHK are ignored with WR_IGN. With EN 0, INIT writes record 0 as SELF and every other record FREE with GRV_USED 0; RECHK
gives every record that is not poisoned its checksum and counts the records in use in GRV_USED. Each bit reads 1 until its operation is done. The
sweeper goes on where it stands: a pass begins with record 0, PERIOD superframes after the last began at the earliest, and ends with the last
record. It marks an ACTIVE record that no strand has locked and that was last heard too long ago SILENT, counts it and sets SILENT, counts a
poisoned one, and leaves every other record. COMPLETION: under hypotheses on the state and the operands alone, exec is said here to answer a next
state with the own effect of grvInit, grvInitDone, grvRechk, grvRechkDone, sweepVisit. (R311, R312, R313, R323, R326) -/
def Obligations.GroveInitAndSweeper : Prop :=
  (∀ s : State, s.blk.bit GRV_CTL.EN = true → Gives .grvInit s (s.blk.start.set GRV_EVT.WR_IGN) ∧ Gives .grvRechk s (s.blk.start.set GRV_EVT.WR_IGN))
  ∧ (∀ s : State, Gives .grvInitDone s (s.blk.start.clr GRV_CTL.INIT) ∧ Gives .grvRechkDone s (s.blk.start.clr GRV_CTL.RECHK))
  ∧ (∀ s : State, s.blk.bit GRV_CTL.EN = false → s.blk.noErrors → apart (s.blk.grvRec 0) (2 ^ 32) (s.blk.grvMap 0) (2 ^ 22) →
      (apart (s.blk.grvRec 0) (2 ^ 32) (s.blk.grvJrnl 0) (2 ^ 18) → Runs .grvInit s (fun t => t.bit GRV_CTL.INIT = true ∧ t.rd GRV_USED.USED = 0
        ∧ (∀ i, i < 33554432 → t.dramBytes (s.blk.grvRec i) 128 = if i = 0 then selfRecord else freeRecord)))
      ∧ Runs .grvRechk s (fun t => t.bit GRV_CTL.RECHK = true
        ∧ (∀ i, i < 33554432 → s.blk.dramPoisoned (s.blk.grvRec i) 128 = false →
            t.dramBytes (s.blk.grvRec i) 128 = withChk (s.blk.dramBytes (s.blk.grvRec i) 128))
        ∧ t.rd GRV_USED.USED = ((List.range 33554432).filter (fun i => i != 0 && (s.blk.dramPoisoned (s.blk.grvRec i) 128
            || recState (s.blk.dramBytes (s.blk.grvRec i) 128) != gsFREE))).length))
  ∧ (∀ s : State, s.blk.bit GRV_CTL.SWEEP_EN = false ∨ s.blk.bit GRV_STAT.READY = false → ∀ i l, NoEffect (.sweepVisit i l) s)
  ∧ (∀ (s : State) (i : Nat) (l : Bool), s.blk.grv.sweep.getD 0 ≠ i ∨ l ≠ decide (33554431 ≤ i) → NoEffect (.sweepVisit i l) s)
  ∧ (∀ s : State, s.blk.bit GRV_CTL.SWEEP_EN = true → s.blk.bit GRV_STAT.READY = true → s.blk.noErrors → s.blk.grv.sweep = none →
      Runs (.sweepVisit 0 false) s (fun t => t.grv.sweep = some 1 ∧ t.grv.sweepSf = some t.sf ∧ t.bit GRV_STAT.SWEEP_RUN = true
        ∧ ∀ p, s.blk.grv.sweepSf = some p → t.clk = (s.blk.toTime (htAt (p + s.blk.rd GRV_SWEEP_CFG.PERIOD) 0)).clk))
  ∧ (∀ (s : State) (i : Nat), s.blk.bit GRV_CTL.SWEEP_EN = true → s.blk.bit GRV_STAT.READY = true → s.blk.noErrors → s.blk.grv.sweep = some i →
      let r := s.blk.recordNow i
      Runs (.sweepVisit i (decide (33554431 ≤ i))) s (fun t => t.clk = s.blk.clk ∧ t.grv.sweep = (if i < 33554431 then some (i + 1) else none)
        ∧ t.bit GRV_STAT.SWEEP_RUN = (s.blk.bit GRV_STAT.SWEEP_RUN && decide (i < 33554431))
        ∧ if s.blk.recordPoisoned i = true then t.bit GRV_EVT.POISON = true ∧ t.recordNow i = r
            ∧ t.rd GRV_CNT_POISON.all = min (s.blk.rd GRV_CNT_POISON.all + 1) (2 ^ 32 - 1)
          else if recState r = gsACTIVE ∧ s.blk.recordLocked i = false
              ∧ s.blk.rd GRV_SWEEP_CFG.SILENT_N * 2 ^ s.blk.rd HOOP_EPOCH_ACT.H < s.blk.sf - leAt r 76 4 then
            t.recordNow i = withChk (recSetState r gsSILENT) ∧ t.bit GRV_EVT.SILENT = true
              ∧ t.rd GRV_CNT_SILENT.all = min (s.blk.rd GRV_CNT_SILENT.all + 1) (2 ^ 32 - 1)
              ∧ RegsKept s.blk t [GRV_STAT.all.base, GRV_EVT.all.base, GRV_CNT_SILENT.all.base]
          else t.recordNow i = r ∧ DramKept s.blk t ∧ RegsKept s.blk t [GRV_STAT.all.base]))

/-- A record waiting whose frame names a transmitter updates the address's entry: COUNT one up (65,535 at most) where it is held, else a new entry
with COUNT 1 in the lowest free way, or in place of the oldest with an eviction counted; a frame that names none leaves the table. HRD_CLEAR empties
it and reads 1 until done. A load by index or by a known address shows the entry's 32 bytes; an unknown address clears FOUND. COMPLETION: under
hypotheses on the state and the operands alone, exec is said here to answer a next state with the own effect of heardUpdate, hrdClear, hrdIndexLoad,
hrdKeyLookup, hrdClearDone. (R327, R330) -/
def Obligations.HeardTable : Prop :=
  (∀ s : State, s.blk.grv.heardQ = [] → NoEffect .heardUpdate s)
  ∧ (∀ (s : State) (r f : List Byte) (q : List (List Byte × List Byte)), s.blk.grv.heardQ = (r, f) :: q →
      (heardAddr (leAt r 4 4) f = none → Gives .heardUpdate s { s.blk.start with grv := { s.blk.grv with heardQ := q } })
      ∧ (∀ a, heardAddr (leAt r 4 4) f = some a →
        let ways := s.blk.hrdWays a
        let entry (t : Block) (k n : Nat) : Prop := ∃ e, Tbl.find t.grv.heard k = some e ∧ e.addr = a ∧ e.count = n ∧ e.rssi = leAt r 36 2
          ∧ e.snr = leAt r 20 2 ∧ e.nport = leAt r 25 1 ∧ e.sf = s.blk.sf % 2 ^ 32 ∧ e.cell = cellOf s.blk.clk.htime % 256
        (∀ k y, ways.findSome? (fun x => match x.2 with | some y => if y.addr = a then some (x.1, y) else none | none => none) = some (k, y) →
          Runs .heardUpdate s (fun t => entry t k (min 65535 (y.count + 1)) ∧ t.grv.heardQ = q ∧ RegsKept s.blk t []))
        ∧ ((∀ x ∈ ways, ∀ y, x.2 = some y → y.addr ≠ a) →
          (∀ x, ways.find? (fun x => x.2.isNone) = some x → Runs .heardUpdate s (fun t => entry t x.1 1 ∧ t.grv.heardQ = q
            ∧ t.rd GRV_CNT_HRD_INS.all = min (s.blk.rd GRV_CNT_HRD_INS.all + 1) (2 ^ 32 - 1) ∧ RegsKept s.blk t [GRV_CNT_HRD_INS.all.base]))
          ∧ ((∀ x ∈ ways, x.2.isSome = true) → Runs .heardUpdate s (fun t =>
            (∃ k, k < 8 ∧ entry t (hrdSet a * 8 + k) 1) ∧ (s.blk.bit GRV_CTL.HRD_REPL = false →
              ∀ k, hrdOldest (ways.filterMap (fun x => x.2.map (fun y => (x.1, y)))) = some k → entry t k 1)
            ∧ t.bit GRV_EVT.HRD_EVICT = true ∧ t.rd GRV_CNT_HRD_EVICT.all = min (s.blk.rd GRV_CNT_HRD_EVICT.all + 1) (2 ^ 32 - 1))))))
  ∧ (∀ s : State, Gives .hrdClear s ({ s.blk.start with grv := { s.blk.grv with heard := [] } }.set GRV_CTL.HRD_CLEAR)
      ∧ Gives .hrdClearDone s (s.blk.start.clr GRV_CTL.HRD_CLEAR))
  ∧ (∀ (s : State) (v : Word), Runs (.hrdIndexLoad v) s (fun t => t.rd GRV_HRD_IDX.IDX = v.toNat % 65536 ∧ t.rd GRV_HRD_ST.IDX = v.toNat % 65536
      ∧ (∀ i, i < 8 → t.reg (GRV_HRD_DATA.all.off i) = BitVec.ofNat 32 (leAt (hrdBytes (Tbl.find s.blk.grv.heard (v.toNat % 65536))) (4 * i) 4))
      ∧ t.grv = s.blk.grv))
  ∧ (∀ (s : State) (v : Word),
      let a := v.toNat % 2 ^ 28
      match (s.blk.hrdWays a).find? (fun x => match x.2 with | some y => y.addr == a | none => false) with
      | some x => Runs (.hrdKeyLookup v) s (fun t => t.bit GRV_HRD_ST.FOUND = true ∧ t.rd GRV_HRD_ST.IDX = x.1 % 65536
          ∧ ∀ i, i < 8 → t.reg (GRV_HRD_DATA.all.off i) = BitVec.ofNat 32 (leAt (hrdBytes x.2) (4 * i) 4))
      | none => Gives (.hrdKeyLookup v) s ((s.blk.start.wr GRV_HRD_KEY.KEY a).clr GRV_HRD_ST.FOUND))

namespace Sys2Proof.Machine

/-- A host-access operation of Grove is accepted with operation `op`: OP is stored and BUSY sets. -/
def Block.haBegun (b : Block) (op : Nat) : Block := (b.wr GRV_HA_CMD.OP op).set GRV_HA_ST.BUSY

/-- Grove serves host access: enabled and ready. -/
def Block.haReady (b : Block) : Bool := b.bit GRV_CTL.EN && b.bit GRV_STAT.READY

/-- The operation is accepted, completes with the status alone, and changes nothing else. -/
def HaEnds (c : Instr) (op st : Nat) (s : State) : Prop :=
  Gives c s { s.blk.start.haBegun op with grv := { s.blk.grv with ha := some ⟨st, none, none⟩ } }

end Sys2Proof.Machine

/-- While BUSY every start is ignored with WR_IGN. Not ready, READ to RELEASE end with NOT_READY; OP 5 to 7 end with BAD_OP. READ fetches the
record, or ends with POISONED and POISON for one that is bad where it is. WRITE stores the image, the STATE kept where R314 says so, and is refused
with STATE SILENT or a reserved one; ALLOC_ANY and ALLOC_AT give a FREE record the image and count it; RELEASE makes it FREE; each refuses with the
first status that applies. Completion shows data, index and STATUS, clears BUSY and sets HA_DONE. COMPLETION: under hypotheses on the state and the
operands alone, exec is said here to answer a next state with the own effect of haRead, haWrite, haAllocAny, haAllocAt, haRelease, haBadOp,
haComplete. (R314, R325, R329) -/
def Obligations.GroveHostAccess : Prop :=
  (∀ s : State, s.blk.bit GRV_HA_ST.BUSY = true → ∀ c ∈ [Instr.haRead, .haWrite, .haAllocAny, .haAllocAt, .haRelease, .haBadOp 0, .haBadOp 1, .haBadOp 2],
      Gives c s (s.blk.start.set GRV_EVT.WR_IGN))
  ∧ (∀ (s : State) (n : Nat), s.blk.bit GRV_HA_ST.BUSY = false → HaEnds (.haBadOp n) (5 + n % 3) 9 s)
  ∧ (∀ s : State, s.blk.bit GRV_HA_ST.BUSY = false → s.blk.haReady = false →
      HaEnds .haRead 0 8 s ∧ HaEnds .haWrite 1 8 s ∧ HaEnds .haAllocAny 2 8 s ∧ HaEnds .haAllocAt 3 8 s ∧ HaEnds .haRelease 4 8 s)
  ∧ (∀ s : State, s.blk.bit GRV_HA_ST.BUSY = false → s.blk.haReady = true → s.blk.noErrors →
      let i := s.blk.rd GRV_HA_IDX.IDX
      let im := s.blk.haImage
      let r := s.blk.recordNow i
      (if s.blk.recordPoisoned i = true then
          Runs .haRead s (fun t => t.grv.ha = some ⟨2, none, none⟩ ∧ t.bit GRV_EVT.POISON = true)
        else Gives .haRead s { s.blk.start.haBegun 0 with grv := { s.blk.grv with ha := some ⟨0, some r, none⟩ } })
      ∧ (if i = 0 then HaEnds .haWrite 1 6 s else if 6 ≤ recState im ∨ recState im = gsSILENT then HaEnds .haWrite 1 7 s
        else if s.blk.recordLocked i = true then HaEnds .haWrite 1 1 s
        else Runs .haWrite s (fun t => t.grv.ha = some ⟨0, none, none⟩ ∧ t.recordNow i = stored r im ∧ DramKept s.blk t
          ∧ RegsKept s.blk t [GRV_HA_CMD.all.base, GRV_HA_ST.all.base, HWD_CACHE_ST.all.base, RAS_UE_CNT.all.base]))
      ∧ (if regState im = false then HaEnds .haAllocAny 2 7 s else if 33554431 ≤ s.blk.rd GRV_USED.USED then HaEnds .haAllocAny 2 3 s
        else match (List.range 33554432).find? (fun j => j != 0 && s.blk.recordFree j) with
          | some j => Runs .haAllocAny s (fun t => t.grv.ha = some ⟨0, none, some j⟩ ∧ t.recordNow j = withChk im
              ∧ t.rd GRV_USED.USED = s.blk.rd GRV_USED.USED + 1)
          | none => HaEnds .haAllocAny 2 3 s)
      ∧ (if i = 0 then HaEnds .haAllocAt 3 6 s else if regState im = false then HaEnds .haAllocAt 3 7 s
        else if s.blk.recordFree i = false then HaEnds .haAllocAt 3 4 s
        else Runs .haAllocAt s (fun t => t.grv.ha = some ⟨0, none, none⟩ ∧ t.recordNow i = withChk im
          ∧ t.rd GRV_USED.USED = (s.blk.rd GRV_USED.USED + 1) % 2 ^ 26))
      ∧ (if i = 0 then HaEnds .haRelease 4 6 s else if s.blk.recordFree i = true then HaEnds .haRelease 4 5 s
        else if s.blk.recordLocked i = true then HaEnds .haRelease 4 1 s
        else Runs .haRelease s (fun t => t.grv.ha = some ⟨0, none, none⟩ ∧ t.recordNow i = freeRecord
          ∧ t.rd GRV_USED.USED = s.blk.rd GRV_USED.USED - 1)))
  ∧ (∀ s : State, s.blk.grv.ha = none → NoEffect .haComplete s)
  ∧ (∀ (s : State) (h : HaOp), s.blk.grv.ha = some h → Runs .haComplete s (fun t =>
      t.bit GRV_HA_ST.BUSY = false ∧ t.rd GRV_HA_ST.STATUS = h.status % 256 ∧ t.bit GRV_EVT.HA_DONE = true ∧ t.grv = { s.blk.grv with ha := none }
      ∧ (∀ d, h.data = some d → ∀ j, j < 32 → t.reg (GRV_HA_DATA.all.off j) = BitVec.ofNat 32 (leAt d (4 * j) 4))
      ∧ (∀ j, h.idx = some j → t.rd GRV_HA_IDX.IDX = j % 2 ^ 25)))

namespace Sys2Proof.Machine

/-- The candidate parent with the best path quality, then the fewest hops, then the lowest address (R328). -/
def bestParent (l : List Parent) : Option Parent :=
  l.foldl (fun m c => match m with | some p => if Parent.better c p then some c else some p | none => some c) none

end Sys2Proof.Machine

/-- While Grove or the steward core is not ready, or the payload is no MACCMD or holds no command of the kind, a join or a route report does
nothing; a JOIN_REQ of a record that a strand has locked is dropped (log entry 54), and one of a poisoned record is counted and not answered. A
DISABLED node is answered 3 with RETRY; else the declarations, FWVER and LAST_RX are recorded, and one that does not declare the mandatory code and
modulation is answered 2, one that no slot can be given to 1 with RETRY, another 0, and its join is pending; the acknowledged accept of a pending
join makes the record ACTIVE. A route report with RL_EN, for an unlocked record that is not FREE, makes the best candidate the parent where there is
none to keep, the present one is stale, or the best is better by HYST; else it refreshes ROUTE_SF where the present parent reported with its quality
unchanged. COMPLETION: under hypotheses on the state and the operands alone, exec is said here to answer a next state with the own effect of
joinReqAdmit, routeReportProcess. (R32, R221, R225, R313, R325, R328, R329, R330) -/
def Obligations.GroveStewards : Prop :=
  (∀ (s : State) (i : Nat) (l : List Byte) (sl a : Bool) (pk rf rt : Nat), s.blk.bit GRV_STAT.READY = false ∨ s.blk.stewardUp 1 = false
      ∨ s.blk.recordLocked i = true ∨ (a = true ∧ i ∉ s.blk.stw.joins) ∨ (a = false ∧ (pk ≠ 1 ∨ ∀ d ∈ macBodies 1 l, d.length ≠ 8)) →
      NoEffect (.joinReqAdmit i pk l sl rf rt a) s)
  ∧ (∀ (s : State) (i : Nat) (l : List Byte) (sl a : Bool) (rf rt : Nat), s.blk.bit GRV_STAT.READY = true → s.blk.stewardUp 1 = true → s.blk.noErrors →
      s.blk.recordLocked i = false → (a = true → i ∈ s.blk.stw.joins) →
      let r := s.blk.recordNow i
      let bodies := (macBodies 1 l).filter (fun d => d.length == 8)
      let joins (st : Nat) : Prop := st = gsJOINING ∨ st = gsACTIVE ∨ st = gsSILENT
      (s.blk.recordPoisoned i = true → (a = true ∨ bodies.length = 1) → Runs (.joinReqAdmit i 1 l sl rf rt a) s (fun t => t.out = [] ∧ t.stw.joins = s.blk.stw.joins
        ∧ t.bit GRV_EVT.POISON = true ∧ t.rd GRV_CNT_POISON.all = min (s.blk.rd GRV_CNT_POISON.all + 1) (2 ^ 32 - 1)))
      ∧ (s.blk.recordPoisoned i = false →
        (a = true → Runs (.joinReqAdmit i 1 l sl rf rt a) s (fun t => t.out = [] ∧ t.stw.joins = s.blk.stw.joins.filter (· != i) ∧ RegsKept s.blk t []
          ∧ t.recordNow i = if joins (recState r) then withChk (recSetState r gsACTIVE) else r))
        ∧ (∀ d, a = false → bodies = [d] → Runs (.joinReqAdmit i 1 l sl rf rt a) s (fun t =>
          let st := if recState r = gsDISABLED then some (3, rt % 65536) else if joins (recState r) then
            (if leAt d 0 1 % 2 = 0 ∨ leAt d 1 1 % 2 = 0 then some (2, 0) else if sl = false then some (1, rf % 65536) else some (0, 0)) else none
          t.out = (match st with | some x => [.joinReply (s.blk.grvAddr i) x.1 x.2] | none => [])
          ∧ (∀ j, j ∈ t.stw.joins ↔ j ∈ s.blk.stw.joins ∨ (j = i ∧ st = some (0, 0)))
          ∧ (if joins (recState r) then r.length = 128 → leAt (t.recordNow i) 57 1 = leAt d 2 1 % 8 + leAt d 1 1 / 2 % 2 * 8 + leAt d 3 1 % 4 * 16
                ∧ leAt (t.recordNow i) 58 1 = leAt d 0 1 ∧ leAt (t.recordNow i) 108 4 = leAt d 4 4
                ∧ leAt (t.recordNow i) 72 8 = s.blk.clk.htime.toNat ∧ recState (t.recordNow i) = recState r
              else t.recordNow i = r)))))
  ∧ (∀ (s : State) (x : Nat) (l : List Byte), s.blk.bit GRV_RL_CFG.RL_EN = false ∨ s.blk.bit GRV_STAT.READY = false ∨ s.blk.stewardUp 2 = false
      ∨ homeOf x ≠ s.blk.rd CNP_STAT.POS ∨ macBodies 7 l = [] → NoEffect (.routeReportProcess x l) s)
  ∧ (∀ (s : State) (x : Nat) (l d : List Byte), s.blk.bit GRV_RL_CFG.RL_EN = true → s.blk.bit GRV_STAT.READY = true → s.blk.stewardUp 2 = true →
      homeOf x = s.blk.rd CNP_STAT.POS → s.blk.noErrors → macBodies 7 l = [d] →
      let i := x % 2 ^ 25
      let r := s.blk.recordNow i
      s.blk.recordPoisoned i = false →
      (recState r = gsFREE ∨ s.blk.candidates x (routeNbs d) = [] → NoEffect (.routeReportProcess x l) s)
      ∧ (∀ p, bestParent (s.blk.candidates x (routeNbs d)) = some p → recState r ≠ gsFREE →
        let changes := (∀ c ∈ s.blk.candidates x (routeNbs d), c.addr ≠ leAt r 80 4 % 2 ^ 28) ∨ s.blk.rd GRV_RL_CFG.AGE < s.blk.sf - leAt r 120 4
          ∨ signed 8 (leAt r 87 1) + s.blk.rd GRV_RL_CFG.HYST ≤ p.path
        let same := ∃ c, (s.blk.candidates x (routeNbs d)).find? (fun c => c.addr == leAt r 80 4 % 2 ^ 28) = some c ∧ c.link = signed 8 (leAt r 84 1)
        (¬ changes → ¬ same → NoEffect (.routeReportProcess x l) s)
        ∧ (changes ∨ same → (s.blk.start.grvLoad 130 i true).1.1 = 0 → r.length = 128 → Runs (.routeReportProcess x l) s (fun t =>
          RegsKept s.blk t [GRV_LOCKS.all.base] ∧ leAt (t.recordNow i) 120 4 = s.blk.sf % 2 ^ 32
          ∧ (changes → leAt (t.recordNow i) 80 4 = p.addr % 2 ^ 32 ∧ leAt (t.recordNow i) 59 1 = p.hops % 256
              ∧ leAt (t.recordNow i) 84 1 = unsigned 8 p.link ∧ leAt (t.recordNow i) 87 1 = unsigned 8 p.path)
          ∧ (¬ changes → leAt (t.recordNow i) 80 4 = leAt r 80 4 ∧ leAt (t.recordNow i) 59 1 = leAt r 59 1)))
        ∧ (changes ∨ same → (s.blk.start.grvLoad 130 i true).1.1 ≠ 0 → Runs (.routeReportProcess x l) s (fun t => t.recordNow i = r))))

namespace Sys2Proof.Machine

/-- The command completes in the mailbox with this status and these results as all its effect. -/
def Holds (c : Instr) (s : State) (st : Nat) (res : List (BitVec 32)) : Prop := Gives c s (s.blk.start.mbxHold st res)

/-- The steward has a mailbox command `op` whose ARG_LEN `len` admits. -/
def Block.mbxTakes (b : Block) (op : Nat) (len : Nat → Bool) : Bool :=
  b.mbxServes op && decide (b.rd SYS_MBX_CMD.ARG_LEN ≤ 64) && len (b.rd SYS_MBX_CMD.ARG_LEN)

/-- As `mbxTakes`, with Heartwood in NORMAL (R363). -/
def Block.hwdTakes (b : Block) (op : Nat) (len : Nat → Bool) : Bool := b.mbxTakes op len && b.hwdNormal

/-- The command is to complete in the mailbox with OK and these results, and to do `fx` then; until then it changes nothing else (R364). -/
def WillDo (c : Instr) (s : State) (fx : HwdFx) (res : List (BitVec 32)) : Prop := Gives c s ((s.blk.start.at fx).mbxHold mbxOK res)

/-- The command is to fill the PENDING half of slot `m`. -/
def FillsSlot (c : Instr) (s : State) (m t mask gen : Nat) (k : List Byte) (res : List (BitVec 32)) : Prop := WillDo c s (.fill m ⟨t, mask, gen, k⟩) res

/-- The completion of a command that is to do `fx` shows the status and the results held, and leaves `P`. -/
def Completes (fx : HwdFx) (P : State → Block → Prop) : Prop :=
  ∀ (s : State) (st : Nat) (res : List (BitVec 32)), s.blk.mbxBusy = true → s.blk.bit SYS_MBX_STATE.READY = true → s.blk.stw.held = some (st, res) →
    s.blk.hwd.fx = fx → Runs .mbxComplete s (fun t => t.stw.res = res ∧ t.rd SYS_MBX_STATE.PHASE = phDONE ∧ t.hwd.fx = .none
      ∧ (t.rd SYS_MBX_STATUS.STATUS = st % 65536 ∨ t.rd SYS_MBX_STATUS.STATUS = hwNO_PENDING) ∧ P s t)

/-- Every slot but `m` is as before. -/
def OtherSlots (m : Nat) (s : State) (t : Block) : Prop := ∀ j, j ≠ m → t.slot j = s.blk.slot j

end Sys2Proof.Machine

/-- Every mailbox command of Heartwood does nothing while the steward has no command of its opcode, completes with BAD_LENGTH for an ARG_LEN its
table refuses, and, but for GET_STATE and TAMPER_CLEAR, with TAMPERED outside NORMAL. GET_STATE answers HWD_STATE in every state. TAMPER_CLEAR
clears the latch and CAUSE in ZEROISED or TAMPERED, and is refused else. COMPLETION: under hypotheses on the state and the operands alone, exec is
said here to answer a next state with the own effect of hwdGetState, hwdTamperClear. (R41, R363, R369, R370, R371) -/
def Obligations.HeartwoodServes : Prop :=
  (∀ x ∈ [(Instr.hwdGetState, 0x1000, (· == 0)), (.hwdExtend, 0x1001, (1 < ·)), (.hwdGetIdentity, 0x1002, (· == 0)), (.hwdGetFidCert, 0x1003, (· == 0)),
      (.hwdQuote, 0x1004, (· == 11)), (.hwdSlotLoad, 0x1010, (19 ≤ ·)), (.hwdSlotDerive, 0x1011, (5 ≤ ·)), (.hwdSlotCommit, 0x1012, (· == 2)),
      (.hwdSlotCancel, 0x1013, (· == 1)), (.hwdSlotErase, 0x1014, (· == 1)), (.hwdSlotExport, 0x1015, (· == 1)), (.hwdSlotImport, 0x1016, (1 < ·)),
      (.hwdSetWrap, 0x1020, (· == 1)), (.hwdWrap, 0x1021, (3 < ·)), (.hwdWrapBatch 0, 0x1022, (· == 6)), (.hwdSign, 0x1030, (· == 17)),
      (.hwdVerify, 0x1031, (· == 61)), (.hwdCacheFlush, 0x1040, (· == 0)), (.hwdTamperClear, 0x1041, (· == (0 : Nat)))], ∀ s : State,
    (s.blk.mbxServes x.2.1 = false → NoEffect x.1 s)
    ∧ (s.blk.mbxServes x.2.1 = true → s.blk.mbxTakes x.2.1 x.2.2 = false → Holds x.1 s mbxBAD_LENGTH [])
    ∧ (s.blk.mbxTakes x.2.1 x.2.2 = true → s.blk.hwdNormal = false → x.2.1 ≠ 0x1000 → x.2.1 ≠ 0x1041 → Holds x.1 s hwTAMPERED []))
  ∧ (∀ s : State, s.blk.mbxTakes 0x1000 (· == 0) = true → Holds .hwdGetState s mbxOK [s.blk.reg HWD_STATE.all.base])
  ∧ (∀ s : State, s.blk.mbxTakes 0x1041 (· == 0) = true →
      if s.blk.rd HWD_STATE.ST = hsZEROISED ∨ s.blk.rd HWD_STATE.ST = hsTAMPERED then Runs .hwdTamperClear s (fun t =>
        t.hwd = { s.blk.hwd with latch := false, aonCause := 0 } ∧ t.bit HWD_STATE.LATCH = false ∧ t.rd HWD_STATE.CAUSE = 0
        ∧ t.rd HWD_STATE.ST = s.blk.rd HWD_STATE.ST ∧ t.stw.held = some (mbxOK, []))
      else Holds .hwdTamperClear s hwNOT_TAMPERED [])

/-- EXTEND refuses a bad length and registers 0 and 1, and else replaces the register, at its completion, by the digest of its value and the data.
The identity and certificate commands answer their bytes. QUOTE refuses an area that is misaligned, outside memory or poisoned, and else answers its
length and stores the quote at its completion. SIGN signs with an ED448_PRIV key that SIGN may use; VERIFY tells whether the signature is valid
under the key given or the slot's. COMPLETION: under hypotheses on the state and the operands alone, exec is said here to answer a next state with
the own effect of hwdExtend, hwdGetIdentity, hwdGetFidCert, hwdQuote, hwdSign, hwdVerify. (R336, R337, R340, R341, R342, R359, R370, R371) -/
def Obligations.HeartwoodMeasuresAndSigns : Prop :=
  (∀ s : State, s.blk.hwdTakes 0x1001 (1 < ·) = true →
      let k := s.blk.argN 0 % 8
      let n := s.blk.argN 0 / 2 ^ 16 % 256
      if n = 0 ∨ 240 < n ∨ s.blk.argLen ≠ 1 + wordsOf n then Holds .hwdExtend s mbxBAD_LENGTH []
      else if k < 2 then Holds .hwdExtend s hwMREG_LOCKED []
      else WillDo .hwdExtend s (.extend k (s.blk.argBytes 1 n)) [])
  ∧ (∀ k d, Completes (.extend k d) (fun s t => t.hwd = { s.blk.hwd with mreg := s.blk.hwd.mreg.set k (shake256 64 (s.blk.mregOf k ++ d)), fx := .none }
      ∧ ∀ j, j < 128 → t.reg (HWD_MREG.all.off j) = BitVec.ofNat 32 (leAt (t.mregOf (j / 16)) (4 * (j % 16)) 4)))
  ∧ (∀ s : State, s.blk.hwdTakes 0x1002 (· == 0) = true →
      Holds .hwdGetIdentity s mbxOK (resWords (edPublic s.blk.sidKey ++ List.replicate 3 0 ++ edPublic s.blk.fidKey)))
  ∧ (∀ s : State, s.blk.hwdTakes 0x1003 (· == 0) = true → Holds .hwdGetFidCert s mbxOK (resWords s.blk.fidCert))
  ∧ (∀ s : State, s.blk.hwdTakes 0x1004 (· == 11) = true →
      let q := s.blk.quote (s.blk.argN 0 % 256) (s.blk.argBytes 3 32)
      let a := s.blk.mbxArg64 1
      if a % 64 ≠ 0 ∨ s.blk.dramSize < a + q.length ∨ s.blk.dramPoisoned a q.length = true then Holds .hwdQuote s hwDRAM_ERR []
      else WillDo .hwdQuote s (.write a q true) [BitVec.ofNat 32 q.length])
  ∧ (∀ a d x, Completes (.write a d x) (fun s t => s.blk.noErrors → (s.blk.dramPoisoned a d.length = false → t.dramBytes a d.length = d)
      ∧ ∀ x, x < a ∨ a + d.length ≤ x → t.dramByte x = s.blk.dramByte x))
  ∧ (∀ s : State, s.blk.hwdTakes 0x1030 (· == 17) = true →
      let h := (s.blk.slot (s.blk.argN 0 % 64)).act
      if h.typ = 3 ∧ h.allows mkSIGN = true then Holds .hwdSign s mbxOK (resWords (edSign h.key (s.blk.argBytes 1 64))) else Holds .hwdSign s hwBAD_SLOT [])
  ∧ (∀ s : State, s.blk.hwdTakes 0x1031 (· == 61) = true →
      let h := (s.blk.slot (s.blk.argN 0 % 64)).act
      let given := (s.blk.argN 0).testBit 31
      let pk := if given then s.blk.argBytes 1 57 else h.key
      if given = false ∧ ¬ (h.typ = 4 ∧ h.allows mkSIGN = true) then Holds .hwdVerify s hwBAD_SLOT []
      else if edVerify pk (s.blk.argBytes 16 64) (s.blk.argBytes 32 114) = true then Holds .hwdVerify s hwSIG_VALID []
      else Holds .hwdVerify s hwSIG_INVALID [])

/-- LOAD, DERIVE and IMPORT refuse a bad length, then a bad slot, type, mask or key, then a slot with a half waiting; LOAD and IMPORT then open the
blob and refuse one that fails, LOAD also one whose check fails; each then is to fill the PENDING half of that slot alone. COMMIT is to arm the
swap, or with NOW to make it, or refuses; CANCEL is to drop what waits; ERASE is to empty a slot that no wrap configuration names; what each is to
do happens at its completion, and a CANCEL that comes too late then answers NO_PENDING. EXPORT answers the blob of a half that EXPORT may use.
COMPLETION: under hypotheses on the state and the operands alone, exec is said here to answer a next state with the own effect of hwdSlotLoad,
hwdSlotDerive, hwdSlotCommit, hwdSlotCancel, hwdSlotErase, hwdSlotExport, hwdSlotImport. (R338, R343, R344, R346, R347, R349, R350, R351, R352,
R370, R371) -/
def Obligations.HeartwoodSlots : Prop :=
  (∀ s : State, s.blk.hwdTakes 0x1010 (19 ≤ ·) = true →
      let a := s.blk.argN 0
      let m := a % 64
      let ty := a / 2 ^ 16 % 8
      let mask := a / 2 ^ 24
      let n := typeLen ty
      let blob := s.blk.argBytes 19 (24 + n)
      let tk := s.blk.transportKey (a / 2 ^ 8 % 64)
      let opened := if leAt blob 0 1 = 1 then blobOpen (tk.getD []) blob (leBytes 4 m) else none
      if n ≠ 0 ∧ s.blk.argLen ≠ (if ty = 4 then 19 else 19 + wordsOf (24 + n)) then Holds .hwdSlotLoad s mbxBAD_LENGTH []
      else if n = 0 ∨ 64 ≤ mask ∨ (ty ≠ 4 ∧ (tk = none ∨ blobKlen blob ≠ n)) then Holds .hwdSlotLoad s hwBAD_SLOT []
      else if (s.blk.slot m).st ≠ 0 then Holds .hwdSlotLoad s hwSLOT_BUSY []
      else if ty = 4 then FillsSlot .hwdSlotLoad s m ty mask (s.blk.argN 1) (s.blk.argBytes 4 57) []
      else (opened = none → Holds .hwdSlotLoad s hwAUTH_FAIL [])
        ∧ ∀ k, opened = some k → if keyProof ty k = (if ty = 3 then s.blk.argBytes 4 57 else s.blk.argBytes 2 8) then
            FillsSlot .hwdSlotLoad s m ty mask (s.blk.argN 1) k [] else Holds .hwdSlotLoad s hwCHECK_FAIL [])
  ∧ (∀ s : State, s.blk.hwdTakes 0x1011 (5 ≤ ·) = true →
      let a := s.blk.argN 0
      let m := a % 64
      let ty := a / 2 ^ 16 % 8
      let kd := (s.blk.slot (a / 2 ^ 8 % 64)).act
      let ll := s.blk.argN 3 % 256
      let cl := s.blk.argN 3 / 2 ^ 16
      let text := s.blk.argBytes 4 (ll + cl)
      let k := s.blk.kdf (s.blk.argN 1 % 256) (text.take ll) (if a.testBit 14 then kd.key else []) (text.drop ll) (typeLen ty)
      if ll = 0 ∨ 32 < ll ∨ 128 < cl ∨ s.blk.argLen ≠ 4 + wordsOf (ll + cl) then Holds .hwdSlotDerive s mbxBAD_LENGTH []
      else if ty = 0 ∨ 3 < ty ∨ 64 ≤ a / 2 ^ 24 ∨ (a.testBit 14 = true ∧ kd.allows mkKDF = false) then Holds .hwdSlotDerive s hwBAD_SLOT []
      else if (s.blk.slot m).st ≠ 0 then Holds .hwdSlotDerive s hwSLOT_BUSY []
      else FillsSlot .hwdSlotDerive s m ty (a / 2 ^ 24) (s.blk.argN 2) k (resWords (keyProof ty k)))
  ∧ (∀ s : State, s.blk.hwdTakes 0x1012 (· == 2) = true →
      let m := s.blk.argN 0 % 64
      let mode := s.blk.argN 0 / 2 ^ 8 % 4
      let x := s.blk.slot m
      if mode = 3 then Holds .hwdSlotCommit s hwBAD_SLOT [] else if x.st = 0 ∨ x.st = 3 then Holds .hwdSlotCommit s hwNO_PENDING []
      else if x.st = 2 then Holds .hwdSlotCommit s hwSLOT_BUSY []
      else if mode = 1 ∧ s.blk.argN 1 ≤ s.blk.sf + 1 then Holds .hwdSlotCommit s hwTOO_LATE []
      else WillDo .hwdSlotCommit s (.commit m mode (if mode = 2 then s.blk.argN 1 % 65536 else s.blk.argN 1)) [])
  ∧ (∀ s : State, s.blk.hwdTakes 0x1013 (· == 1) = true →
      let m := s.blk.argN 0 % 64
      if (s.blk.slot m).st = 1 ∨ (s.blk.slot m).st = 2 then WillDo .hwdSlotCancel s (.cancel m) []
      else Holds .hwdSlotCancel s hwNO_PENDING [])
  ∧ (∀ s : State, s.blk.hwdTakes 0x1014 (· == 1) = true →
      let m := s.blk.argN 0 % 64
      if s.blk.wrapSlot 0 = some m ∨ s.blk.wrapSlot 1 = some m then Holds .hwdSlotErase s hwSLOT_IN_USE []
      else WillDo .hwdSlotErase s (.erase m) [])
  ∧ (∀ m h, Completes (.fill m h) (fun s t => t.slot m = { s.blk.slot m with other := h, st := 1 } ∧ OtherSlots m s t))
  ∧ (∀ m mode x, mode ≠ 0 → Completes (.commit m mode x) (fun s t => t.slot m = { s.blk.slot m with st := 2, mode := mode, operand := x } ∧ OtherSlots m s t))
  ∧ (∀ m x, Completes (.commit m 0 x) (fun s t => (t.slot m).act = (s.blk.slot m).other ∧ (t.slot m).now = some (s.blk.clk.beat, (s.blk.slot m).act)
      ∧ t.bit HWD_EVT.SWAP = true))
  ∧ (∀ m, Completes (.cancel m) (fun s t => OtherSlots m s t ∧ if (s.blk.slot m).st = 1 ∨ (s.blk.slot m).st = 2 then t.slot m = (s.blk.slot m).drop
      else t.slot m = s.blk.slot m ∧ t.rd SYS_MBX_STATUS.STATUS = hwNO_PENDING))
  ∧ (∀ m, Completes (.erase m) (fun s t => t.slot m = KSlot.empty ∧ OtherSlots m s t))
  ∧ (∀ s : State, s.blk.hwdTakes 0x1015 (· == 1) = true →
      let e := s.blk.argN 0 / 256 % 256
      let h := (s.blk.slot (s.blk.argN 0 % 64)).act
      let hdr := leBytes 1 2 ++ leBytes 1 h.mask ++ leBytes 1 h.key.length ++ leBytes 1 h.typ ++ leBytes 4 h.gen
      if h.allows mkEXPORT = false then Holds .hwdSlotExport s hwBAD_SLOT []
      else Holds .hwdSlotExport s mbxOK (BitVec.ofNat 32 e :: resWords (blobSeal (s.blk.storeKey e) hdr (leBytes 1 e) h.key)))
  ∧ (∀ s : State, s.blk.hwdTakes 0x1016 (1 < ·) = true →
      let m := s.blk.argN 0 % 64
      let e := s.blk.argN 0 / 256 % 256
      let hdr := s.blk.argBytes 1 8
      let n := blobKlen hdr
      let opened := if leAt hdr 0 1 = 2 then blobOpen (s.blk.storeKey e) (s.blk.argBytes 1 (24 + n)) (leBytes 1 e) else none
      if s.blk.argLen ≠ 1 + wordsOf (24 + n) then Holds .hwdSlotImport s mbxBAD_LENGTH []
      else if typeLen (leAt hdr 3 1) ≠ n ∨ n = 0 ∨ 64 ≤ leAt hdr 1 1 then Holds .hwdSlotImport s hwBAD_SLOT []
      else if (s.blk.slot m).st ≠ 0 then Holds .hwdSlotImport s hwSLOT_BUSY []
      else (opened = none → Holds .hwdSlotImport s hwAUTH_FAIL [])
        ∧ ∀ k, opened = some k → FillsSlot .hwdSlotImport s m (leAt hdr 3 1) (leAt hdr 1 1) (leAt hdr 4 4) k [])

/-- SET_WRAP is to name or clear a wrap slot, whose key must serve, and to drop the working keys of that WSEL; what a command is to do happens at
its completion. WRAP opens the blob under the transport key and answers it under the wrap key. WRAP_BATCH refuses a bad count, key or area, and else
is to write the output of each item it does, in order, answers how many succeeded and failed, and takes credits above 32; an aborted batch stops
after the items done. CACHE_FLUSH is to drop every working key. COMPLETION: under hypotheses on the state and the operands alone, exec is said here
to answer a next state with the own effect of hwdSetWrap, hwdWrap, hwdWrapBatch, hwdCacheFlush. (R352, R354, R356, R357, R370, R371, R372) -/
def Obligations.HeartwoodWraps : Prop :=
  (∀ s : State, s.blk.hwdTakes 0x1020 (· == 1) = true →
      let a := s.blk.argN 0
      let m := a / 2 ^ 8 % 64
      if a.testBit 31 = false ∧ s.blk.transportKey m = none then Holds .hwdSetWrap s hwBAD_SLOT []
      else WillDo .hwdSetWrap s (.wrap (a % 2) (if a.testBit 31 then none else some m)) [])
  ∧ (∀ w m, w < 2 → (∀ x, m = some x → x < 64) → Completes (.wrap w m) (fun s t => t.wrapSlot w = m ∧ t.wrapSlot (1 - w) = s.blk.wrapSlot (1 - w)
      ∧ t.hwd.cache = s.blk.hwd.cache.filter (fun e => leAt e.2.hdr 3 1 != w) ∧ t.hwd.slots = s.blk.hwd.slots))
  ∧ (∀ s : State, s.blk.hwdTakes 0x1021 (3 < ·) = true →
      let a := s.blk.argN 0
      let addr := leBytes 4 (s.blk.argN 2 % 2 ^ 28)
      let n := blobKlen (s.blk.argBytes 3 8)
      let blob := s.blk.argBytes 3 (24 + n)
      let tk := s.blk.transportKey (a / 2 ^ 8 % 64)
      let opened := if leAt blob 0 1 = 1 then blobOpen (tk.getD []) blob addr else none
      let hdr := leBytes 1 1 ++ leBytes 1 (a / 2 ^ 24) ++ leBytes 1 n ++ leBytes 1 (a % 2) ++ leBytes 4 (s.blk.argN 1)
      if s.blk.argLen ≠ 3 + wordsOf (24 + n) then Holds .hwdWrap s mbxBAD_LENGTH []
      else if tk = none ∨ s.blk.wrapKey (a % 2) = none ∨ 64 ≤ a / 2 ^ 24 ∨ (n ≠ 16 ∧ n ≠ 32) then Holds .hwdWrap s hwBAD_SLOT []
      else (opened = none → Holds .hwdWrap s hwAUTH_FAIL [])
        ∧ ∀ k, opened = some k → Holds .hwdWrap s mbxOK (resWords (blobSeal ((s.blk.wrapKey (a % 2)).getD []) hdr addr k)))
  ∧ (∀ (s : State) (n : Nat), s.blk.hwdTakes 0x1022 (· == 6) = true →
      let a := s.blk.argN 0
      let src := s.blk.mbxArg64 1
      let dst := s.blk.mbxArg64 3
      let count := s.blk.argN 5
      let inKey := if a.testBit 1 then s.blk.wrapKey (a / 4 % 2) else s.blk.transportKey (a / 2 ^ 8 % 64)
      let k := if s.blk.rd SYS_MBX_STATE.PHASE = phABORTING then min n count else count
      let item (i : Nat) := wrapItem inKey (s.blk.wrapKey (a % 2)) (a % 2) (a.testBit 1) (a / 4 % 2) (s.blk.dramBytes (src + 64 * i) 64)
      let ok := ((List.range k).filter (fun i => (item i).2)).length
      if count = 0 ∨ 65536 < count then Holds (.hwdWrapBatch n) s mbxBAD_LENGTH []
      else if s.blk.wrapKey (a % 2) = none ∨ inKey = none then Holds (.hwdWrapBatch n) s hwBAD_SLOT []
      else if s.blk.dramSize < src + 64 * count ∨ s.blk.dramSize < dst + 64 * count then Holds (.hwdWrapBatch n) s hwDRAM_ERR []
      else s.blk.noErrors → if s.blk.dramPoisoned src (64 * count) = true ∨ s.blk.dramPoisoned dst (64 * count) = true then
        Runs (.hwdWrapBatch n) s (fun t => t.stw.held = some (hwDRAM_ERR, []) ∧ t.hwd = s.blk.hwd ∧ DramKept s.blk t)
      else src = dst ∨ apart src (64 * count) dst (64 * count) → Runs (.hwdWrapBatch n) s (fun t =>
        t.stw.held = some (if k < count then mbxABORTED else mbxOK, [BitVec.ofNat 32 ok, BitVec.ofNat 32 (k - ok)])
        ∧ t.hwd = { s.blk.hwd with fx := .write dst ((List.range k).flatMap (fun i => (item i).1)) false } ∧ DramKept s.blk t
        ∧ t.rd HWD_CREDIT.CREDIT = (if 32 < s.blk.rd HWD_CREDIT.CREDIT then max 32 (s.blk.rd HWD_CREDIT.CREDIT - k) else s.blk.rd HWD_CREDIT.CREDIT)))
  ∧ (∀ s : State, s.blk.hwdTakes 0x1040 (· == 0) = true → WillDo .hwdCacheFlush s .flush [])
  ∧ Completes .flush (fun s t => t.hwd = { s.blk.hwd with cache := [], fx := .none } ∧ t.rd HWD_CACHE_ST.VALID = 0)

/-- While VDD_SEC is off in SLEEP a class 1 event is not seen; else it counts, sets CLASS1 and its cause, drops every key holder, working key,
unwrap and PENDING half, and makes any state but ZEROISED and TAMPERED ALARM; ALARM ends in NORMAL. TAMPER_IN trips where its sensor is enabled and
its pin is at the active level for TIN_FILT cycles. A class 2 event also empties every slot, the identities and the wrap configuration, switches the
root path off and sets the latch, unless VDD_SEC is off, when it sets the latch and its cause alone. A write of TIN_CFG with LOCK stores its fields,
a filter of 0 as 1, and after it every write is ignored. COMPLETION: under hypotheses on the state and the operands alone, exec is said here to
answer a next state with the own effect of tinCfgLock, unwrapCreditAdd, class1Event, alarmEnd, class2Event. (R345, R356, R361, R362, R364, R365,
R367, R373) -/
def Obligations.TamperAndCredits : Prop :=
  (∀ (s : State) (n : Nat), s.blk.pwr.sleep = true → s.blk.bit PWR_CTL.SEC_KEEP = false → NoEffect (.class1Event n) s)
  ∧ (∀ (s : State) (n : Nat), s.blk.pwr.sleep = false ∨ s.blk.bit PWR_CTL.SEC_KEEP = true → Runs (.class1Event n) s (fun t => t.bit HWD_EVT.CLASS1 = true
      ∧ t.rd HWD_CNT_CLASS1.all = min (s.blk.rd HWD_CNT_CLASS1.all + 1) (2 ^ HWD_CNT_CLASS1.all.width - 1)
      ∧ t.rd HWD_STATE.CAUSE = s.blk.rd HWD_STATE.CAUSE ||| 2 ^ (n % 4)
      ∧ t.rd HWD_STATE.ST = (if s.blk.rd HWD_STATE.ST = hsZEROISED ∨ s.blk.rd HWD_STATE.ST = hsTAMPERED then s.blk.rd HWD_STATE.ST else hsALARM)
      ∧ t.hwd.cache = [] ∧ t.hwd.unwraps = [] ∧ (∀ k, (t.strand k).kh = [] ∧ (t.strand k).w = (s.blk.strand k).w)
      ∧ (∀ m, m < 64 → t.slot m = if (s.blk.slot m).st = 1 ∨ (s.blk.slot m).st = 2 then (s.blk.slot m).drop else s.blk.slot m)))
  ∧ (∀ s : State, if s.blk.rd HWD_STATE.ST = hsALARM then Gives .alarmEnd s ((s.blk.start.wr HWD_STATE.ST hsNORMAL).set HWD_EVT.ALARM_END)
      else NoEffect .alarmEnd s)
  ∧ (∀ (s : State) (n cy : Nat) (lv : Bool),
      let active := decide (s.blk.rd HWD_TIN_CFG.TIN_FILT ≤ cy) && (if n = 5 then s.blk.bit HWD_TIN_CFG.EN0 && lv == s.blk.bit HWD_TIN_CFG.POL0
        else s.blk.bit HWD_TIN_CFG.EN1 && lv == s.blk.bit HWD_TIN_CFG.POL1)
      let pin : BitVec 2 := if n = 5 then 1 else if n = 6 then 2 else 0
      let pins := { s.blk.pins with tamperIn := if lv then s.blk.pins.tamperIn ||| pin else s.blk.pins.tamperIn &&& ~~~pin }
      let cause := if n = 5 then 32 else if n = 6 then 64 else 16
      if (n = 5 ∨ n = 6) ∧ active = false then Gives (.class2Event ⟨n, lv, cy⟩) s { s.blk.start with pins := pins }
      else if s.blk.pwr.sleep = true ∧ s.blk.bit PWR_CTL.SEC_KEEP = false then
        Gives (.class2Event ⟨n, lv, cy⟩) s { s.blk.start with pins := pins, hwd := { s.blk.hwd with latch := true, aonCause := s.blk.hwd.aonCause ||| cause } }
      else Runs (.class2Event ⟨n, lv, cy⟩) s (fun t => t.pins = pins ∧ t.bit HWD_EVT.CLASS2 = true ∧ t.bit HWD_STATE.ROOT_OFF = true ∧ t.bit HWD_STATE.LATCH = true
        ∧ t.rd HWD_STATE.CAUSE = s.blk.rd HWD_STATE.CAUSE ||| cause ∧ t.hwd.latch = true ∧ t.hwd.ident = false ∧ t.hwd.cache = []
        ∧ (∀ m, m < 64 → t.slot m = KSlot.empty) ∧ t.reg HWD_WRAP_CFG.all.base = 0 ∧ (∀ k, (t.strand k).kh = [])
        ∧ t.rd HWD_STATE.ST = (if s.blk.rd HWD_STATE.ST = hsTAMPERED then hsTAMPERED else hsZEROISED)))
  ∧ (∀ (s : State) (v : Word),
      let x := (v ||| 0x80000000) &&& 0x8000FF0F
      if s.blk.bit HWD_TIN_CFG.LOCK = true then Gives (.tinCfgLock v) s (s.blk.start.set HWD_EVT.WR_IGN)
      else Gives (.tinCfgLock v) s (s.blk.start.setReg HWD_TIN_CFG.all.base (if fget v HWD_TIN_CFG.TIN_FILT = 0 then fput x HWD_TIN_CFG.TIN_FILT 1 else x)))
  ∧ (∀ s : State, Runs .unwrapCreditAdd s (fun t => t.hwd = { s.blk.hwd with grid := s.blk.hwd.grid + 1 } ∧ RegsKept s.blk t [HWD_CREDIT.all.base]
      ∧ t.rd HWD_CREDIT.CREDIT = (if s.blk.rd HWD_CREDIT.CREDIT < 64 then s.blk.rd HWD_CREDIT.CREDIT + 1 else s.blk.rd HWD_CREDIT.CREDIT)))

namespace Sys2Proof.Machine

/-- The bits of PCI_H2D_CFG and PCI_D2H_CFG that a write stores, with EN set. -/
def ringWord (v : BitVec 32) : BitVec 32 := (v ||| 0x80000000) &&& 0x87FF001F

/-- The offsets of a ring's configuration, HEAD and TAIL. -/
def ringOff (h d : Fld) (d2h : Bool) (r : Nat) : Nat := if d2h then d.off r else h.off r

/-- What a command has driven out but for levels of pins. -/
def Block.sent (b : Block) : List Output := b.out.filter (fun o => match o with | .pin _ _ _ => false | _ => true)

end Sys2Proof.Machine

/-- Setting EN of a ring stores its configuration with HEAD 0; an invalid LOG2 is refused with BAD_DESC, and a ring enabled keeps its LOG2. A TAIL
in range is stored, another refused with BAD_DESC. The time-out of write-backs not yet signalled signals the ring's vector, none below 256. DMA_EN
cleared, a link that goes down and a function reset disable every ring; the function reset also puts the configuration space and the PCI registers
at their reset values, but PCI_STAT. COMPLETION: under hypotheses on the state and the operands alone, exec is said here to answer a next state with
the own effect of flr, dmaDisable, ringEnable, ringCoalesceTimeout, pcieLinkChange, h2dTailWrite, d2hTailWrite. (R409, R410, R411, R414, R433, R545)
-/
def Obligations.DmaRings : Prop :=
  (∀ (s : State) (d : Bool) (r : Nat) (v : Word), r < 16 →
      let off := ringOff PCI_H2D_CFG.all PCI_D2H_CFG.all d r
      let hd := ringOff PCI_H2D_HEAD.all PCI_D2H_HEAD.all d r
      (s.blk.ringEn d r = true → Gives (.ringEnable d r v) s
        (s.blk.start.setReg off (fput (ringWord v) PCI_H2D_CFG.LOG2 (s.blk.ringF d PCI_H2D_CFG.LOG2 PCI_D2H_CFG.LOG2 r))))
      ∧ (s.blk.ringEn d r = false →
        if fget v PCI_H2D_CFG.LOG2 < 4 ∨ 16 < fget v PCI_H2D_CFG.LOG2 then Gives (.ringEnable d r v) s (s.blk.start.set PCI_EVT.BAD_DESC)
        else Runs (.ringEnable d r v) s (fun t => t.reg off = ringWord v ∧ t.ringEn d r = true ∧ t.ringHead d r = 0 ∧ t.coal d r = (0, 0)
          ∧ RegsKept s.blk t [off, hd])))
  ∧ (∀ (s : State) (d : Bool) (r : Nat) (v : Word), r < 16 →
      let c : Instr := if d then .d2hTailWrite r v else .h2dTailWrite r v
      if s.blk.ringSize d r ≤ v.toNat % 65536 then Gives c s (s.blk.start.set PCI_EVT.BAD_DESC)
      else Runs c s (fun t => t.ringTail d r = v.toNat % 65536 ∧ RegsKept s.blk t [ringOff PCI_H2D_TAIL.all PCI_D2H_TAIL.all d r]))
  ∧ (∀ (s : State) (d : Bool) (r : Nat), r < 16 →
      let x := s.blk.coal d r
      let v := s.blk.ringF d PCI_H2D_CFG.VEC PCI_D2H_CFG.VEC r
      if x.1 = 0 ∨ s.blk.ringF d PCI_H2D_COAL.COAL_N PCI_D2H_COAL.COAL_N r = 0 then NoEffect (.ringCoalesceTimeout d r) s
      else
        let b := (s.blk.start.toBeat x.2).setCoal d r (0, 0)
        Gives (.ringCoalesceTimeout d r) s (if v < 256 then b else b.msix v))
  ∧ (∀ s : State, Runs .dmaDisable s (fun t => t.bit PCI_CTL.DMA_EN = false ∧ (∀ d r, r < 16 → t.ringEn d r = false) ∧ t.bdr.coal = []
      ∧ (∀ d r, r < 16 → t.ringHead d r = s.blk.ringHead d r ∧ t.ringTail d r = s.blk.ringTail d r) ∧ t.out = []))
  ∧ (∀ (s : State) (w x : Nat), Gives (.pcieLinkChange true w x) s (((s.blk.start.set PCI_STAT.LINK_UP).wr PCI_STAT.WIDTH w).wr PCI_STAT.SPEED x).icuEval
      ∧ Runs (.pcieLinkChange false w x) s (fun t => t.reg PCI_STAT.all.base = 0 ∧ (∀ d r, r < 16 → t.ringEn d r = false) ∧ t.bdr.coal = []))
  ∧ (∀ s : State, State.Inv s → Runs .flr s (fun t => t.fn = PciFn.fresh ∧ t.bdr.coal = [] ∧ DramKept s.blk t
      ∧ t.reg PCI_STAT.all.base = s.blk.reg PCI_STAT.all.base
      ∧ (∀ o, 0x06C0000 ≤ o → o < 0x0700000 → o ≠ PCI_STAT.all.base → t.reg o = regReset o)
      ∧ (∀ o, o < 0x06C0000 ∨ 0x0700000 ≤ o → t.reg o = s.blk.reg o)))

namespace Sys2Proof.Machine

/-- What a descriptor of an H2D ring is written back as, with its STATUS and stamp (R412). -/
def h2dBack (d : H2dDesc) (st tref : Nat) : List Byte :=
  leBytes 8 d.addr ++ leBytes 2 d.len ++ leBytes 2 (d.flags % 256 + st * 256 + 2 ^ 15) ++ leBytes 2 d.cfofs ++ leBytes 2 d.zero
    ++ leBytes 8 tref ++ leBytes 8 d.tag

/-- How a packet that came down an H2D ring and goes to the host is delivered, or an exception (R412, R427). -/
def h2dPut (f : D2hFrom) (p : List Byte) (desc : D2hDesc) (b : Block) : Fwd → Option Block
  | .exc r => b.d2hPut (b.rd BGH_CFG.EXC_RING) dkIPV6 0 r f p desc
  | .host r => b.d2hPut r dkIPV6 0 rsNONE f (ip6Dec p) desc
  | _ => some b

end Sys2Proof.Machine

/-- With no H2D ring ready nothing happens. A descriptor that breaks its layout, whose buffer cannot be read, or that is for an Ethernet port whose
link is down is written back with STATUS 1, 2 or 3, counted, and HEAD advances. An Ethernet frame leaves with its checksum and, as asked, its
correction; an item goes to the shaper or to its device; a packet takes the downlink path, and waits where that path cannot accept it. Each is then
written back with STATUS 0, HEAD advances, and the ring is the last served. COMPLETION: under hypotheses on the state and the operands alone, exec
is said here to answer a next state with the own effect of h2dDescriptorServe. (R411, R412, R422, R427, R433, R459) -/
def Obligations.H2dRings : Prop :=
  (∀ (s : State) (d : H2dDesc) (data : List Byte) (err : Bool) (t : DWord) (desc : D2hDesc), s.blk.h2dNext = none →
      NoEffect (.h2dDescriptorServe d data err t desc) s)
  ∧ (∀ (s : State) (d : H2dDesc) (data : List Byte) (err : Bool) (tm : DWord) (desc : D2hDesc) (r : Nat), s.blk.h2dNext = some r →
      let n := d.flags / 4 % 2
      let done (t : Block) (st tref : Nat) : Prop := Output.hostWrite (s.blk.ringDesc false r) (h2dBack d st tref) ∈ t.out ∧ t.bdr.rr = r
        ∧ t.ringHead false r = (s.blk.ringHead false r + 1) % s.blk.ringSize false r % 65536
      let fails (st : Nat) : Prop := Runs (.h2dDescriptorServe d data err tm desc) s (fun t => done t st d.tref
        ∧ t.rd PCI_CNT_H2D_ERR.all = min (s.blk.rd PCI_CNT_H2D_ERR.all + 1) (2 ^ 32 - 1) ∧ (st = 1 → t.bit PCI_EVT.BAD_DESC = true)
        ∧ (st = 2 → t.bit PCI_EVT.DMA_ERR = true))
      if h2dBad d = true then fails 1
      else if err = true then fails 2
      else if d.flags % 4 = 2 then
        if s.blk.bit ETH_STAT.LINK_UP n = false then fails 3
        else
          let stamp := tm.toNat + s.blk.rd ETH_TS_DLY.TX_DLY n
          let fr := if d.flags.testBit 4 then oneStep d stamp data else data
          Runs (.h2dDescriptorServe d data err tm desc) s (fun t => done t 0 (if d.flags.testBit 3 then stamp else d.tref)
            ∧ Output.ethFrame n (fr ++ leBytes 4 (crc32 fr)) ∈ t.out ∧ t.rd ETH_CNT_TX_OK.all n = min (s.blk.rd ETH_CNT_TX_OK.all n + 1) (2 ^ 32 - 1))
      else if d.flags % 4 = 1 then Runs (.h2dDescriptorServe d data err tm desc) s (fun t => done t 0 d.tref)
      else
        let p := s.blk.ip6Pad data
        let f : D2hFrom := ⟨130, none, s.blk.freeNat⟩
        match s.blk.start.took.downlink p (h2dPut f p desc) with
        | none => NoEffect (.h2dDescriptorServe d data err tm desc) s
        | some b => Runs (.h2dDescriptorServe d data err tm desc) s (fun t => done t 0 d.tref ∧ t.rd BGH_CNT_LOOKUP.all = b.rd BGH_CNT_LOOKUP.all
            ∧ t.rd BGH_CNT_EXC.all = b.rd BGH_CNT_EXC.all ∧ b.out <+: t.out))

/-- A link comes up on an enabled port of a valid MODE with its locks and LINK_UP; a link that goes down clears ETH_STAT and sets LINK_DOWN where it
was up. On a link that is down a frame is lost; a bad one counts in RX_BAD, one the filter refuses in RX_FILT. An accepted frame counts in RX_OK;
one that is not IPv6 or is local is an exception, delivered whole to the port's exception ring where a descriptor is posted, else counted and
dropped; another is looked up unless its hop limit is spent. COMPLETION: under hypotheses on the state and the operands alone, exec is said here to
answer a next state with the own effect of ethFrameReceive, ethLinkUp, ethLinkDown. (R418, R419, R420, R421, R427, R432) -/
def Obligations.EthernetPorts : Prop :=
  (∀ (s : State) (n : Nat), n < 2 → (if s.blk.bit ETH_CTL.EN n = true ∧ s.blk.rd ETH_CTL.MODE n ≠ 3 then Runs (.ethLinkUp n) s (fun t =>
          t.bit ETH_STAT.LINK_UP n = true ∧ t.bit ETH_STAT.BLOCK_LOCK n = true ∧ t.bit ETH_STAT.FEC_LOCK n = (s.blk.rd ETH_CTL.MODE n == 1)
          ∧ t.bit ETH_EVT.LINK_UP n = true ∧ RegsKept s.blk t [ETH_STAT.all.off n, ETH_EVT.all.off n])
        else NoEffect (.ethLinkUp n) s)
      ∧ Runs (.ethLinkDown n) s (fun t => t.reg (ETH_STAT.all.off n) = 0
        ∧ t.bit ETH_EVT.LINK_DOWN n = (s.blk.bit ETH_EVT.LINK_DOWN n || s.blk.bit ETH_STAT.LINK_UP n)
        ∧ RegsKept s.blk t [ETH_STAT.all.off n, ETH_EVT.all.off n]))
  ∧ (∀ (s : State) (n : Nat) (f : List Byte) (ok : Bool) (tm : DWord) (desc : D2hDesc), n < 2 →
      let o := if (frameTci f).isSome then 16 else 12
      let ty := beNat (slice f o 2)
      let l := f.drop (o + 2)
      let p := s.blk.ip6Pad (l.take (40 + beNat (slice l 4 2)))
      let near := (leAt f 0 1).testBit 0 || leAt (ip6Dst p) 0 1 == 0xFF || (leAt (ip6Dst p) 0 1 == 0xFE && leAt (ip6Dst p) 1 1 / 64 == 2)
      let ring := s.blk.rd ETH_EXC.EXC_RING n
      if s.blk.bit ETH_STAT.LINK_UP n = false then NoEffect (.ethFrameReceive n f ok tm desc) s
      else if ok = false ∨ s.blk.rd ETH_MAXLEN.LEN n < f.length + 4 ∨ ty = 0x8808 then
        Gives (.ethFrameReceive n f ok tm desc) s (s.blk.start.inc ETH_CNT_RX_BAD.all n)
      else if s.blk.ethAccepts n f = false then Gives (.ethFrameReceive n f ok tm desc) s (s.blk.start.inc ETH_CNT_RX_FILT.all n)
      else Runs (.ethFrameReceive n f ok tm desc) s (fun t => t.rd ETH_CNT_RX_OK.all n = min (s.blk.rd ETH_CNT_RX_OK.all n + 1) (2 ^ 32 - 1)
        ∧ ((ty ≠ 0x86DD ∨ near = true) → t.rd BGH_CNT_EXC.all = min (s.blk.rd BGH_CNT_EXC.all + 1) (2 ^ 32 - 1)
          ∧ (s.blk.ringReady true ring = false → t.bit ETH_EVT.RX_DROP n = true
              ∧ t.rd ETH_CNT_RX_NODESC.all n = min (s.blk.rd ETH_CNT_RX_NODESC.all n + 1) (2 ^ 32 - 1))
          ∧ (s.blk.ringReady true ring = true → f ≠ [] → f.length ≤ desc.buflen → [Output.hostWrite desc.addr f,
              .hostWrite (s.blk.ringDesc true ring) (d2hBytes desc f.length dkETH 0 (if ty ≠ 0x86DD then rsNOT_IPV6 else rsLOCAL) (128 + n) (frameTci f)
                (tm - BitVec.ofNat 64 (s.blk.rd ETH_TS_DLY.RX_DLY n)).toNat)] <+: t.out))
        ∧ (ty = 0x86DD → near = false → s.blk.bit BGH_CTL.EN = true → 1 < ip6Hlim p →
            t.rd BGH_CNT_LOOKUP.all = min (s.blk.rd BGH_CNT_LOOKUP.all + 1) (2 ^ 32 - 1))))

/-- A write of BGH_ENT_DATA stores the entry of the index and its shadow word, no other entry, and advances the index under AUTO_INC; a read answers
the entry. A write of BGH_NH_HI stores the next hop of its index, with the value held for BGH_NH_LO. FENCE and LOAD read 1 until done; LOAD is
refused while EN is 1, and its end makes every entry that of the shadow. The scrubber passes over an entry that agrees, and over one whose shadow is
poisoned (log entry 33), and reports one that does not agree, repaired under REPAIR. What DRAM holds is stated where no word of it has an error that
no read has found yet. A lookup whose root entry has no child answers that entry's result, or NO_ROUTE. COMPLETION: under hypotheses on the state
and the operands alone, exec is said here to answer a next state with the own effect of bghEntWrite, bghEntRead, bghNhStore, fence, fenceDone,
bghLoad, bghLoadDone, bghScrubCompare. (R423, R425, R426, R431, R523) -/
def Obligations.BoughTables : Prop :=
  (∀ (s : State) (v : Word),
      let i := s.blk.rd BGH_ENT_IDX.IDX
      let a := s.blk.bghShadow + 4 * i
      let inc := if s.blk.bit BGH_ENT_IDX.AUTO_INC then 1 else 0
      (bghEntries ≤ i → Gives (.bghEntWrite v) s s.blk.start.entAdvance ∧ Runs .bghEntRead s (fun t => (∃ x, t.resp = .data x)
        ∧ t.rd BGH_ENT_IDX.IDX = (i + inc) % 2 ^ 22 ∧ ∀ j, t.bghEnt j = s.blk.bghEnt j))
      ∧ (i < bghEntries → Runs (.bghEntWrite v) s (fun t => t.bghEnt i = v ∧ (∀ j, j ≠ i → t.bghEnt j = s.blk.bghEnt j)
          ∧ (s.blk.noErrors → (∀ j, j < a ∨ a + 4 ≤ j → t.dramByte j = s.blk.dramByte j)
            ∧ (s.blk.wordPoisoned (a / 8) = false → t.dramLe a 4 = v.toNat)) ∧ t.rd BGH_ENT_IDX.IDX = (i + inc) % 2 ^ 22)
        ∧ Runs .bghEntRead s (fun t => t.resp = .data (s.blk.bghEnt i) ∧ t.rd BGH_ENT_IDX.IDX = (i + inc) % 2 ^ 22 ∧ ∀ j, t.bghEnt j = s.blk.bghEnt j)))
  ∧ (∀ (s : State) (v : Word), Runs (.bghNhStore v) s (fun t => t.reg BGH_NH_HI.all.base &&& 0x8001FFFF = v &&& 0x8001FFFF
      ∧ t.reg BGH_NH_LO.all.base = (Tbl.find s.blk.loHeld BGH_NH_LO.all.base).getD (s.blk.reg BGH_NH_LO.all.base) ∧ (∀ j, t.bghEnt j = s.blk.bghEnt j)
      ∧ ∀ j, Tbl.get (fun _ => 0) t.bdr.nh j = if j = s.blk.rd BGH_NH_IDX.IDX then t.reg BGH_NH_HI.all.base ++ t.reg BGH_NH_LO.all.base
        else Tbl.get (fun _ => 0) s.blk.bdr.nh j))
  ∧ (∀ s : State, Gives .fence s (s.blk.start.set BGH_CTL.FENCE) ∧ Gives .fenceDone s (s.blk.start.clr BGH_CTL.FENCE)
      ∧ (if s.blk.bit BGH_CTL.EN = true then Gives .bghLoad s (s.blk.start.set BGH_EVT.WR_IGN) else
          Gives .bghLoad s ((s.blk.start.set BGH_CTL.LOAD).set BGH_STAT.LOADING))
      ∧ (s.blk.bit BGH_CTL.LOAD = false → NoEffect .bghLoadDone s)
      ∧ (s.blk.bit BGH_CTL.LOAD = true → s.blk.noErrors → Runs .bghLoadDone s (fun t => t.bit BGH_CTL.LOAD = false ∧ t.bit BGH_STAT.LOADING = false
          ∧ (∀ i, i < bghEntries → t.bghEnt i = BitVec.ofNat 32 (s.blk.dramLe (s.blk.bghShadow + 4 * i) 4)) ∧ DramKept s.blk t))
      ∧ (s.blk.bit BGH_CTL.SCRUB_EN = false → NoEffect .bghScrubCompare s))
  ∧ (∀ s : State, s.blk.bit BGH_CTL.SCRUB_EN = true → s.blk.noErrors →
      let i := s.blk.bdr.scrub
      let shd := BitVec.ofNat 32 (s.blk.dramLe (s.blk.bghShadow + 4 * i) 4)
      Runs .bghScrubCompare s (fun t => t.bdr.scrub = (i + 1) % bghEntries ∧ (∀ j, j ≠ i → t.bghEnt j = s.blk.bghEnt j)
        ∧ (s.blk.bghEnt i = shd ∨ s.blk.wordPoisoned ((s.blk.bghShadow + 4 * i) / 8) = true → t.bghEnt i = s.blk.bghEnt i
          ∧ t.bit BGH_EVT.MISMATCH = s.blk.bit BGH_EVT.MISMATCH)
        ∧ (s.blk.bghEnt i ≠ shd → s.blk.wordPoisoned ((s.blk.bghShadow + 4 * i) / 8) = false → t.bit BGH_EVT.MISMATCH = true ∧ t.reg BGH_MISM_DIE.all.base = s.blk.bghEnt i ∧ t.reg BGH_MISM_SHD.all.base = shd
          ∧ t.reg BGH_MISM_IDX.all.base = BitVec.ofNat 32 (2 ^ 31 + i)
          ∧ (s.blk.bit BGH_CTL.REPAIR = true → t.bghEnt i = shd ∧ t.bit BGH_EVT.REPAIRED = true)
          ∧ (s.blk.bit BGH_CTL.REPAIR = false → t.bghEnt i = s.blk.bghEnt i))))
  ∧ (∀ (b : Block) (da : List Byte),
      let e := b.bghEnt (beNat (slice da 0 2))
      e.getLsbD 31 = false → b.bghLookup da = if e.getLsbD 30 then some (b.bghEnt (2162688 + e.toNat % 65536)) else none)

/-- A queue of another mode, an empty queue, and one whose destination cannot accept are left. The DMA reader puts the head item with its descriptor
into the ring, the steward core takes it with its poison, and the decompressor carries out its decision; a poisoned one is counted and dropped
there. The item is gone and the others stay in order. A queue disabled, or reset for its read pointer's copies, under a read is reported. A DL_PKT
for another device is dropped and counted; a down item goes to the shaper, a packet resumes at the Grove test. COMPLETION: under hypotheses on the
state and the operands alone, exec is said here to answer a next state with the own effect of upqHostRead, decompressItem, upqStewardRead,
dlPktReceive. (R381, R391, R392, R413, R415, R416, R417, R427, R428, R459) -/
def Obligations.UpQueuesAndDownlinkPackets : Prop :=
  (∀ (s : State) (q : Nat) (cut : Bool) (desc : D2hDesc), q < 128 →
      (s.blk.rd BGH_UQ.MODE q ≠ 1 → NoEffect (.upqHostRead q cut desc) s)
      ∧ (s.blk.rd BGH_UQ.MODE q ≠ 2 → NoEffect (.decompressItem q desc) s)
      ∧ (s.blk.rd BGH_UQ.MODE q ≠ 3 → NoEffect (.upqStewardRead q cut) s)
      ∧ (s.blk.qHead q = none → (cut = false ∨ s.blk.bit PLQ_CFG.EN q = true) → NoEffect (.upqHostRead q cut desc) s ∧ NoEffect (.upqStewardRead q cut) s
        ∧ NoEffect (.decompressItem q desc) s)
      ∧ (s.blk.rd BGH_UQ.MODE q = 3 → cut = true → s.blk.bit PLQ_CFG.EN q = false → Gives (.upqStewardRead q cut) s (s.blk.start.emit (.steward [] true)))
      ∧ (s.blk.rd BGH_UQ.MODE q = 1 → cut = true → s.blk.bit PLQ_CFG.EN q = false → s.blk.ringReady true (s.blk.rd BGH_UQ.RING q) = true →
        Runs (.upqHostRead q cut desc) s (fun t => [Output.hostWrite (s.blk.ringDesc true (s.blk.rd BGH_UQ.RING q))
          (d2hBytes desc 0 dkITEM 1 0 q none s.blk.freeNat)] <+: t.out)))
  ∧ (∀ (s : State) (q : Nat) (cut : Bool) (desc : D2hDesc) (i : QItem) (rest : List QItem), q < 128 → s.blk.qEnabled q = true →
      (cut = false ∨ s.blk.bit PLQ_CFG.EN q = true) → (s.blk.queue q).items = i :: rest → s.blk.noErrors → (s.blk.queue q).rpA = ~~~(s.blk.queue q).rpB →
      let r := s.blk.rd BGH_UQ.RING q
      let d := s.blk.itemDecide i.read
      (s.blk.rd BGH_UQ.MODE q = 1 → s.blk.ringReady true r = false → NoEffect (.upqHostRead q cut desc) s)
      ∧ (s.blk.rd BGH_UQ.MODE q = 1 → s.blk.ringReady true r = true → i.read ≠ [] → i.read.length ≤ desc.buflen →
        Runs (.upqHostRead q cut desc) s (fun t => (t.queue q).items = rest ∧ [Output.hostWrite desc.addr i.read, .hostWrite (s.blk.ringDesc true r)
          (d2hBytes desc i.read.length dkITEM (if i.poison = [] then 0 else 2) 0 q none (s.blk.itemToa i.read))] <+: t.sent
          ∧ t.ringHead true r = (s.blk.ringHead true r + 1) % s.blk.ringSize true r % 65536))
      ∧ (s.blk.rd BGH_UQ.MODE q = 3 → Runs (.upqStewardRead q cut) s (fun t => (t.queue q).items = rest
          ∧ t.sent = [.steward i.read (!i.poison.isEmpty)] ∧ ∀ j, j ≠ q → t.queue j = s.blk.queue j))
      ∧ (s.blk.rd BGH_UQ.MODE q = 2 → i.poison = [] → s.blk.fwdFree q d.1 = false → NoEffect (.decompressItem q desc) s)
      ∧ (s.blk.rd BGH_UQ.MODE q = 2 → i.poison ≠ [] → Runs (.decompressItem q desc) s (fun t => (t.queue q).items = rest ∧ t.bit BGH_EVT.POISON = true
          ∧ t.rd BGH_CNT_POISON.all = min (s.blk.rd BGH_CNT_POISON.all + 1) (2 ^ 32 - 1) ∧ t.sent = []))
      ∧ (s.blk.rd BGH_UQ.MODE q = 2 → i.poison = [] → s.blk.fwdFree q d.1 = true → Runs (.decompressItem q desc) s (fun t => (t.queue q).items = rest
          ∧ match d.1 with
            | .exc x => i.read.length ≤ desc.buflen → i.read ≠ [] → [Output.hostWrite desc.addr i.read, .hostWrite (s.blk.ringDesc true r)
                (d2hBytes desc i.read.length dkITEM 0 x q none (s.blk.itemToa i.read))] <+: t.sent
            | .host x => d.2.1.length ≤ desc.buflen → d.2.1 ≠ [] → [Output.hostWrite desc.addr d.2.1, .hostWrite (s.blk.ringDesc true x)
                (d2hBytes desc d.2.1.length dkIPV6 0 rsNONE q none (s.blk.itemToa i.read))] <+: t.sent
            | .drop => t.rd BGH_CNT_DROP.all = min (s.blk.rd BGH_CNT_DROP.all + 1) (2 ^ 32 - 1)
            | .eth n fr => t.sent = [.ethFrame n (fr ++ leBytes 4 (crc32 fr))]
            | .noHop => t.bit BGH_EVT.NH_INVALID = true
            | .canopy _ => t.rd BGH_CNT_CANOPY.all = min (s.blk.rd BGH_CNT_CANOPY.all + 1) (2 ^ 32 - 1)
            | .noNode => t.rd BGH_CNT_NO_NODE.all = min (s.blk.rd BGH_CNT_NO_NODE.all + 1) (2 ^ 32 - 1)
            | .shaper _ _ _ => t.rd BGH_CNT_MESH.all = min (s.blk.rd BGH_CNT_MESH.all + 1) (2 ^ 32 - 1))))
  ∧ (∀ (s : State) (q : Nat) (desc : D2hDesc), q < 128 → s.blk.qHead q ≠ none → (s.blk.queue q).rpA ≠ ~~~(s.blk.queue q).rpB →
      let reset (t : Block) : Prop := (t.queue q).items = [] ∧ t.bit PLQ_EVT.PTR_RESET = true ∧ ∀ j, j ≠ q → t.queue j = s.blk.queue j
      (s.blk.rd BGH_UQ.MODE q = 1 → s.blk.ringReady true (s.blk.rd BGH_UQ.RING q) = true → Runs (.upqHostRead q false desc) s (fun t => reset t
        ∧ [Output.hostWrite (s.blk.ringDesc true (s.blk.rd BGH_UQ.RING q)) (d2hBytes desc 0 dkITEM 1 0 q none s.blk.freeNat)] <+: t.sent))
      ∧ (s.blk.rd BGH_UQ.MODE q = 3 → Runs (.upqStewardRead q false) s (fun t => reset t ∧ t.sent = [.steward [] true])))
  ∧ (∀ (s : State) (body : List Byte) (desc : D2hDesc),
      let a := leAt body 0 4 % 2 ^ 28
      let l := body.drop 8
      if homeOf a ≠ s.blk.rd CNP_STAT.POS then Gives (.dlPktReceive body desc) s ((s.blk.start.inc CNP_CNT_DROP.all).set CNP_EVT.MSG_DROP)
      else if leAt body 4 1 = 1 then
        Gives (.dlPktReceive body desc) s (s.blk.start.shpAdmit (leAt l 0 4 % 2 ^ 28) (leAt l 6 1) (leAt l 4 2) (l.drop 8))
      else Runs (.dlPktReceive body desc) s (fun t => match s.blk.fwdNode a (s.blk.ip6Pad l) with
        | .exc _ => t.rd BGH_CNT_EXC.all = min (s.blk.rd BGH_CNT_EXC.all + 1) (2 ^ 32 - 1)
        | .shaper _ _ _ => t.rd BGH_CNT_MESH.all = min (s.blk.rd BGH_CNT_MESH.all + 1) (2 ^ 32 - 1)
        | _ => t.rd BGH_CNT_NO_NODE.all = min (s.blk.rd BGH_CNT_NO_NODE.all + 1) (2 ^ 32 - 1)))

namespace Sys2Proof.Machine

/-- What a write of CNP_CTL stores: reserved values of INS_DIV, CMP_MODE and MSRC read as their defaults (R462). -/
def cnpWord (v : BitVec 32) : BitVec 32 :=
  let v := v &&& 0x0FF13FF7
  let v := if fget v CNP_CTL.INS_DIV = 0 then fput v CNP_CTL.INS_DIV 1 else v
  let v := if fget v CNP_CTL.CMP_MODE = 3 then fput v CNP_CTL.CMP_MODE 0 else v
  if fget v CNP_CTL.MSRC = 3 then fput v CNP_CTL.MSRC 0 else v

/-- A message of the Canopy dropped is counted, and MSG_DROP sets (R454). -/
def DropsMessage (c : Instr) (s : State) : Prop :=
  Runs c s (fun t => t.rd CNP_CNT_DROP.all = min (s.blk.rd CNP_CNT_DROP.all + 1) (2 ^ 32 - 1) ∧ t.bit CNP_EVT.MSG_DROP = true ∧ t.out = [])

end Sys2Proof.Machine

/-- EN of CNP_CTL set starts both ports wrapped in TRAIN with nothing in progress; cleared it takes the links down and STATE is OFF; FWRAP wraps a
port. A link that comes up makes JOIN of any state but MEMBER, one that goes down wraps its port. A flit with a wrong FCRC is counted and lost; a
DATA flit for this device joins its message, a transit flit goes on with HOPS one up; a flit of this device, of a wrapped port, or of HOPS 15 ends.
A free slot takes the first control flit waiting, else a DATA flit where a credit, a link and a message allow one. With no complete message of the
origin nothing happens. A complete message is taken out; one of a bad length is dropped and counted; a plain one is delivered with its MTYPE and
body; a sealed one is dropped without a link key, dropped with AUTH_FAIL where its key generation or its tag does not match, and else delivered
deciphered. A DIGEST is kept as the last of its origin. COMPLETION: under hypotheses on the state and the operands alone, exec is said here to
answer a next state with the own effect of cnpEnable, cnpLinkUp, cnpLinkDown, flitReceive, cnpCreditEarn, localFlitSend, messageReassembled,
digestReceive. (R436, R439, R440, R441, R443, R448, R453, R454, R455, R460, R462, R463) -/
def Obligations.CanopyPortsAndFlits : Prop :=
  (∀ (s : State) (v : Word), Runs (.cnpEnable v) s (fun t => t.reg CNP_CTL.all.base = cnpWord v
      ∧ (s.blk.bit CNP_CTL.EN = false → fget (cnpWord v) CNP_CTL.EN = 1 → t.rd CNP_STAT.STATE = csTRAIN ∧ t.wrapped false = true ∧ t.wrapped true = true
          ∧ t.rd CNP_STAT.PRESENT = 0 ∧ t.bit CNP_STAT.MASTER = false ∧ t.cnp.outQ = [] ∧ t.cnp.peers = [] ∧ t.cnp.reasm = [])
      ∧ (s.blk.bit CNP_CTL.EN = true → fget (cnpWord v) CNP_CTL.EN = 0 → t.rd CNP_STAT.STATE = csOFF ∧ t.portUp false = false ∧ t.portUp true = false
          ∧ t.rd CNP_STAT.PRESENT = 0 ∧ t.cnp.outQ = [])
      ∧ (fget (cnpWord v) CNP_CTL.EN = 1 → (fget v CNP_CTL.FWRAP_E = 1 → t.wrapped false = true) ∧ (fget v CNP_CTL.FWRAP_W = 1 → t.wrapped true = true))))
  ∧ (∀ (s : State) (w : Bool), s.blk.bit CNP_CTL.EN = false ∨ s.blk.portUp w = true → NoEffect (.cnpLinkUp w) s)
  ∧ (∀ (s : State) (w : Bool), s.blk.bit CNP_CTL.EN = true → s.blk.portUp w = false → Runs (.cnpLinkUp w) s (fun t => t.portUp w = true
      ∧ t.out = [.pin (if w then "CNP_W_LINK" else "CNP_E_LINK") 0 true]
      ∧ t.bit CNP_EVT.LINK_CHG = true ∧ t.rd CNP_STAT.STATE = (if s.blk.rd CNP_STAT.STATE = csMEMBER then csMEMBER else csJOIN) ∧ t.cnp = s.blk.cnp))
  ∧ (∀ (s : State) (w : Bool), s.blk.portUp w = false → NoEffect (.cnpLinkDown w) s)
  ∧ (∀ (s : State) (w : Bool), s.blk.portUp w = true → Runs (.cnpLinkDown w) s (fun t => t.portUp w = false ∧ t.out = [.pin (if w then "CNP_W_LINK" else "CNP_E_LINK") 0 false] ∧ t.portUp (!w) = s.blk.portUp (!w)
      ∧ t.bit CNP_EVT.LINK_CHG = true ∧ t.wrapped w = true ∧ (s.blk.bit CNP_CTL.EN = true → s.blk.portUp (!w) = false → t.rd CNP_STAT.STATE = csTRAIN)))
  ∧ (∀ (s : State) (w : Bool) (l : List Byte),
      let f := slice l 0 64
      let ty := leAt f 0 1
      if s.blk.bit CNP_CTL.EN = false ∨ s.blk.portUp w = false then NoEffect (.flitReceive w l) s
      else if leAt f 60 4 ≠ crc32 (f.take 60) then
        Gives (.flitReceive w l) s ((s.blk.start.inc (if w then CNP_CNT_CRC_W.all else CNP_CNT_CRC_E.all)).set CNP_EVT.FLIT_CRC)
      else if leAt f 1 1 % 8 = s.blk.cpos ∨ (ty ≠ 1 ∧ ty ≠ 2 ∧ ty ≠ 8) ∨ (ty = 8 ∧ s.blk.wrapped w = true) then NoEffect (.flitReceive w l) s
      else if ty = 8 ∧ leAt f 2 1 % 8 = s.blk.cpos then Gives (.flitReceive w l) s (s.blk.start.reassemble f)
      else if leAt f 3 1 = 15 ∨ s.blk.wrapped (if s.blk.wrapped (!w) then w else !w) = true ∨ s.blk.portUp (if s.blk.wrapped (!w) then w else !w) = false then
        NoEffect (.flitReceive w l) s
      else Runs (.flitReceive w l) s (fun t => ∃ g, t.out = [.cnpFlit (if s.blk.wrapped (!w) then w else !w) g] ∧ leAt g 3 1 = (leAt f 3 1 + 1) % 256
        ∧ leAt g 60 4 = crc32 (g.take 60) ∧ slice g 0 2 = slice f 0 2 ∧ slice g 4 20 = slice f 4 20 ∧ slice g 32 28 = slice f 32 28
        ∧ leAt g 24 8 = (if ty = 1 then (leAt f 24 8 + s.blk.linkDly w + 773) % 2 ^ 64 else leAt f 24 8)
        ∧ leAt g 2 1 = (if s.blk.wrapped (!w) then leAt f 2 1 ||| 8 else leAt f 2 1) ∧ t.cnp = s.blk.cnp ∧ RegsKept s.blk t []))
  ∧ (∀ (b : Block) (f : List Byte) (r : Reasm), b.cnp.reasm = [r] → r.origin = leAt f 1 1 % 8 → r.mseq = leAt f 4 2 → r.last = false → r.bytes ≠ [] →
      r.next = leAt f 6 1 → (b.reassemble f).cnp.reasm = [{ r with next := r.next + 1, bytes := r.bytes ++ slice f 8 52, last := (leAt f 7 1).testBit 0 }])
  ∧ (∀ (s : State) (w : Bool), if s.blk.bit CNP_CTL.EN = true then Runs (.cnpCreditEarn w) s (fun t =>
        (t.port w).credit = min 64 ((s.blk.port w).credit + 1) ∧ t.port (!w) = s.blk.port (!w) ∧ RegsKept s.blk t [])
      else NoEffect (.cnpCreditEarn w) s)
  ∧ (∀ (s : State) (w : Bool) (tm : DWord), s.blk.bit CNP_CTL.EN = false → NoEffect (.localFlitSend w tm) s)
  ∧ (∀ (s : State) (w : Bool) (tm : DWord), s.blk.bit CNP_CTL.EN = true → (s.blk.port w).ctl = [] → Gives (.localFlitSend w tm) s (s.blk.start.dataFlit w))
  ∧ (∀ (s : State) (w : Bool) (tm : DWord) (c : Ctl) (rest : List Ctl), s.blk.bit CNP_CTL.EN = true → (s.blk.port w).ctl = c :: rest →
      (s.blk.portUp w = false → NoEffect (.localFlitSend w tm) s)
      ∧ (s.blk.portUp w = true → Runs (.localFlitSend w tm) s (fun t => (t.port w).ctl = rest ∧ t.port (!w) = s.blk.port (!w)
        ∧ t.out = [match c with
          | .mark => .cnpFlit w (s.blk.markFlit w tm)
          | .hello => .cnpHello w s.blk.helloNow
          | .dreq => .cnpDreq w
          | .dresp t2 => .cnpDresp w t2 tm]
        ∧ (c = .dreq → (t.port w).t1 = some tm))))
  ∧ (∀ (b : Block) (w : Bool) (x : CnpTx),
      let out := if b.wrapped w then !w else w
      (b.wrapped out = true ∨ b.portUp out = false ∨ (b.port w).credit = 0 → b.dataFlit w = b)
      ∧ (b.wrapped out = false → b.portUp out = true → (b.port w).credit ≠ 0 → (b.port w).cur = some x →
        ∃ g, (b.dataFlit w).out = b.out ++ [.cnpFlit out g] ∧ slice g 8 52 = slice x.rest 0 52 ∧ leAt g 6 1 = x.fidx % 256
          ∧ ((b.dataFlit w).port w).credit = (b.port w).credit - 1
          ∧ ((b.dataFlit w).port w).cur = if x.rest.drop 52 = [] then none else some { x with fidx := x.fidx + 1, rest := x.rest.drop 52 }))
  ∧ (∀ (s : State) (o : Nat), s.blk.cnp.reasm.find? (fun r => r.origin == o && r.last) = none → NoEffect (.messageReassembled o) s)
  ∧ (∀ (s : State) (o : Nat) (r : Reasm), s.blk.cnp.reasm.find? (fun r => r.origin == o && r.last) = some r →
      let hdr := slice r.bytes 0 8
      let n := leAt hdr 2 2
      let body := slice r.bytes 8 n
      let enc := (leAt hdr 1 1).testBit 0
      let delivered (x : List Byte) : Prop := Runs (.messageReassembled o) s (fun t => t.out = [.message o (leAt hdr 0 1) x]
        ∧ t.rd CNP_CNT_RX_MSG.all = min (s.blk.rd CNP_CNT_RX_MSG.all + 1) (2 ^ 32 - 1) ∧ t.cnp.reasm = s.blk.cnp.reasm.filter (fun x => x != r)
        ∧ RegsKept s.blk t [CNP_CNT_RX_MSG.all.base])
      if n = 0 ∨ 9728 < n ∨ r.bytes.length < 8 + n + (if enc then 16 else 0) then DropsMessage (.messageReassembled o) s
      else if enc = false then delivered body
      else (s.blk.cnpKey = none → DropsMessage (.messageReassembled o) s)
        ∧ ∀ h, s.blk.cnpKey = some h →
          let nonce := cnpNonce o (leAt hdr 5 3) (cellOf r.since % 256) (sfOf r.since)
          if h.gen % 256 = leAt hdr 4 1 ∧ gcmTag h.key nonce hdr body = slice r.bytes (8 + n) 16 then delivered (gcmCrypt h.key nonce body)
          else DropsMessage (.messageReassembled o) s ∧ Runs (.messageReassembled o) s (fun t => t.bit CNP_EVT.AUTH_FAIL = true))
  ∧ (∀ (s : State) (o : Nat) (body : List Byte), Runs (.digestReceive o body) s (fun t =>
      Tbl.find t.cnp.digs (o % 8) = some ⟨leAt body 16 4, slice body 0 148⟩ ∧ RegsKept s.blk t [] ∧ t.cnp.reasm = s.blk.cnp.reasm))

/-- A DREQ leaves its DRESP waiting; a DRESP ends an exchange, kept among the last 16, and where their mean is exact the delay is it plus ASYM. The
first usable MARK of a cell gives OFS and CNP_OK, counts, and is measured under CANOPY; one not usable changes nothing but that a MARK was heard. A
window without one is a miss, and on the third in a row the lowest position present is master. On a link that is down neither arrives. A HELLO marks
its position present, takes a member along that followed the same master and now follows another (log entry 57), at HOPS 1 as the neighbour, and in
conflict where it is this one. A port whose ends have both proposed unwraps at the later, and the device is MEMBER under the master R451 says.
COMPLETION: under hypotheses on the state and the operands alone, exec is said here to answer a next state with the own effect of dreqReceive,
drespReceive, markReceive, markWindowClose, helloReceive, portUnwrap. (R442, R443, R444, R446, R447, R449, R450, R451) -/
def Obligations.CanopyTimeAndMembership : Prop :=
  (∀ (s : State) (w : Bool) (t2 : DWord), if s.blk.bit CNP_CTL.EN = true ∧ s.blk.portUp w = true then Runs (.dreqReceive w t2) s (fun t =>
        (t.port w).ctl = (s.blk.port w).ctl ++ [.dresp t2] ∧ t.port (!w) = s.blk.port (!w) ∧ RegsKept s.blk t [])
      else NoEffect (.dreqReceive w t2) s)
  ∧ (∀ (s : State) (w : Bool) (t2 t3 t4 : DWord), (s.blk.port w).t1 = none → NoEffect (.drespReceive w t2 t3 t4) s)
  ∧ (∀ (s : State) (w : Bool) (t1 t2 t3 t4 : DWord), (s.blk.port w).t1 = some t1 →
      let l := (s.blk.port w).dlys ++ [signed 64 ((t4 - t1) - (t3 - t2)).toNat]
      let l := l.drop (l.length - 16)
      let sum : Int := l.foldl (· + ·) 0
      Runs (.drespReceive w t2 t3 t4) s (fun t => (t.port w).t1 = none ∧ (t.port w).dlys = l
        ∧ (sum % (2 * l.length : Nat) = 0 → t.linkDly w = unsigned 24 (sum / (2 * l.length : Nat) + s.blk.rdS (if w then CNP_ASYM_W.ASYM else CNP_ASYM_E.ASYM)))
        ∧ RegsKept s.blk t [if w then CNP_DLY_W.all.base else CNP_DLY_E.all.base]))
  ∧ (∀ (s : State) (w : Bool) (st : DWord) (n : Nat) (d : List Byte), s.blk.bit CNP_CTL.EN = false ∨ s.blk.portUp w = false ∨ leAt d 5 1 % 8 = s.blk.cpos →
      NoEffect (.markReceive w st n d) s)
  ∧ (∀ (s : State) (w : Bool) (st : DWord) (n : Nat) (d : List Byte), s.blk.bit CNP_CTL.EN = true → s.blk.portUp w = true → leAt d 5 1 % 8 ≠ s.blk.cpos → s.blk.cnp.led = true →
      (s.blk.bit CNP_STAT.MASTER = true ∨ leAt d 5 1 % 8 ≠ s.blk.rd CNP_STAT.MASTER_POS ∨ 64 * 2 ^ 32 < st.toNat % 2 ^ 24 * 10 ^ 6 →
        Gives (.markReceive w st n d) s { s.blk.start with cnp := { s.blk.cnp with heard := true } })
      ∧ (s.blk.bit CNP_STAT.MASTER = false → leAt d 5 1 % 8 = s.blk.rd CNP_STAT.MASTER_POS → st.toNat % 2 ^ 24 * 10 ^ 6 ≤ 64 * 2 ^ 32 → s.blk.cnp.used = none →
        let e := signed 64 (st.toNat + 3 * 2 ^ 64 - leAt d 8 8 - leAt d 16 8 - s.blk.linkDly w)
        let b := { s.blk.start with cnp := { s.blk.cnp with
          heard := true, used := some ⟨n, w, s.blk.hoop.sync, s.blk.clk.rate, s.blk.lock⟩, missRun := 0, mtq := leAt d 6 1 % 8 } }
        let b := ((b.wr CNP_OFS.all (unsigned 32 (satSym 32 e))).set HOOP_STATE.CNP_OK).inc CNP_CNT_MARK.all
        Gives (.markReceive w st n d) s (if s.blk.phaseSource = psCANOPY then b.measure e else b).tqShow))
  ∧ (∀ s : State,
      let b := s.blk.start.toTime (BitVec.ofNat 64 (s.blk.clk.cell * 2 ^ 24 + ceilDiv (64 * 2 ^ 32) (10 ^ 6)))
      (s.blk.bit CNP_CTL.EN = false ∨ s.blk.bit CNP_STAT.MASTER = true ∨ s.blk.cnp.used ≠ none → Gives .markWindowClose s b)
      ∧ (s.blk.bit CNP_CTL.EN = true → s.blk.bit CNP_STAT.MASTER = false → s.blk.cnp.used = none → Runs .markWindowClose s (fun t =>
        t.bit CNP_EVT.MARK_MISS = true ∧ t.rd CNP_CNT_MISS.all = min (s.blk.rd CNP_CNT_MISS.all + 1) (2 ^ 32 - 1)
        ∧ (s.blk.cnp.missRun < 2 → t.cnp.missRun = s.blk.cnp.missRun + 1 ∧ t.rd CNP_STAT.MASTER_POS = s.blk.rd CNP_STAT.MASTER_POS)
        ∧ (2 ≤ s.blk.cnp.missRun → t.cnp.missRun = 0 ∧ t.bit HOOP_STATE.CNP_OK = false
          ∧ t.rd CNP_STAT.MASTER_POS = (s.blk.cnpPeers ++ [s.blk.cpos]).foldl min 7
          ∧ t.lock = (if s.blk.phaseSource = psCANOPY ∧ s.blk.hoopDown = false then lockLost s.blk.lock else s.blk.lock)))))
  ∧ (∀ (s : State) (w : Bool) (n : Nat) (own : Bool) (h : Hello), s.blk.bit CNP_CTL.EN = false ∨ s.blk.portUp w = false ∨ own = true → NoEffect (.helloReceive w n own h) s)
  ∧ (∀ (s : State) (w : Bool) (n : Nat) (h : Hello), s.blk.bit CNP_CTL.EN = true → s.blk.portUp w = true →
      if h.origin % 8 = s.blk.cpos then
        Gives (.helloReceive w n false h) s { s.blk.start.set CNP_EVT.POS_CONFLICT with cnp := { s.blk.cnp with conflict := some s.blk.clk.cell } }
      else Runs (.helloReceive w n false h) s (fun t => t.rd CNP_STAT.PRESENT = s.blk.rd CNP_STAT.PRESENT ||| 2 ^ (h.origin % 8)
        ∧ (∃ p, Tbl.find t.cnp.peers (h.origin % 8) = some p ∧ p.cell = s.blk.clk.cell ∧ p.master = h.master % 8 ∧ (if w then p.distW else p.distE) = some n)
        ∧ t.rd CNP_STAT.MASTER_POS = (let old := ((Tbl.find s.blk.cnp.peers (h.origin % 8)).map (·.master)).getD (h.master % 8)
            if s.blk.cnp.led = true ∧ s.blk.rd CNP_STAT.STATE = csMEMBER ∧ h.member = true ∧ old = s.blk.rd CNP_STAT.MASTER_POS then h.master % 8
            else s.blk.rd CNP_STAT.MASTER_POS)
        ∧ (if n = 1 then (t.port w).nb = some h ∧ (t.port w).nbCell = s.blk.clk.cell
            ∧ t.bit (if w then CNP_PORT_W.NB_VALID else CNP_PORT_E.NB_VALID) = true ∧ t.rd (if w then CNP_PORT_W.NB_POS else CNP_PORT_E.NB_POS) = h.origin % 8
            ∧ t.bit CNP_EVT.DOMAIN_MISMATCH = (s.blk.bit CNP_EVT.DOMAIN_MISMATCH || h.domain != (s.blk.reg MAS_DOMAIN_ID.all.base).toNat)
          else t.port w = s.blk.port w)))
  ∧ (∀ (s : State) (w : Bool), s.blk.wrapped w = false ∨ s.blk.bit CNP_CTL.EN = false ∨ (s.blk.port w).prop = none ∨ (s.blk.port w).nbProp w = none →
      NoEffect (.portUnwrap w) s)
  ∧ (∀ (s : State) (w : Bool) (x y : Nat) (h : Hello), s.blk.wrapped w = true → s.blk.bit CNP_CTL.EN = true → (s.blk.port w).prop = some x →
      (s.blk.port w).nbProp w = some y → (s.blk.port w).nb = some h →
      let join := s.blk.rd CNP_STAT.STATE = csJOIN
      let takes := (join ∧ h.member = true) ∨ (((join ∧ h.member = false) ∨ (¬ join ∧ h.member = true)) ∧ (s.blk.cnpPeers.length + 1 < h.count
        ∨ (s.blk.cnpPeers.length + 1 = h.count ∧ h.master % 8 < s.blk.rd CNP_STAT.MASTER_POS)))
      Runs (.portUnwrap w) s (fun t => t.wrapped w = false ∧ t.bit CNP_EVT.JOINED = true ∧ t.rd CNP_STAT.STATE = csMEMBER
        ∧ t.clk = (s.blk.toTime (htAt (max x y) 0)).clk
        ∧ (takes → t.rd CNP_STAT.MASTER_POS = h.master % 8) ∧ (¬ takes → t.rd CNP_STAT.MASTER_POS = s.blk.rd CNP_STAT.MASTER_POS)))

namespace Sys2Proof.Machine

/-- Each flash byte outside the range of `n` bytes at `a` is as it was. -/
def FlashKept (b c : Block) (a n : Nat) : Prop := ∀ x, x < a ∨ a + n ≤ x → Tbl.get flErased c.upd.flash x = Tbl.get flErased b.upd.flash x

/-- The flash of `c` holds what `b` holds. -/
def FlashIs (b c : Block) : Prop := ∀ x, Tbl.get flErased c.upd.flash x = Tbl.get flErased b.upd.flash x

/-- The command completes with DRAM_ERR: the area it reads lies outside memory or is poisoned (R486). -/
def DramFails (c : Instr) (s : State) : Prop :=
  Runs c s (fun t => t.stw.held = some (updDRAM_ERR, []) ∧ FlashIs s.blk t ∧ DramKept s.blk t ∧ RegsKept s.blk t [RAS_UE_CNT.all.base])

/-- UPD_STAGE_FINISH fails with a status: the state becomes INVALID and STAGE_FAIL sets (R469). -/
def FinishFails (s : State) (st : Nat) : Prop :=
  Runs .updStageFinish s (fun t => t.stw.held = some (st, []) ∧ t.rd UPD_STG_ST.STATE = sgINVALID ∧ t.bit UPD_EVT.STAGE_FAIL = true
    ∧ t.rd UPD_STG_ST.ROLL = 0 ∧ t.reg UPD_STG_VER.all.base = 0 ∧ FlashIs s.blk t)

end Sys2Proof.Machine

/-- Each staging command does nothing while the steward has no command of its opcode and completes with BAD_LENGTH for a wrong ARG_LEN. BEGIN is
refused in WRITING and for a length out of range; else it opens the half of the journal that does not govern with GEN one up, writes STAGE_BEGIN,
erases the staging slot and leaves all other flash. WRITE is refused outside WRITING, for a bad offset or length, and for a bad DRAM area; else the
bytes are in the slot, or FLASH_ERR where they cannot be. FINISH tests the image in the order of its statuses, and stages a valid one with a STAGED
entry. CANCEL writes CANCEL. An entry appended to a journal whose rest is erased is its last entry. That BEGIN is refused in WRITING, and that
FLASH_ERR leaves WRITING, are the model's choices. What is read of DRAM is stated where no word of it has an error that no read has found yet.
COMPLETION: under hypotheses on the state and the operands alone, exec is said here to answer a next state with the own effect of updStageBegin,
updStageWrite, updStageFinish, updStageCancel. (R41, R466, R467, R468, R469, R470, R485, R486, R487) -/
def Obligations.UpdateStaging : Prop :=
  (∀ x ∈ [(Instr.updStageBegin false, 0x2000, 1), (.updStageBegin true, 0x2000, 1), (.updStageWrite false, 0x2001, 4), (.updStageWrite true, 0x2001, 4),
      (.updStageFinish, 0x2002, 0), (.updStageCancel, 0x2003, (0 : Nat))], ∀ s : State, (s.blk.mbxServes x.2.1 = false → NoEffect x.1 s)
    ∧ (s.blk.mbxServes x.2.1 = true → s.blk.mbxTakes x.2.1 (· == x.2.2) = false → Holds x.1 s mbxBAD_LENGTH []))
  ∧ (∀ (s : State) (bad : Bool), s.blk.mbxTakes 0x2000 (· == 1) = true →
      let n := s.blk.argN 0
      let h := match s.blk.jHalf with | some h => 1 - h | none => 0
      let g := match s.blk.jHalf with | some h => ((s.blk.jGen h).getD 0 + 1) % 2 ^ 32 | none => 1
      if s.blk.rd UPD_STG_ST.STATE = sgWRITING then Holds (.updStageBegin bad) s updSTAGE_STATE []
      else if n < 256 ∨ flSlot < n then Holds (.updStageBegin bad) s updLENGTH []
      else if bad then Runs (.updStageBegin bad) s (fun t => t.stw.held = some (updFLASH_ERR, []) ∧ t.rd UPD_STG_ST.STATE = sgWRITING
        ∧ t.upd.stgUndef = true ∧ FlashIs s.blk t)
      else Runs (.updStageBegin bad) s (fun t => t.stw.held = some (mbxOK, []) ∧ t.rd UPD_STG_ST.STATE = sgWRITING ∧ t.upd.stgUndef = false
        ∧ t.upd.stgLen = n ∧ t.jHalf = some h ∧ t.jEntries = [⟨jOPEN, 0, g, 0⟩, ⟨jSTAGE_BEGIN, 0, g, 0⟩]
        ∧ (∀ x, x < flSlot → Tbl.get flErased t.upd.flash (flStage + x) = 0xFF)
        ∧ ∀ x, x < flStage ∨ flStage + flSlot ≤ x → x < flJournal h ∨ flJournal h + 0x10000 ≤ x →
          Tbl.get flErased t.upd.flash x = Tbl.get flErased s.blk.upd.flash x))
  ∧ (∀ (s : State) (bad : Bool), s.blk.mbxTakes 0x2001 (· == 4) = true →
      let off := s.blk.argN 0
      let n := s.blk.argN 3
      let d := s.blk.dramBytes (s.blk.mbxArg64 1) n
      let fits := ∀ i, i < n → s.blk.fl (flStage + off + i) 1 = [0xFF]
      if s.blk.rd UPD_STG_ST.STATE ≠ sgWRITING then Holds (.updStageWrite bad) s updSTAGE_STATE []
      else if off % 256 ≠ 0 ∨ n < 256 ∨ 1048576 < n ∨ s.blk.upd.stgLen < off + n ∨ (n % 256 ≠ 0 ∧ off + n ≠ s.blk.upd.stgLen) then
        Holds (.updStageWrite bad) s updLENGTH []
      else s.blk.noErrors → if s.blk.areaBad (s.blk.mbxArg64 1) n = true then DramFails (.updStageWrite bad) s
      else if bad then Runs (.updStageWrite bad) s (fun t => t.stw.held = some (updFLASH_ERR, []) ∧ t.upd.stgUndef = true
        ∧ t.rd UPD_STG_ST.STATE = sgWRITING ∧ FlashKept s.blk t (flStage + off) n)
      else fits → Runs (.updStageWrite bad) s (fun t => t.stw.held = some (mbxOK, []) ∧ t.fl (flStage + off) n = d
        ∧ FlashKept s.blk t (flStage + off) n ∧ RegsKept s.blk t []))
  ∧ (∀ s : State, s.blk.mbxTakes 0x2002 (· == 0) = true →
      if s.blk.rd UPD_STG_ST.STATE ≠ sgWRITING then Holds .updStageFinish s updSTAGE_STATE []
      else if s.blk.upd.stgUndef = true ∨ s.blk.imgFormOk flStage = false then FinishFails s updBAD_IMAGE
      else if s.blk.tampered = true ∨ s.blk.imgSigOk flStage = false then FinishFails s updBAD_SIG
      else if s.blk.imgRollOk flStage = false then FinishFails s updROLLBACK
      else Runs .updStageFinish s (fun t => t.stw.held = some (mbxOK, [BitVec.ofNat 32 (s.blk.imgVer flStage), BitVec.ofNat 32 (s.blk.imgRoll flStage),
            BitVec.ofNat 32 (s.blk.imgCfgVer flStage)])
        ∧ t.rd UPD_STG_ST.STATE = sgSTAGED ∧ t.bit UPD_EVT.STAGED = true ∧ t.rd UPD_STG_ST.ROLL = s.blk.imgRoll flStage
        ∧ t.reg UPD_STG_VER.all.base = BitVec.ofNat 32 (s.blk.imgVer flStage) ∧ FlashIs (s.blk.jAppend jSTAGED 0 (s.blk.imgDigLo flStage)) t))
  ∧ (∀ s : State, s.blk.mbxTakes 0x2003 (· == 0) = true →
      if s.blk.rd UPD_STG_ST.STATE = sgEMPTY then Holds .updStageCancel s updSTAGE_STATE []
      else Runs .updStageCancel s (fun t => t.stw.held = some (mbxOK, []) ∧ t.rd UPD_STG_ST.STATE = sgEMPTY ∧ t.rd UPD_STG_ST.ROLL = 0
        ∧ t.reg UPD_STG_VER.all.base = 0 ∧ FlashIs (s.blk.jAppend jCANCEL 0 s.blk.jDigLo) t))
  ∧ (∀ (b : Block) (h typ arg dig : Nat), b.jHalf = some h → (b.jLog h).length < 4096 →
      (∀ x, 16 * (b.jLog h).length ≤ x → x < 0x10000 → Tbl.get flErased b.upd.flash (flJournal h + x) = 0xFF) →
      typ < 256 → arg < 65536 → dig < 2 ^ 32 →
      (b.jAppend typ arg dig).jEntries = b.jEntries ++ [⟨typ, arg, (b.jGen h).getD 0, dig⟩])

/-- Each command does nothing while the steward has no command of its opcode and completes with BAD_LENGTH for a wrong ARG_LEN. LIST answers the
count and the keys of up to 63 live records from an index on. READ answers VER and LEN and puts the body in DRAM, or CFG_NOT_FOUND, or DRAM_ERR.
WRITE and DELETE refuse Sybema types and bodies above 4,096 bytes with CFG_RESERVED, a bad DRAM area, and a key without a live record; else the
record is appended, or by a compaction, with LIVE counting the live records then, or CFG_FULL is answered; a failed read-back answers FLASH_ERR with
the flash as it was (the model's choice). An area is erased by a compaction only when it is not the active one. COMPLETION: under hypotheses on the
state and the operands alone, exec is said here to answer a next state with the own effect of updCfgList, updCfgRead, updCfgWrite, updCfgDelete.
(R41, R474, R475, R485, R486) -/
def Obligations.ConfigurationRecords : Prop :=
  (∀ x ∈ [(Instr.updCfgList, 0x2010, 1), (.updCfgRead, 0x2011, 3), (.updCfgWrite false, 0x2012, 4), (.updCfgWrite true, 0x2012, 4),
      (.updCfgDelete false, 0x2013, 1), (.updCfgDelete true, 0x2013, (1 : Nat))], ∀ s : State, (s.blk.mbxServes x.2.1 = false → NoEffect x.1 s)
    ∧ (s.blk.mbxServes x.2.1 = true → s.blk.mbxTakes x.2.1 (· == x.2.2) = false → Holds x.1 s mbxBAD_LENGTH []))
  ∧ (∀ s : State, s.blk.mbxTakes 0x2010 (· == 1) = true →
      let ks := ((s.blk.cfgLive.drop (s.blk.argN 0)).take 63).map (fun r => BitVec.ofNat 32 r.key)
      Holds .updCfgList s mbxOK (BitVec.ofNat 32 ks.length :: ks) ∧ ks.length ≤ 63)
  ∧ (∀ s : State, s.blk.mbxTakes 0x2011 (· == 3) = true →
      let a := s.blk.mbxArg64 1
      (s.blk.cfgLive.find? (fun r => r.key == s.blk.argN 0) = none → Holds .updCfgRead s updCFG_NOT_FOUND [])
      ∧ ∀ r, s.blk.cfgLive.find? (fun r => r.key == s.blk.argN 0) = some r →
        if s.blk.dramSize < a + r.body.length then Holds .updCfgRead s updDRAM_ERR []
        else s.blk.noErrors → Runs .updCfgRead s (fun t => t.stw.held = some (mbxOK, [BitVec.ofNat 32 (r.ver * 65536 + r.body.length)])
          ∧ (s.blk.dramPoisoned a r.body.length = false → t.dramBytes a r.body.length = r.body)
          ∧ (∀ x, x < a ∨ a + r.body.length ≤ x → t.dramByte x = s.blk.dramByte x) ∧ FlashIs s.blk t))
  ∧ (∀ (s : State) (bad : Bool), s.blk.mbxTakes 0x2012 (· == 4) = true →
      let k := s.blk.argN 0
      let n := s.blk.argN 1 % 65536
      let r : CfgRec := { typ := k / 65536, inst := k % 65536, ver := s.blk.argN 1 / 65536, seq := 0, deleted := false,
                          body := s.blk.dramBytes (s.blk.mbxArg64 2) n, pos := 0 }
      if k < 0x80000000 ∨ 4096 < n then Holds (.updCfgWrite bad) s updCFG_RESERVED []
      else s.blk.noErrors → if s.blk.areaBad (s.blk.mbxArg64 2) n = true then DramFails (.updCfgWrite bad) s
      else (s.blk.cfgAppend r = none → Holds (.updCfgWrite bad) s updCFG_FULL [])
        ∧ ∀ b, s.blk.cfgAppend r = some b → if bad then Holds (.updCfgWrite bad) s updFLASH_ERR [] else
          Runs (.updCfgWrite bad) s (fun t => t.stw.held = some (mbxOK, []) ∧ FlashIs b t
            ∧ t.rd UPD_CFG_ST.LIVE = t.cfgLive.length % 65536 ∧ RegsKept s.blk t [UPD_CFG_ST.all.base] ∧ DramKept s.blk t))
  ∧ (∀ (s : State) (bad : Bool), s.blk.mbxTakes 0x2013 (· == 1) = true →
      let k := s.blk.argN 0
      let r : CfgRec := { typ := k / 65536, inst := k % 65536, ver := 0, seq := 0, deleted := true, body := [], pos := 0 }
      if k < 0x80000000 then Holds (.updCfgDelete bad) s updCFG_RESERVED []
      else if s.blk.cfgLive.all (fun r => r.key != k) = true then Holds (.updCfgDelete bad) s updCFG_NOT_FOUND []
      else (s.blk.cfgAppend r = none → Holds (.updCfgDelete bad) s updCFG_FULL [])
        ∧ ∀ b, s.blk.cfgAppend r = some b → if bad then Holds (.updCfgDelete bad) s updFLASH_ERR [] else
          Runs (.updCfgDelete bad) s (fun t => t.stw.held = some (mbxOK, []) ∧ FlashIs b t
            ∧ t.rd UPD_CFG_ST.LIVE = t.cfgLive.length % 65536 ∧ RegsKept s.blk t [UPD_CFG_ST.all.base] ∧ DramKept s.blk t))
  ∧ (∀ (b c : Block) (rs : List CfgRec) (a : Nat), b.cfgCompact rs = some c → b.cfgActive = some a →
      ∀ x, flCfg a ≤ x → x < flCfg a + flCfgSize → Tbl.get flErased c.upd.flash x = Tbl.get flErased b.upd.flash x)

/-- START refuses in the order of its statuses and else begins the session with counters 0 in PREPARING; STOP ends it; COUNT answers the counters. A
prepared block makes the session SENDING. The encoder admits its next payload while the pool has a buffer, and after the last sets DONE; with no
buffer it waits for the next cell boundary; while the context is full it waits. A report of another session, of a FREE record, or of a bad STATE, or
while the steward core is not ready, does nothing, nor does one whose record cannot be loaded and locked; else the record takes SEED_SESSION and
SEED_ST. A flash command outside RECOVERY or while BUSY is ignored with WR_IGN; else it is BUSY until it completes, when READ fills the page buffer,
PROGRAM stores it, and ERASE clears a sector. COMPLETION: under hypotheses on the state and the operands alone, exec is said here to answer a next
state with the own effect of updSeedStart, updSeedStop, updSeedCount, seedItemAdmit, seedReportProcess, updFlDone, encoderBlockPrepared, updFlRead,
updFlProgram, updFlErase, updFlNop. (R41, R412, R473, R478, R480, R482, R484, R485, R486, R488, R489) -/
def Obligations.SeedfallAndRecovery : Prop :=
  (∀ x ∈ [(Instr.updSeedStart, 0x2020, 7), (.updSeedStop, 0x2021, 0), (.updSeedCount, 0x2022, (0 : Nat))], ∀ s : State,
    (s.blk.mbxServes x.2.1 = false → NoEffect x.1 s)
    ∧ (s.blk.mbxServes x.2.1 = true → s.blk.mbxTakes x.2.1 (· == x.2.2) = false → Holds x.1 s mbxBAD_LENGTH []))
  ∧ (∀ s : State, s.blk.mbxTakes 0x2020 (· == 7) = true →
      let session := s.blk.argN 0 % 65536
      let key := (s.blk.slot (s.blk.argN 0 / 65536 % 64)).act
      let img := s.blk.mbxArg64 1
      let man := s.blk.mbxArg64 3
      let ctx := s.blk.argN 5 % 65536
      let nsym := s.blk.argN 5 / 65536 % 256
      let m := s.blk.dramBytes man 218
      let f := leAt m 24 5
      if s.blk.rd UPD_SEED_ST.ST = 1 ∨ s.blk.rd UPD_SEED_ST.ST = 2 then Holds .updSeedStart s updSEED_BUSY []
      else s.blk.noErrors → if s.blk.areaBad man 218 = true then DramFails .updSeedStart s
      else if s.blk.tampered = true ∨ manifestOk m session nsym = false ∨ ¬ (key.typ = 4 ∧ key.allows mkSIGN = true)
          ∨ edVerify key.key (shake256 64 (slice m 0 104)) (slice m 104 114) = false then Holds .updSeedStart s updBAD_MANIFEST []
      else if s.blk.areaBad img f = true then DramFails .updSeedStart s
      else if (s.blk.ctx ctx).cfg.en = false ∨ (s.blk.ctx ctx).cfg.qmax = 0 then Holds .updSeedStart s updBAD_CTX []
      else if slice m 40 64 ≠ shake256 64 (s.blk.dramBytes img f) then Holds .updSeedStart s updSEED_HASH []
      else Runs .updSeedStart s (fun t => t.stw.held = some (mbxOK, []) ∧ t.rd UPD_SEED_ST.ST = 1 ∧ t.rd UPD_SEED_ST.SESSION = session
        ∧ t.reg UPD_SEED_ITEMS.all.base = 0 ∧ t.reg UPD_SEED_CNT_RX.all.base = 0 ∧ t.reg UPD_SEED_CNT_DONE.all.base = 0
        ∧ t.reg UPD_SEED_CNT_APPL.all.base = 0 ∧ t.reg UPD_SEED_CNT_FAIL.all.base = 0 ∧ FlashIs s.blk t ∧ DramKept s.blk t
        ∧ ∃ e, t.upd.seed = some e ∧ e.session = session ∧ e.img = img ∧ e.f = f ∧ e.t = leAt m 30 2 ∧ e.z = leAt m 29 1 ∧ e.ctx = ctx
          ∧ e.nsym = nsym ∧ e.repair = s.blk.argN 6 % 65536 ∧ e.manifest = m ∧ e.blk = 0 ∧ e.esi = 0 ∧ e.prepared = false ∧ e.manSent = false))
  ∧ (∀ s : State, s.blk.mbxTakes 0x2021 (· == 0) = true →
      if s.blk.rd UPD_SEED_ST.ST = 1 ∨ s.blk.rd UPD_SEED_ST.ST = 2 then
        Gives .updSeedStop s ((s.blk.start.wr UPD_SEED_ST.ST 4).mbxHold mbxOK [s.blk.reg UPD_SEED_ITEMS.all.base])
      else Holds .updSeedStop s updSEED_IDLE [])
  ∧ (∀ s : State, s.blk.mbxTakes 0x2022 (· == 0) = true → Holds .updSeedCount s mbxOK [s.blk.reg UPD_SEED_ST.all.base,
      s.blk.reg UPD_SEED_CNT_RX.all.base, s.blk.reg UPD_SEED_CNT_DONE.all.base, s.blk.reg UPD_SEED_CNT_APPL.all.base, s.blk.reg UPD_SEED_CNT_FAIL.all.base])
  ∧ (∀ s : State, s.blk.upd.seed = none → NoEffect .encoderBlockPrepared s ∧ NoEffect .seedItemAdmit s)
  ∧ (∀ (s : State) (e : Seed), s.blk.upd.seed = some e →
      (if s.blk.rd UPD_SEED_ST.ST = 1 ∨ s.blk.rd UPD_SEED_ST.ST = 2 then Runs .encoderBlockPrepared s (fun t => t.rd UPD_SEED_ST.ST = 2
          ∧ t.upd.seed = some { e with prepared := true } ∧ RegsKept s.blk t [UPD_SEED_ST.all.base]) else NoEffect .encoderBlockPrepared s)
      ∧ (if s.blk.rd UPD_SEED_ST.ST ≠ 2 ∨ e.prepared = false ∨ (s.blk.ctx e.ctx).cfg.qmax ≤ (s.blk.ctx e.ctx).held.length ∨ s.blk.clk.cell < e.retryCell then
          NoEffect .seedItemAdmit s
        else if s.blk.poolCount ≤ s.blk.poolUsed.length then Runs .seedItemAdmit s (fun t => t.upd.seed = some { e with retryCell := s.blk.clk.cell + 1 }
          ∧ t.rd UPD_SEED_ST.ST = 2 ∧ t.reg UPD_SEED_ITEMS.all.base = s.blk.reg UPD_SEED_ITEMS.all.base)
        else Runs .seedItemAdmit s (fun t => t.upd.seed = some (s.blk.seedNext e).2
          ∧ t.rd UPD_SEED_ITEMS.all = min (s.blk.rd UPD_SEED_ITEMS.all + 1) (2 ^ 32 - 1)
          ∧ t.rd UPD_SEED_ST.ST = (if e.z ≤ (s.blk.seedNext e).2.blk then 3 else 2)
          ∧ t.bit UPD_EVT.SEED_DONE = (s.blk.bit UPD_EVT.SEED_DONE || decide (e.z ≤ (s.blk.seedNext e).2.blk)))))
  ∧ (∀ (s : State) (idx ses st : Nat),
      let r := s.blk.recordNow idx
      if s.blk.seedSession ≠ some ses ∨ s.blk.stewardUp 2 = false ∨ s.blk.recordFree idx = true ∨ st = 0 ∨ 4 < st then
        NoEffect (.seedReportProcess idx ses st) s
      else s.blk.noErrors → if (s.blk.start.grvLoad 130 idx true).1.1 ≠ 0 then
        Runs (.seedReportProcess idx ses st) s (fun t => t.recordNow idx = r ∧ t.bit UPD_EVT.SEED_REPORT = s.blk.bit UPD_EVT.SEED_REPORT)
      else Runs (.seedReportProcess idx ses st) s (fun t => t.recordNow idx = seedRecord r ses st ∧ DramKept s.blk t ∧ FlashIs s.blk t
        ∧ t.bit UPD_EVT.SEED_REPORT = (s.blk.bit UPD_EVT.SEED_REPORT || seedOf ses r != st)))
  ∧ (∀ s : State, (s.blk.rd UPD_BOOT_ST.RESULT ≠ brRECOVERY ∨ s.blk.bit UPD_FL_CMD.BUSY = true → ∀ c ∈ [Instr.updFlRead, .updFlProgram, .updFlErase, .updFlNop],
        Gives c s (s.blk.start.set UPD_EVT.WR_IGN))
      ∧ (s.blk.rd UPD_BOOT_ST.RESULT = brRECOVERY → s.blk.bit UPD_FL_CMD.BUSY = false →
        ∀ x ∈ [(Instr.updFlRead, 0), (.updFlProgram, 1), (.updFlErase, 2), (.updFlNop, (3 : Nat))], Runs x.1 s (fun t =>
          t.bit UPD_FL_CMD.BUSY = true ∧ t.bit UPD_FL_CMD.ERR = false ∧ t.rd UPD_FL_CMD.OP = x.2 ∧ FlashIs s.blk t
          ∧ RegsKept s.blk t [UPD_FL_CMD.all.base])))
  ∧ (∀ (s : State) (bad : Bool), s.blk.bit UPD_FL_CMD.BUSY = false → NoEffect (.updFlDone bad) s)
  ∧ (∀ (s : State) (bad : Bool), s.blk.bit UPD_FL_CMD.BUSY = true →
      let a := (s.blk.reg UPD_FL_ADDR.all.base).toNat
      Runs (.updFlDone bad) s (fun t => t.bit UPD_FL_CMD.BUSY = false ∧ t.bit UPD_EVT.FL_DONE = true
        ∧ (s.blk.rd UPD_FL_CMD.OP = 0 → FlashIs s.blk t ∧ t.bit UPD_FL_CMD.ERR = bad ∧ ∀ i, i < 64 →
          t.reg (UPD_FL_DATA.all.off i) = BitVec.ofNat 32 (s.blk.flLe (a + 4 * i) 4))
        ∧ (s.blk.rd UPD_FL_CMD.OP = 1 → a % 256 = 0 → bad = false → FlashKept s.blk t a 256
          ∧ ∀ i, i < 256 → Tbl.get flErased t.upd.flash (a + i) = Tbl.get flErased s.blk.upd.flash (a + i) &&& s.blk.flBuf.getD i 0)
        ∧ (s.blk.rd UPD_FL_CMD.OP = 2 → a % 65536 = 0 → bad = false → FlashKept s.blk t a 65536 ∧ t.bit UPD_FL_CMD.ERR = false
          ∧ ∀ i, i < 65536 → Tbl.get flErased t.upd.flash (a + i) = 0xFF)
        ∧ (s.blk.rd UPD_FL_CMD.OP = 3 → FlashIs s.blk t ∧ t.bit UPD_FL_CMD.ERR = bad)))

namespace Sys2Proof.Machine

/-- The answer of a claim for the host and the steward cores (R499): VALID, AGAIN, COUNT and the source. -/
def claimAnswer (valid again : Bool) (count src : Nat) : Resp := .data (BitVec.ofNat 32 (valid.toNat * 2 ^ 31 + again.toNat * 2 ^ 30 + count * 2 ^ 16 + src))

/-- The store of strand `k` to its claim or done byte is the oldest that waits of its engine (R502). -/
def Block.oldestStore (b : Block) (k : Nat) (isDone : Bool) (x : AreaStore) : Prop :=
  b.icu.stores.find? (fun x => engOf x.strand == engOf k) = some x ∧ x.strand = k ∧ x.isDone = isDone

/-- The count of timer n as a read of a linked pair finds it: in the beat in which a period of its low half completes, the count before (R508). -/
def Block.tmrSeen (b : Block) (n : Nat) : BitVec 32 :=
  match (b.timer n).was with
  | some (t, c) => if t = b.clk.beat then BitVec.ofNat 32 c else b.reg (TMR_CNT.all.off n)
  | none => b.reg (TMR_CNT.all.off n)

/-- Timers start in the block `b` as the mask says (R506, R508, R511): each timer of the mask, and a linked odd one with its even one alone, runs from
0 upwards with TOP and MATCH as written; the other timers are as they were. -/
def TimersStart (b t : Block) (mask : Nat) : Prop :=
  ∀ n, n < 32 →
    if bitOf mask (if b.linked n then n - 1 else n) then
      t.tmrRuns n = true ∧ t.tmrCnt n = 0 ∧ t.bit TMR_FLAG.DIR n = false ∧ (t.timer n).top = (b.reg (TMR_TOP.all.off n)).toNat
        ∧ (t.timer n).mat = (b.reg (TMR_MATCH.all.off n)).toNat ∧ (t.timer n).due = b.clk.beat + 2 ^ b.rd TMR_CFG.PSC n
        ∧ (t.timer n).out = (match b.rd TMR_CFG.OUTMODE n with | 2 => decide (0 < (t.timer n).mat) | 3 => (t.timer n).mat == 0 | _ => false)
    else t.tmrRuns n = b.tmrRuns n ∧ t.tmrCnt n = b.tmrCnt n ∧ t.timer n = b.timer n ∧ t.reg (TMR_FLAG.all.off n) = b.reg (TMR_FLAG.all.off n)

end Sys2Proof.Machine

/-- The claim of a steward core or the host is a read of its claim register, that of an engine a strand's store to the claim byte, the oldest of its
engine first. With a source presented it answers the source with VALID and its count, the count goes one down, and the source becomes the target's
claimed source. With a source held it answers that source with AGAIN and changes nothing. Else it answers source 0x1FF with VALID 0. COMPLETION:
under hypotheses on the state and the operands alone, exec is said here to answer a next state with the own effect of icuClaim, engineClaimStore.
(R499) -/
def Obligations.InterruptClaims : Prop :=
  (∀ (s : State) (k : Nat), 32 ≤ k → k ≤ 36 →
      (∀ n, s.blk.claimOf k = none → s.blk.presented k = some n → Runs (.icuClaim k) s (fun t =>
        t.resp = claimAnswer true false (s.blk.rd ICU_SRC.COUNT n) n ∧ t.rd ICU_SRC.COUNT n = s.blk.rd ICU_SRC.COUNT n - 1 ∧ t.claimOf k = some n
        ∧ (∀ j, j ≠ k → t.claimOf j = s.blk.claimOf j) ∧ RegsKept s.blk t [ICU_SRC.all.off n, ICU_EVT.all.base]))
      ∧ (∀ n, s.blk.claimOf k = some n → Gives (.icuClaim k) s { s.blk.start with resp := claimAnswer false true (s.blk.rd ICU_SRC.COUNT n) n })
      ∧ (s.blk.claimOf k = none → s.blk.presented k = none → Gives (.icuClaim k) s { s.blk.start with resp := claimAnswer false false 0 0x1FF }))
  ∧ (∀ (s : State) (k : Nat) (x : AreaStore), k < 128 → s.blk.oldestStore k false x →
      let word (valid again : Bool) (count src : Nat) : ClaimWord :=
        { strand := k, due := x.beat + 2, val := BitVec.ofNat 64 (valid.toNat * 2 ^ 63 + again.toNat * 2 ^ 62 + count * 2 ^ 32 + src) }
      (∀ n, s.blk.claimOf (engOf k) = none → s.blk.presented (engOf k) = some n → Runs (.engineClaimStore k) s (fun t =>
        t.icu.claimWords = s.blk.icu.claimWords ++ [word true false (s.blk.rd ICU_SRC.COUNT n) n] ∧ t.icu.stores = s.blk.icu.stores.erase x
        ∧ t.rd ICU_SRC.COUNT n = s.blk.rd ICU_SRC.COUNT n - 1 ∧ t.claimOf (engOf k) = some n
        ∧ (∀ j, j ≠ engOf k → t.claimOf j = s.blk.claimOf j) ∧ RegsKept s.blk t [ICU_SRC.all.off n, ICU_EVT.all.base]))
      ∧ (∀ n, s.blk.claimOf (engOf k) = some n → Gives (.engineClaimStore k) s { s.blk.start with icu := { s.blk.icu with
          stores := s.blk.icu.stores.erase x, claimWords := s.blk.icu.claimWords ++ [word false true (s.blk.rd ICU_SRC.COUNT n) n] } })
      ∧ (s.blk.claimOf (engOf k) = none → s.blk.presented (engOf k) = none → Gives (.engineClaimStore k) s { s.blk.start with icu := { s.blk.icu with
          stores := s.blk.icu.stores.erase x, claimWords := s.blk.icu.claimWords ++ [word false false 0 0x1FF] } }))

/-- A level that has held less than FILT cycles is filtered out. A rise of a filtered level counts one in COUNT while EN is 1, saturating at 255; a
fall counts nothing. A write of ICU_SRC_n with a reserved target is ignored with WR_IGN and else stores the fields, with an edge of the same cycle
added to COUNT, and with POL 1 but for pins. A target with no claim that is awake is presented the lowest pending source that is its own or
redirected to it and claimed by none. A completion of the claimed source releases it, with COUNT 1 under REARM where the level stands and COUNT was
0; any other is ignored with DONE_ERR. A claim register of an engine reads zero and its done register does nothing. A steward core wakes and sleeps.
COMPLETION: under hypotheses on the state and the operands alone, exec is said here to answer a next state with the own effect of icuSourceEdge,
icuSrcWrite, icuClaim, icuDone, engineDoneStore, targetWake. (R491, R493, R494, R495, R496, R497, R500, R502, R503, R504, R505) -/
def Obligations.InterruptSources : Prop :=
  (∀ (s : State) (n held : Nat) (high : Bool), n < 256 → held < s.blk.rd ICU_SRC.FILT n → NoEffect (.icuSourceEdge n ⟨high, held⟩) s)
  ∧ (∀ (s : State) (n held : Nat), n < 256 → s.blk.rd ICU_SRC.FILT n ≤ held → s.blk.filtered n = false →
      (224 ≤ n ∧ n ≤ 239) ∨ s.blk.rawLevel n = true → Runs (.icuSourceEdge n ⟨true, held⟩) s (fun t =>
      t.rd ICU_SRC.COUNT n = (if s.blk.bit ICU_SRC.EN n then min 255 (s.blk.rd ICU_SRC.COUNT n + 1) else s.blk.rd ICU_SRC.COUNT n)
      ∧ t.filtered n = (n != 4 && n != 7) ∧ (∀ m, m ≠ n → t.filtered m = s.blk.filtered m) ∧ t.icu.claims = s.blk.icu.claims
      ∧ RegsKept s.blk t [ICU_SRC.all.off n, ICU_EVT.all.base]))
  ∧ (∀ (s : State) (n held : Nat), n < 256 → s.blk.rd ICU_SRC.FILT n ≤ held → Runs (.icuSourceEdge n ⟨false, held⟩) s (fun t => t.filtered n = (s.blk.filtered n && !decide (224 ≤ n ∧ n ≤ 239) && s.blk.rawLevel n)
      ∧ (224 ≤ n → n ≤ 239 → t.rawLevel n = false) ∧ RegsKept s.blk t [ICU_EVT.all.base]))
  ∧ (∀ (s : State) (n : Nat) (v : Word), n < 256 →
      if 0x24 < fget v ICU_SRC.TARGET then Gives (.icuSrcWrite n v) s (s.blk.start.set ICU_EVT.WR_IGN)
      else Runs (.icuSrcWrite n v) s (fun t =>
        t.reg (ICU_SRC.all.off n) = (s.blk.reg (ICU_SRC.all.off n) &&& 0x1F00C000) ||| (fcount v ICU_SRC.COUNT (fget (s.blk.tieAt (ICU_SRC.all.off n)).2 ICU_SRC.COUNT) &&& 0xE0FF3FFF)
            ||| (if 224 ≤ n ∧ n ≤ 239 then 0 else 0x20000000)
        ∧ t.icu.claims = s.blk.icu.claims ∧ RegsKept s.blk t [ICU_SRC.all.off n, ICU_EVT.all.base]))
  ∧ (∀ (b : Block) (k n : Nat), b.presented k = some n ↔ n < 256 ∧ b.claimOf k = none ∧ b.asleep k = false ∧ b.bit ICU_SRC.EN n = true
      ∧ b.rd ICU_SRC.COUNT n ≠ 0 ∧ b.effTarget n = k ∧ b.claimed n = false
      ∧ ∀ m, m < n → b.pendingSrc m = false ∨ b.effTarget m ≠ k ∨ b.claimed m = true)
  ∧ (∀ (s : State) (k : Nat) (v : Word), k < 32 → Gives (.icuClaim k) s { s.blk.start with resp := .data 0 } ∧ NoEffect (.icuDone k v) s)
  ∧ (∀ (s : State) (k : Nat) (v : Word), 32 ≤ k → k ≤ 36 →
      let n := fget v ICU_DONE.SRC
      if s.blk.claimOf k = some n then Runs (.icuDone k v) s (fun t => t.icu.claims = Tbl.erase s.blk.icu.claims k
        ∧ t.rd ICU_SRC.COUNT n = (if s.blk.bit ICU_SRC.REARM n && s.blk.filtered n && (s.blk.rawLevel n || s.blk.rd ICU_SRC.FILT n != 0)
            && s.blk.rd ICU_SRC.COUNT n == 0 then 1
            else s.blk.rd ICU_SRC.COUNT n) ∧ RegsKept s.blk t [ICU_SRC.all.off n, ICU_EVT.all.base])
      else Runs (.icuDone k v) s (fun t => t.icu.claims = s.blk.icu.claims ∧ t.bit ICU_EVT.DONE_ERR = true ∧ RegsKept s.blk t [ICU_EVT.all.base]))
  ∧ (∀ (s : State) (k : Nat) (isDone : Bool), (∀ x, ¬ s.blk.oldestStore k isDone x) →
      if isDone then NoEffect (.engineDoneStore k) s else NoEffect (.engineClaimStore k) s)
  ∧ (∀ (s : State) (k : Nat) (x : AreaStore), k < 128 → s.blk.oldestStore k true x →
      (s.blk.claimOf (engOf k) = none → Runs (.engineDoneStore k) s (fun t => t.icu.stores = s.blk.icu.stores.erase x ∧ t.bit ICU_EVT.DONE_ERR = true
        ∧ t.icu.claims = s.blk.icu.claims))
      ∧ ∀ n, s.blk.claimOf (engOf k) = some n → Runs (.engineDoneStore k) s (fun t => t.icu.stores = s.blk.icu.stores.erase x
        ∧ t.icu.claims = Tbl.erase s.blk.icu.claims (engOf k) ∧ RegsKept s.blk t [ICU_SRC.all.off n, ICU_EVT.all.base]))
  ∧ (∀ (s : State) (k : Nat) (awake : Bool), k ≤ 36 → Runs (.targetWake k awake) s (fun t =>
      (32 ≤ k → k < 36 → t.asleep k = (s.blk.stwRestarting || !awake)) ∧ t.icu.claims = s.blk.icu.claims ∧ (k < 32 ∨ k = 36 → t.icu.wfe = s.blk.icu.wfe)
      ∧ RegsKept s.blk t [ICU_EVT.all.base]))

/-- TMR_GO and an armed start begin the timers of their mask from 0 upwards, a linked odd one with its even one; TMR_STOP holds them. Arming keeps
GO_AT and tells when it has passed; CANCEL removes it; the armed start takes place in its beat, or LATE at the end of the switchover gap, and never
once the Hoop's outputs are frozen for good. A tick steps the count in its beat, turns at TOP and at 0, loads TOP and MATCH and sets OVFF at 0, sets
MATCHF at MATCH, and carries into a linked odd timer. A trigger captures the count of the timers that select it. A read of an even timer latches its
linked odd one. COMPLETION: under hypotheses on the state and the operands alone, exec is said here to answer a next state with the own effect of
tmrGo, tmrStop, tmrGoAtArm, tmrGoAtCancel, tmrGoAtStart, timerTick, tmrCapture, tmrCntRead. (R78, R506, R507, R508, R509, R510, R511, R512) -/
def Obligations.Timers : Prop :=
  (∀ (s : State) (v : Word), Runs (.tmrGo v) s (fun t => TimersStart s.blk t v.toNat
      ∧ RegsKept s.blk t (TMR_RUN.all.base :: (List.range 32).flatMap (fun n => [TMR_CNT.all.off n, TMR_FLAG.all.off n]))))
  ∧ (∀ (s : State) (v : Word), Runs (.tmrStop v) s (fun t => (∀ n, n < 32 → t.timer n = s.blk.timer n
        ∧ t.tmrRuns n = (s.blk.tmrRuns n && !bitOf v.toNat (if s.blk.linked n then n - 1 else n))) ∧ RegsKept s.blk t [TMR_RUN.all.base]))
  ∧ (∀ (s : State) (v : Word), Runs (.tmrGoAtArm v) s (fun t => t.bit TMR_GO_ST.ARMED = true ∧ t.tmr.goDue = s.blk.clk.beat + 1
      ∧ t.reg TMR_GO_AT_HI.all.base = v ∧ t.reg TMR_GO_AT_LO.all.base = (Tbl.find s.blk.loHeld TMR_GO_AT_LO.all.base).getD (s.blk.reg TMR_GO_AT_LO.all.base)
      ∧ t.tmr.goAt = BitVec.ofNat 64 (t.rd64 TMR_GO_AT_LO.all TMR_GO_AT_HI.all) ∧ t.tmr.timers = s.blk.tmr.timers
      ∧ t.bit TMR_GO_ST.PAST = (s.blk.bit TMR_GO_ST.PAST || decide (t.tmr.goAt.toNat < s.blk.clk.htime.toNat))))
  ∧ (∀ s : State, Gives .tmrGoAtCancel s (s.blk.start.clr TMR_GO_ST.ARMED))
  ∧ (∀ s : State, s.blk.bit TMR_GO_ST.ARMED = false ∨ s.blk.hoop.red.dead = true → NoEffect .tmrGoAtStart s)
  ∧ (∀ s : State, s.blk.bit TMR_GO_ST.ARMED = true → s.blk.hoop.red.dead = false →
      let due := max s.blk.tmr.goDue (s.blk.clk.beat + s.blk.clk.beatsTo s.blk.tmr.goAt)
      let late := s.blk.hoop.red.gap && decide (due < s.blk.hoop.red.gapEnd)
      let b := s.blk.toBeat (if late then s.blk.hoop.red.gapEnd else due)
      Runs .tmrGoAtStart s (fun t => t.clk = b.clk ∧ t.bit TMR_GO_ST.ARMED = false ∧ t.bit TMR_GO_ST.LATE = (s.blk.bit TMR_GO_ST.LATE || late)
        ∧ TimersStart b t (s.blk.reg TMR_GO_MASK.all.base).toNat))
  ∧ (∀ (s : State) (n : Nat), n < 32 → s.blk.tmrRuns n = false ∨ s.blk.linked n = true → NoEffect (.timerTick n) s)
  ∧ (∀ (s : State) (n : Nat), n < 32 → s.blk.tmrRuns n = true → s.blk.linked n = false →
      let down := s.blk.bit TMR_FLAG.DIR n
      let c := if down then s.blk.tmrCnt n - 1 else s.blk.tmrCnt n + 1
      let wraps := down && c == 0
      let mat := if wraps then (s.blk.reg (TMR_MATCH.all.off n)).toNat else (s.blk.timer n).mat
      Runs (.timerTick n) s (fun t => t.clk.beat = max s.blk.clk.beat (s.blk.timer n).due ∧ t.tmrCnt n = c % 2 ^ 32
        ∧ t.bit TMR_FLAG.DIR n = (if down then !wraps else decide ((s.blk.timer n).top ≤ c))
        ∧ t.bit TMR_FLAG.OVFF n = (s.blk.bit TMR_FLAG.OVFF n || wraps) ∧ t.bit TMR_FLAG.MATCHF n = (s.blk.bit TMR_FLAG.MATCHF n || c == mat)
        ∧ (t.timer n).mat = mat ∧ (t.timer n).top = (if wraps then (s.blk.reg (TMR_TOP.all.off n)).toNat else (s.blk.timer n).top)
        ∧ (t.timer n).due = (s.blk.timer n).due + 2 ^ s.blk.rd TMR_CFG.PSC n
        ∧ (n % 2 = 0 → t.tmrCnt (n + 1) = if wraps && s.blk.linked (n + 1) && s.blk.tmrRuns (n + 1) then (s.blk.tmrCnt (n + 1) + 1) % 2 ^ 32
            else s.blk.tmrCnt (n + 1))
        ∧ (∀ m, m ≠ n → m ≠ n + 1 → m < 32 → t.timer m = s.blk.timer m ∧ t.tmrCnt m = s.blk.tmrCnt m)))
  ∧ (∀ (s : State) (trig : Nat), trig = 0 ∨ 19 < trig → NoEffect (.tmrCapture trig) s)
  ∧ (∀ (s : State) (trig : Nat), 0 < trig → trig ≤ 19 → Runs (.tmrCapture trig) s (fun t => ∀ n, n < 32 →
      if s.blk.rd TMR_CFG.CAPSEL (if s.blk.linked n then n - 1 else n) = trig then
        t.reg (TMR_CAP.all.off n) = s.blk.reg (TMR_CNT.all.off n) ∧ t.bit TMR_FLAG.CAPF n = true
        ∧ t.bit TMR_FLAG.CAP_OVR n = (s.blk.bit TMR_FLAG.CAP_OVR n || s.blk.bit TMR_FLAG.CAPF n) ∧ t.reg (TMR_CNT.all.off n) = s.blk.reg (TMR_CNT.all.off n)
      else t.reg (TMR_CAP.all.off n) = s.blk.reg (TMR_CAP.all.off n) ∧ t.reg (TMR_FLAG.all.off n) = s.blk.reg (TMR_FLAG.all.off n)))
  ∧ (∀ (s : State) (n : Nat), n < 32 → Runs (.tmrCntRead n) s (fun t => RegsKept s.blk t [] ∧ t.tmr = s.blk.tmr
      ∧ t.resp = .data (if s.blk.linked n then Tbl.get (fun _ => 0) s.blk.hiLatch (TMR_CNT.all.off n) else if n % 2 == 0 && s.blk.linked (n + 1) then s.blk.tmrSeen n else s.blk.reg (TMR_CNT.all.off n))
      ∧ (n % 2 = 0 → s.blk.linked (n + 1) = true → Tbl.get (fun _ => 0) t.hiLatch (TMR_CNT.all.off (n + 1)) = s.blk.tmrSeen (n + 1))))

/-- The codeword of any eight data bytes has syndromes 0; with one of its ten symbols changed the decoder corrects that symbol and the data read are
the data stored; poisoned, the word reads as poisoned, with the data stored. (R514, R515, R517, R518) -/
def Obligations.SingleSymbolErrorsAreCorrected : Prop :=
  ∀ d : List Byte, d.length = 8 →
    (rsDecide (rsS0 (rsArray d false [])) (rsS1 (rsArray d false [])) = .clean ∧ rsData (rsArray d false []) 10 0 = d)
    ∧ (rsDecide (rsS0 (rsArray d true [])) (rsS1 (rsArray d true [])) = .poisoned ∧ rsData (rsArray d true []) 10 0 = d)
    ∧ ∀ j x, j < 10 → 0 < x → x < 256 →
      let c := rsArray d false ((List.replicate 10 0).set j x)
      rsDecide (rsS0 c) (rsS1 c) = .corrected j x ∧ rsData c j x = d

/-- With its enable 0 a scrub or check does nothing; the errors that come up by themselves in the memories are in the array from then on (log entry
33). A patrol read steps to the next line, counting a pass of channel 0 at the end; a word corrected is counted, read corrected and queued for its
write-back, a word past correction is poisoned in place and counted. These are stated for words without errors that no read has found yet, and, of
the log, for a report that no entry of a higher unit of its cycle follows. The oldest queued correction is written. An on-die word corrected is
stored corrected; a table word past correction is poisoned. The table check compares the next word with its shadow: a mismatch writes a SHADOW
entry, or counts a lost one, and the shadow word replaces the word under TCHK_REPAIR unless DWELL_LOCK protects it. RAS_LOG_RD moves between RD and
WR only. RAS_LOG_SEL loads the entry of its slot as R523 lays it out. COMPLETION: under hypotheses on the state and the operands alone, exec is said
here to answer a next state with the own effect of patrolRead, ceWriteback, ondieScrubRead, tableCheckCompare, rasLogRdWrite, rasLogSelWrite,
caParityAlert. (R515, R516, R518, R520, R521, R522, R523, R524, R525, R526, R527, R551) -/
def Obligations.ErrorProtection : Prop :=
  (∀ (s : State) (ch : Nat) (errs : List (Nat × List Nat)), ch < 2 →
      s.blk.bit RAS_CTL.SCRUB_EN = false ∨ (if ch = 0 then s.blk.bit DDRC_CFG.CH0_UP else s.blk.bit DDRC_CFG.CH1_UP) = false → 
      ∀ l, Gives (.patrolRead ch ⟨errs, l⟩) s (s.blk.start.strikes l))
  ∧ (∀ (s : State) (ch w : Nat) (e : List Nat), ch < 2 → w < 8 → s.blk.bit RAS_CTL.SCRUB_EN = true →
      (if ch = 0 then s.blk.bit DDRC_CFG.CH0_UP else s.blk.bit DDRC_CFG.CH1_UP) = true →
      let n := if ch = 0 then s.blk.ras.patrol0 else s.blk.ras.patrol1
      let a := s.blk.patrolAddr ch n
      let p := a + 8 * w
      let last := decide (s.blk.rd DDRC_CFG.GIB * 2 ^ 24 ≤ n + 1)
      let c := rsArray (s.blk.dramBytes p 8) false e
      s.blk.noErrors → (∀ i, i < 8 → s.blk.wordPoisoned ((a + 8 * i) / 8) = false) → Runs (.patrolRead ch ⟨[(w, e)], []⟩) s (fun t =>
        (if ch = 0 then t.ras.patrol0 else t.ras.patrol1) = (if last then 0 else n + 1)
        ∧ t.rd RAS_SCRUB_PASS.all = (if last && ch == 0 then min (s.blk.rd RAS_SCRUB_PASS.all + 1) (2 ^ 32 - 1) else s.blk.rd RAS_SCRUB_PASS.all)
        ∧ (∀ x, x < p ∨ p + 8 ≤ x → t.dramByte x = s.blk.dramByte x) ∧ (∀ x, x ≠ p / 8 → t.wordPoisoned x = s.blk.wordPoisoned x)
        ∧ match rsDecide (rsS0 c) (rsS1 c) with
          | .clean => t.dramBytes p 8 = rsData c 10 0 ∧ t.wordPoisoned (p / 8) = false ∧ t.ras.fixes = s.blk.ras.fixes ∧ t.rd RAS_CE_CNT.all = s.blk.rd RAS_CE_CNT.all
          | .corrected j x => t.dramBytes p 8 = rsData c j x ∧ t.wordPoisoned (p / 8) = false ∧ t.dramErr (p / 8) = errAt j x
              ∧ t.ras.fixes = s.blk.ras.fixes.filter (fun f => f.addr != p) ++ [{ addr := p, data := rsData c j x, patrol := true }]
              ∧ t.rd RAS_CE_CNT.all = min (s.blk.rd RAS_CE_CNT.all + 1) (2 ^ 32 - 1)
              ∧ t.rd RAS_UNIT_CE.all ch = min (s.blk.rd RAS_UNIT_CE.all ch + 1) (2 ^ 32 - 1)
          | .poisoned => t.dramBytes p 8 = rsData c 10 0 ∧ t.wordPoisoned (p / 8) = true ∧ t.rd RAS_UE_CNT.all = min (s.blk.rd RAS_UE_CNT.all + 1) (2 ^ 32 - 1)
          | .bad => t.wordPoisoned (p / 8) = true ∧ t.dramBytes p 8 = rsData c 10 0 ∧ t.ras.fixes = s.blk.ras.fixes
              ∧ t.rd RAS_UE_CNT.all = min (s.blk.rd RAS_UE_CNT.all + 1) (2 ^ 32 - 1)))
  ∧ (∀ s : State, s.blk.ras.fixes = [] → NoEffect .ceWriteback s)
  ∧ (∀ (s : State) (f : CeFix) (rest : List CeFix), s.blk.ras.fixes = f :: rest → Runs .ceWriteback s (fun t =>
      t.ras = { s.blk.ras with fixes := rest } ∧ t.dramBytes f.addr f.data.length = f.data
      ∧ (∀ x, x < f.addr ∨ f.addr + f.data.length ≤ x → t.dramByte x = s.blk.dramByte x) ∧ (∀ x, t.wordPoisoned x = s.blk.wordPoisoned x)
      ∧ t.dramErr (f.addr / 8) = [] ∧ RegsKept s.blk t []))
  ∧ (∀ (s : State) (errs l : List (Nat × Nat × List Nat)), s.blk.bit RAS_CTL.ONDIE_EN = false → Gives (.ondieScrubRead ⟨errs, l⟩) s (s.blk.start.strikes l))
  ∧ (∀ s : State, s.blk.bit RAS_CTL.ONDIE_EN = true →
      Gives (.ondieScrubRead ⟨[], []⟩) s { s.blk.start with ras := { s.blk.ras with ondie := s.blk.ras.ondie + 1 } })
  ∧ (∀ (s : State) (i : Nat) (e : List Nat), s.blk.bit RAS_CTL.ONDIE_EN = true → s.blk.noErrors →
      let d := leBytes 8 (Tbl.get (fun _ => 0) s.blk.wft.ibank i).toNat
      let c := rsArray d false e
      ∀ j x, rsDecide (rsS0 c) (rsS1 c) = .corrected j x → Runs (.ondieScrubRead ⟨[(4, i, e)], []⟩) s (fun t =>
        Tbl.get (fun _ => 0) t.wft.ibank i = BitVec.ofNat 64 (leNat (rsData c j x))
        ∧ (∀ k, k ≠ i → Tbl.get (fun _ => 0) t.wft.ibank k = Tbl.get (fun _ => 0) s.blk.wft.ibank k)
        ∧ t.rd RAS_UNIT_CE.all 4 = min (s.blk.rd RAS_UNIT_CE.all 4 + 1) (2 ^ 32 - 1) ∧ DramKept s.blk t))
  ∧ (∀ (s : State) (i : Nat) (e : List Nat), s.blk.bit RAS_CTL.ONDIE_EN = true → s.blk.noErrors → Tbl.get (fun _ => false) s.blk.wft.tblPoison i = false →
      let c := rsArray (leBytes 8 (Tbl.get (fun _ => 0) s.blk.wft.table i).toNat) false e
      rsDecide (rsS0 c) (rsS1 c) = .bad → Runs (.ondieScrubRead ⟨[(6, i, e)], []⟩) s (fun t => Tbl.get (fun _ => false) t.wft.tblPoison i = true
        ∧ Tbl.get (fun _ => 0) t.wft.table i = BitVec.ofNat 64 (leNat (rsData c 10 0))
        ∧ t.rd RAS_UE_CNT.all = min (s.blk.rd RAS_UE_CNT.all + 1) (2 ^ 32 - 1)))
  ∧ (∀ s : State, s.blk.bit RAS_CTL.TCHK_EN = false ∨ s.blk.ras.tchkWait = true → NoEffect .tableCheckCompare s)
  ∧ (∀ s : State, s.blk.bit RAS_CTL.TCHK_EN = true → s.blk.ras.tchkWait = false → s.blk.ras.tchk < s.blk.tchkWords → s.blk.noErrors →
      let i := s.blk.ras.tchk
      let x := s.blk.tchkWord i
      s.blk.logLater x.1 = [] →
      let a := s.blk.rd64 RAS_TCHK_BASE_LO.all RAS_TCHK_BASE_HI.all + x.2.2.1
      let w := BitVec.ofNat 32 (s.blk.dramLe a 4)
      let last := decide (s.blk.tchkWords ≤ i + 1)
      let rep := s.blk.bit RAS_CTL.TCHK_REPAIR && !(x.1 == 15 && s.blk.bit TXC_CTL.DWELL_LOCK)
      let wr := s.blk.rd RAS_LOG_WR.SEQ
      let full := (wr + 65536 - s.blk.rd RAS_LOG_RD.SEQ) % 65536 = 64
      Runs .tableCheckCompare s (fun t => t.ras.tchk = (if last then 0 else i + 1) ∧ DramKept s.blk t
        ∧ t.rd RAS_TCHK_PASS.all = (if last then min (s.blk.rd RAS_TCHK_PASS.all + 1) (2 ^ 32 - 1) else s.blk.rd RAS_TCHK_PASS.all)
        ∧ (s.blk.dramPoisoned a 4 = true → (t.tchkWord i).2.2.2 = x.2.2.2 ∧ t.ras.log = s.blk.ras.log
            ∧ min (s.blk.rd RAS_UE_CNT.all + 1) (2 ^ 32 - 1) ≤ t.rd RAS_UE_CNT.all)
        ∧ (s.blk.dramPoisoned a 4 = false → x.2.2.2 = w → (t.tchkWord i).2.2.2 = w ∧ t.ras.log = s.blk.ras.log)
        ∧ (s.blk.dramPoisoned a 4 = false → x.2.2.2 ≠ w → (t.tchkWord i).2.2.2 = (if rep then w else x.2.2.2)
            ∧ (¬ full → t.bit RAS_EVT.UE_LOG = true ∧ t.rd RAS_LOG_WR.SEQ = (wr + 1) % 65536 ∧ Tbl.find t.ras.log (wr % 64) = some
                { seq := wr, kind := 5, unit := x.1, info := if rep then 0x04000000 else 0, addr := BitVec.ofNat 64 x.2.1, htime := s.blk.clk.htime,
                  valA := x.2.2.2, valB := w })
            ∧ (full → t.bit RAS_EVT.LOG_OVF = true ∧ t.rd RAS_LOST_CNT.all = min (s.blk.rd RAS_LOST_CNT.all + 1) (2 ^ 32 - 1)
                ∧ t.ras.log = s.blk.ras.log))))
  ∧ (∀ (s : State) (v : Word),
      let r := s.blk.rd RAS_LOG_RD.SEQ
      if (v.toNat % 65536 + 65536 - r) % 65536 ≤ (s.blk.rd RAS_LOG_WR.SEQ + 65536 - r) % 65536 then
        Runs (.rasLogRdWrite v) s (fun t => t.rd RAS_LOG_RD.SEQ = v.toNat % 65536 ∧ t.ras.log = s.blk.ras.log ∧ RegsKept s.blk t [RAS_LOG_RD.all.base])
      else Gives (.rasLogRdWrite v) s (s.blk.start.set RAS_EVT.WR_IGN))
  ∧ (∀ (s : State) (v : Word), Runs (.rasLogSelWrite v) s (fun t => t.rd RAS_LOG_SEL.SEQ = v.toNat % 65536 ∧ t.ras.log = s.blk.ras.log
      ∧ RegsKept s.blk t (RAS_LOG_SEL.all.base :: (List.range 8).map RAS_LOG_DATA.all.off)
      ∧ ∀ e, Tbl.find s.blk.ras.log (v.toNat % 64) = some e → e.seq < 65536 → e.kind < 256 → e.unit < 256 →
        (t.reg (RAS_LOG_DATA.all.off 0)).toNat = e.seq + e.kind * 2 ^ 16 + e.unit * 2 ^ 24 ∧ t.reg (RAS_LOG_DATA.all.off 1) = e.info
        ∧ (t.reg (RAS_LOG_DATA.all.off 2)).toNat = e.addr.toNat % 2 ^ 32 ∧ (t.reg (RAS_LOG_DATA.all.off 3)).toNat = e.addr.toNat / 2 ^ 32
        ∧ (t.reg (RAS_LOG_DATA.all.off 4)).toNat = e.htime.toNat % 2 ^ 32 ∧ (t.reg (RAS_LOG_DATA.all.off 5)).toNat = e.htime.toNat / 2 ^ 32
        ∧ t.reg (RAS_LOG_DATA.all.off 6) = e.valA ∧ t.reg (RAS_LOG_DATA.all.off 7) = e.valB))
  ∧ (∀ s : State, Gives .caParityAlert s (s.blk.start.set DDRC_EVT.CA_PARITY))

namespace Sys2Proof.Machine

/-- The registers that a device reset may leave other than at their reset values: those of the always-on domain, and what Heartwood keeps (R533, R550). -/
def resetKept : List Nat :=
  [PWR_CTL.all.base, PWR_STAT.all.base, PWR_PLL_ST.all.base, PWR_TEMP_THR.all.base, PWR_RTC_ALM_LO.all.base, PWR_RTC_ALM_HI.all.base,
   HWD_STATE.all.base, HWD_TIN_CFG.all.base, HWD_WRAP_CFG.all.base]
    ++ (List.range 64).flatMap (fun m => [HWD_SLOT.all.off m, HWD_SLOT_GEN.all.off m, HWD_SLOT_PGEN.all.off m, HWD_SLOT_AT.all.off m])

/-- The command requests a device reset of a kind for a cause (R533, R534, R535). In a reset of the same or an earlier kind it is absorbed and its cause
recorded. Else the reset begins: every register but those of the list takes its reset value, DRAM keeps its contents for WARM and SLEEP_EXIT, the flash
and the fuses stay, a key slot keeps its ACTIVE half where VDD_SEC has held and loses its other half, and is empty where it has not; REQ reads 0. -/
def ResetAsked (c : Instr) (s : State) (kind cause : Nat) : Prop :=
  (∀ r, s.blk.pwr.rst = some r → r.kind ≤ kind → Runs c s (fun t => t.pwr.rst = some { r with cause := r.cause ||| cause } ∧ DramKept s.blk t))
  ∧ ((∀ r, s.blk.pwr.rst = some r → kind < r.kind) → Runs c s (fun t =>
      t.pwr.rst = some ⟨kind, (s.blk.pwr.rst.elim cause (fun r => r.cause ||| cause)), s.blk.clk.beat⟩
      ∧ (kind = rkWARM ∨ kind = rkSLEEP_EXIT → DramKept s.blk t) ∧ FlashIs s.blk t ∧ t.upd.fuses = s.blk.upd.fuses
      ∧ (∀ o, o ∉ resetKept → t.reg o = regReset o) ∧ t.rd PWR_CTL.REQ = 0 ∧ t.rd PWR_STAT.STATE = 0
      ∧ (kind = rkCOLD ∨ kind = rkWARM → s.blk.pwr.sleep = false → ∀ m, m < 64 →
          t.slot m = if s.blk.pwr.secLost then KSlot.empty else (s.blk.slot m).drop)
      ∧ (s.blk.pwr.rst = none → ∀ n, n < 8 → s.blk.paOn n = true → .pin "PA_EN" n true ∈ t.out ∧ .pin "TR_SW" n true ∈ t.out)))

end Sys2Proof.Machine

/-- VDD_AON, PWR_GOOD, SYS_RST_n, SW_RST, PERST#, brown-out, thermal trip and wake request resets of their kinds. PERST# with PERST_SCOPE 0 is a
PCIE reset. A reset is released once nothing holds it: HTIME starts from 0, CAUSE and KIND are recorded, CHAIN_POS is sampled, a CLR_REQ that is
high is captured, XSPI_RESET_n is low for 10 µs, DRAM channels that train are up, and the boot ROM starts the steward cores or ends in RECOVERY;
with TEST_EN high the model stops. With VDD_SEC lost every key slot is empty. PLLs lock and lose lock; the RTC keeps its count as its crystal
starts. A rail out of tolerance and the temperature alarm set their events. STANDBY is entered only with every enable 0; REQ 0 returns to RUN; SLEEP
drives SLP_REQ high. COMPLETION: under hypotheses on the state and the operands alone, exec is said here to answer a next state with the own effect
of aonPor, pwrGoodRise, pwrGoodFall, sysRst, swRst, perst, brownOut, thermalTrip, railOutOfTolerance, tempConversion, internalResetRelease, pllLock,
dspSlewDone, standbyRequest, runRequest, sleepRequest, wake, pllLockLoss, aonCrystalStart. (R194, R374, R533, R534, R535, R536, R537, R538, R546,
R549, R563, R565) -/
def Obligations.ResetsAndPower : Prop :=
  (∀ s : State, ResetAsked .aonPor s rkAON_POR 0 ∧ ResetAsked .brownOut s rkCOLD 2 ∧ ResetAsked .thermalTrip s rkCOLD 4
    ∧ ResetAsked (.sysRst true) s rkWARM 8)
  ∧ (∀ s : State, Runs .thermalTrip s (fun t => t.pwr.trip = true ∧ .pin "THERM_TRIP" 0 false ∈ t.out))
  ∧ (∀ s : State, Gives (.sysRst false) s { s.blk.start with pwr := { s.blk.pwr with sysRst := false } }
      ∧ Gives (.perst false) s { s.blk.start with pwr := { s.blk.pwr with perst := false } })
  ∧ (∀ s : State, Runs .pwrGoodRise s (fun t => t.pins.pwrGood = true ∧ t.pwr.sleep = false))
  ∧ (∀ s : State, (s.blk.pwr.sleep = false ∨ ∀ r, s.blk.pwr.rst = some r → r.kind ≠ rkSLEEP_EXIT) → ResetAsked .pwrGoodRise s rkCOLD 1)
  ∧ (∀ (s : State) (r : ResetIn), s.blk.pwr.sleep = true → s.blk.pwr.rst = some r → r.kind = rkSLEEP_EXIT → Runs .pwrGoodRise s (fun t =>
      t.pwr.rst = some r ∧ DramKept s.blk t ∧ RegsKept s.blk t []))
  ∧ (∀ s : State, Runs .pwrGoodFall s (fun t => t.pins = { s.blk.pins with pwrGood := false } ∧ t.pwr = { s.blk.pwr with trip := false }
      ∧ RegsKept s.blk t [] ∧ DramKept s.blk t ∧ t.out = if s.blk.pwr.trip then [.pin "THERM_TRIP" 0 true] else []))
  ∧ (∀ s : State, s.blk.bit PWR_CTL.PERST_SCOPE = true → ResetAsked (.perst true) s rkWARM 32)
  ∧ (∀ s : State, s.blk.bit PWR_CTL.PERST_SCOPE = false → s.blk.pwr.rst = none → Runs (.perst true) s (fun t => t.pwr.rst = none ∧ t.pwr.perst = true
      ∧ t.fn = PciFn.fresh ∧ t.reg PCI_STAT.all.base = 0 ∧ t.rd PWR_RST_CAUSE.PCIE_RST = min (s.blk.rd PWR_RST_CAUSE.PCIE_RST + 1) 255 ∧ DramKept s.blk t))
  ∧ (∀ (s : State) (v : Word), fget v PWR_CTL.REQ = 0 → ResetAsked (.swRst v) s rkWARM 16)
  ∧ (∀ (s : State) (w : BoardAt), s.blk.pwr.rst = none ∨ s.blk.resetHeld = true → NoEffect (.internalResetRelease w) s)
  ∧ (∀ (s : State) (w : BoardAt), s.blk.pwr.rst.isSome = true → s.blk.resetHeld = false → w.testEn = true →
      exec (.internalResetRelease w) s = .fault .testMode)
  ∧ (∀ (s : State) (w : BoardAt) (r : ResetIn), s.blk.pwr.rst = some r → s.blk.resetHeld = false → w.testEn = false →
      Runs (.internalResetRelease w) s (fun t => t.pwr.rst = none ∧ t.clk.htime = 0 ∧ t.clk.beat = 0 ∧ t.clk.cell = 0
        ∧ t.rd PWR_RST_CAUSE.KIND = r.kind % 8 ∧ t.rd PWR_RST_CAUSE.CAUSE = r.cause % 256 ∧ t.rd CNP_STAT.POS = w.chain % 8
        ∧ t.rd DDRC_CFG.GIB = w.gib % 256 ∧ t.bit DDRC_CFG.CH0_UP = w.up0 ∧ t.bit DDRC_CFG.CH1_UP = w.up1
        ∧ ((w.up0 && w.up1) = false → t.bit DDRC_EVT.TRAIN_FAIL = true)
        ∧ (w.srFail = false → DramKept s.blk t)
        ∧ t.upd.octal = w.octal ∧ t.pins.padLow = BitVec.ofNat 8 w.padLow ∧ (∃ q, .pinAt "XSPI_RESET" 0 false q ∈ t.out ∧ .pinAt "XSPI_RESET" 0 true (q + 2500 * qBeat) ∈ t.out)
        ∧ (s.blk.pins.clrReq = true → t.bit CLR_STAT.ACTIVE = true ∧ t.bit CLR_EVT.CLR_START = true)
        ∧ (w.cut = none → t.rd UPD_BOOT_ST.RESULT = brRECOVERY → t.stw.rrs = false)
        ∧ (w.cut = none → t.rd UPD_BOOT_ST.RESULT ≠ brRECOVERY → t.rd SYS_MBX_STATE.STW_UP = 15 ∧ t.imgValid flMain = true
            ∧ t.fwWord = t.imgVer flMain % 2 ^ 24 ∧ t.stw.build = t.flLe (flMain + 12) 4)))
  ∧ (∀ (s : State) (i : Nat), (i = 5 ∨ i = 7 ∨ i = 8 ∨ i = 9 → Runs (.pllLock i) s (fun t =>
        (∀ j, j < 32 → (t.reg PWR_PLL_ST.all.base).getLsbD j = (j == i || (s.blk.reg PWR_PLL_ST.all.base).getLsbD j))
        ∧ RegsKept s.blk t [PWR_PLL_ST.all.base]))
      ∧ (¬ (i = 5 ∨ i = 7 ∨ i = 8 ∨ i = 9) → NoEffect (.pllLock i) s)
      ∧ (i < 10 → i ≠ 6 → Runs (.pllLockLoss i) s (fun t =>
        (∀ j, j < 32 → (t.reg PWR_PLL_ST.all.base).getLsbD j = (j != i && (s.blk.reg PWR_PLL_ST.all.base).getLsbD j))
        ∧ (i ≠ 3 → i ≠ 4 → t.rawLevel 7 = true) ∧ RegsKept s.blk t [PWR_PLL_ST.all.base]))
      ∧ (i = 6 ∨ 10 ≤ i → NoEffect (.pllLockLoss i) s))
  ∧ (∀ s : State, Runs .aonCrystalStart s (fun t => t.bit PWR_STAT.RTC_VALID = true ∧ t.bit PWR_PLL_ST.XTAL = true ∧ t.rtcNow = s.blk.rtcNow
      ∧ RegsKept s.blk t [PWR_STAT.all.base, PWR_PLL_ST.all.base]))
  ∧ (∀ s : State, Gives .dspSlewDone s (s.blk.start.set PWR_PLL_ST.DSP_SRC))
  ∧ (∀ (s : State) (r : Nat) (ok : Bool), r < 8 → Runs (.railOutOfTolerance r ok) s (fun t =>
      (∀ j, j < 8 → bitOf (t.rd PWR_STAT.RAILS) j = if j = r then ok else bitOf (s.blk.rd PWR_STAT.RAILS) j)
      ∧ (ok = false → bitOf (t.rd PWR_SUPPLY_EVT.RAILS) r = true ∧ t.bit PWR_EVT.SUPPLY = true)
      ∧ (r ≠ 2 ∨ ok = true → RegsKept s.blk t [PWR_STAT.all.base, PWR_SUPPLY_EVT.all.base, PWR_EVT.all.base])
      ∧ (r = 2 → ok = false → t.pwr.secLost = true ∧ ∀ m, m < 64 → t.slot m = KSlot.empty)))
  ∧ (∀ (s : State) (x : Int), -32768 ≤ x → x ≤ 32767 →
      let thr := s.blk.rdS PWR_TEMP_THR.ALARM_THR
      Runs (.tempConversion x) s (fun t => t.rdS PWR_TEMP.TJ = x ∧ t.bit PWR_STAT.TEMP_VALID = true
        ∧ t.bit PWR_EVT.TEMP_ALARM = (s.blk.bit PWR_EVT.TEMP_ALARM || (s.blk.pwr.armed && decide (thr ≤ x)))
        ∧ t.pwr.armed = (if thr ≤ x then false else if x ≤ thr - 32 then true else s.blk.pwr.armed)
        ∧ RegsKept s.blk t [PWR_TEMP.all.base, PWR_STAT.all.base, PWR_EVT.all.base]))
  ∧ (∀ (s : State) (v : Word), fget v PWR_CTL.SW_RST = 0 →
      (s.blk.rd PWR_STAT.STATE ≠ 1 → s.blk.mayStandby = true → Runs (.standbyRequest v) s (fun t => t.rd PWR_STAT.STATE = 1 ∧ t.rd PWR_CTL.REQ = 1
        ∧ t.bit PWR_EVT.STATE_CHG = true ∧ RegsKept s.blk t [PWR_CTL.all.base, PWR_STAT.all.base, PWR_EVT.all.base]))
      ∧ (s.blk.rd PWR_STAT.STATE ≠ 1 → s.blk.mayStandby = false → Runs (.standbyRequest v) s (fun t => t.rd PWR_STAT.STATE = s.blk.rd PWR_STAT.STATE
        ∧ t.rd PWR_CTL.REQ = 0 ∧ t.bit PWR_EVT.STBY_REFUSED = true ∧ RegsKept s.blk t [PWR_CTL.all.base, PWR_EVT.all.base]))
      ∧ (s.blk.rd PWR_STAT.STATE = 1 → Runs (.runRequest (some v)) s (fun t => t.rd PWR_STAT.STATE = 0 ∧ t.rd PWR_CTL.REQ = 0
        ∧ t.bit PWR_EVT.STATE_CHG = true ∧ RegsKept s.blk t [PWR_CTL.all.base, PWR_STAT.all.base, PWR_EVT.all.base]))
      ∧ Runs (.sleepRequest v) s (fun t => t.pwr.sleep = true ∧ t.rd PWR_CTL.REQ = 2 ∧ t.out = [.pin "SLP_REQ" 0 true]
        ∧ t.rd PWR_CTL.SEC_KEEP = fget v PWR_CTL.SEC_KEEP ∧ RegsKept s.blk t [PWR_CTL.all.base, PWR_EVT.all.base]))
  ∧ (∀ s : State, if s.blk.stewardCalled = true then Gives (.runRequest none) s (s.blk.start.powerReq 0) else NoEffect (.runRequest none) s)
  ∧ (∀ (s : State) (alarm : Bool), s.blk.pwr.sleep = false ∨ s.blk.pwr.rst.isSome = true → NoEffect (.wake alarm) s)
  ∧ (∀ s : State, s.blk.pwr.sleep = true → s.blk.pwr.rst = none → ResetAsked (.wake false) s rkSLEEP_EXIT 64
      ∧ Runs (.wake false) s (fun t => ∀ m, m < 64 →
          t.slot m = if s.blk.bit PWR_CTL.SEC_KEEP && !s.blk.pwr.secLost then (s.blk.slot m).drop else KSlot.empty))
  ∧ (∀ s : State, s.blk.pwr.sleep = true → s.blk.pwr.rst = none →
      if s.blk.rtcAlarm = 0 ∨ s.blk.rtcAlarm < s.blk.rtcNow then NoEffect (.wake true) s
      else Runs (.wake true) s (fun t => DramKept s.blk t ∧ t.pwr.rst =
        some ⟨rkSLEEP_EXIT, 128, s.blk.clk.beat + ceilDiv ((s.blk.rtcAlarm - s.blk.rtcNow) * 250000000) (max 1 s.blk.aonHz)⟩))

/-- A ball takes its level, or the one the device drives, and its event sets under EVMODE. A write of a pin's configuration stores its fields, with
0 for values they lack, and the balls follow. A write of SPI or I²C data while BUSY is ignored with WR_IGN; with EN 0 nothing starts (the model's
choice); else the transfer goes out, and its end clears BUSY, sets DONE, and brings the bits or the byte. A UART byte is queued, sent or dropped
with TX_OVF; a frame received is queued, flagged or lost; a read takes a byte; frames go on as flow control allows. COMPLETION: under hypotheses on
the state and the operands alone, exec is said here to answer a next state with the own effect of gpioEvent, gpioCfgWrite, spiTransfer, spiDone,
i2cCmd, i2cStepDone, uartDataWrite, uartDataRead, uartRxFrame, uartTxFrameDone, uartCtsChange. (R12, R566, R567) -/
def Obligations.LowSpeedPeripherals : Prop :=
  (∀ (s : State) (n : Nat) (level : Bool), n < 48 →
      let lv := (s.blk.gpioDriven n).getD level
      let prev := s.blk.pins.gpio.getLsbD n
      Runs (.gpioEvent n level) s (fun t => (∀ j, j < 48 → t.pins.gpio.getLsbD j = if j = n then lv else s.blk.pins.gpio.getLsbD j)
        ∧ (∀ j, j < 32 → (t.reg (SYS_GPIO_EVT.all.off (n / 32))).getLsbD j = ((s.blk.reg (SYS_GPIO_EVT.all.off (n / 32))).getLsbD j
            || (j == n % 32 && match s.blk.rd SYS_GPIO_CFG.EVMODE n with
              | 1 => !prev && lv | 2 => prev && !lv | 3 => prev != lv | 4 => lv | 5 => !lv | _ => false)))
        ∧ RegsKept s.blk t [SYS_GPIO_EVT.all.off (n / 32)]))
  ∧ (∀ (s : State) (n : Nat) (v : Word), n < 48 → Runs (.gpioCfgWrite n v) s (fun t =>
      t.rd SYS_GPIO_CFG.FUNC n = (if fget v SYS_GPIO_CFG.FUNC = 1 ∧ n < 32 then 1 else 0)
      ∧ t.rd SYS_GPIO_CFG.PULL n = (if fget v SYS_GPIO_CFG.PULL = 3 then 0 else fget v SYS_GPIO_CFG.PULL)
      ∧ t.rd SYS_GPIO_CFG.EVMODE n = (if 6 ≤ fget v SYS_GPIO_CFG.EVMODE then 0 else fget v SYS_GPIO_CFG.EVMODE)
      ∧ (∀ j l, j < 48 → t.gpioDriven j = some l → t.pins.gpio.getLsbD j = l)
      ∧ (∀ j, j < 48 → t.gpioDriven j = none → t.pins.gpio.getLsbD j = s.blk.pins.gpio.getLsbD j)
      ∧ RegsKept s.blk t [SYS_GPIO_CFG.all.off n, SYS_GPIO_EVT.all.off 0, SYS_GPIO_EVT.all.off 1]))
  ∧ (∀ (s : State) (i : Nat) (v : Word), i < 2 →
      if s.blk.bit SYS_SPI_ST.BUSY i = true then Gives (.spiTransfer i v) s (s.blk.start.set SYS_SPI_ST.WR_IGN i)
      else if s.blk.bit SYS_SPI_CTL.EN i = false then NoEffect (.spiTransfer i v) s
      else Runs (.spiTransfer i v) s (fun t => t.bit SYS_SPI_ST.BUSY i = true ∧ RegsKept s.blk t [SYS_SPI_ST.all.off i]
        ∧ t.out = [.spi i (s.blk.rd SYS_SPI_CTL.CS i) (s.blk.rd SYS_SPI_CTL.MODE i) (2 * (s.blk.rd SYS_SPI_CTL.DIV i + 1))
            (s.blk.rd SYS_SPI_CTL.LEN i) (v.toNat % 2 ^ s.blk.rd SYS_SPI_CTL.LEN i) (s.blk.bit SYS_SPI_CTL.CS_HOLD i)]))
  ∧ (∀ (s : State) (i : Nat) (v : Word), i < 2 →
      if s.blk.bit SYS_SPI_ST.BUSY i = false then NoEffect (.spiDone i v) s
      else Runs (.spiDone i v) s (fun t => t.bit SYS_SPI_ST.BUSY i = false ∧ t.bit SYS_SPI_ST.DONE i = true
        ∧ (t.reg (SYS_SPI_DATA.all.off i)).toNat = v.toNat % 2 ^ s.blk.rd SYS_SPI_CTL.LEN i
        ∧ RegsKept s.blk t [SYS_SPI_DATA.all.off i, SYS_SPI_ST.all.off i]))
  ∧ (∀ (s : State) (i : Nat) (v : Word), i < 2 →
      let w := (s.blk.reg (SYS_I2C_CMD.all.off i) &&& 0xFFFFF000) ||| (v &&& 0xFFF)
      if s.blk.bit SYS_I2C_ST.BUSY i = true then Gives (.i2cCmd i v) s (s.blk.start.set SYS_I2C_ST.WR_IGN i)
      else Runs (.i2cCmd i v) s (fun t => t.reg (SYS_I2C_CMD.all.off i) = w ∧ t.bit SYS_I2C_ST.BUSY i = s.blk.bit SYS_I2C_CTL.EN i
        ∧ t.out = (if s.blk.bit SYS_I2C_CTL.EN i then [.i2c i (s.blk.rd SYS_I2C_CTL.SPEED i) w.toNat] else []) ∧ RegsKept s.blk t [SYS_I2C_CMD.all.off i, SYS_I2C_ST.all.off i]))
  ∧ (∀ (s : State) (i : Nat) (byte : Byte) (nack arb : Bool), i < 2 →
      if s.blk.bit SYS_I2C_ST.BUSY i = false then NoEffect (.i2cStepDone i byte nack arb) s
      else Runs (.i2cStepDone i byte nack arb) s (fun t => t.bit SYS_I2C_ST.BUSY i = false ∧ t.bit SYS_I2C_ST.DONE i = true
        ∧ t.bit SYS_I2C_ST.NACK i = (s.blk.bit SYS_I2C_ST.NACK i || nack) ∧ t.bit SYS_I2C_ST.ARB_LOST i = (s.blk.bit SYS_I2C_ST.ARB_LOST i || arb)
        ∧ t.rd SYS_I2C_ST.BYTE i = (if s.blk.bit SYS_I2C_CMD.READ i && !nack && !arb then byte.toNat else s.blk.rd SYS_I2C_ST.BYTE i)
        ∧ RegsKept s.blk t [SYS_I2C_ST.all.off i]))
  ∧ (∀ (s : State) (v : Word),
      let go := s.blk.low.sending.isNone && s.blk.bit SYS_UART_CTL.EN && !(s.blk.bit SYS_UART_CTL.RTSCTS && s.blk.pins.ctsN)
      let q := s.blk.low.tx ++ [v.setWidth 8]
      if 64 ≤ s.blk.low.tx.length then Gives (.uartDataWrite v) s (s.blk.start.set SYS_UART_ST.TX_OVF)
      else Runs (.uartDataWrite v) s (fun t => t.low.tx = (if go then q.drop 1 else q) ∧ t.low.rx = s.blk.low.rx
        ∧ t.low.sending = (if go then q.head? else s.blk.low.sending) ∧ t.out = (if go then (q.take 1).map .uart else [])
        ∧ t.rd SYS_UART_ST.TXLEV = t.low.tx.length ∧ RegsKept s.blk t [SYS_UART_ST.all.base]))
  ∧ (∀ s : State, s.blk.low.rx = [] → Gives .uartDataRead s { s.blk.start with resp := .data 0 })
  ∧ (∀ (s : State) (x : Byte) (l : List Byte), s.blk.low.rx = x :: l → Runs .uartDataRead s (fun t => t.low.rx = l ∧ t.low.tx = s.blk.low.tx
      ∧ t.resp = .data (BitVec.ofNat 32 (256 + x.toNat)) ∧ t.rd SYS_UART_ST.RXLEV = l.length % 128 ∧ RegsKept s.blk t [SYS_UART_ST.all.base]))
  ∧ (∀ (s : State) (x : Byte), (s.blk.bit SYS_UART_CTL.EN = false → NoEffect (.uartRxFrame x true) s ∧ NoEffect (.uartRxFrame x false) s)
      ∧ (s.blk.bit SYS_UART_CTL.EN = true → Gives (.uartRxFrame x false) s (s.blk.start.set SYS_UART_ST.FRAME)
        ∧ (64 ≤ s.blk.low.rx.length → Gives (.uartRxFrame x true) s (s.blk.start.set SYS_UART_ST.RX_OVR))
        ∧ (s.blk.low.rx.length < 64 → Runs (.uartRxFrame x true) s (fun t => t.low.rx = s.blk.low.rx ++ [x] ∧ t.low.tx = s.blk.low.tx
          ∧ t.bit SYS_UART_ST.RXAV = (s.blk.bit SYS_UART_ST.RXAV || s.blk.low.rx.isEmpty) ∧ t.rd SYS_UART_ST.RXLEV = s.blk.low.rx.length + 1
          ∧ t.out = (if s.blk.bit SYS_UART_CTL.RTSCTS && s.blk.low.rx.length == 55 then [.pin "UART_RTS" 0 true] else [])
          ∧ RegsKept s.blk t [SYS_UART_ST.all.base]))))
  ∧ (∀ s : State, s.blk.low.sending = none → NoEffect .uartTxFrameDone s)
  ∧ (∀ s : State, s.blk.low.sending.isSome = true →
      let go := s.blk.bit SYS_UART_CTL.EN && !(s.blk.bit SYS_UART_CTL.RTSCTS && s.blk.pins.ctsN)
      Runs .uartTxFrameDone s (fun t => t.low.tx = (if go then s.blk.low.tx.drop 1 else s.blk.low.tx)
        ∧ t.low.sending = (if go then s.blk.low.tx.head? else none) ∧ t.out = (if go then (s.blk.low.tx.take 1).map .uart else [])
        ∧ (go = true → s.blk.low.tx.length = 1 → t.bit SYS_UART_ST.TXE = true)))
  ∧ (∀ (s : State) (lv : Bool),
      let go := s.blk.low.sending.isNone && s.blk.bit SYS_UART_CTL.EN && !(s.blk.bit SYS_UART_CTL.RTSCTS && lv)
      Runs (.uartCtsChange lv) s (fun t => t.pins = { s.blk.pins with ctsN := lv } ∧ t.low.rx = s.blk.low.rx
        ∧ t.low.tx = (if go then s.blk.low.tx.drop 1 else s.blk.low.tx)
        ∧ t.low.sending = (if go then s.blk.low.tx.head? else s.blk.low.sending) ∧ t.out = (if go then (s.blk.low.tx.take 1).map .uart else [])))

namespace Sys2Proof.Machine

/-- An access error of a requester and a cause is logged, or counted as lost when the log is full (R522, R523); said for a report that no entry of a
higher unit of its cycle follows. -/
def LogsAccess (s : State) (t : Block) (requester cause addr : Nat) : Prop :=
  let wr := s.blk.rd RAS_LOG_WR.SEQ
  s.blk.logLater 16 = [] →
  if (wr + 65536 - s.blk.rd RAS_LOG_RD.SEQ) % 65536 = 64 then
    t.ras.log = s.blk.ras.log ∧ t.rd RAS_LOST_CNT.all = min (s.blk.rd RAS_LOST_CNT.all + 1) (2 ^ 32 - 1) ∧ t.bit RAS_EVT.LOG_OVF = true
  else t.bit RAS_EVT.ACCESS = true ∧ t.rd RAS_LOG_WR.SEQ = (wr + 1) % 65536 ∧ Tbl.find t.ras.log (wr % 64) = some
    ⟨wr, kindACCESS, 16, 0, BitVec.ofNat 64 addr, s.blk.clk.htime, BitVec.ofNat 32 (requester + cause * 16), 0⟩

/-- The registers an entry of the log may change. -/
def logRegs : List Nat := [RAS_EVT.all.base, RAS_LOG_WR.all.base, RAS_LOST_CNT.all.base]

/-- A register of BAR0 with no effect of its own on a write and not of a pair: it stores by its access types. -/
def plainWrite (off : Nat) : Bool :=
  off % 4 == 0 && decide (off < 0x900000) && !isPairLo off && !isPairHi off && [writePortsSys, writePortsAir, writePortsCore, writePortsEdge].all (fun l => (portAt l off).isNone)

/-- A register of BAR0 with no effect of its own on a read, not of a pair, and whose value is held. -/
def plainRead (off : Nat) : Bool :=
  off % 4 == 0 && decide (off < 0x900000) && !isPairLo off && !isPairHi off && (portAt readPorts off).isNone && (portAt livePorts off).isNone
    && off != CLR_TIME.all.base && off != RXA_POOL_ST.all.base && (WFT_CNT_STALL.all.index? 32 off).isNone

end Sys2Proof.Machine

/-- A write of a register with no effect of its own stores RW and WO bits, clears W1C bits and sets W1S bits written 1, and leaves the others; at a
reserved offset it does nothing, and a read there returns 0. A read returns the register with WO bits 0 and clears its RC bits. What the hardware
set or counted in the same beat stays set or counted, and the read returns the RC bits as they stood before it. A read of NAME_LO latches NAME_HI,
which a read of NAME_HI returns. Accesses of another size, and of unassigned offsets, log an access error without effect. BAR2 reads and writes
DRAM, whole words losing their poison, partly written poisoned words staying as they are (said for words whose errors have all been found); beyond
DRAM an access is unsupported, and a write to an area of the enabled Grove is dropped, each logged. Configuration requests are retried until the
boot ends, and then have their effect. COMPLETION: under hypotheses on the state and the operands alone, exec is said here to answer a next state
with the own effect of regWrite, counterReadClear, pairLoRead, accessSizeError, unassignedAccess, bar2Access, configRequest. (R9, R10, R11, R12,
R13, R30, R310, R407, R408, R409, R519, R540) -/
def Obligations.RegisterAndMemoryAccesses : Prop :=
  (∀ (s : State) (bar off : Nat) (v : Word), bar ≠ 4 → plainWrite off = true →
      let m := rowMasks off
      Runs (.regWrite bar off v) s (fun t => (∀ i, i < 32 → (t.reg off).getLsbD i =
          ((if m.2.2.getLsbD i && v.getLsbD i then true else if m.2.1.getLsbD i && v.getLsbD i then false
            else if m.1.getLsbD i then v.getLsbD i else (s.blk.reg off).getLsbD i)
            || (m.2.1.getLsbD i && (s.blk.tieAt off).2.getLsbD i)))
        ∧ RegsKept s.blk t [off] ∧ DramKept s.blk t ∧ (regRow? off = none → RegsKept s.blk t [])))
  ∧ (∀ (s : State) (bar off : Nat) (v : Word), bar ≠ 4 → off % 4 ≠ 0 ∨ 0x900000 ≤ off →
      Runs (.regWrite bar off v) s (fun t => t.resp = .done ∧ LogsAccess s t 0 (if off % 4 = 0 then 1 else 0) off ∧ RegsKept s.blk t logRegs
        ∧ DramKept s.blk t)
      ∧ Runs (.counterReadClear off) s (fun t => (off % 4 = 0 → t.resp = .data 0) ∧ LogsAccess s t 0 (if off % 4 = 0 then 1 else 0) off
        ∧ RegsKept s.blk t logRegs ∧ DramKept s.blk t))
  ∧ (∀ (s : State) (off : Nat) (v : Word), (off < 0x8000 → off % 4 = 0 → Runs (.regWrite 4 off v) s (fun t =>
        Tbl.get msixReset t.fn.msix (off / 4) = v ∧ RegsKept s.blk t [] ∧ DramKept s.blk t))
      ∧ (0x8000 ≤ off ∨ off % 4 ≠ 0 → NoEffect (.regWrite 4 off v) s))
  ∧ (∀ (s : State) (off : Nat), plainRead off = true → Runs (.counterReadClear off) s (fun t => DramKept s.blk t ∧ RegsKept s.blk t [off]
      ∧ match regRow? off with
        | some r => t.resp = .data ((s.blk.reg off &&& ~~~r.wo &&& ~~~r.rc) ||| ((s.blk.tieAt off).1 &&& r.rc))
            ∧ t.reg off = (s.blk.reg off &&& ~~~r.rc) ||| ((s.blk.tieAt off).2 &&& r.rc)
        | none => t.resp = .data 0 ∧ t.reg off = s.blk.reg off))
  ∧ (∀ (s : State) (o : Nat), s.blk.tie.beat ≠ s.blk.clk.beat → s.blk.tieAt o = (s.blk.reg o, 0))
  ∧ (∀ s : State, s.blk.tieAt RXA_POOL_ST.all.base = (s.blk.reg RXA_POOL_ST.all.base, 0) → Runs (.counterReadClear RXA_POOL_ST.all.base) s (fun t =>
      t.resp = .data (s.blk.reg RXA_POOL_ST.all.base) ∧ t.rd RXA_POOL_ST.PEAK = min s.blk.rxa.lanes.length 1023))
  ∧ (∀ (s : State) (off : Nat), isPairLo off = true → Runs (.pairLoRead off) s (fun t => RegsKept s.blk t [] ∧ t.resp = .data (s.blk.regNow off)
      ∧ Tbl.find t.hiLatch (off + 4) = some (s.blk.regNow (off + 4))))
  ∧ (∀ (s : State) (off : Nat), exec (.pairLoRead off) s = exec (.counterReadClear off) s)
  ∧ (∀ (s : State) (off : Nat) (v : Word), isPairHi off = true → isPairLo off = false → portAt readPorts off = none → off ≠ CLR_TIME.all.base →
      WFT_CNT_STALL.all.index? 32 off = none → Tbl.find s.blk.hiLatch off = some v → Runs (.counterReadClear off) s (fun t => t.resp = .data v))
  ∧ (∀ (s : State) (off : Nat), Runs (.accessSizeError off true) s (fun t => t.resp = .done ∧ LogsAccess s t 0 0 off ∧ RegsKept s.blk t logRegs
        ∧ DramKept s.blk t)
      ∧ Runs (.accessSizeError off false) s (fun t => LogsAccess s t 0 0 off ∧ RegsKept s.blk t logRegs ∧ DramKept s.blk t))
  ∧ (∀ (s : State) (req off : Nat) (write : Bool), req < 5 → 0x900000 ≤ off → Runs (.unassignedAccess req off write) s (fun t =>
      t.resp = (if write then .done else .data 0) ∧ LogsAccess s t req 1 off ∧ RegsKept s.blk t logRegs ∧ DramKept s.blk t))
  ∧ (∀ (s : State) (off n : Nat) (d : List Byte), s.blk.noErrors → Runs (.bar2Access false off n d) s (fun t => DramKept s.blk t
      ∧ if s.blk.dramSize < off + n then t.resp = .unsupported ∧ LogsAccess s t 0 3 off
        else t.resp = .bytes (s.blk.dramBytes off n) (s.blk.dramPoisoned off n)
          ∧ if s.blk.dramPoisoned off n then min (s.blk.rd RAS_UE_CNT.all + 1) (2 ^ 32 - 1) ≤ t.rd RAS_UE_CNT.all
            else t.rd RAS_UE_CNT.all = s.blk.rd RAS_UE_CNT.all))
  ∧ (∀ (s : State) (off n : Nat) (d : List Byte),
      let whole (w : Nat) : Bool := decide (off ≤ 8 * w ∧ 8 * w + 8 ≤ off + d.length)
      s.blk.noErrors →
      if s.blk.dramSize < off + d.length then Runs (.bar2Access true off n d) s (fun t => t.resp = .unsupported ∧ LogsAccess s t 0 3 off ∧ DramKept s.blk t)
      else if s.blk.bit GRV_CTL.EN = true ∧ s.blk.inGrove off d.length = true then
        Runs (.bar2Access true off n d) s (fun t => t.resp = .done ∧ LogsAccess s t 0 2 off ∧ DramKept s.blk t)
      else Runs (.bar2Access true off n d) s (fun t => t.resp = .done
        ∧ (∀ a, t.dramByte a = if off ≤ a ∧ a < off + d.length ∧ (whole (a / 8) = true ∨ s.blk.wordPoisoned (a / 8) = false) then d.getD (a - off) 0
            else s.blk.dramByte a)
        ∧ (∀ w, t.wordPoisoned w = (s.blk.wordPoisoned w && !whole w))))
  ∧ (∀ (s : State) (r : CfgReq), s.blk.stw.rrs = true → Gives (.configRequest r) s { s.blk.start with resp := .retry })
  ∧ (∀ s : State, s.blk.stw.rrs = false → Gives (.configRequest .readVendor) s { s.blk.start with resp := .data 0x96401F6B }
      ∧ Gives (.configRequest .readClass) s { s.blk.start with resp := .data 0x028000B0 }
      ∧ Gives (.configRequest .readSubsystem) s { s.blk.start with resp := .data 0x96401F6B }
      ∧ (∀ m, Runs (.configRequest (.command m)) s (fun t => t.fn.busMaster = m ∧ t.fn.d3hot = s.blk.fn.d3hot ∧ t.fn.msix = s.blk.fn.msix
          ∧ t.resp = .done ∧ RegsKept s.blk t [ICU_EVT.all.base] ∧ DramKept s.blk t))
      ∧ (∀ d p, Runs (.configRequest (.power d p)) s (fun t => t.fn.d3hot = d ∧ t.fn.pmeEn = p ∧ t.fn.busMaster = s.blk.fn.busMaster
          ∧ t.resp = .done ∧ RegsKept s.blk t [ICU_EVT.all.base] ∧ DramKept s.blk t))
      ∧ (∀ e m, Runs (.configRequest (.msix e m)) s (fun t => t.fn.msixEn = e ∧ t.fn.msixMask = m ∧ t.fn.busMaster = s.blk.fn.busMaster
          ∧ t.resp = .done ∧ RegsKept s.blk t [ICU_EVT.all.base] ∧ DramKept s.blk t))
      ∧ Runs (.configRequest .flr) s (fun t => t.fn = PciFn.fresh ∧ t.resp = .done ∧ DramKept s.blk t
          ∧ (∀ o, 0x6C0000 ≤ o → o < 0x700000 → o ≠ PCI_STAT.all.base → t.reg o = regReset o)
          ∧ ∀ o, o < 0x6C0000 ∨ 0x700000 ≤ o ∨ o = PCI_STAT.all.base → t.reg o = s.blk.reg o))

namespace Sys2Proof.Machine

/-- A mailbox command has completed in the block `t` (R40): STATUS, RES_LEN, TAG and the results stand with DONE and PHASE DONE, and RING and ABORT
read 0. -/
def Completed (s : State) (t : Block) (st : Nat) (res : List (BitVec 32)) : Prop :=
  t.rd SYS_MBX_STATE.PHASE = phDONE ∧ t.bit SYS_MBX_STATE.DONE = true ∧ t.rd SYS_MBX_STATUS.STATUS = st % 65536
    ∧ t.rd SYS_MBX_STATUS.RES_LEN = res.length % 256 ∧ t.rd SYS_MBX_STATUS.TAG = s.blk.rd SYS_MBX_CMD.TAG ∧ t.stw.res = res ∧ t.stw.held = none
    ∧ t.stw.deadline = none ∧ t.stw.abortAt = none ∧ t.bit SYS_MBX_DB.RING = false ∧ t.bit SYS_MBX_DB.ABORT = false

/-- What a stop of an unfinished staging command leaves (R487): WRITING, with the slot's content undefined. -/
def StopsStaging (s : State) (t : Block) : Prop :=
  (s.blk.rd SYS_MBX_CMD.OPCODE = 0x2000 ∧ s.blk.rd UPD_STG_ST.STATE ≠ sgWRITING) ∨ (s.blk.rd SYS_MBX_CMD.OPCODE = 0x2001 ∧ s.blk.rd UPD_STG_ST.STATE = sgWRITING)
    → t.rd UPD_STG_ST.STATE = sgWRITING ∧ t.upd.stgUndef = true

end Sys2Proof.Machine

/-- In IDLE or DONE a RING clears DONE and the results, sets PHASE to BUSY and starts the timeout count; with READY 0 the command completes one
PBUS_CLK cycle later with NOT_READY. In BUSY or ABORTING a RING sets DB_REJECT alone, and a write of the command or of an argument sets WR_REJECT
alone. When the steward cores restart in BUSY or ABORTING the command completes with STEWARD_RESET. COMPLETION: under hypotheses on the state and
the operands alone, exec is said here to answer a next state with the own effect of regWrite, mbxRing, stewardWatchdogExpiry. (R35, R36, R39) -/
def Obligations.MailboxRing : Prop :=
  (∀ s : State, s.blk.rd SYS_MBX_STATE.PHASE = phIDLE ∨ s.blk.rd SYS_MBX_STATE.PHASE = phDONE →
      (s.blk.bit SYS_MBX_STATE.READY = true → Runs .mbxRing s (fun t => t.bit SYS_MBX_STATE.DONE = false
        ∧ (∀ n, n < 64 → t.regNow (SYS_MBX_RES.all.off n) = 0) ∧ t.rd SYS_MBX_STATE.PHASE = phBUSY
        ∧ t.stw.deadline = some (s.blk.clk.beat + s.blk.rd SYS_MBX_TMO.TMO_MS * 250000) ∧ t.clk = s.blk.clk
        ∧ RegsKept s.blk t [SYS_MBX_STATE.all.base, SYS_MBX_DB.all.base]))
      ∧ (s.blk.bit SYS_MBX_STATE.READY = false → Runs .mbxRing s (fun t => t.rd SYS_MBX_STATUS.STATUS = 0x8005 ∧ t.rd SYS_MBX_STATUS.RES_LEN = 0
        ∧ t.rd SYS_MBX_STATE.PHASE = phDONE ∧ t.bit SYS_MBX_STATE.DONE = true ∧ t.clk.beat = s.blk.clk.beat + 1 ∧ t.stw.res = []
        ∧ RegsKept s.blk t [SYS_MBX_STATE.all.base, SYS_MBX_DB.all.base, SYS_MBX_STATUS.all.base])))
  ∧ (∀ s : State, s.blk.rd SYS_MBX_STATE.PHASE = phBUSY ∨ s.blk.rd SYS_MBX_STATE.PHASE = phABORTING →
      Gives .mbxRing s (s.blk.start.set SYS_MBX_STATE.DB_REJECT)
      ∧ (∀ v, Gives (.regWrite 0 SYS_MBX_CMD.all.base v) s (s.blk.start.set SYS_MBX_STATE.WR_REJECT))
      ∧ (∀ n v, n < 64 → Gives (.regWrite 0 (SYS_MBX_ARG.all.off n) v) s (s.blk.start.set SYS_MBX_STATE.WR_REJECT))
      ∧ (s.blk.rd SYS_MBX_STATE.STW_UP ≠ 0 → Runs .stewardWatchdogExpiry s (fun t => t.rd SYS_MBX_STATUS.STATUS = 0x8006
        ∧ t.rd SYS_MBX_STATUS.RES_LEN = 0 ∧ t.rd SYS_MBX_STATE.PHASE = phDONE ∧ t.bit SYS_MBX_STATE.DONE = true ∧ t.stw.res = [])))

/-- ABORT in BUSY makes the phase ABORTING and else does nothing. The steward completes a command with the result it holds; with ABORTED where it
stops it; and with BAD_OPCODE or BAD_LENGTH as R41 says. A command that waits for no effect of Heartwood leaves Heartwood as it is. At the timeout,
or 10 ms after ABORT, the hardware completes the command with TIMEOUT or ABORTED. A staging command stopped unfinished leaves WRITING with the slot
undefined. PING, GET_FW_INFO and GET_HEALTH answer their results, with the joins accepted and not yet acknowledged (log entry 54). A watchdog
restarts the cores: READY and STW_UP are 0 and source 4 rises. The stewards become ready at the end of their start. COMPLETION: under hypotheses on
the state and the operands alone, exec is said here to answer a next state with the own effect of mbxAbort, mbxComplete, mbxTimeout,
mbxAbortTimeout, ping, getFwInfo, getHealth, stewardWatchdogExpiry, stewardReady. (R32, R37, R38, R40, R41, R42, R43, R372, R473, R487, R491, R540)
-/
def Obligations.MailboxAndStewards : Prop :=
  (∀ s : State, (s.blk.rd SYS_MBX_STATE.PHASE ≠ phBUSY → NoEffect .mbxAbort s)
      ∧ (s.blk.rd SYS_MBX_STATE.PHASE = phBUSY → Runs .mbxAbort s (fun t => t.rd SYS_MBX_STATE.PHASE = phABORTING
        ∧ t.stw = { s.blk.stw with abortAt := some (s.blk.clk.beat + 2500000) } ∧ RegsKept s.blk t [SYS_MBX_STATE.all.base, SYS_MBX_DB.all.base])))
  ∧ (∀ s : State, s.blk.mbxBusy = false ∨ s.blk.bit SYS_MBX_STATE.READY = false → NoEffect .mbxComplete s)
  ∧ (∀ s : State, s.blk.mbxBusy = true → s.blk.bit SYS_MBX_STATE.READY = true →
      (∀ st res, s.blk.stw.held = some (st, res) → s.blk.hwd.fx = .none → Runs .mbxComplete s (fun t => Completed s t st res ∧ t.hwd = s.blk.hwd
        ∧ DramKept s.blk t ∧ FlashIs s.blk t))
      ∧ (s.blk.stw.held = none →
        if s.blk.rd SYS_MBX_STATE.PHASE = phABORTING then Runs .mbxComplete s (fun t => Completed s t mbxABORTED [] ∧ StopsStaging s t)
        else if s.blk.rd SYS_MBX_CMD.OPCODE ∉ mbxOpcodes then Gives .mbxComplete s (s.blk.start.mbxComplete mbxBAD_OPCODE [])
        else if 64 < s.blk.rd SYS_MBX_CMD.ARG_LEN then Gives .mbxComplete s (s.blk.start.mbxComplete mbxBAD_LENGTH [])
        else NoEffect .mbxComplete s))
  ∧ (∀ (s : State) (d : Nat), s.blk.stw.deadline = some d → s.blk.mbxBusy = true → Runs .mbxTimeout s (fun t => Completed s t mbxTIMEOUT []
      ∧ t.clk.beat = max s.blk.clk.beat d ∧ (s.blk.stw.held = none → StopsStaging s t) ∧ t.hwd = { s.blk.hwd with fx := .none }
      ∧ (s.blk.rd SYS_MBX_CMD.OPCODE ≠ 0x1004 → s.blk.hwd.fx = .none → DramKept s.blk t)))
  ∧ (∀ s : State, s.blk.stw.deadline = none ∨ s.blk.mbxBusy = false → NoEffect .mbxTimeout s)
  ∧ (∀ (s : State) (d : Nat), s.blk.stw.abortAt = some d → s.blk.rd SYS_MBX_STATE.PHASE = phABORTING → Runs .mbxAbortTimeout s (fun t =>
      Completed s t mbxABORTED [] ∧ t.clk.beat = max s.blk.clk.beat d ∧ (s.blk.stw.held = none → StopsStaging s t)
      ∧ t.hwd = { s.blk.hwd with fx := .none } ∧ (s.blk.rd SYS_MBX_CMD.OPCODE ≠ 0x1004 → s.blk.hwd.fx = .none → DramKept s.blk t)))
  ∧ (∀ s : State, s.blk.stw.abortAt = none ∨ s.blk.rd SYS_MBX_STATE.PHASE ≠ phABORTING → NoEffect .mbxAbortTimeout s)
  ∧ (∀ x ∈ [(Instr.ping, 0x0000, fun _ => true), (.getFwInfo, 0x0001, (· == 0)), (.getHealth, 0x0002, (· == (0 : Nat)))], ∀ s : State,
      (s.blk.mbxServes x.2.1 = false → NoEffect x.1 s)
      ∧ (s.blk.mbxServes x.2.1 = true → s.blk.mbxTakes x.2.1 x.2.2 = false → Holds x.1 s mbxBAD_LENGTH []))
  ∧ (∀ s : State, (s.blk.mbxTakes 0x0000 (fun _ => true) = true → Holds .ping s mbxOK ((List.range (s.blk.rd SYS_MBX_CMD.ARG_LEN)).map s.blk.mbxArg))
      ∧ (s.blk.mbxTakes 0x0001 (· == 0) = true → Holds .getFwInfo s mbxOK [BitVec.ofNat 32 s.blk.fwWord, BitVec.ofNat 32 s.blk.stw.build,
          BitVec.ofNat 32 (s.blk.rd UPD_ROLL.ROLL), BitVec.ofNat 32 s.blk.stw.recVer])
      ∧ (s.blk.mbxTakes 0x0002 (· == 0) = true → Holds .getHealth s mbxOK
          [BitVec.ofNat 32 (s.blk.rd SYS_MBX_STATE.STW_UP + min 15 s.blk.stw.restarts * 256), BitVec.ofNat 32 s.blk.stw.joins.length,
           BitVec.ofNat 32 ((s.blk.rd RAS_LOG_WR.SEQ + 65536 - s.blk.rd RAS_LOG_RD.SEQ) % 65536)]))
  ∧ (∀ s : State, s.blk.rd SYS_MBX_STATE.STW_UP = 0 → NoEffect .stewardWatchdogExpiry s)
  ∧ (∀ s : State, s.blk.rd SYS_MBX_STATE.STW_UP ≠ 0 → Runs .stewardWatchdogExpiry s (fun t => t.bit SYS_MBX_STATE.READY = false
      ∧ t.rd SYS_MBX_STATE.STW_UP = 0 ∧ t.stw.restarts = s.blk.stw.restarts + 1 ∧ t.rawLevel 4 = true ∧ t.icu.wfe = [] ∧ FlashIs s.blk t
      ∧ (s.blk.rd SYS_MBX_CMD.OPCODE ≠ 0x1004 → s.blk.hwd.fx = .none → DramKept s.blk t)
      ∧ (s.blk.mbxBusy = false → RegsKept s.blk t [SYS_MBX_STATE.all.base, ICU_EVT.all.base])))
  ∧ (∀ s : State, s.blk.pwr.rst.isSome = true ∨ s.blk.bit SYS_MBX_STATE.READY = true ∨ (s.blk.stw.rrs = true ∧ s.blk.rd SYS_MBX_STATE.STW_UP ≠ 15)
      ∨ (s.blk.stw.rrs = false ∧ s.blk.rd UPD_BOOT_ST.RESULT = brRECOVERY) → NoEffect .stewardReady s)
  ∧ (∀ s : State, s.blk.pwr.rst = none → s.blk.bit SYS_MBX_STATE.READY = false →
      (s.blk.stw.rrs = true → s.blk.rd SYS_MBX_STATE.STW_UP = 15 → Runs .stewardReady s (fun t => t.bit SYS_MBX_STATE.READY = true
        ∧ t.stw = { s.blk.stw with rrs := false } ∧ t.rd SYS_MBX_STATE.STW_UP = 15 ∧ DramKept s.blk t))
      ∧ (s.blk.stw.rrs = false → s.blk.rd UPD_BOOT_ST.RESULT ≠ brRECOVERY → Runs .stewardReady s (fun t => t.bit SYS_MBX_STATE.READY = true
        ∧ t.stw = s.blk.stw ∧ t.rd SYS_MBX_STATE.STW_UP = 15 ∧ RegsKept s.blk t [SYS_MBX_STATE.all.base] ∧ FlashIs s.blk t)))

/-- The command that waits longest is taken and run with the queue's rest; the queue of the next state is that rest, for every command. On an empty
queue the block idles for one beat (log entry 5, the model's choice): an edge of TCK that waits at the test access port is taken, interrupts are
presented, the clocks advance, and nothing else changes. TRST_n low puts the port in Test-Logic-Reset with IDCODE; under IDCODE Capture-DR loads the
32 bits of 0xB9640A4B, and outside test mode under a code of another row but SAMPLE/PRELOAD the one bit of BYPASS (log entry 56: a code of no row is
BYPASS). (00_scope.md, 18_signals_package.md, R564, R565) -/
def Obligations.StepRunsTheFrontCommand : Prop :=
  (∀ (s : State) (c : Instr), step { s with pending := c :: s.pending } = exec c s)
  ∧ (∀ s t : State, step s = .next t → t.pending = s.pending.tail)
  ∧ (∀ s : State, s.pending = [] → step s = .next { s with blk := s.blk.idleBeat })
  ∧ (∀ b : Block, b.idleBeat.clk = { b.clk.add 1 with free := b.tapClock.clk.free }
      ∧ (b.tap.edges = [] → b.idleBeat.clk = b.clk.add 1 ∧ b.idleBeat.tap = b.tap)
      ∧ DramKept b b.idleBeat ∧ FlashIs b b.idleBeat ∧ RegsKept b b.idleBeat [ICU_EVT.all.base] ∧ b.idleBeat.resp = b.resp)
  ∧ (∀ (b : Block) (e : TckEdge) (l : List TckEdge), b.tap.edges = e :: l →
      b.idleBeat.tap.edges = l ∧ b.idleBeat.tap.st = (if e.trstN then b.tap.st.next e.tms else .testLogicReset)
      ∧ (b.idleBeat.tap.st = .testLogicReset → b.idleBeat.tap.ir = 0x01)
      ∧ (e.trstN = true → b.tap.st = .shiftDr → b.idleBeat.tap.tdo = b.tap.dr.headD false ∧ b.idleBeat.tap.dr = b.tap.dr.drop 1 ++ [e.tdi])
      ∧ (e.trstN = true → b.tap.st = .updateIr → b.idleBeat.tap.ir = b.tap.irShift)
      ∧ (e.trstN = true → b.tap.st = .captureDr → b.tap.ir = 0x01 → b.idleBeat.tap.dr = (List.range 32).map (0xB9640A4B : BitVec 32).getLsbD)
      ∧ (e.trstN = true → b.tap.st = .captureDr → b.pins.testEn = false → b.tap.ir ≠ 0x01 → b.tap.ir ≠ 0x02 → b.idleBeat.tap.dr = [false]))
  ∧ (∀ (s t : State) (c : Instr), exec c s = .next t → t.pending = s.pending)

/-- The registers, DRAM and its poison, the Weft memories, the warp banks, the Bough tables and the boot flash are each held as a list of keys that
rise and of values that differ from what an unlisted key reads as, so that equal memories are equal data. Every step keeps this, whatever the
command. (R9, R310, R464, R518, R519) -/
def Obligations.EveryStepKeepsTheMemoriesCanonical : Prop :=
  ∀ s t : State, s.Inv → step s = .next t → t.Inv

/-- In State.reset, and in the state that a reset of any kind leaves, the log holds nothing, WR and RD are 0, every RAS counter is 0, ONDIE_EN is 1
and SCRUB_EN and TCHK_EN are 0; the poison of DRAM stays with its contents in WARM and SLEEP_EXIT. State.reset meets the invariant, its queue is
empty, and every register of it holds its reset value. (R528) -/
def Obligations.ResetLeavesTheLogEmpty : Prop :=
  (∀ b : Block, b = State.reset.blk ∨ (∃ (c : Block) (kind cause : Nat), b = c.resetTo kind cause) →
      b.ras.log = [] ∧ b.reg RAS_LOG_WR.all.base = 0 ∧ b.reg RAS_LOG_RD.all.base = 0 ∧ b.reg RAS_SCRUB_PASS.all.base = 0
      ∧ b.reg RAS_CE_CNT.all.base = 0 ∧ b.reg RAS_UE_CNT.all.base = 0 ∧ b.reg RAS_LOST_CNT.all.base = 0 ∧ b.reg RAS_TCHK_PASS.all.base = 0
      ∧ (∀ u, u < 16 → b.reg (RAS_UNIT_CE.all.off u) = 0)
      ∧ b.bit RAS_CTL.ONDIE_EN = true ∧ b.bit RAS_CTL.SCRUB_EN = false ∧ b.bit RAS_CTL.TCHK_EN = false)
  ∧ (∀ (b : Block) (kind cause : Nat), kind = rkWARM ∨ kind = rkSLEEP_EXIT → ∀ w, (b.resetTo kind cause).wordPoisoned w = b.wordPoisoned w)
  ∧ State.reset.Inv ∧ State.reset.pending = [] ∧ ∀ o, State.reset.blk.reg o = regReset o
end

