-- ==== Sys2Proof/Laws/State.lean ====
section
/-! SUPPORT. One lemma for each part of the block and each of its basic updates: what the update leaves as it is. -/

namespace Sys2Proof.Machine

variable (b : Block)

@[simp] theorem Block.start_clk : (b.start).clk = b.clk := rfl
@[simp] theorem Block.start_regs : (b.start).regs = b.regs := rfl
@[simp] theorem Block.start_loHeld : (b.start).loHeld = b.loHeld := rfl
@[simp] theorem Block.start_hiLatch : (b.start).hiLatch = b.hiLatch := rfl
@[simp] theorem Block.start_hoop : (b.start).hoop = b.hoop := rfl
@[simp] theorem Block.start_stw : (b.start).stw = b.stw := rfl
@[simp] theorem Block.start_dram : (b.start).dram = b.dram := rfl
@[simp] theorem Block.start_ras : (b.start).ras = b.ras := rfl
@[simp] theorem Block.start_wft : (b.start).wft = b.wft := rfl
@[simp] theorem Block.start_rxa : (b.start).rxa = b.rxa := rfl
@[simp] theorem Block.start_txc : (b.start).txc = b.txc := rfl
@[simp] theorem Block.start_cnp : (b.start).cnp = b.cnp := rfl
@[simp] theorem Block.start_bdr : (b.start).bdr = b.bdr := rfl
@[simp] theorem Block.start_grv : (b.start).grv = b.grv := rfl
@[simp] theorem Block.start_hwd : (b.start).hwd = b.hwd := rfl
@[simp] theorem Block.start_mas : (b.start).mas = b.mas := rfl
@[simp] theorem Block.start_plq : (b.start).plq = b.plq := rfl
@[simp] theorem Block.start_shp : (b.start).shp = b.shp := rfl
@[simp] theorem Block.start_icu : (b.start).icu = b.icu := rfl
@[simp] theorem Block.start_tmr : (b.start).tmr = b.tmr := rfl
@[simp] theorem Block.start_upd : (b.start).upd = b.upd := rfl
@[simp] theorem Block.start_pwr : (b.start).pwr = b.pwr := rfl
@[simp] theorem Block.start_low : (b.start).low = b.low := rfl
@[simp] theorem Block.start_tap : (b.start).tap = b.tap := rfl
@[simp] theorem Block.start_tie : (b.start).tie = b.tie := rfl
@[simp] theorem Block.start_pins : (b.start).pins = b.pins := rfl
@[simp] theorem Block.start_fn : (b.start).fn = b.fn := rfl

@[simp] theorem Block.setReg_clk (o : Nat) (v : BitVec 32) : (b.setReg o v).clk = b.clk := rfl
@[simp] theorem Block.setReg_loHeld (o : Nat) (v : BitVec 32) : (b.setReg o v).loHeld = b.loHeld := rfl
@[simp] theorem Block.setReg_hiLatch (o : Nat) (v : BitVec 32) : (b.setReg o v).hiLatch = b.hiLatch := rfl
@[simp] theorem Block.setReg_hoop (o : Nat) (v : BitVec 32) : (b.setReg o v).hoop = b.hoop := rfl
@[simp] theorem Block.setReg_stw (o : Nat) (v : BitVec 32) : (b.setReg o v).stw = b.stw := rfl
@[simp] theorem Block.setReg_dram (o : Nat) (v : BitVec 32) : (b.setReg o v).dram = b.dram := rfl
@[simp] theorem Block.setReg_ras (o : Nat) (v : BitVec 32) : (b.setReg o v).ras = b.ras := rfl
@[simp] theorem Block.setReg_wft (o : Nat) (v : BitVec 32) : (b.setReg o v).wft = b.wft := rfl
@[simp] theorem Block.setReg_rxa (o : Nat) (v : BitVec 32) : (b.setReg o v).rxa = b.rxa := rfl
@[simp] theorem Block.setReg_txc (o : Nat) (v : BitVec 32) : (b.setReg o v).txc = b.txc := rfl
@[simp] theorem Block.setReg_cnp (o : Nat) (v : BitVec 32) : (b.setReg o v).cnp = b.cnp := rfl
@[simp] theorem Block.setReg_bdr (o : Nat) (v : BitVec 32) : (b.setReg o v).bdr = b.bdr := rfl
@[simp] theorem Block.setReg_grv (o : Nat) (v : BitVec 32) : (b.setReg o v).grv = b.grv := rfl
@[simp] theorem Block.setReg_hwd (o : Nat) (v : BitVec 32) : (b.setReg o v).hwd = b.hwd := rfl
@[simp] theorem Block.setReg_mas (o : Nat) (v : BitVec 32) : (b.setReg o v).mas = b.mas := rfl
@[simp] theorem Block.setReg_plq (o : Nat) (v : BitVec 32) : (b.setReg o v).plq = b.plq := rfl
@[simp] theorem Block.setReg_shp (o : Nat) (v : BitVec 32) : (b.setReg o v).shp = b.shp := rfl
@[simp] theorem Block.setReg_icu (o : Nat) (v : BitVec 32) : (b.setReg o v).icu = b.icu := rfl
@[simp] theorem Block.setReg_tmr (o : Nat) (v : BitVec 32) : (b.setReg o v).tmr = b.tmr := rfl
@[simp] theorem Block.setReg_upd (o : Nat) (v : BitVec 32) : (b.setReg o v).upd = b.upd := rfl
@[simp] theorem Block.setReg_pwr (o : Nat) (v : BitVec 32) : (b.setReg o v).pwr = b.pwr := rfl
@[simp] theorem Block.setReg_low (o : Nat) (v : BitVec 32) : (b.setReg o v).low = b.low := rfl
@[simp] theorem Block.setReg_tap (o : Nat) (v : BitVec 32) : (b.setReg o v).tap = b.tap := rfl
@[simp] theorem Block.setReg_tie (o : Nat) (v : BitVec 32) : (b.setReg o v).tie = b.tie := rfl
@[simp] theorem Block.setReg_pins (o : Nat) (v : BitVec 32) : (b.setReg o v).pins = b.pins := rfl
@[simp] theorem Block.setReg_fn (o : Nat) (v : BitVec 32) : (b.setReg o v).fn = b.fn := rfl
@[simp] theorem Block.setReg_resp (o : Nat) (v : BitVec 32) : (b.setReg o v).resp = b.resp := rfl
@[simp] theorem Block.setReg_out (o : Nat) (v : BitVec 32) : (b.setReg o v).out = b.out := rfl

@[simp] theorem Block.answer_clk (r : Resp) : (b.answer r).clk = b.clk := rfl
@[simp] theorem Block.answer_regs (r : Resp) : (b.answer r).regs = b.regs := rfl
@[simp] theorem Block.answer_loHeld (r : Resp) : (b.answer r).loHeld = b.loHeld := rfl
@[simp] theorem Block.answer_hiLatch (r : Resp) : (b.answer r).hiLatch = b.hiLatch := rfl
@[simp] theorem Block.answer_hoop (r : Resp) : (b.answer r).hoop = b.hoop := rfl
@[simp] theorem Block.answer_stw (r : Resp) : (b.answer r).stw = b.stw := rfl
@[simp] theorem Block.answer_dram (r : Resp) : (b.answer r).dram = b.dram := rfl
@[simp] theorem Block.answer_ras (r : Resp) : (b.answer r).ras = b.ras := rfl
@[simp] theorem Block.answer_wft (r : Resp) : (b.answer r).wft = b.wft := rfl
@[simp] theorem Block.answer_rxa (r : Resp) : (b.answer r).rxa = b.rxa := rfl
@[simp] theorem Block.answer_txc (r : Resp) : (b.answer r).txc = b.txc := rfl
@[simp] theorem Block.answer_cnp (r : Resp) : (b.answer r).cnp = b.cnp := rfl
@[simp] theorem Block.answer_bdr (r : Resp) : (b.answer r).bdr = b.bdr := rfl
@[simp] theorem Block.answer_grv (r : Resp) : (b.answer r).grv = b.grv := rfl
@[simp] theorem Block.answer_hwd (r : Resp) : (b.answer r).hwd = b.hwd := rfl
@[simp] theorem Block.answer_mas (r : Resp) : (b.answer r).mas = b.mas := rfl
@[simp] theorem Block.answer_plq (r : Resp) : (b.answer r).plq = b.plq := rfl
@[simp] theorem Block.answer_shp (r : Resp) : (b.answer r).shp = b.shp := rfl
@[simp] theorem Block.answer_icu (r : Resp) : (b.answer r).icu = b.icu := rfl
@[simp] theorem Block.answer_tmr (r : Resp) : (b.answer r).tmr = b.tmr := rfl
@[simp] theorem Block.answer_upd (r : Resp) : (b.answer r).upd = b.upd := rfl
@[simp] theorem Block.answer_pwr (r : Resp) : (b.answer r).pwr = b.pwr := rfl
@[simp] theorem Block.answer_low (r : Resp) : (b.answer r).low = b.low := rfl
@[simp] theorem Block.answer_tap (r : Resp) : (b.answer r).tap = b.tap := rfl
@[simp] theorem Block.answer_tie (r : Resp) : (b.answer r).tie = b.tie := rfl
@[simp] theorem Block.answer_pins (r : Resp) : (b.answer r).pins = b.pins := rfl
@[simp] theorem Block.answer_fn (r : Resp) : (b.answer r).fn = b.fn := rfl
@[simp] theorem Block.answer_out (r : Resp) : (b.answer r).out = b.out := rfl

@[simp] theorem Block.emit_clk (o : Output) : (b.emit o).clk = b.clk := rfl
@[simp] theorem Block.emit_regs (o : Output) : (b.emit o).regs = b.regs := rfl
@[simp] theorem Block.emit_loHeld (o : Output) : (b.emit o).loHeld = b.loHeld := rfl
@[simp] theorem Block.emit_hiLatch (o : Output) : (b.emit o).hiLatch = b.hiLatch := rfl
@[simp] theorem Block.emit_hoop (o : Output) : (b.emit o).hoop = b.hoop := rfl
@[simp] theorem Block.emit_stw (o : Output) : (b.emit o).stw = b.stw := rfl
@[simp] theorem Block.emit_dram (o : Output) : (b.emit o).dram = b.dram := rfl
@[simp] theorem Block.emit_ras (o : Output) : (b.emit o).ras = b.ras := rfl
@[simp] theorem Block.emit_wft (o : Output) : (b.emit o).wft = b.wft := rfl
@[simp] theorem Block.emit_rxa (o : Output) : (b.emit o).rxa = b.rxa := rfl
@[simp] theorem Block.emit_txc (o : Output) : (b.emit o).txc = b.txc := rfl
@[simp] theorem Block.emit_cnp (o : Output) : (b.emit o).cnp = b.cnp := rfl
@[simp] theorem Block.emit_bdr (o : Output) : (b.emit o).bdr = b.bdr := rfl
@[simp] theorem Block.emit_grv (o : Output) : (b.emit o).grv = b.grv := rfl
@[simp] theorem Block.emit_hwd (o : Output) : (b.emit o).hwd = b.hwd := rfl
@[simp] theorem Block.emit_mas (o : Output) : (b.emit o).mas = b.mas := rfl
@[simp] theorem Block.emit_plq (o : Output) : (b.emit o).plq = b.plq := rfl
@[simp] theorem Block.emit_shp (o : Output) : (b.emit o).shp = b.shp := rfl
@[simp] theorem Block.emit_icu (o : Output) : (b.emit o).icu = b.icu := rfl
@[simp] theorem Block.emit_tmr (o : Output) : (b.emit o).tmr = b.tmr := rfl
@[simp] theorem Block.emit_upd (o : Output) : (b.emit o).upd = b.upd := rfl
@[simp] theorem Block.emit_pwr (o : Output) : (b.emit o).pwr = b.pwr := rfl
@[simp] theorem Block.emit_low (o : Output) : (b.emit o).low = b.low := rfl
@[simp] theorem Block.emit_tap (o : Output) : (b.emit o).tap = b.tap := rfl
@[simp] theorem Block.emit_tie (o : Output) : (b.emit o).tie = b.tie := rfl
@[simp] theorem Block.emit_pins (o : Output) : (b.emit o).pins = b.pins := rfl
@[simp] theorem Block.emit_fn (o : Output) : (b.emit o).fn = b.fn := rfl
@[simp] theorem Block.emit_resp (o : Output) : (b.emit o).resp = b.resp := rfl

@[simp] theorem Block.took_regs : (b.took).regs = b.regs := rfl
@[simp] theorem Block.took_loHeld : (b.took).loHeld = b.loHeld := rfl
@[simp] theorem Block.took_hiLatch : (b.took).hiLatch = b.hiLatch := rfl
@[simp] theorem Block.took_hoop : (b.took).hoop = b.hoop := rfl
@[simp] theorem Block.took_stw : (b.took).stw = b.stw := rfl
@[simp] theorem Block.took_dram : (b.took).dram = b.dram := rfl
@[simp] theorem Block.took_ras : (b.took).ras = b.ras := rfl
@[simp] theorem Block.took_wft : (b.took).wft = b.wft := rfl
@[simp] theorem Block.took_rxa : (b.took).rxa = b.rxa := rfl
@[simp] theorem Block.took_txc : (b.took).txc = b.txc := rfl
@[simp] theorem Block.took_cnp : (b.took).cnp = b.cnp := rfl
@[simp] theorem Block.took_bdr : (b.took).bdr = b.bdr := rfl
@[simp] theorem Block.took_grv : (b.took).grv = b.grv := rfl
@[simp] theorem Block.took_hwd : (b.took).hwd = b.hwd := rfl
@[simp] theorem Block.took_mas : (b.took).mas = b.mas := rfl
@[simp] theorem Block.took_plq : (b.took).plq = b.plq := rfl
@[simp] theorem Block.took_shp : (b.took).shp = b.shp := rfl
@[simp] theorem Block.took_icu : (b.took).icu = b.icu := rfl
@[simp] theorem Block.took_tmr : (b.took).tmr = b.tmr := rfl
@[simp] theorem Block.took_upd : (b.took).upd = b.upd := rfl
@[simp] theorem Block.took_pwr : (b.took).pwr = b.pwr := rfl
@[simp] theorem Block.took_low : (b.took).low = b.low := rfl
@[simp] theorem Block.took_tap : (b.took).tap = b.tap := rfl
@[simp] theorem Block.took_tie : (b.took).tie = b.tie := rfl
@[simp] theorem Block.took_pins : (b.took).pins = b.pins := rfl
@[simp] theorem Block.took_fn : (b.took).fn = b.fn := rfl
@[simp] theorem Block.took_resp : (b.took).resp = b.resp := rfl
@[simp] theorem Block.took_out : (b.took).out = b.out := rfl

@[simp] theorem Block.beatTick_regs : (b.beatTick).regs = b.regs := rfl
@[simp] theorem Block.beatTick_loHeld : (b.beatTick).loHeld = b.loHeld := rfl
@[simp] theorem Block.beatTick_hiLatch : (b.beatTick).hiLatch = b.hiLatch := rfl
@[simp] theorem Block.beatTick_hoop : (b.beatTick).hoop = b.hoop := rfl
@[simp] theorem Block.beatTick_stw : (b.beatTick).stw = b.stw := rfl
@[simp] theorem Block.beatTick_dram : (b.beatTick).dram = b.dram := rfl
@[simp] theorem Block.beatTick_ras : (b.beatTick).ras = b.ras := rfl
@[simp] theorem Block.beatTick_wft : (b.beatTick).wft = b.wft := rfl
@[simp] theorem Block.beatTick_rxa : (b.beatTick).rxa = b.rxa := rfl
@[simp] theorem Block.beatTick_txc : (b.beatTick).txc = b.txc := rfl
@[simp] theorem Block.beatTick_cnp : (b.beatTick).cnp = b.cnp := rfl
@[simp] theorem Block.beatTick_bdr : (b.beatTick).bdr = b.bdr := rfl
@[simp] theorem Block.beatTick_grv : (b.beatTick).grv = b.grv := rfl
@[simp] theorem Block.beatTick_hwd : (b.beatTick).hwd = b.hwd := rfl
@[simp] theorem Block.beatTick_mas : (b.beatTick).mas = b.mas := rfl
@[simp] theorem Block.beatTick_plq : (b.beatTick).plq = b.plq := rfl
@[simp] theorem Block.beatTick_shp : (b.beatTick).shp = b.shp := rfl
@[simp] theorem Block.beatTick_icu : (b.beatTick).icu = b.icu := rfl
@[simp] theorem Block.beatTick_tmr : (b.beatTick).tmr = b.tmr := rfl
@[simp] theorem Block.beatTick_upd : (b.beatTick).upd = b.upd := rfl
@[simp] theorem Block.beatTick_pwr : (b.beatTick).pwr = b.pwr := rfl
@[simp] theorem Block.beatTick_low : (b.beatTick).low = b.low := rfl
@[simp] theorem Block.beatTick_tap : (b.beatTick).tap = b.tap := rfl
@[simp] theorem Block.beatTick_tie : (b.beatTick).tie = b.tie := rfl
@[simp] theorem Block.beatTick_pins : (b.beatTick).pins = b.pins := rfl
@[simp] theorem Block.beatTick_fn : (b.beatTick).fn = b.fn := rfl
@[simp] theorem Block.beatTick_resp : (b.beatTick).resp = b.resp := rfl
@[simp] theorem Block.beatTick_out : (b.beatTick).out = b.out := rfl

@[simp] theorem Block.toBeat_regs (n : Nat) : (b.toBeat n).regs = b.regs := rfl
@[simp] theorem Block.toBeat_loHeld (n : Nat) : (b.toBeat n).loHeld = b.loHeld := rfl
@[simp] theorem Block.toBeat_hiLatch (n : Nat) : (b.toBeat n).hiLatch = b.hiLatch := rfl
@[simp] theorem Block.toBeat_hoop (n : Nat) : (b.toBeat n).hoop = b.hoop := rfl
@[simp] theorem Block.toBeat_stw (n : Nat) : (b.toBeat n).stw = b.stw := rfl
@[simp] theorem Block.toBeat_dram (n : Nat) : (b.toBeat n).dram = b.dram := rfl
@[simp] theorem Block.toBeat_ras (n : Nat) : (b.toBeat n).ras = b.ras := rfl
@[simp] theorem Block.toBeat_wft (n : Nat) : (b.toBeat n).wft = b.wft := rfl
@[simp] theorem Block.toBeat_rxa (n : Nat) : (b.toBeat n).rxa = b.rxa := rfl
@[simp] theorem Block.toBeat_txc (n : Nat) : (b.toBeat n).txc = b.txc := rfl
@[simp] theorem Block.toBeat_cnp (n : Nat) : (b.toBeat n).cnp = b.cnp := rfl
@[simp] theorem Block.toBeat_bdr (n : Nat) : (b.toBeat n).bdr = b.bdr := rfl
@[simp] theorem Block.toBeat_grv (n : Nat) : (b.toBeat n).grv = b.grv := rfl
@[simp] theorem Block.toBeat_hwd (n : Nat) : (b.toBeat n).hwd = b.hwd := rfl
@[simp] theorem Block.toBeat_mas (n : Nat) : (b.toBeat n).mas = b.mas := rfl
@[simp] theorem Block.toBeat_plq (n : Nat) : (b.toBeat n).plq = b.plq := rfl
@[simp] theorem Block.toBeat_shp (n : Nat) : (b.toBeat n).shp = b.shp := rfl
@[simp] theorem Block.toBeat_icu (n : Nat) : (b.toBeat n).icu = b.icu := rfl
@[simp] theorem Block.toBeat_tmr (n : Nat) : (b.toBeat n).tmr = b.tmr := rfl
@[simp] theorem Block.toBeat_upd (n : Nat) : (b.toBeat n).upd = b.upd := rfl
@[simp] theorem Block.toBeat_pwr (n : Nat) : (b.toBeat n).pwr = b.pwr := rfl
@[simp] theorem Block.toBeat_low (n : Nat) : (b.toBeat n).low = b.low := rfl
@[simp] theorem Block.toBeat_tap (n : Nat) : (b.toBeat n).tap = b.tap := rfl
@[simp] theorem Block.toBeat_tie (n : Nat) : (b.toBeat n).tie = b.tie := rfl
@[simp] theorem Block.toBeat_pins (n : Nat) : (b.toBeat n).pins = b.pins := rfl
@[simp] theorem Block.toBeat_fn (n : Nat) : (b.toBeat n).fn = b.fn := rfl
@[simp] theorem Block.toBeat_resp (n : Nat) : (b.toBeat n).resp = b.resp := rfl
@[simp] theorem Block.toBeat_out (n : Nat) : (b.toBeat n).out = b.out := rfl

@[simp] theorem Block.toTime_regs (t : BitVec 64) : (b.toTime t).regs = b.regs := rfl
@[simp] theorem Block.toTime_loHeld (t : BitVec 64) : (b.toTime t).loHeld = b.loHeld := rfl
@[simp] theorem Block.toTime_hiLatch (t : BitVec 64) : (b.toTime t).hiLatch = b.hiLatch := rfl
@[simp] theorem Block.toTime_hoop (t : BitVec 64) : (b.toTime t).hoop = b.hoop := rfl
@[simp] theorem Block.toTime_stw (t : BitVec 64) : (b.toTime t).stw = b.stw := rfl
@[simp] theorem Block.toTime_dram (t : BitVec 64) : (b.toTime t).dram = b.dram := rfl
@[simp] theorem Block.toTime_ras (t : BitVec 64) : (b.toTime t).ras = b.ras := rfl
@[simp] theorem Block.toTime_wft (t : BitVec 64) : (b.toTime t).wft = b.wft := rfl
@[simp] theorem Block.toTime_rxa (t : BitVec 64) : (b.toTime t).rxa = b.rxa := rfl
@[simp] theorem Block.toTime_txc (t : BitVec 64) : (b.toTime t).txc = b.txc := rfl
@[simp] theorem Block.toTime_cnp (t : BitVec 64) : (b.toTime t).cnp = b.cnp := rfl
@[simp] theorem Block.toTime_bdr (t : BitVec 64) : (b.toTime t).bdr = b.bdr := rfl
@[simp] theorem Block.toTime_grv (t : BitVec 64) : (b.toTime t).grv = b.grv := rfl
@[simp] theorem Block.toTime_hwd (t : BitVec 64) : (b.toTime t).hwd = b.hwd := rfl
@[simp] theorem Block.toTime_mas (t : BitVec 64) : (b.toTime t).mas = b.mas := rfl
@[simp] theorem Block.toTime_plq (t : BitVec 64) : (b.toTime t).plq = b.plq := rfl
@[simp] theorem Block.toTime_shp (t : BitVec 64) : (b.toTime t).shp = b.shp := rfl
@[simp] theorem Block.toTime_icu (t : BitVec 64) : (b.toTime t).icu = b.icu := rfl
@[simp] theorem Block.toTime_tmr (t : BitVec 64) : (b.toTime t).tmr = b.tmr := rfl
@[simp] theorem Block.toTime_upd (t : BitVec 64) : (b.toTime t).upd = b.upd := rfl
@[simp] theorem Block.toTime_pwr (t : BitVec 64) : (b.toTime t).pwr = b.pwr := rfl
@[simp] theorem Block.toTime_low (t : BitVec 64) : (b.toTime t).low = b.low := rfl
@[simp] theorem Block.toTime_tap (t : BitVec 64) : (b.toTime t).tap = b.tap := rfl
@[simp] theorem Block.toTime_tie (t : BitVec 64) : (b.toTime t).tie = b.tie := rfl
@[simp] theorem Block.toTime_pins (t : BitVec 64) : (b.toTime t).pins = b.pins := rfl
@[simp] theorem Block.toTime_fn (t : BitVec 64) : (b.toTime t).fn = b.fn := rfl
@[simp] theorem Block.toTime_resp (t : BitVec 64) : (b.toTime t).resp = b.resp := rfl
@[simp] theorem Block.toTime_out (t : BitVec 64) : (b.toTime t).out = b.out := rfl

@[simp] theorem Block.canon_clk : (b.canon).clk = b.clk := rfl
@[simp] theorem Block.canon_loHeld : (b.canon).loHeld = b.loHeld := rfl
@[simp] theorem Block.canon_hiLatch : (b.canon).hiLatch = b.hiLatch := rfl
@[simp] theorem Block.canon_stw : (b.canon).stw = b.stw := rfl
@[simp] theorem Block.canon_ras : (b.canon).ras = b.ras := rfl
@[simp] theorem Block.canon_rxa : (b.canon).rxa = b.rxa := rfl
@[simp] theorem Block.canon_txc : (b.canon).txc = b.txc := rfl
@[simp] theorem Block.canon_cnp : (b.canon).cnp = b.cnp := rfl
@[simp] theorem Block.canon_grv : (b.canon).grv = b.grv := rfl
@[simp] theorem Block.canon_hwd : (b.canon).hwd = b.hwd := rfl
@[simp] theorem Block.canon_mas : (b.canon).mas = b.mas := rfl
@[simp] theorem Block.canon_plq : (b.canon).plq = b.plq := rfl
@[simp] theorem Block.canon_shp : (b.canon).shp = b.shp := rfl
@[simp] theorem Block.canon_icu : (b.canon).icu = b.icu := rfl
@[simp] theorem Block.canon_tmr : (b.canon).tmr = b.tmr := rfl
@[simp] theorem Block.canon_pwr : (b.canon).pwr = b.pwr := rfl
@[simp] theorem Block.canon_low : (b.canon).low = b.low := rfl
@[simp] theorem Block.canon_tap : (b.canon).tap = b.tap := rfl
@[simp] theorem Block.canon_tie : (b.canon).tie = b.tie := rfl
@[simp] theorem Block.canon_pins : (b.canon).pins = b.pins := rfl
@[simp] theorem Block.canon_fn : (b.canon).fn = b.fn := rfl
@[simp] theorem Block.canon_resp : (b.canon).resp = b.resp := rfl
@[simp] theorem Block.canon_out : (b.canon).out = b.out := rfl

@[simp] theorem Block.wr_clk (f : Fld) (x n : Nat) : (b.wr f x n).clk = b.clk := rfl
@[simp] theorem Block.wr_loHeld (f : Fld) (x n : Nat) : (b.wr f x n).loHeld = b.loHeld := rfl
@[simp] theorem Block.wr_hiLatch (f : Fld) (x n : Nat) : (b.wr f x n).hiLatch = b.hiLatch := rfl
@[simp] theorem Block.wr_hoop (f : Fld) (x n : Nat) : (b.wr f x n).hoop = b.hoop := rfl
@[simp] theorem Block.wr_stw (f : Fld) (x n : Nat) : (b.wr f x n).stw = b.stw := rfl
@[simp] theorem Block.wr_dram (f : Fld) (x n : Nat) : (b.wr f x n).dram = b.dram := rfl
@[simp] theorem Block.wr_ras (f : Fld) (x n : Nat) : (b.wr f x n).ras = b.ras := rfl
@[simp] theorem Block.wr_wft (f : Fld) (x n : Nat) : (b.wr f x n).wft = b.wft := rfl
@[simp] theorem Block.wr_rxa (f : Fld) (x n : Nat) : (b.wr f x n).rxa = b.rxa := rfl
@[simp] theorem Block.wr_txc (f : Fld) (x n : Nat) : (b.wr f x n).txc = b.txc := rfl
@[simp] theorem Block.wr_cnp (f : Fld) (x n : Nat) : (b.wr f x n).cnp = b.cnp := rfl
@[simp] theorem Block.wr_bdr (f : Fld) (x n : Nat) : (b.wr f x n).bdr = b.bdr := rfl
@[simp] theorem Block.wr_grv (f : Fld) (x n : Nat) : (b.wr f x n).grv = b.grv := rfl
@[simp] theorem Block.wr_hwd (f : Fld) (x n : Nat) : (b.wr f x n).hwd = b.hwd := rfl
@[simp] theorem Block.wr_mas (f : Fld) (x n : Nat) : (b.wr f x n).mas = b.mas := rfl
@[simp] theorem Block.wr_plq (f : Fld) (x n : Nat) : (b.wr f x n).plq = b.plq := rfl
@[simp] theorem Block.wr_shp (f : Fld) (x n : Nat) : (b.wr f x n).shp = b.shp := rfl
@[simp] theorem Block.wr_icu (f : Fld) (x n : Nat) : (b.wr f x n).icu = b.icu := rfl
@[simp] theorem Block.wr_tmr (f : Fld) (x n : Nat) : (b.wr f x n).tmr = b.tmr := rfl
@[simp] theorem Block.wr_upd (f : Fld) (x n : Nat) : (b.wr f x n).upd = b.upd := rfl
@[simp] theorem Block.wr_pwr (f : Fld) (x n : Nat) : (b.wr f x n).pwr = b.pwr := rfl
@[simp] theorem Block.wr_low (f : Fld) (x n : Nat) : (b.wr f x n).low = b.low := rfl
@[simp] theorem Block.wr_tap (f : Fld) (x n : Nat) : (b.wr f x n).tap = b.tap := rfl
@[simp] theorem Block.wr_tie (f : Fld) (x n : Nat) : (b.wr f x n).tie = b.tie := rfl
@[simp] theorem Block.wr_pins (f : Fld) (x n : Nat) : (b.wr f x n).pins = b.pins := rfl
@[simp] theorem Block.wr_fn (f : Fld) (x n : Nat) : (b.wr f x n).fn = b.fn := rfl
@[simp] theorem Block.wr_resp (f : Fld) (x n : Nat) : (b.wr f x n).resp = b.resp := rfl
@[simp] theorem Block.wr_out (f : Fld) (x n : Nat) : (b.wr f x n).out = b.out := rfl

@[simp] theorem Block.start_resp : b.start.resp = .none := rfl
@[simp] theorem Block.start_out : b.start.out = [] := rfl
@[simp] theorem Block.answer_resp (r : Resp) : (b.answer r).resp = r := rfl
@[simp] theorem Block.emit_out (o : Output) : (b.emit o).out = b.out ++ [o] := rfl
@[simp] theorem Block.when_true (f : Block → Block) : b.when true f = f b := rfl
@[simp] theorem Block.when_false (f : Block → Block) : b.when false f = b := rfl

/-! What the canonical form leaves as it is within the parts that hold memories. -/

@[simp] theorem Block.canon_hoop_sync : b.canon.hoop.sync = b.hoop.sync := rfl
@[simp] theorem Block.canon_hoop_red : b.canon.hoop.red = b.hoop.red := rfl
@[simp] theorem Block.canon_hoop_lockLog : b.canon.hoop.lockLog = b.hoop.lockLog := rfl
@[simp] theorem Block.canon_wft_strands : b.canon.wft.strands = b.wft.strands := rfl
@[simp] theorem Block.canon_wft_engines : b.canon.wft.engines = b.wft.engines := rfl
@[simp] theorem Block.canon_wft_ird : b.canon.wft.ird = b.wft.ird := rfl
@[simp] theorem Block.canon_wft_iwr : b.canon.wft.iwr = b.wft.iwr := rfl
@[simp] theorem Block.canon_upd_seed : b.canon.upd.seed = b.upd.seed := rfl
@[simp] theorem Block.canon_upd_fuses : b.canon.upd.fuses = b.upd.fuses := rfl

end Sys2Proof.Machine
end

