-- ==== Sys2Proof/Laws/Tbl.lean ====
section
/-! SUPPORT. What reading and writing a sparse table gives, and that a table stays in its canonical form. -/

namespace Sys2Proof.Machine

variable {α : Type}

theorem Tbl.get_nil (d : Nat → α) (k : Nat) : Tbl.get d [] k = d k := rfl

/-- In a table whose keys lie above `lo`, a key up to `lo` is not listed. -/
theorem Tbl.get_below [DecidableEq α] (d : Nat → α) : ∀ (t : Tbl α) (lo k : Nat), Tbl.wfFrom d (some lo) t = true → k ≤ lo → Tbl.get d t k = d k
  | [], _, _, _, _ => rfl
  | (j, v) :: t, lo, k, h, hk => by
    simp only [Tbl.wfFrom, Bool.and_eq_true, keyAbove, decide_eq_true_eq] at h
    have h1 := h.1.1
    simp only [Tbl.get]
    rw [if_neg (by omega), if_pos (by omega)]

theorem Tbl.get_insert_same (d : Nat → α) (v : α) : ∀ (t : Tbl α) (k : Nat), Tbl.get d (Tbl.insert t k v) k = v
  | [], k => by simp [Tbl.insert, Tbl.get]
  | (j, w) :: t, k => by
    simp only [Tbl.insert]
    split
    · simp [Tbl.get]
    · split
      · simp [Tbl.get]
      · rename_i h1 h2
        simp only [Tbl.get]
        rw [if_neg h1, if_neg h2]
        exact Tbl.get_insert_same d v t k

theorem Tbl.get_insert_other (d : Nat → α) (v : α) : ∀ (t : Tbl α) (k i : Nat), i ≠ k → Tbl.get d (Tbl.insert t k v) i = Tbl.get d t i
  | [], k, i, h => by
    have hn : ¬ k = i := fun e => h e.symm
    simp only [Tbl.insert, Tbl.get, if_neg hn]
    split <;> rfl
  | (j, w) :: t, k, i, h => by
    by_cases e : j = k
    · subst e
      have hn : ¬ j = i := fun e => h e.symm
      simp only [Tbl.insert, Tbl.get, if_neg hn, if_true]
    · by_cases hk : k < j
      · have hn : ¬ k = i := fun e => h e.symm
        rw [Tbl.insert, if_neg e, if_pos hk, Tbl.get, if_neg hn]
        by_cases hi : i < k
        · rw [if_pos hi, Tbl.get, if_neg (by omega), if_pos (by omega)]
        · rw [if_neg hi]
      · rw [Tbl.insert, if_neg e, if_neg hk, Tbl.get, Tbl.get, Tbl.get_insert_other d v t k i h]

theorem Tbl.canonFrom_wf [DecidableEq α] (d : Nat → α) : ∀ (t : Tbl α) (lo : Option Nat), Tbl.wfFrom d lo (Tbl.canonFrom d lo t) = true
  | [], _ => by simp [Tbl.canonFrom, Tbl.wfFrom]
  | (j, v) :: t, lo => by
    by_cases hl : keyAbove lo j = true
    · by_cases hv : v = d j
      · rw [Tbl.canonFrom, if_pos hl, if_pos hv]
        have h := Tbl.canonFrom_wf d t (some j)
        revert h
        cases Tbl.canonFrom d (some j) t with
        | nil => intro; rfl
        | cons x t' =>
          intro h
          simp only [Tbl.wfFrom, Bool.and_eq_true] at h ⊢
          refine ⟨⟨?_, h.1.2⟩, h.2⟩
          have h1 := h.1.1
          cases lo with
          | none => rfl
          | some l =>
            simp only [keyAbove, decide_eq_true_eq] at hl h1 ⊢
            exact Nat.lt_trans hl h1
      · rw [Tbl.canonFrom, if_pos hl, if_neg hv]
        simp only [Tbl.wfFrom, Bool.and_eq_true, decide_eq_true_eq]
        exact ⟨⟨hl, hv⟩, Tbl.canonFrom_wf d t (some j)⟩
    · rw [Tbl.canonFrom, if_neg hl]
      exact Tbl.canonFrom_wf d t lo

/-- The canonical form is canonical, whatever the list. -/
@[simp] theorem Tbl.canon_wf [DecidableEq α] (d : Nat → α) (t : Tbl α) : Tbl.wf d (Tbl.canon d t) = true := Tbl.canonFrom_wf d t none

theorem Tbl.get_canonFrom [DecidableEq α] (d : Nat → α) : ∀ (t : Tbl α) (lo : Option Nat) (k : Nat), keyAbove lo k = true →
    Tbl.get d (Tbl.canonFrom d lo t) k = Tbl.get d t k
  | [], _, _, _ => rfl
  | (j, v) :: t, lo, k, hk => by
    by_cases hj : keyAbove lo j = true
    · by_cases hjk : j < k
      · have h := Tbl.get_canonFrom d t (some j) k (by simpa [keyAbove] using hjk)
        by_cases hv : v = d j
        · rw [Tbl.canonFrom, if_pos hj, if_pos hv, h, Tbl.get, if_neg (by omega), if_neg (by omega)]
        · rw [Tbl.canonFrom, if_pos hj, if_neg hv, Tbl.get, Tbl.get, h]
      · have h : Tbl.get d (Tbl.canonFrom d (some j) t) k = d k := Tbl.get_below d _ j k (Tbl.canonFrom_wf d t (some j)) (by omega)
        by_cases hv : v = d j
        · rw [Tbl.canonFrom, if_pos hj, if_pos hv, h, Tbl.get]
          by_cases e : j = k
          · rw [if_pos e, hv, e]
          · rw [if_neg e, if_pos (by omega)]
        · rw [Tbl.canonFrom, if_pos hj, if_neg hv, Tbl.get, Tbl.get]
          by_cases e : j = k
          · rw [if_pos e, if_pos e]
          · rw [if_neg e, if_neg e, if_pos (by omega), if_pos (by omega)]
    · rw [Tbl.canonFrom, if_neg hj, Tbl.get_canonFrom d t lo k hk]
      cases lo with
      | none => exact absurd rfl hj
      | some l =>
        simp only [keyAbove, decide_eq_true_eq] at hj hk
        rw [Tbl.get, if_neg (by omega), if_neg (by omega)]

/-- The canonical form holds what the table holds. -/
@[simp] theorem Tbl.get_canon [DecidableEq α] (d : Nat → α) (t : Tbl α) (k : Nat) : Tbl.get d (Tbl.canon d t) k = Tbl.get d t k :=
  Tbl.get_canonFrom d t none k rfl

theorem Tbl.canonFrom_of_wf [DecidableEq α] (d : Nat → α) : ∀ (t : Tbl α) (lo : Option Nat), Tbl.wfFrom d lo t = true → Tbl.canonFrom d lo t = t
  | [], _, _ => rfl
  | (j, v) :: t, lo, h => by
    simp only [Tbl.wfFrom, Bool.and_eq_true, decide_eq_true_eq] at h
    rw [Tbl.canonFrom, if_pos h.1.1, if_neg h.1.2, Tbl.canonFrom_of_wf d t (some j) h.2]

/-- A table in its canonical form is left as it is. -/
theorem Tbl.canon_of_wf [DecidableEq α] (d : Nat → α) (t : Tbl α) (h : Tbl.wf d t = true) : Tbl.canon d t = t := Tbl.canonFrom_of_wf d t none h

/-- A read after a write to the same key gives the value written. -/
theorem Tbl.get_put_same [DecidableEq α] (d : Nat → α) (t : Tbl α) (k : Nat) (v : α) : Tbl.get d (Tbl.put d t k v) k = v := by
  unfold Tbl.put
  split
  · rw [Tbl.get_canon, Tbl.get_insert_same]
  · exact Tbl.get_insert_same d v t k

/-- A write leaves what every other key holds. -/
theorem Tbl.get_put_other [DecidableEq α] (d : Nat → α) (t : Tbl α) (k i : Nat) (v : α) (hi : i ≠ k) :
    Tbl.get d (Tbl.put d t k v) i = Tbl.get d t i := by
  unfold Tbl.put
  split
  · rw [Tbl.get_canon, Tbl.get_insert_other d v t k i hi]
  · exact Tbl.get_insert_other d v t k i hi

theorem Tbl.insert_wfFrom [DecidableEq α] (d : Nat → α) (v : α) : ∀ (t : Tbl α) (lo : Option Nat) (k : Nat), Tbl.wfFrom d lo t = true →
    v ≠ d k → keyAbove lo k = true → Tbl.wfFrom d lo (Tbl.insert t k v) = true
  | [], lo, k, _, hv, hl => by
    simp only [Tbl.insert, Tbl.wfFrom, Bool.and_eq_true, decide_eq_true_eq, and_true]
    exact ⟨hl, hv⟩
  | (j, w) :: t, lo, k, h, hv, hl => by
    simp only [Tbl.wfFrom, Bool.and_eq_true, decide_eq_true_eq] at h
    by_cases e : j = k
    · subst e
      rw [Tbl.insert, if_pos rfl]
      simp only [Tbl.wfFrom, Bool.and_eq_true, decide_eq_true_eq]
      exact ⟨⟨h.1.1, hv⟩, h.2⟩
    · by_cases hk : k < j
      · rw [Tbl.insert, if_neg e, if_pos hk]
        simp only [Tbl.wfFrom, Bool.and_eq_true, decide_eq_true_eq]
        exact ⟨⟨hl, hv⟩, ⟨by simpa [keyAbove] using hk, h.1.2⟩, h.2⟩
      · rw [Tbl.insert, if_neg e, if_neg hk]
        simp only [Tbl.wfFrom, Bool.and_eq_true, decide_eq_true_eq]
        exact ⟨h.1, Tbl.insert_wfFrom d v t (some j) k h.2 hv (by simp only [keyAbove, decide_eq_true_eq]; omega)⟩

/-- A write keeps the canonical form. -/
theorem Tbl.put_wf [DecidableEq α] (d : Nat → α) (t : Tbl α) (k : Nat) (v : α) (h : Tbl.wf d t = true) : Tbl.wf d (Tbl.put d t k v) = true := by
  unfold Tbl.put
  split
  · exact Tbl.canon_wf d _
  · rename_i hv
    exact Tbl.insert_wfFrom d v t none k h hv rfl

end Sys2Proof.Machine
end

