-- ==== Sys2Proof/Laws/Ops.lean ====
section
/-! SUPPORT. What the shared operations do: fields of registers, registers, DRAM, the clocks, and a command's outcome. -/

namespace Sys2Proof.Machine

/-! ### Fields of a register value -/

/-- Bit by bit, a field put into a value. -/
theorem fput_getLsbD (v : BitVec 32) (f : Fld) (x j : Nat) :
    (fput v f x).getLsbD j = (decide (j < 32) && if f.lo ≤ j ∧ j < f.lo + f.width then x.testBit (j - f.lo) else v.getLsbD j) := by
  unfold fput
  by_cases hj : j < 32
  · simp only [BitVec.getLsbD_or, BitVec.getLsbD_and, BitVec.getLsbD_not, BitVec.getLsbD_ofNat, hj, decide_true, Bool.true_and,
      Nat.testBit_shiftLeft, Nat.testBit_two_pow_sub_one]
    by_cases h1 : f.lo ≤ j
    · by_cases h2 : j < f.lo + f.width
      · have h3 : j - f.lo < f.width := by omega
        simp [h1, h2, h3]
      · have h3 : ¬ j - f.lo < f.width := by omega
        simp [h2, h3]
    · simp [h1]
  · simp only [hj, decide_false, Bool.false_and]
    exact BitVec.getLsbD_of_ge _ _ (by omega)

/-- Bit by bit, a field of a value. -/
theorem fget_testBit (v : BitVec 32) (f : Fld) (i : Nat) : (fget v f).testBit i = (decide (i < f.width) && v.getLsbD (f.lo + i)) := by
  unfold fget
  rw [Nat.testBit_mod_two_pow, Nat.testBit_shiftRight]
  rfl

/-- A field reads as it was put, to its width. -/
theorem fget_fput_same (v : BitVec 32) (f : Fld) (x : Nat) (h : f.hi < 32) : fget (fput v f x) f = x % 2 ^ f.width := by
  apply Nat.eq_of_testBit_eq
  intro i
  rw [fget_testBit, fput_getLsbD, Nat.testBit_mod_two_pow]
  by_cases hi : i < f.width
  · have : f.lo + i < 32 := by unfold Fld.width at hi; omega
    simp [hi, this]
  · simp [hi]

/-- A field put leaves the fields apart from it. -/
theorem fget_fput_apart (v : BitVec 32) (f g : Fld) (x : Nat) (h : f.hi < g.lo ∨ g.hi < f.lo) : fget (fput v f x) g = fget v g := by
  apply Nat.eq_of_testBit_eq
  intro i
  rw [fget_testBit, fput_getLsbD, fget_testBit]
  by_cases hi : i < g.width
  · by_cases hj : g.lo + i < 32
    · have : ¬ (f.lo ≤ g.lo + i ∧ g.lo + i < f.lo + f.width) := by unfold Fld.width at *; omega
      simp [hi, hj, this]
    · have : v.getLsbD (g.lo + i) = false := BitVec.getLsbD_of_ge _ _ (by omega)
      simp [hj, this]
  · simp [hi]

/-- A field is below 2 to its width. -/
theorem fget_lt (v : BitVec 32) (f : Fld) : fget v f < 2 ^ f.width := Nat.mod_lt _ (Nat.two_pow_pos _)

/-! ### Registers -/

variable (b : Block)

/-- A register reads as it was stored. -/
@[simp] theorem Block.reg_setReg_same (o : Nat) (v : BitVec 32) : (b.setReg o v).reg o = v := Tbl.get_put_same _ _ _ _

/-- A store to one register leaves every other one. -/
theorem Block.reg_setReg_other (o p : Nat) (v : BitVec 32) (h : p ≠ o) : (b.setReg o v).reg p = b.reg p := Tbl.get_put_other _ _ _ _ _ h

theorem Block.reg_setReg (o p : Nat) (v : BitVec 32) : (b.setReg o v).reg p = if p = o then v else b.reg p := by
  split
  · rename_i h
    rw [h, Block.reg_setReg_same]
  · rename_i h
    exact b.reg_setReg_other o p v h

/-- What a register holds depends on the registers alone. -/
theorem Block.reg_congr {b c : Block} (h : b.regs = c.regs) (o : Nat) : b.reg o = c.reg o := by unfold Block.reg; rw [h]

theorem Block.rd_congr {b c : Block} (h : b.regs = c.regs) (f : Fld) (n : Nat) : b.rd f n = c.rd f n := by unfold Block.rd Block.reg; rw [h]

/-- A field reads as the hardware wrote it. -/
theorem Block.rd_wr_same (f : Fld) (x n : Nat) (h : f.hi < 32) : (b.wr f x n).rd f n = x % 2 ^ f.width := by
  unfold Block.rd Block.wr
  rw [Block.reg_setReg_same, fget_fput_same _ _ _ h]

/-- A write of a field leaves the fields of every other register. -/
theorem Block.rd_wr_other (f g : Fld) (x n m : Nat) (h : g.off m ≠ f.off n) : (b.wr f x n).rd g m = b.rd g m := by
  unfold Block.rd Block.wr
  rw [Block.reg_setReg_other _ _ _ _ h]

/-- A write of a field leaves the other fields of its register. -/
theorem Block.rd_wr_apart (f g : Fld) (x n m : Nat) (ho : g.off m = f.off n) (h : f.hi < g.lo ∨ g.hi < f.lo) :
    (b.wr f x n).rd g m = b.rd g m := by
  unfold Block.rd Block.wr
  rw [ho, Block.reg_setReg_same, fget_fput_apart _ _ _ _ h]

/-- A flag is set after the hardware sets it. -/
theorem Block.bit_set_same (f : Fld) (n : Nat) (h : f.hi < 32) (hl : f.lo ≤ f.hi) : (b.set f n).bit f n = true := by
  have hw : 1 % 2 ^ f.width = 1 := Nat.mod_eq_of_lt (Nat.one_lt_two_pow (by unfold Fld.width; omega))
  unfold Block.bit Block.set
  rw [Block.rd_wr_same _ _ _ _ h, hw]
  rfl

/-- Any other flag is as it was. -/
theorem Block.bit_wr_other (f g : Fld) (x n m : Nat) (h : g.off m ≠ f.off n ∨ (g.off m = f.off n ∧ (f.hi < g.lo ∨ g.hi < f.lo))) :
    (b.wr f x n).bit g m = b.bit g m := by
  unfold Block.bit
  cases h with
  | inl h => rw [Block.rd_wr_other _ _ _ _ _ _ h]
  | inr h => rw [Block.rd_wr_apart _ _ _ _ _ _ h.1 h.2]

/-! ### The canonical form -/

@[simp] theorem Block.canon_reg (o : Nat) : b.canon.reg o = b.reg o := Tbl.get_canon _ _ _
@[simp] theorem Block.canon_rd (f : Fld) (n : Nat) : b.canon.rd f n = b.rd f n := by unfold Block.rd; rw [Block.canon_reg]
@[simp] theorem Block.canon_bit (f : Fld) (n : Nat) : b.canon.bit f n = b.bit f n := by unfold Block.bit; rw [Block.canon_rd]
@[simp] theorem Block.canon_dramByte (a : Nat) : b.canon.dramByte a = b.dramByte a := Tbl.get_canon _ _ _
@[simp] theorem Block.canon_wordPoisoned (w : Nat) : b.canon.wordPoisoned w = b.wordPoisoned w := Tbl.get_canon _ _ _

@[simp] theorem Block.start_reg (o : Nat) : b.start.reg o = b.reg o := rfl
@[simp] theorem Block.start_rd (f : Fld) (n : Nat) : b.start.rd f n = b.rd f n := rfl
@[simp] theorem Block.start_bit (f : Fld) (n : Nat) : b.start.bit f n = b.bit f n := rfl
@[simp] theorem Block.start_dramByte (a : Nat) : b.start.dramByte a = b.dramByte a := rfl

/-! ### A command's outcome -/

/-- A command that runs answers a next state: the block after its effect, in its canonical form, and the same queue. -/
theorem runCmd_next (s : State) (f : Block → Block) : runCmd s f = .next { s with blk := (f s.blk.start).canon } := rfl

/-- A command that runs leaves the queue of waiting commands. -/
theorem runCmd_pending {s t : State} {f : Block → Block} (h : runCmd s f = .next t) : t.pending = s.pending := by
  cases h
  rfl

end Sys2Proof.Machine
end

