-- ==== Sys2Proof/Laws/Icu.lean ====
section
/-! SUPPORT. What a decision of presentation (R497, R501, R504), an edge of TCK (R564) and an idle beat can change. -/

namespace Sys2Proof.Machine

/-- `c` is `b` but for the interrupt controller, its events, the PCIe function and what is driven out. -/
def Block.IcuOnly (b c : Block) : Prop :=
  (∃ icu regs tie fn out, c = { b with icu := icu, regs := regs, tie := tie, fn := fn, out := out }) ∧ ∀ o, o ≠ ICU_EVT.all.base → c.reg o = b.reg o

theorem Block.IcuOnly.refl (b : Block) : b.IcuOnly b := ⟨⟨b.icu, b.regs, b.tie, b.fn, b.out, rfl⟩, fun _ _ => rfl⟩

theorem Block.IcuOnly.trans {a b c : Block} (h : a.IcuOnly b) (g : b.IcuOnly c) : a.IcuOnly c := by
  obtain ⟨⟨i, r, t, f, o, rfl⟩, hr⟩ := h
  obtain ⟨⟨i', r', t', f', o', rfl⟩, gr⟩ := g
  exact ⟨⟨i', r', t', f', o', rfl⟩, fun x hx => (gr x hx).trans (hr x hx)⟩

/-- A fold of steps that each change no more changes no more. -/
theorem Block.IcuOnly.foldl {α : Type} (f : Block → α → Block) (h : ∀ (b : Block) (x : α), b.IcuOnly (f b x)) : ∀ (l : List α) (b : Block), b.IcuOnly (l.foldl f b)
  | [], b => .refl b
  | x :: l, b => (h b x).trans (foldl f h l (f b x))

theorem Block.msix_icuOnly (b : Block) (n : Nat) : b.IcuOnly (b.msix n) := by
  unfold Block.msix
  split
  · exact .refl b
  · split
    · exact ⟨⟨b.icu, b.regs, b.tie, _, b.out, rfl⟩, fun _ _ => rfl⟩
    · exact ⟨⟨b.icu, b.regs, b.tie, b.fn, _, rfl⟩, fun _ _ => rfl⟩

theorem Block.raiseWake_icuOnly (b : Block) (k : Nat) : b.IcuOnly (b.raiseWake k) := by
  unfold Block.raiseWake
  split
  · exact .refl b
  · exact ⟨⟨_, b.regs, b.tie, b.fn, _, rfl⟩, fun _ _ => rfl⟩

theorem Block.blocked_icuOnly (b : Block) : b.IcuOnly (b.set ICU_EVT.RESCUE_BLOCKED) :=
  ⟨⟨b.icu, _, _, b.fn, b.out, rfl⟩, fun o ho => Block.reg_setReg_other _ _ o _ ho⟩

theorem Block.wakeFor_icuOnly (b : Block) (n : Nat) : b.IcuOnly (b.wakeFor n) := by
  unfold Block.wakeFor
  dsimp only
  repeat' split
  all_goals first | exact .refl b | exact b.raiseWake_icuOnly _ | exact b.blocked_icuOnly

/-- The source presented to the host is kept, and a new one sends its vector. -/
theorem Block.hostShown_icuOnly (c : Block) (p : Option Nat) : c.IcuOnly (if p = c.icu.lastHost then c else
    let c := { c with icu := { c.icu with lastHost := p } }
    match p with
    | some s => c.msix s
    | none => c) := by
  have h : c.IcuOnly { c with icu := { c.icu with lastHost := p } } := ⟨⟨_, c.regs, c.tie, c.fn, c.out, rfl⟩, fun _ _ => rfl⟩
  split
  · exact .refl c
  · cases p with
    | some s => exact h.trans (Block.msix_icuOnly _ s)
    | none => exact h

/-- Presentation decided again changes the interrupt controller, its events and the host's vectors alone. -/
theorem Block.icuEval_icuOnly (b : Block) : b.IcuOnly b.icuEval := by
  have h0 : b.IcuOnly { b with icu := { b.icu with wakes := b.icu.wakes.filter (fun e => b.asleep e.1) } } :=
    ⟨⟨_, b.regs, b.tie, b.fn, b.out, rfl⟩, fun _ _ => rfl⟩
  exact (h0.trans (.foldl Block.wakeFor Block.wakeFor_icuOnly (List.range 256) _)).trans (Block.hostShown_icuOnly _ _)

/-- An edge of TCK changes the port alone, and may take a free value. -/
theorem Block.tapClock_only (b : Block) : ∃ t n, b.tapClock = { b with tap := t, clk := { b.clk with free := n } } := by
  unfold Block.tapClock
  split
  · unfold Block.tapEdge
    dsimp only
    split
    · exact ⟨_, b.clk.free, rfl⟩
    · exact ⟨_, b.clk.free + 1, rfl⟩
  · exact ⟨b.tap, b.clk.free, rfl⟩

/-- With no edge waiting the port stays. -/
theorem Block.tapClock_nil (b : Block) (h : b.tap.edges = []) : b.tapClock = b := by
  unfold Block.tapClock
  rw [h]

end Sys2Proof.Machine
end

