-- ==== Sys2Proof/Laws/Mailbox.lean ====
section
/-! SUPPORT. What a mailbox command can do (R41, R43): nothing, BAD_LENGTH, the first failure of its list, or its effect. -/

namespace Sys2Proof.Machine

variable (b : Block) (op : Nat) (len : Nat → Bool) (f : Block → Block)

theorem Block.mbxServe_idle (h : b.mbxServes op = false) : b.mbxServe op len f = b := by simp [Block.mbxServe, h]

theorem Block.mbxServe_badLength (h : b.mbxServes op = true) (hl : 64 < b.rd SYS_MBX_CMD.ARG_LEN ∨ len (b.rd SYS_MBX_CMD.ARG_LEN) = false) :
    b.mbxServe op len f = b.mbxHold mbxBAD_LENGTH [] := by
  have hn : ¬ (b.rd SYS_MBX_CMD.ARG_LEN ≤ 64 ∧ len (b.rd SYS_MBX_CMD.ARG_LEN) = true) := by
    rintro ⟨h1, h2⟩
    rcases hl with hl | hl
    · omega
    · rw [h2] at hl
      cases hl
  rw [Block.mbxServe, if_pos h, if_neg hn]

theorem Block.mbxServe_takes (h : b.mbxServes op = true) (hl : b.rd SYS_MBX_CMD.ARG_LEN ≤ 64) (hf : len (b.rd SYS_MBX_CMD.ARG_LEN) = true) :
    b.mbxServe op len f = f b := by
  rw [Block.mbxServe, if_pos h, if_pos ⟨hl, hf⟩]

/-- A result held leaves every register and every memory. -/
@[simp] theorem Block.mbxHold_reg (st : Nat) (res : List (BitVec 32)) (o : Nat) : (b.mbxHold st res).reg o = b.reg o := rfl
@[simp] theorem Block.mbxHold_dram (st : Nat) (res : List (BitVec 32)) : (b.mbxHold st res).dram = b.dram := rfl
@[simp] theorem Block.mbxHold_held (st : Nat) (res : List (BitVec 32)) : (b.mbxHold st res).stw.held = some (st, res) := rfl

end Sys2Proof.Machine
end

