-- ==== Sys2Proof/Laws/Memory.lean ====
section
/-! SUPPORT. The memories: every operation on DRAM and on the boot flash keeps the canonical form; what is read after a write; and the form at the
end of every command and in the state after reset. -/

namespace Sys2Proof.Machine

/-! ### Lines of bytes -/

theorem dramPut_wf : ∀ (d : List Byte) (t : Tbl Byte) (a : Nat), Tbl.wf dramDefault t = true → Tbl.wf dramDefault (dramPut t a d) = true
  | [], _, _, h => h
  | x :: l, t, a, h => dramPut_wf l _ (a + 1) (Tbl.put_wf dramDefault t a x h)

/-- Bytes outside those put are as they were. -/
theorem get_dramPut_outside : ∀ (d : List Byte) (t : Tbl Byte) (a x : Nat), x < a ∨ a + d.length ≤ x →
    Tbl.get dramDefault (dramPut t a d) x = Tbl.get dramDefault t x
  | [], _, _, _, _ => rfl
  | y :: l, t, a, x, h => by
    simp only [List.length_cons] at h
    rw [dramPut, get_dramPut_outside l _ (a + 1) x (by omega), Tbl.get_put_other _ _ _ _ _ (by omega)]

/-- A byte put is read. -/
theorem get_dramPut_inside : ∀ (d : List Byte) (t : Tbl Byte) (a i : Nat), i < d.length → Tbl.get dramDefault (dramPut t a d) (a + i) = d.getD i 0
  | y :: l, t, a, 0, _ => by
    rw [dramPut, get_dramPut_outside l _ (a + 1) (a + 0) (by omega)]
    exact Tbl.get_put_same dramDefault t a y
  | y :: l, t, a, i + 1, h => by
    rw [dramPut, show a + (i + 1) = a + 1 + i by omega, get_dramPut_inside l _ (a + 1) i (by simpa using h)]
    rfl

/-! ### DRAM -/

/-- DRAM, its poison and the errors in its array are in their canonical form. -/
def Dram.wf (m : Dram) : Bool := Tbl.wf dramDefault m.bytes && Tbl.wf (fun _ => false) m.poison && Tbl.wf (fun _ => []) m.err

theorem Dram.wf_iff (m : Dram) :
    m.wf = true ↔ Tbl.wf dramDefault m.bytes = true ∧ Tbl.wf (fun _ => false) m.poison = true ∧ Tbl.wf (fun _ => []) m.err = true := by
  simp [Dram.wf, and_assoc]

theorem Block.logEvent_dram (b : Block) (kind : Nat) : (b.logEvent kind).dram = b.dram := by
  unfold Block.logEvent
  split
  · rfl
  · split <;> rfl

theorem Block.logPuts_dram : ∀ (l : List (Nat × LogEntry)) (b : Block) (w : Nat), (l.foldl (fun (b : Block) x => b.logPut (w + x.1) x.2) b).dram = b.dram
  | [], _, _ => rfl
  | _ :: l, _, w => Block.logPuts_dram l _ w

theorem Block.log_dram (b : Block) (kind unit : Nat) (info : BitVec 32) (addr : Nat) (x y : BitVec 32) : (b.log kind unit info addr x y).dram = b.dram := by
  unfold Block.log
  dsimp only
  split
  · split
    · rfl
    · exact Block.logEvent_dram _ _
  · rw [Block.logEvent_dram, Block.logInsert]
    split
    · exact Block.logPuts_dram _ b _
    · exact Block.logPuts_dram _ b _

theorem Block.logUE_dram (b : Block) (unit addr info flag : Nat) : (b.logUE unit addr info flag).dram = b.dram := by
  exact Block.log_dram ..

theorem Block.ceReport_dram (b : Block) (unit addr info : Nat) : (b.ceReport unit addr info).dram = b.dram := by
  unfold Block.ceReport
  dsimp only [Block.when]
  split <;> split <;> first | rfl | exact Block.log_dram ..

/-- What the decoder's read of a word can do to DRAM: nothing, or what `store` does. -/
theorem Block.readWord_dram (b : Block) (unit addr lane flags : Nat) (d : List Byte) (pois : Bool) (e : List Nat)
    (store : Block → List Byte → Bool → List Nat → Block) :
    (b.readWord unit addr lane flags d pois e store).dram = b.dram
      ∨ ∃ c x p f, c.dram = b.dram ∧ (b.readWord unit addr lane flags d pois e store).dram = (store c x p f).dram := by
  unfold Block.readWord
  split
  · exact .inl rfl
  · dsimp only
    split
    · exact .inr ⟨_, _, _, _, rfl, rfl⟩
    · exact .inr ⟨_, _, _, _, Block.ceReport_dram .., rfl⟩
    · exact .inr ⟨b.inc RAS_UE_CNT.all, _, _, _, rfl, rfl⟩
    · exact .inr ⟨b.inc RAS_UE_CNT.all, _, _, _, rfl, Block.logUE_dram ..⟩

/-- A read of a word of DRAM keeps the canonical form. -/
theorem Block.dramFind_wf (b : Block) (w flags : Nat) (extra : List Nat) (h : b.dram.wf = true) : (b.dramFind w flags extra).dram.wf = true := by
  unfold Block.dramFind
  rcases Block.readWord_dram b (b.dramChannel (8 * w)) (8 * w) (2 * b.dramChannel (8 * w) + 8 * w / 64 % 2) flags (b.dramBytes (8 * w) 8)
      (b.wordPoisoned w) (errAdd (b.dramErr w) extra) (fun b d p e =>
        let b := { b with dram := { bytes := dramPut b.dram.bytes (8 * w) d, poison := Tbl.put (fun _ => false) b.dram.poison w p,
                                    err := Tbl.put (fun _ => []) b.dram.err w e } }
        if e.isEmpty then b else b.dramFix (8 * w) d (flags == 1)) with h1 | ⟨c, x, p, f, hc, h1⟩
  · rw [h1]; exact h
  · rw [h1]
    rw [← hc] at h
    rw [Dram.wf_iff] at h
    have key : (Dram.mk (dramPut c.dram.bytes (8 * w) x) (Tbl.put (fun _ => false) c.dram.poison w p) (Tbl.put (fun _ => []) c.dram.err w f)).wf = true :=
      (Dram.wf_iff _).2 ⟨dramPut_wf _ _ _ h.1, Tbl.put_wf (fun _ => false) _ _ _ h.2.1, Tbl.put_wf (fun _ => []) _ _ _ h.2.2⟩
    dsimp only
    split
    · exact key
    · exact key

theorem Block.dramWriteWord_wf (b : Block) (a : Nat) (d : List Byte) (h : b.dram.wf = true) : (b.dramWriteWord a d).dram.wf = true := by
  unfold Block.dramWriteWord
  dsimp only
  split
  · rw [Dram.wf_iff] at h ⊢
    exact ⟨dramPut_wf _ _ _ h.1, Tbl.put_wf (fun _ => false) b.dram.poison (a / 8) false h.2.1, Tbl.put_wf (fun _ => []) b.dram.err (a / 8) [] h.2.2⟩
  · have h1 : (if (b.dramErr (a / 8)).isEmpty then b else b.dramFind (a / 8) 0 []).dram.wf = true := by
      split
      · exact h
      · exact Block.dramFind_wf _ _ _ _ h
    revert h1
    generalize (if (b.dramErr (a / 8)).isEmpty then b else b.dramFind (a / 8) 0 []) = c
    intro h1
    split
    · rw [Block.logUE_dram]; exact h1
    · rw [Dram.wf_iff] at h1 ⊢
      exact ⟨dramPut_wf _ _ _ h1.1, h1.2.1, Tbl.put_wf (fun _ => []) c.dram.err (a / 8) [] h1.2.2⟩

theorem Block.dramWriteAux_wf : ∀ (fuel : Nat) (b : Block) (a : Nat) (d : List Byte), b.dram.wf = true → (b.dramWriteAux a d fuel).dram.wf = true
  | 0, _, _, _, h => h
  | fuel + 1, b, a, d, h => by
    unfold Block.dramWriteAux
    split
    · exact h
    · exact Block.dramWriteAux_wf fuel _ _ _ (Block.dramWriteWord_wf b a _ h)

/-- A write of DRAM keeps the canonical form. -/
theorem Block.dramWrite_wf (b : Block) (a : Nat) (d : List Byte) (h : b.dram.wf = true) : (b.dramWrite a d).dram.wf = true :=
  Block.dramWriteAux_wf _ _ _ _ h

/-- What a write of one word without an error in the array can do to DRAM. -/
theorem Block.dramWriteWord_dram (b : Block) (a : Nat) (d : List Byte) (h : b.dramErr (a / 8) = []) :
    (b.dramWriteWord a d).dram = b.dram ∨ ∃ p, (b.dramWriteWord a d).dram
      = { bytes := dramPut b.dram.bytes a d, poison := p, err := Tbl.put (fun _ => []) b.dram.err (a / 8) [] } := by
  unfold Block.dramWriteWord
  dsimp only
  split
  · exact .inr ⟨_, rfl⟩
  · rw [h]
    simp only [List.isEmpty_nil, if_true]
    split
    · exact .inl (Block.logUE_dram ..)
    · exact .inr ⟨_, rfl⟩

theorem Block.dramWriteWord_err (b : Block) (a w : Nat) (d : List Byte) (h : b.dramErr (a / 8) = []) :
    (b.dramWriteWord a d).dramErr w = b.dramErr w := by
  unfold Block.dramErr at h ⊢
  rcases Block.dramWriteWord_dram b a d h with h1 | ⟨p, h1⟩
  · rw [h1]
  · rw [h1]
    by_cases hw : w = a / 8
    · rw [hw, h]; exact Tbl.get_put_same (fun _ => ([] : List Nat)) b.dram.err (a / 8) []
    · exact Tbl.get_put_other (fun _ => ([] : List Nat)) b.dram.err (a / 8) w [] hw

theorem Block.dramWriteWord_outside (b : Block) (a : Nat) (d : List Byte) (x : Nat) (h0 : b.dramErr (a / 8) = []) (h : x < a ∨ a + d.length ≤ x) :
    (b.dramWriteWord a d).dramByte x = b.dramByte x := by
  unfold Block.dramByte
  rcases Block.dramWriteWord_dram b a d h0 with h1 | ⟨p, h1⟩
  · rw [h1]
  · rw [h1]; exact get_dramPut_outside _ _ _ _ h

theorem Block.dramWriteAux_outside : ∀ (fuel : Nat) (b : Block) (a : Nat) (d : List Byte) (x : Nat),
    (∀ w, a / 8 ≤ w → 8 * w < a + d.length → b.dramErr w = []) → x < a ∨ a + d.length ≤ x → (b.dramWriteAux a d fuel).dramByte x = b.dramByte x
  | 0, _, _, _, _, _, _ => rfl
  | fuel + 1, b, a, d, x, h0, h => by
    unfold Block.dramWriteAux
    split
    · rfl
    · next hd =>
      have hl : 0 < d.length := by cases d <;> simp_all
      have e0 := h0 (a / 8) (Nat.le_refl _) (by omega)
      dsimp only
      rw [Block.dramWriteAux_outside fuel _ _ _ x
          (fun w h1 h2 => by
            rw [Block.dramWriteWord_err _ _ _ _ e0]
            refine h0 w (by omega) ?_
            simp only [List.length_drop] at h2
            omega)
          (by simp only [List.length_drop]; omega),
        Block.dramWriteWord_outside _ _ _ x e0 (by simp only [List.length_take]; omega)]

/-- A write leaves every byte outside its range (R519), where no word it meets has an error in the array. -/
theorem Block.dramWrite_outside (b : Block) (a : Nat) (d : List Byte) (x : Nat) (h0 : ∀ w, a / 8 ≤ w → 8 * w < a + d.length → b.dramErr w = [])
    (h : x < a ∨ a + d.length ≤ x) : (b.dramWrite a d).dramByte x = b.dramByte x :=
  Block.dramWriteAux_outside _ _ _ _ x h0 h

/-! ### The boot flash -/

theorem flProgram_wf : ∀ (d : List Byte) (t : Tbl Byte) (a : Nat), Tbl.wf flErased t = true → Tbl.wf flErased (flProgram t a d) = true
  | [], _, _, h => h
  | _ :: l, t, a, h => flProgram_wf l _ (a + 1) (Tbl.put_wf flErased t a _ h)

theorem get_flProgram_outside : ∀ (d : List Byte) (t : Tbl Byte) (a x : Nat), x < a ∨ a + d.length ≤ x →
    Tbl.get flErased (flProgram t a d) x = Tbl.get flErased t x
  | [], _, _, _, _ => rfl
  | y :: l, t, a, x, h => by
    simp only [List.length_cons] at h
    rw [flProgram, get_flProgram_outside l _ (a + 1) x (by omega), Tbl.get_put_other _ _ _ _ _ (by omega)]

/-- A programmed byte keeps only the bits that it had. -/
theorem get_flProgram_inside : ∀ (d : List Byte) (t : Tbl Byte) (a i : Nat), i < d.length →
    Tbl.get flErased (flProgram t a d) (a + i) = Tbl.get flErased t (a + i) &&& d.getD i 0
  | y :: l, t, a, 0, _ => by
    rw [flProgram, get_flProgram_outside l _ (a + 1) (a + 0) (by omega)]
    exact Tbl.get_put_same flErased t a _
  | y :: l, t, a, i + 1, h => by
    rw [flProgram, show a + (i + 1) = a + 1 + i by omega, get_flProgram_inside l _ (a + 1) i (by simpa using h),
      Tbl.get_put_other _ _ _ _ _ (by omega)]
    rfl

/-- Programming keeps the canonical form. -/
theorem Block.flProg_wf (b : Block) (a : Nat) (d : List Byte) (h : Tbl.wf flErased b.upd.flash = true) : Tbl.wf flErased (b.flProg a d).upd.flash = true :=
  flProgram_wf d _ a h

theorem Block.flProg_outside (b : Block) (a : Nat) (d : List Byte) (x : Nat) (h : x < a ∨ a + d.length ≤ x) :
    Tbl.get flErased (b.flProg a d).upd.flash x = Tbl.get flErased b.upd.flash x :=
  get_flProgram_outside d _ a x h

theorem wfFrom_filter {α : Type} [DecidableEq α] (d : Nat → α) (p : Nat × α → Bool) : ∀ (t : Tbl α) (lo : Option Nat), Tbl.wfFrom d lo t = true →
    Tbl.wfFrom d lo (t.filter p) = true
  | [], _, _ => rfl
  | (j, v) :: t, lo, h => by
    simp only [Tbl.wfFrom, Bool.and_eq_true] at h
    have weaken : ∀ (t : Tbl α), Tbl.wfFrom d (some j) t = true → Tbl.wfFrom d lo t = true := by
      intro t ht
      cases t with
      | nil => rfl
      | cons e t =>
        simp only [Tbl.wfFrom, Bool.and_eq_true] at ht ⊢
        refine ⟨⟨?_, ht.1.2⟩, ht.2⟩
        have h1 := h.1.1
        have h2 := ht.1.1
        cases lo <;> simp_all [keyAbove]
        omega
    rw [List.filter_cons]
    split
    · simp only [Tbl.wfFrom, Bool.and_eq_true]
      exact ⟨h.1, wfFrom_filter d p t (some j) h.2⟩
    · exact weaken _ (wfFrom_filter d p t (some j) h.2)

/-- An erase keeps the canonical form. -/
theorem Block.flErase_wf (b : Block) (a n : Nat) (h : Tbl.wf flErased b.upd.flash = true) : Tbl.wf flErased (b.flErase a n).upd.flash = true :=
  wfFrom_filter _ _ _ _ h

/-! ### The ends of commands -/

/-- A block as every command leaves it has its DRAM in the canonical form. -/
@[simp] theorem Block.canon_dram_wf (b : Block) : b.canon.dram.wf = true := by
  simp only [Dram.wf, Block.canon, Tbl.canon_wf, Bool.and_self]

/-- The memory after reset has it. -/
theorem reset_dram_wf : State.reset.blk.dram.wf = true := by decide

end Sys2Proof.Machine
end

