-- ==== Sys2Proof/Laws/Rs.lean ====
section
/-! SUPPORT. The symbol-correcting code (R514, R515): a codeword with no error reads as clean, or as poisoned where its poison is set, and its data
bytes are those that were stored. -/

namespace Sys2Proof.Machine

/-- Multiplication by α on bytes. -/
def byteAlpha (x : BitVec 8) : BitVec 8 := x.shiftLeft 1 ^^^ (if x.getLsbD 7 then 0x1D else 0)

theorem gfAlpha_toNat (x : BitVec 8) : gfAlpha x.toNat = (byteAlpha x).toNat := by
  have h : ∀ i : Fin 256, gfAlpha (BitVec.ofFin i : BitVec 8).toNat = (byteAlpha (BitVec.ofFin i)).toNat := by decide +kernel
  exact h x.toFin

theorem byteAlpha_xor (x y : BitVec 8) : byteAlpha (x ^^^ y) = byteAlpha x ^^^ byteAlpha y := by
  have h : (x ^^^ y).shiftLeft 1 = x.shiftLeft 1 ^^^ y.shiftLeft 1 := by
    ext i hi
    simp only [BitVec.shiftLeft_eq, BitVec.getElem_xor, BitVec.getElem_shiftLeft]
    cases decide (i < 1) <;> simp
  have g : ∀ a b c : BitVec 8, a ^^^ c ^^^ (b ^^^ c) = a ^^^ b := by
    intro a b c
    rw [BitVec.xor_comm b c, BitVec.xor_assoc, ← BitVec.xor_assoc c c b, BitVec.xor_self, BitVec.zero_xor]
  simp only [byteAlpha, h, BitVec.getLsbD_xor]
  cases x.getLsbD 7 <;> cases y.getLsbD 7
  · simp
  · simp [BitVec.xor_assoc]
  · simp only [if_true, Bool.false_eq_true, if_false, Bool.true_bne, Bool.not_false]
    ac_rfl
  · simp [g]

/-- The remainder of R514 over bytes. -/
def byteRemainder (d : List (BitVec 8)) : BitVec 8 × BitVec 8 :=
  d.foldr (fun x r => let t := r.1 ^^^ x; (r.2 ^^^ (t ^^^ byteAlpha t), byteAlpha t)) (0, 0)

theorem rsRemainder_toNat (d : List (BitVec 8)) : rsRemainder (d.map BitVec.toNat) = ((byteRemainder d).1.toNat, (byteRemainder d).2.toNat) := by
  induction d with
  | nil => rfl
  | cons x d ih =>
    have h : rsRemainder ((x :: d).map BitVec.toNat) = (let r := rsRemainder (d.map BitVec.toNat)
      let t := r.1 ^^^ x.toNat; (r.2 ^^^ (t ^^^ gfAlpha t), gfAlpha t)) := rfl
    simp only [h, ih, ← BitVec.toNat_xor, gfAlpha_toNat]
    rfl

/-- The two sums of d(x)·x^2 + r(x) at 1 and at α, over bytes. -/
def sum0 (d : List (BitVec 8)) : BitVec 8 := d.foldr (fun x s => x ^^^ s) 0
def sum1 (d : List (BitVec 8)) : BitVec 8 := d.foldr (fun x s => x ^^^ byteAlpha s) 0

theorem byteRemainder_sums (d : List (BitVec 8)) : (byteRemainder d).2 = sum0 d ^^^ (byteRemainder d).1
    ∧ (byteRemainder d).2 = byteAlpha (byteAlpha (sum1 d) ^^^ (byteRemainder d).1) := by
  induction d with
  | nil => exact ⟨rfl, rfl⟩
  | cons x d ih =>
    obtain ⟨h0, h1⟩ := ih
    have e : byteRemainder (x :: d) = (let r := byteRemainder d; let t := r.1 ^^^ x; (r.2 ^^^ (t ^^^ byteAlpha t), byteAlpha t)) := rfl
    have s0 : sum0 (x :: d) = x ^^^ sum0 d := rfl
    have s1 : sum1 (x :: d) = x ^^^ byteAlpha (sum1 d) := rfl
    constructor
    · rw [e, s0]
      simp only [h0]
      generalize byteAlpha ((byteRemainder d).1 ^^^ x) = a
      ext i hi
      simp [Bool.xor_comm, Bool.xor_left_comm]
    · rw [e, s1]
      simp only [h1, byteAlpha_xor]
      ext i hi; simp
      generalize (byteAlpha (byteAlpha (byteAlpha (sum1 d))))[i] = a, (byteAlpha (byteAlpha x))[i] = c, (byteAlpha x)[i] = f,
        (byteAlpha (byteAlpha (byteRemainder d).1))[i] = g, (byteAlpha (byteRemainder d).1)[i] = k
      cases a <;> cases c <;> cases f <;> cases g <;> cases k <;> rfl

/-- What a word with no error reads as. -/
theorem rsArray_zero (d : List Byte) (p : Bool) : rsArray d p [] = (List.range 10).map (fun j =>
    (rsEncode (d.map BitVec.toNat)).getD j 0 ^^^ (if p && decide (j < 2) then 1 else 0)) := by
  simp [rsArray]

theorem gfPow_toNat (x : BitVec 8) (j : Nat) : gfPow x.toNat j = (byteAlpha^[j] x).toNat := by
  induction j with
  | zero => rfl
  | succ j ih => rw [Function.iterate_succ_apply', ← gfAlpha_toNat, ← ih]; rfl

theorem rsS0_toNat (l : List Byte) : rsS0 (l.map BitVec.toNat) = (sum0 l).toNat := by
  have h : ∀ (l : List Byte) (a : Byte), (l.map BitVec.toNat).foldl (fun s x => s ^^^ x) a.toNat = (a ^^^ sum0 l).toNat := by
    intro l
    induction l with
    | nil => intro a; simp [sum0]
    | cons x l ih =>
      intro a
      rw [List.map_cons, List.foldl_cons, ← BitVec.toNat_xor, ih, BitVec.xor_assoc]
      rfl
  have := h l 0
  rwa [show (0 : Byte) = 0#8 from rfl, BitVec.zero_xor] at this

theorem rsS1_toNat (l : List Byte) (h : l.length = 10) : rsS1 (l.map BitVec.toNat) = (sum1 l).toNat := by
  match l, h with
  | [a, b, c, d, e, f, g, i, j, k], _ =>
    have z : byteAlpha 0 = 0 := by decide
    simp only [rsS1, List.range, List.range.loop, List.foldl, List.map, List.getD_cons_zero, List.getD_cons_succ, gfPow_toNat, Nat.zero_xor, ← BitVec.toNat_xor,
      Function.iterate_succ_apply', Function.iterate_zero, id_eq, sum1, List.foldr, byteAlpha_xor, z, BitVec.xor_assoc]
    simp

/-- The codeword of a word with no error, over bytes. -/
def byteWord (d : List Byte) (p : Bool) : List Byte :=
  let q : Byte := if p then 1 else 0
  ((byteRemainder d).2 ^^^ q) :: ((byteRemainder d).1 ^^^ q) :: d

theorem rsArray_word (d : List Byte) (p : Bool) (h : d.length = 8) : rsArray d p [] = (byteWord d p).map BitVec.toNat := by
  rw [rsArray_zero]
  match d, h with
  | [a, b, c, e, f, g, k, l], _ =>
    simp only [rsEncode, rsRemainder_toNat, List.range, List.range.loop]
    cases p <;> simp [byteWord]

/-- The syndromes of a word with no error: 0 and 0, or 0 and 3 where its poison is set. -/
theorem rsSums (d : List Byte) (p : Bool) (h : d.length = 8) : rsS0 (rsArray d p []) = 0 ∧ rsS1 (rsArray d p []) = if p then 3 else 0 := by
  obtain ⟨h0, h1⟩ := byteRemainder_sums d
  rw [rsArray_word d p h, rsS0_toNat, rsS1_toNat _ (by simp [byteWord, h])]
  have e0 : sum0 (byteWord d p) = 0 := by
    have s : sum0 (byteWord d p) = ((byteRemainder d).2 ^^^ (if p then 1 else 0)) ^^^ (((byteRemainder d).1 ^^^ (if p then 1 else 0)) ^^^ sum0 d) := rfl
    rw [s, h0]
    generalize (if p then 1 else 0 : Byte) = q
    ext i hi
    simp [Bool.xor_comm]
  have e1 : sum1 (byteWord d p) = (if p then 1 else 0) ^^^ byteAlpha (if p then 1 else 0) := by
    have s : sum1 (byteWord d p) = ((byteRemainder d).2 ^^^ (if p then 1 else 0)) ^^^ byteAlpha (((byteRemainder d).1 ^^^ (if p then 1 else 0))
      ^^^ byteAlpha (sum1 d)) := rfl
    rw [s, h1]
    simp only [byteAlpha_xor]
    generalize (if p then 1 else 0 : Byte) = q
    ext i hi
    simp [Bool.xor_comm, Bool.xor_left_comm]
  rw [e0, e1]
  cases p <;> decide

/-- A word with no error reads as clean, or as poisoned where its poison is set. -/
theorem rsDecide_word (d : List Byte) (p : Bool) (h : d.length = 8) :
    rsDecide (rsS0 (rsArray d p [])) (rsS1 (rsArray d p [])) = if p then .poisoned else .clean := by
  rw [(rsSums d p h).1, (rsSums d p h).2]
  cases p <;> rfl

/-- The data bytes of a word with no error are those that were stored. -/
theorem rsData_word (d : List Byte) (p : Bool) (h : d.length = 8) : rsData (rsArray d p []) 10 0 = d := by
  rw [rsArray_word d p h]
  match d, h with
  | [a, b, c, e, f, g, k, l], _ => simp [rsData, byteWord, List.range, List.range.loop]

/-- A read of a word with no error: a clean word is left, a poisoned one is counted and stored as it was. -/
theorem Block.readWord_word (b : Block) (unit addr lane flags : Nat) (d : List Byte) (p : Bool) (store : Block → List Byte → Bool → List Nat → Block)
    (h : d.length = 8) : b.readWord unit addr lane flags d p [] store = if p then store (b.inc RAS_UE_CNT.all) d true [] else b := by
  cases p with
  | false => rfl
  | true =>
    simp only [Block.readWord, Bool.not_true, Bool.false_and, Bool.false_eq_true, if_false, rsDecide_word d true h, rsData_word d true h, if_true]

/-- A read of a DRAM word with no error: a clean word is left, a poisoned one is counted and stored as it was. -/
theorem Block.dramFind_word (b : Block) (w flags : Nat) (h : b.dramErr w = []) :
    b.dramFind w flags [] = if b.wordPoisoned w then
      let c := b.inc RAS_UE_CNT.all
      { c with dram := { bytes := dramPut c.dram.bytes (8 * w) (b.dramBytes (8 * w) 8), poison := Tbl.put (fun _ => false) c.dram.poison w true,
                         err := Tbl.put (fun _ => []) c.dram.err w [] } } else b := by
  unfold Block.dramFind
  rw [h, show errAdd [] [] = [] by decide, Block.readWord_word _ _ _ _ _ _ _ _ (by simp [Block.dramBytes])]
  rfl

end Sys2Proof.Machine
end

