-- ==== Sys2Proof/Laws/Weft.lean ====
section
/-! SUPPORT. What an instruction of a Weft strand gives once it can issue, and the two shapes of an operation on registers. -/

namespace Sys2Proof.Machine

/-- An instruction that can issue, is legal, and waits for no working-key delivery carries out its body on the block as issued (R245, R246, R257,
R274, R275). -/
theorem Block.issue_of_issues (b : Block) (k op : Nat) (legal : BitVec 64 → Bool) (reads : BitVec 64 → Reads) (body : BitVec 64 → Block → Block) (w : BitVec 64)
  (h : b.issues k op w (reads w).regs (reads w).tks = true) (hl : legal w = true) (hh : ((reads w).holders.any (b.strand k).khBusy) = false) :
  b.issue k op legal reads body = body w (b.issued k (reads w).regs) := by
  simp only [Block.issues, Bool.and_eq_true, beq_iff_eq, decide_eq_true_eq, Bool.not_eq_true'] at h
  obtain ⟨⟨⟨⟨⟨⟨⟨h1, h2⟩, h3⟩, h4⟩, h5⟩, h6⟩, h7⟩, h8⟩ := h
  rw [decide_eq_false_iff_not] at h8
  unfold Block.issue
  have h2' : ¬ 8192 ≤ (b.strand k).pc := by omega
  simp only [h1, h2', h3, h4, h5, h6, h7, h8, hl, hh, if_false, ne_eq, not_true_eq_false, false_and, false_or, Bool.or_self, Bool.false_eq_true, Bool.not_true, Bool.true_eq_false]
  rfl

/-- An operation on two registers writes its result when due. -/
theorem aluRR_gives (s : State) (k op lat : Nat) (f : BitVec 64 → BitVec 64 → BitVec 64) (w : BitVec 64)
    (h : s.blk.issues k op w [iRA w, iRB w] [] = true) (hl : onlyUses (uRD ||| uRA ||| uRB) w = true) :
    runCmd s (fun b => b.aluRR k op lat f) = .next { s with blk := ((s.blk.start.issued k [iRA w, iRB w]).result k (iRD w) (f ((s.blk.start.issued k [iRA w, iRB w]).w k (iRA w)) ((s.blk.start.issued k [iRA w, iRB w]).w k (iRB w))) lat).canon } := by
  have := Block.issue_of_issues s.blk.start k op (onlyUses (uRD ||| uRA ||| uRB)) (fun w => { regs := [iRA w, iRB w], tks := [] })
    (fun w b => b.result k (iRD w) (f (b.w k (iRA w)) (b.w k (iRB w))) lat) w h hl rfl
  rw [runCmd_next]
  unfold Block.aluRR
  rw [this]

/-- An operation on a register and IMM writes its result when due. -/
theorem aluRI_gives (s : State) (k op lat imm : Nat) (f : BitVec 64 → BitVec 32 → BitVec 64) (w : BitVec 64)
    (h : s.blk.issues k op w [iRA w] [] = true) (hl : onlyUses (uRD ||| uRA ||| imm) w = true) :
    runCmd s (fun b => b.aluRI k op lat imm f) = .next { s with blk := ((s.blk.start.issued k [iRA w]).result k (iRD w) (f ((s.blk.start.issued k [iRA w]).w k (iRA w)) (iIMM w)) lat).canon } := by
  have := Block.issue_of_issues s.blk.start k op (onlyUses (uRD ||| uRA ||| imm)) (fun w => { regs := [iRA w], tks := [] })
    (fun w b => b.result k (iRD w) (f (b.w k (iRA w)) (iIMM w)) lat) w h hl rfl
  rw [runCmd_next]
  unfold Block.aluRI
  rw [this]

/-! The operations on words as operations on numbers. -/

theorem slt_int (x y : BitVec 64) : (x.slt y = true) = (x.toInt < y.toInt) := by simp [BitVec.slt]

theorem ult_nat (x y : BitVec 64) : (x.ult y = true) = (x.toNat < y.toNat) := by simp [BitVec.ult]

theorem udiv_nat (x y : BitVec 64) : x / y = BitVec.ofNat 64 (x.toNat / y.toNat) := by
  apply BitVec.eq_of_toNat_eq
  simp [BitVec.toNat_udiv]
  exact (Nat.mod_eq_of_lt (Nat.lt_of_le_of_lt (Nat.div_le_self _ _) x.isLt)).symm

theorem umod_nat (x y : BitVec 64) : x % y = BitVec.ofNat 64 (x.toNat % y.toNat) := by
  apply BitVec.eq_of_toNat_eq
  simp [BitVec.toNat_umod]
  exact (Nat.mod_eq_of_lt (Nat.lt_of_le_of_lt (Nat.mod_le _ _) x.isLt)).symm

theorem sdiv_int (x y : BitVec 64) : x.sdiv y = BitVec.ofInt 64 (x.toInt.tdiv y.toInt) := by
  apply BitVec.eq_of_toInt_eq
  rw [BitVec.toInt_sdiv, BitVec.toInt_ofInt]

theorem extr_nat (x : BitVec 64) (p l : Nat) (hl : l ≤ 64) : (x >>> p) &&& BitVec.ofNat 64 (2 ^ l - 1) = BitVec.ofNat 64 (x.toNat / 2 ^ p % 2 ^ l) := by
  apply BitVec.eq_of_toNat_eq
  have h1 : 2 ^ l ≤ 2 ^ 64 := Nat.pow_le_pow_right (by decide) hl
  have h0 : 0 < 2 ^ l := Nat.two_pow_pos l
  have h2 : (2 ^ l - 1) % 2 ^ 64 = 2 ^ l - 1 := Nat.mod_eq_of_lt (by omega)
  rw [BitVec.toNat_and, BitVec.toNat_ofNat, BitVec.toNat_ofNat, h2, BitVec.toNat_ushiftRight, Nat.and_two_pow_sub_one_eq_mod, Nat.shiftRight_eq_div_pow]
  exact (Nat.mod_eq_of_lt (Nat.lt_of_lt_of_le (Nat.mod_lt _ h0) h1)).symm

end Sys2Proof.Machine
end

