-- ==== Sys2Proof/WellFormed.lean ====
section
/-! DEFINITION. The commands whose operands are numbers of the machine: a strand of 128, a port of 8, a source of 256, an aligned register. -/

namespace Sys2Proof

/-- Errors that come up by themselves: a unit of R523, a word, and what it differs by. -/
def strikesOk (l : List (Nat × Nat × List Nat)) : Bool := l.all (fun x => decide (x.1 < 16 ∧ x.2.2.length ≤ 10 ∧ x.2.2.all (fun y => decide (y < 256)) = true))

/-- The operands of a command lie within the bounds that the rules of its row give them. A command outside them stands for nothing that can happen to
the device; `exec` answers on it all the same, with a number taken modulo its bound, or with no effect. -/
def Instr.wellFormed : Instr → Bool
  | .regWrite bar off _ => decide ((bar = 0 ∧ off % 4 = 0) ∨ (bar = 4 ∧ off % 4 = 0 ∧ off < 0x8000))
  | .counterReadClear off => decide (off % 4 = 0)
  | .pairLoRead off => decide (off % 4 = 0)
  | .accessSizeError _ _ => true
  | .unassignedAccess req off _ => decide (req < 5 ∧ 0x900000 ≤ off)
  | .bar2Access _ _ _ _ => true
  | .configRequest _ => true
  | .mbxRing => true
  | .mbxAbort => true
  | .mbxComplete => true
  | .mbxTimeout => true
  | .mbxAbortTimeout => true
  | .ping => true
  | .getFwInfo => true
  | .getHealth => true
  | .stewardWatchdogExpiry => true
  | .stewardReady => true
  | .cellBoundary => true
  | .ppsEdge _ => true
  | .ppsWindowClose => true
  | .ptpSubmit _ => true
  | .ptpSourceLost => true
  | .refclkLoss => true
  | .refclkRestore => true
  | .dspRelock => true
  | .holdMaxExpiry => true
  | .psrcWrite _ => true
  | .forceSw => true
  | .rearm => true
  | .proofNow => true
  | .proofRun => true
  | .proofRunEnd _ => true
  | .hoopInternalFault => true
  | .heartbeatMiss h => (match h.got with | some (n, _) => decide (n < 64) | none => true)
  | .failoverStart => true
  | .failoverGapEnd _ => true
  | .warpDataLoad n => decide (n < 8)
  | .warpDataStore n _ => decide (n < 8)
  | .epochCommit => true
  | .epochCancel => true
  | .epochValidationDone => true
  | .freezePoint => true
  | .epochActivation => true
  | .groupListRead idx => decide (idx < 131072)
  | .slotStrobe idx _ => decide (idx < 131072)
  | .queuedWeaveStart k => decide (k < 128)
  | .handoverStart k => decide (k < 128)
  | .wdogExpiry k => decide (k < 128)
  | .hovrLongExpiry k => decide (k < 128)
  | .sysrefEdge phase => decide (phase < 512)
  | .rxLinkEnable n _ => decide (n < 8)
  | .jesdLinkUp x => decide (x.n < 8)
  | .jesdLinkDown x _ => decide (x.n < 8)
  | .rxaEnable _ => true
  | .rxaFlush => true
  | .agcUpdate stream power => decide (stream < 2048 ∧ -1024 ≤ power ∧ power ≤ 1023)
  | .detection win stream t1 q level est power also => (⟨win, stream, t1, q, level, est.psnr, est.rssi, est.phase, power⟩ :: also : List Firing).all (fun f => decide (f.stream < 2048 ∧ f.q < 4 ∧ f.level < 2 ^ 8 ∧ f.psnr < 2 ^ 8 ∧ -32768 ≤ f.rssi ∧ f.rssi ≤ 32767
      ∧ f.phase < 2 ^ 16))
  | .laneSfdEnd _ _ snr cfo => decide (snr < 2 ^ 16 ∧ cfo < 2 ^ 16)
  | .laneHeaderEnd _ r0 r1 e0 e1 snr cfo => decide (r0 < 2 ^ 24 ∧ r1 < 2 ^ 24 ∧ e0 < 2 ^ 24 ∧ e1 < 2 ^ 24 ∧ snr < 2 ^ 16 ∧ cfo < 2 ^ 16)
  | .codewordDecodeStart _ _ => true
  | .codewordDecoded _ _ iters _ => decide (iters ≤ 20)
  | .rxRecordPost => true
  | .ringEntryWrite k => decide (k < 128)
  | .heardUpdate => true
  | .shipHdrReceive origin _ => decide (origin < 8)
  | .shipLlrReceive origin _ => decide (origin < 8)
  | .shipFrameReceive origin _ => decide (origin < 8)
  | .censusBlockWrite _ => true
  | .censusBlockLost => true
  | .txPortEnable n _ => decide (n < 8)
  | .txLinkDown n => decide (n < 8)
  | .txLinkUp n => decide (n < 8)
  | .transmissionStart _ n _ => decide (n < 8)
  | .transmissionEnd _ n => decide (n < 8)
  | .txRecordPost => true
  | .txcEnable _ => true
  | .txcFlush => true
  | .dwellLock => true
  | .clrReqRise => true
  | .clrReqFall => true
  | .clearingEnd => true
  | .ackFaultCheck => true
  | .gateSelfTest n _ _ _ => decide (n < 8)
  | .beaconPrepare => true
  | .seenFlush => true
  | .seenFlushDone => true
  | .iEnd k => decide (k < 128)
  | .iNop k => decide (k < 128)
  | .iBr k => decide (k < 128)
  | .iBrl k => decide (k < 128)
  | .iJr k => decide (k < 128)
  | .iTime k => decide (k < 128)
  | .iTwait k => decide (k < 128)
  | .twaitComplete k => decide (k < 128)
  | .iEvwait k => decide (k < 128)
  | .evwaitReturn k => decide (k < 128)
  | .iTkwait k => decide (k < 128)
  | .tkwaitComplete k => decide (k < 128)
  | .iSig k => decide (k < 128)
  | .iRrel k => decide (k < 128)
  | .iSysr k => decide (k < 128)
  | .iFbfree k => decide (k < 128)
  | .iAdd k => decide (k < 128)
  | .iSub k => decide (k < 128)
  | .iAnd k => decide (k < 128)
  | .iOr k => decide (k < 128)
  | .iXor k => decide (k < 128)
  | .iShl k => decide (k < 128)
  | .iShr k => decide (k < 128)
  | .iSra k => decide (k < 128)
  | .iMin k => decide (k < 128)
  | .iMax k => decide (k < 128)
  | .iMinu k => decide (k < 128)
  | .iMaxu k => decide (k < 128)
  | .iSel k => decide (k < 128)
  | .iMul k => decide (k < 128)
  | .iMulhu k => decide (k < 128)
  | .iDiv k => decide (k < 128)
  | .iDivs k => decide (k < 128)
  | .iRem k => decide (k < 128)
  | .iCmp k => decide (k < 128)
  | .iCmpi k => decide (k < 128)
  | .iTstb k => decide (k < 128)
  | .iPand k => decide (k < 128)
  | .iPor k => decide (k < 128)
  | .iPxor k => decide (k < 128)
  | .iPandn k => decide (k < 128)
  | .iAddi k => decide (k < 128)
  | .iAndi k => decide (k < 128)
  | .iOri k => decide (k < 128)
  | .iXori k => decide (k < 128)
  | .iShli k => decide (k < 128)
  | .iShri k => decide (k < 128)
  | .iSrai k => decide (k < 128)
  | .iMovi k => decide (k < 128)
  | .iMovhi k => decide (k < 128)
  | .iExtr k => decide (k < 128)
  | .iIns k => decide (k < 128)
  | .iMuli k => decide (k < 128)
  | .iLdb k => decide (k < 128)
  | .iLdh k => decide (k < 128)
  | .iLdw k => decide (k < 128)
  | .iLd k => decide (k < 128)
  | .iLdsb k => decide (k < 128)
  | .iLdsh k => decide (k < 128)
  | .iLdsw k => decide (k < 128)
  | .iStb k => decide (k < 128)
  | .iSth k => decide (k < 128)
  | .iStw k => decide (k < 128)
  | .iStd k => decide (k < 128)
  | .iTld k => decide (k < 128)
  | .iTst k => decide (k < 128)
  | .iCtxld k => decide (k < 128)
  | .ctxldDelivery k tk => decide (k < 128 ∧ tk < 8)
  | .iCtxst k => decide (k < 128)
  | .ctxstDelivery k tk => decide (k < 128 ∧ tk < 8)
  | .iKeyreq k => decide (k < 128)
  | .keyreqDelivery k tk => decide (k < 128 ∧ tk < 8)
  | .iSeal k => decide (k < 128)
  | .sealDelivery k tk => decide (k < 128 ∧ tk < 8)
  | .iOpen k => decide (k < 128)
  | .openDelivery k tk => decide (k < 128 ∧ tk < 8)
  | .iQpush k => decide (k < 128)
  | .qpushStallComplete k => decide (k < 128)
  | .iQtry k => decide (k < 128)
  | .iQpop k => decide (k < 128)
  | .qpopDelivery k tk => decide (k < 128 ∧ tk < 8)
  | .iSeen k => decide (k < 128)
  | .seenDelivery k tk => decide (k < 128 ∧ tk < 8)
  | .iRxarm k => decide (k < 128)
  | .iTxarm k => decide (k < 128)
  | .wftDoorbell n _ => decide (n < 32)
  | .strandEnableWrite n _ => decide (n < 32)
  | .instrWordLoad n _ => decide (n < 32)
  | .instrWordStore n _ => decide (n < 32)
  | .dmemHostAccess n _ _ => decide (n < 32)
  | .tableWordLoad _ => true
  | .tableWordStore _ => true
  | .grvEnable => true
  | .grvReplayDone => true
  | .grvDisable => true
  | .grvDrainDone => true
  | .writeback => true
  | .grvInit => true
  | .grvInitDone => true
  | .grvRechk => true
  | .grvRechkDone => true
  | .grvFlush => true
  | .sweepVisit idx _ => decide (idx < 2 ^ 25)
  | .hrdClear => true
  | .hrdIndexLoad _ => true
  | .hrdKeyLookup _ => true
  | .haRead => true
  | .haWrite => true
  | .haAllocAny => true
  | .haAllocAt => true
  | .haRelease => true
  | .haBadOp op => decide (op < 3)
  | .haComplete => true
  | .joinReqAdmit idx pkind _ _ full off _ => decide (idx < 2 ^ 25 ∧ pkind < 8 ∧ full < 2 ^ 16 ∧ off < 2 ^ 16)
  | .routeReportProcess x _ => decide (x < 2 ^ 28)
  | .hwdGetState => true
  | .hwdExtend => true
  | .hwdGetIdentity => true
  | .hwdGetFidCert => true
  | .hwdQuote => true
  | .hwdSlotLoad => true
  | .hwdSlotDerive => true
  | .hwdSlotCommit => true
  | .hwdSlotCancel => true
  | .hwdSlotErase => true
  | .hwdSlotExport => true
  | .hwdSlotImport => true
  | .hwdSetWrap => true
  | .hwdWrap => true
  | .hwdWrapBatch n => decide (n ≤ 65536)
  | .hwdSign => true
  | .hwdVerify => true
  | .hwdCacheFlush => true
  | .hwdTamperClear => true
  | .tinCfgLock _ => true
  | .unwrapCreditAdd => true
  | .class1Event sensor => decide (sensor < 4)
  | .alarmEnd => true
  | .class2Event x => decide (4 ≤ x.sensor ∧ x.sensor ≤ 6)
  | .queueEnable n _ => decide (n < 256)
  | .queueDisable n _ => decide (n < 256)
  | .watermarkWrite n _ => decide (n < 256)
  | .fcInChange p e => decide (p < 8 ∧ e.cyc < 4)
  | .upqHostRead q _ _ => decide (q < 128)
  | .decompressItem q _ => decide (q < 128)
  | .upqStewardRead q _ => decide (q < 128)
  | .shpAdmission dst pkind ctx _ => decide (dst < 2 ^ 28 ∧ pkind < 8 ∧ ctx < 65536)
  | .shpEnable => true
  | .shpDisable => true
  | .shpCtxRead => true
  | .shpCtxWrite => true
  | .shpCtxFlush => true
  | .shpCtxBadOp => true
  | .shpCtxOpDone => true
  | .flr => true
  | .dmaDisable => true
  | .ringEnable _ r _ => decide (r < 16)
  | .h2dTailWrite r _ => decide (r < 16)
  | .d2hTailWrite r _ => decide (r < 16)
  | .h2dDescriptorServe d _ _ _ _ => decide (d.len < 2 ^ 16 ∧ d.flags < 2 ^ 16 ∧ d.tag < 2 ^ 32)
  | .ringCoalesceTimeout _ r => decide (r < 16)
  | .ethFrameReceive n _ _ _ _ => decide (n < 2)
  | .ethLinkUp n => decide (n < 2)
  | .ethLinkDown n => decide (n < 2)
  | .pcieLinkChange _ width speed => decide (width ≤ 16 ∧ speed < 8)
  | .bghEntWrite _ => true
  | .bghEntRead => true
  | .bghNhStore _ => true
  | .fence => true
  | .fenceDone => true
  | .bghLoad => true
  | .bghLoadDone => true
  | .bghScrubCompare => true
  | .cnpEnable _ => true
  | .cnpLinkUp _ => true
  | .cnpLinkDown _ => true
  | .flitReceive _ flit => decide (flit.length = 64)
  | .cnpCreditEarn _ => true
  | .localFlitSend _ _ => true
  | .dreqReceive _ _ => true
  | .drespReceive _ _ _ _ => true
  | .markReceive _ _ hops _ => decide (hops < 16)
  | .markWindowClose => true
  | .helloReceive _ hops _ _ => decide (hops < 16)
  | .portUnwrap _ => true
  | .messageReassembled origin => decide (origin < 8)
  | .dlPktReceive _ _ => true
  | .digestReceive origin _ => decide (origin < 8)
  | .updStageBegin _ => true
  | .updStageWrite _ => true
  | .updStageFinish => true
  | .updStageCancel => true
  | .updCfgList => true
  | .updCfgRead => true
  | .updCfgWrite _ => true
  | .updCfgDelete _ => true
  | .updSeedStart => true
  | .updSeedStop => true
  | .updSeedCount => true
  | .seedItemAdmit => true
  | .seedReportProcess idx session state => decide (idx < 2 ^ 25 ∧ session < 65536 ∧ 1 ≤ state ∧ state ≤ 4)
  | .updFlRead => true
  | .updFlProgram => true
  | .updFlErase => true
  | .updFlNop => true
  | .updFlDone _ => true
  | .icuSourceEdge n _ => decide (n < 256)
  | .icuSrcWrite n _ => decide (n < 256)
  | .icuClaim k => decide (k < 37)
  | .icuDone k _ => decide (k < 37)
  | .engineClaimStore k => decide (k < 128)
  | .engineDoneStore k => decide (k < 128)
  | .targetWake k _ => decide (k < 37)
  | .tmrGo _ => true
  | .tmrStop _ => true
  | .tmrGoAtArm _ => true
  | .tmrGoAtCancel => true
  | .tmrGoAtStart => true
  | .timerTick n => decide (n < 32)
  | .tmrCapture trig => decide (1 ≤ trig ∧ trig ≤ 19)
  | .tmrCntRead n => decide (n < 32)
  | .patrolRead ch x => decide (ch < 2 ∧ x.errs.all (fun x => decide (x.1 < 8 ∧ x.2.length ≤ 10)) = true) && strikesOk x.strikes
  | .ceWriteback => true
  | .ondieScrubRead x => decide (x.errs.all (fun x => decide (2 ≤ x.1 ∧ x.1 < 16 ∧ x.2.2.length ≤ 10)) = true) && strikesOk x.strikes
  | .tableCheckCompare => true
  | .rasLogRdWrite _ => true
  | .rasLogSelWrite _ => true
  | .aonPor => true
  | .pwrGoodRise => true
  | .pwrGoodFall => true
  | .sysRst _ => true
  | .swRst _ => true
  | .perst _ => true
  | .brownOut => true
  | .thermalTrip => true
  | .railOutOfTolerance rail _ => decide (rail < 8)
  | .tempConversion t => decide (-32768 ≤ t ∧ t ≤ 32767)
  | .internalResetRelease w => decide (w.chain < 8 ∧ w.padLow < 2 ^ 8 ∧ (w.gib = 4 ∨ w.gib = 8 ∨ w.gib = 16 ∨ w.gib = 32))
  | .pllLock i => decide (i = 5 ∨ i = 7 ∨ i = 8 ∨ i = 9)
  | .dspSlewDone => true
  | .standbyRequest _ => true
  | .runRequest _ => true
  | .sleepRequest _ => true
  | .wake _ => true
  | .gpioEvent n _ => decide (n < 48)
  | .gpioCfgWrite n _ => decide (n < 48)
  | .spiTransfer i _ => decide (i < 2)
  | .spiDone i _ => decide (i < 2)
  | .i2cCmd i _ => decide (i < 2)
  | .i2cStepDone i _ _ _ => decide (i < 2)
  | .uartDataWrite _ => true
  | .uartDataRead => true
  | .uartRxFrame _ _ => true
  | .uartTxFrameDone => true
  | .rxarmDelivery k tk => decide (k < 128 ∧ tk < 8)
  | .txarmDelivery k tk => decide (k < 128 ∧ tk < 8)
  | .pllLockLoss i => decide (i < 10 ∧ i ≠ 6)
  | .aonCrystalStart => true
  | .uartCtsChange _ => true
  | .hrdClearDone => true
  | .caParityAlert => true
  | .encoderBlockPrepared => true

end Sys2Proof
end

