-- ==== Sys2Proof/Tests/Slice0.lean ====
section
/-! SUPPORT. Tests: an ill-formed term for each check of `Instr.wellFormed`, the worked values of the spec, and, for each statement of the
obligations, states and operands that meet the hypotheses of its clauses. -/

namespace Sys2Proof.Tests

set_option Elab.async false

open Sys2Proof.Machine

/-- The state whose block is the one after reset changed by `f`. -/
def after (f : Block → Block) : State := { State.reset with blk := f Block.atReset }

/-- The state with its block changed by `f`. -/
def on (s : State) (f : Block → Block) : State := { s with blk := f s.blk }

/-- A weave of strobe bank 0. -/
def aWeave : Weave := { bank := 0, sf := 0, slotEnd := 0, first := 0, handover := false, timed := false, desc := [] }

/-- Strand 0 runs a weave whose next word is `w`, and `f` tells the rest of it. -/
def weft (w : BitVec 64) (f : Strand → Strand := id) : State :=
  after fun b => { b with wft := { b.wft with ibank := [(0, w)], strands := [(0, f { Strand.fresh with weave := some aWeave })] } }

/-! ### Weft -/

/-- A word of opcode `op` with RD 1, RA 2 and RB 3 where the instruction uses them. -/
def wordOf (op used : Nat) : BitVec 64 := BitVec.ofNat 64 (op * 2 ^ 56 + (1 * 2 ^ 47 + 2 * 2 ^ 42 + 3 * 2 ^ 37) &&& (used ||| 255 * 2 ^ 56))

/-- The state before the word, for an instruction of one opcode. -/
def before (op used : Nat) : State := weft (wordOf op used)

theorem wit_WeftArithmeticResults : ∀ o ∈ aluOps, (before o.op o.used).blk.issues 0 o.op (wordOf o.op o.used) (o.reads (wordOf o.op o.used)) [] = true
    ∧ onlyUses o.used (wordOf o.op o.used) = true := by decide +kernel

theorem wit_WeftMoveAndLoadResults : ∀ o ∈ moveOps,
    (before o.op o.used).blk.issues 0 o.op (wordOf o.op o.used) (o.reads (wordOf o.op o.used)) [] = true
    ∧ onlyUses o.used (wordOf o.op o.used) = true
    ∧ o.ok ((before o.op o.used).blk.start.issued 0 (o.reads (wordOf o.op o.used))) 0 (wordOf o.op o.used) = true := by decide +kernel

/-- The last byte, half-word, word and double word of data memory may be read, the address after each may not (R294). -/
theorem wit_load_bounds : [(opLoad .iLdb 0x50 1 (BitVec.ofNat 64), 0xFFFF), (opLoad .iLdh 0x51 2 (BitVec.ofNat 64), 0xFFFE),
      (opLoad .iLdw 0x52 4 (BitVec.ofNat 64), 0xFFFC), (opLoad .iLd 0x53 8 (BitVec.ofNat 64), 0xFFF8)].all
    (fun x => x.1.ok Block.atReset 0 (BitVec.ofNat 64 x.2) && !x.1.ok Block.atReset 0 (BitVec.ofNat 64 (x.2 + 1))) = true := by decide +kernel

/-- A result due in beat 5 is written by beat 5 after one due in beat 4, and not by beat 4. -/
theorem wit_WeftResultIsReadWhenDue : let x : Strand := { Strand.fresh with dues := [⟨4, 1, 7⟩] }
    (5 ≤ 5 ∧ x.dues.Pairwise (fun y z => y.beat ≤ z.beat) ∧ ∀ y ∈ x.dues, y.beat ≤ 5 → y.beat ≤ 5)
    ∧ ((x.result 1 9 5).settle 5).w 1 = 9 ∧ ((x.result 1 9 5).settle 4).w 1 = 7 := by decide +kernel

theorem wit_WeftPredicateResults : ∀ o ∈ predOps, (before o.op o.used).blk.issues 0 o.op (wordOf o.op o.used) (o.reads (wordOf o.op o.used)) [] = true
    ∧ onlyUses o.used (wordOf o.op o.used) = true ∧ o.ok (wordOf o.op o.used) = true := by decide +kernel

/-- The seven conditions of R293 on −1 and 1: signed and unsigned comparisons differ. -/
theorem test_conditions : (List.range 7).map (fun c => condIs c 0xFFFFFFFFFFFFFFFF 1) = [false, true, true, false, false, true, true] := by decide +kernel

theorem wit_WeftStores :
    (∀ o ∈ storeOps, let w := wordOf o.2.1 (uRD ||| uRA ||| uIMM)
      (weft w).blk.issues 0 o.2.1 w [iRA w, iRD w] [] = true ∧ onlyUses (uRD ||| uRA ||| uIMM) w = true
      ∧ opAddr ((weft w).blk.start.issued 0 [iRA w, iRD w]) 0 w ≤ 0x10000 - o.2.2)
    ∧ (let w := wordOf 0x5D (uRD ||| uRA ||| uIMM)
      (weft w).blk.issues 0 0x5D w [iRA w, iRD w] [] = true ∧ onlyUses (uRD ||| uRA ||| uIMM) w = true
      ∧ opAddr ((weft w).blk.start.issued 0 [iRA w, iRD w]) 0 w < 0x400000) := by decide +kernel

/-- The instructions of `WeftBranchesAndEvents`: opcode, fields used, registers read. -/
def flowOps : List (Nat × Nat × List Nat) :=
  [(0x01, 0, []), (0x02, 0x1FFF, []), (0x03, uRD ||| 0x1FFF, []), (0x04, uRA, [2]), (0x06, uRA, [2]), (0x07, uRD ||| uRA ||| 7, [2]), (0x08, 0xFF, []),
   (0x09, 0x1F, []), (0x0A, 0, []), (0x0C, uRA, [2]), (0x5C, uRD ||| uRA ||| uIMM, [2]), (0x00, 0, [])]

theorem wit_WeftBranchesAndEvents : (∀ o ∈ flowOps, (before o.1 o.2.1).blk.issues 0 o.1 (wordOf o.1 o.2.1) o.2.2 [] = true
      ∧ onlyUses o.2.1 (wordOf o.1 o.2.1) = true)
    ∧ (((before 0x04 uRA).blk.start.issued 0 [2]).w 0 2).toNat ≤ 8191
    ∧ opAddr ((before 0x5C (uRD ||| uRA ||| uIMM)).blk.start.issued 0 [2]) 0 (wordOf 0x5C (uRD ||| uRA ||| uIMM)) < 0x400000 := by decide +kernel

/-- A guard that fails (p1 is 0), a word of a field ADD does not use, SYSR with selector 6, and a pc beyond the memory. -/
theorem wit_WeftGuardAndFaults :
    (∀ o ∈ aluOps ++ moveOps, let g := wordOf o.op o.used ||| 1 <<< 53
      (weft g).blk.canIssue 0 = true ∧ ((weft g).blk.strand 0).pc < 8192 ∧ iOp ((weft g).blk.fetch 0) = o.op
      ∧ onlyUses o.used ((weft g).blk.fetch 0) = true ∧ (o.op = 0x0B → (iIMM ((weft g).blk.fetch 0)).toNat ≤ 5)
      ∧ ((weft g).blk.strand 0).guard ((weft g).blk.fetch 0) = false)
    ∧ onlyUses (uRD ||| uRA ||| uRB) ((weft 0x1000000000000001).blk.fetch 0) = false ∧ iOp ((weft 0x1000000000000001).blk.fetch 0) = 0x10
    ∧ 5 < (iIMM ((weft 0x0B00000000000006).blk.fetch 0)).toNat ∧ iOp ((weft 0x0B00000000000006).blk.fetch 0) = 0x0B
    ∧ (weft 0 (fun s => { s with pc := 8192 })).blk.canIssue 0 = true ∧ 8192 ≤ ((weft 0 (fun s => { s with pc := 8192 })).blk.strand 0).pc := by
  decide +kernel

/-- A store at 0xFFFF of more than a byte, or at 0x10000, TST at 0x40_0000 and JR to 8,192. -/
theorem wit_WeftGuardAndFaults_range :
    (∀ o ∈ storeOps, let w := wordOf o.2.1 (uRD ||| uRA ||| uIMM) ||| BitVec.ofNat 64 (0x10001 - o.2.2)
      (weft w).blk.issues 0 o.2.1 w [iRA w, iRD w] [] = true ∧ onlyUses (uRD ||| uRA ||| uIMM) w = true
      ∧ 0x10000 - o.2.2 < opAddr ((weft w).blk.start.issued 0 [iRA w, iRD w]) 0 w)
    ∧ (let w := wordOf 0x5D (uRD ||| uRA ||| uIMM) ||| 0x400000
      (weft w).blk.issues 0 0x5D w [iRA w, iRD w] [] = true ∧ onlyUses (uRD ||| uRA ||| uIMM) w = true
      ∧ 0x400000 ≤ opAddr ((weft w).blk.start.issued 0 [iRA w, iRD w]) 0 w)
    ∧ (let w := wordOf 0x04 uRA
      let s := weft w (fun s => { s with regs := [(2, 8192)] })
      s.blk.issues 0 0x04 w [iRA w] [] = true ∧ onlyUses uRA w = true ∧ 8191 < ((s.blk.start.issued 0 [iRA w]).w 0 (iRA w)).toNat) := by
  decide +kernel

/-- Strands that wait, an engine with a strobe queued and a strand free, a handover pending, and a watchdog running and off. -/
def waiting (w : Wait) : State := weft 0 (fun s => { s with wait := w })

/-- A strobe of descriptor 0. -/
def aStrobe : Strobe := ⟨0, 0, 0, 0, 0, 0, 0, false, false, false, 0, 0⟩

theorem wit_WeftWaitsEnd :
    ((waiting (.twait 5)).blk.strand 0).wait = .twait 5
    ∧ (((waiting (.tkwait 1)).blk.strand 0).wait = .tkwait 1
      ∧ ∀ j, j < 8 → (1 : Nat).testBit j = true → Tbl.find ((waiting (.tkwait 1)).blk.strand 0).tks j = none)
    ∧ (let s := weft 0 (fun s => { s with wait := .evwait 1 1 0, ringCount := 1 })
      let y := s.blk.start.toBeat (s.blk.strand 0).ready
      (s.blk.strand 0).wait = .evwait 1 1 0 ∧ y.events 0 &&& 1 ≠ 0)
    ∧ (let s := on (waiting (.evwait 1 4 0xFFFFFFFFFFFFFFFF)) (fun b => b.onEngine 0 (fun e => { e with bellsDue := 1, bellsAt := 0 }))
      let y := s.blk.start.toBeat (s.blk.strand 0).ready
      y.events 0 &&& 4 = 0 ∧ (y.toBeat (y.clk.beat + 1)).events 0 &&& 4 ≠ 0)
    ∧ (let s := waiting (.evwait 1 1 0xFFFFFFFFFFFFFFFF)
      let y := s.blk.start.toBeat (s.blk.strand 0).ready
      y.events 0 &&& 1 = 0 ∧ (y.toBeat (y.clk.beat + 1)).events 0 &&& 1 = 0 ∧ (y.toTime 9).events 0 &&& 1 = 0)
    ∧ (let s := after fun b => ({ b with wft := { b.wft with engines := [(0, { Engine.fresh with queue := [⟨aStrobe, 0, 0⟩] })] } }.wr WFT_CTL.STRAND_EN 15)
      let y := s.blk.start.toBeat (s.blk.strand 0).freeAt
      (s.blk.engine (0 / 4)).queue = [⟨aStrobe, 0, 0⟩] ∧ y.strandFree 0 = true ∧ s.blk.standby = false)
    ∧ (let s := after fun b => b.setStrand 0 { Strand.fresh with hovr := some 7 }
      (s.blk.strand 0).hovr = some 7 ∧ (s.blk.strand 0).weave = none ∧ s.blk.standby = false)
    ∧ (let s := on (weft 0) (·.wr WFT_WDOG.WDOG 0)
      (s.blk.strand 0).weave = some aWeave ∧ aWeave.timed = false ∧ aWeave.handover = false ∧ s.blk.rd WFT_WDOG.WDOG (0 / 4) = 0)
    ∧ (let s := on (weft 0) (·.wr WFT_WDOG.WDOG 1)
      (s.blk.strand 0).weave = some aWeave ∧ s.blk.rd WFT_WDOG.WDOG (0 / 4) ≠ 0)
    ∧ (let s := weft 0 (fun s => { s with weave := some { aWeave with handover := true } })
      (s.blk.strand 0).weave = some { aWeave with handover := true } ∧ { aWeave with handover := true }.timed = false) := by decide +kernel

/-- A beat adds 2^25 / 5^9 units of HTIME (R45): 17 whole units, and 11 beats are the first to reach 189. -/
theorem wit_TimeAdvancesAtTheRate : let c := Block.atReset.clk
    (-10000000 ≤ c.rate ∧ c.rate ≤ 10000000 ∧ c.frac < htDen ∧ c.htime.toNat < (189 : BitVec 64).toNat ∧ (189 : BitVec 64).toNat + 2 ^ 8 < 2 ^ 64)
    ∧ (c.add 1).htime = 17 ∧ c.beatsTo 188 = 11 ∧ c.beatsTo 189 = 12 := by decide +kernel

theorem wit_WeftHostAccesses :
    (Block.atReset.bit WFT_IADDR.BANK_SEL 0 = false ∧ Block.atReset.bankLocked 0 = false)
    ∧ (Block.atReset.set WFT_IADDR.BANK_SEL 0).bit WFT_IADDR.BANK_SEL 0 = true ∧ (Block.atReset.set WFT_IADDR.BANK_SEL 31).bit WFT_IADDR.BANK_SEL 31 = true := by
  decide +kernel

/-- The word of an asynchronous instruction: RD 1, RA 2 and RB 3 where they are read, ticket 5, the rest 0. -/
def asyWord (o : AsyOp) : BitVec 64 :=
  let w := BitVec.ofNat 64 (o.op * 2 ^ 56 + 1 * 2 ^ 47 + 5 * 2 ^ 34)
  w ||| (if (o.reads w).length = 2 then 2 <<< 42 ||| 3 <<< 37 else if o.op = 0x85 then 3 <<< 37 else if o.op = 0x8A then 2 <<< 42 else 2 <<< 42)

theorem wit_WeftAsynchronousIssue : ∀ o ∈ asyOps, let w := asyWord o
    (weft w).blk.issues 0 o.op w (o.reads w) [iTK w] = true ∧ o.legal w = true ∧ (o.holders w).any ((weft w).blk.strand 0).khBusy = false
    ∧ iDADDR w + o.area ((weft w).blk.start.issued 0 (o.reads w)) 0 w ≤ 0x10000 := by decide +kernel

/-- With DADDR 0xFFFF the areas of CTXLD, CTXST, KEYREQ, RXARM and TXARM reach past the memory. -/
theorem wit_WeftAsynchronousIssue_range : ∀ o ∈ asyOps, o.op ∈ [0x80, 0x81, 0x84, 0x90, 0x91] → let w := asyWord o ||| 0xFFFF0000
    (weft w).blk.issues 0 o.op w (o.reads w) [iTK w] = true ∧ o.legal w = true ∧ (o.holders w).any ((weft w).blk.strand 0).khBusy = false
    ∧ 0x10000 < iDADDR w + o.area ((weft w).blk.start.issued 0 (o.reads w)) 0 w := by decide +kernel

/-- A ticket of a unit, due in beat 9 for w1. -/
def aTicket (u : TkUnit) : Ticket := { unit := u, due := 9, rs := 1, status := 3, area := 0, data := [1, 2], key := none, seq := 1 }

theorem wit_WeftDeliveries : ∀ u ∈ [TkUnit.ctxld, .ctxst, .keyreq, .seal, .opened, .qpop, .seen, .rxarm, .txarm],
    let s := weft 0 (fun s => { s with tks := [(5, aTicket u)] })
    let e := weft 0 (fun s => { s with tks := [(5, aTicket u)], ending := true })
    Tbl.find (s.blk.strand 0).tks 5 = some (aTicket u) ∧ (aTicket u).unit = u ∧ (s.blk.strand 0).ending = false
    ∧ ((aTicket u).rs ≠ 0 ∧ (∀ d ∈ (s.blk.strand 0).dues, d.reg = (aTicket u).rs → (aTicket u).due < d.beat)
      ∧ Tbl.find (s.blk.strand 0).lastDel (aTicket u).rs = none)
    ∧ (e.blk.strand 0).ending = true ∧ Tbl.erase (e.blk.strand 0).tks 5 = [] ∧ Tbl.find (weft 0).blk.wft.strands 1 = none := by decide +kernel

/-- The word of QPUSH or QTRY to queue `q` from area 0, with the length in w2. -/
def pushWord (op q : Nat) : BitVec 64 := BitVec.ofNat 64 (op * 2 ^ 56 + 1 * 2 ^ 47 + 2 * 2 ^ 42 + q)

/-- Queue 0 enabled with room for 32 wide words, one of them filled. -/
def queue0 (b : Block) : Block :=
  { b with plq := { b.plq with queues := [(0, { Queue.fresh with items := [⟨[7], []⟩] })] } }.setReg PLQ_CFG.all.base (fput (fput 0 PLQ_CFG.SIZE 2) PLQ_CFG.EN 1)

/-- Strand 0 before the word, w2 holding `n`, with queue 0 enabled if `en`. -/
def pushing (op q n : Nat) (en : Bool) : State :=
  on (weft (pushWord op q) (fun s => { s with regs := [(2, BitVec.ofNat 64 n)] })) (if en then queue0 else id)

theorem wit_WeftQueuePushes : ∀ op ∈ [0x88, 0x89],
    (let w := pushWord op 128
      let s := pushing op 128 5 false
      s.blk.issues 0 op w [iRA w] [] = true ∧ onlyUses (uRD ||| uRA ||| uDADDR ||| 0xFF) w = true ∧ 128 ≤ iAUX w % 256)
    ∧ (let w := pushWord op 127
      let x := (pushing op 127 5 false).blk.start.issued 0 [iRA w]
      iAUX w % 256 < 128 ∧ x.qEnabled 127 = false)
    ∧ (let w := pushWord op 0
      let s := pushing op 0 5 true
      let x := s.blk.start.issued 0 [iRA w]
      s.blk.issues 0 op w [iRA w] [] = true ∧ x.qEnabled 0 = true ∧ (x.w 0 (iRA w)).toNat % 2048 = 5 ∧ x.qSpace 0 5 false = true)
    ∧ (let w := pushWord op 0
      let x := (pushing op 0 0 true).blk.start.issued 0 [iRA w]
      x.qEnabled 0 = true ∧ (x.w 0 (iRA w)).toNat % 2048 = 0)
    ∧ (let w := pushWord op 0
      let x := (pushing op 0 2047 true).blk.start.issued 0 [iRA w]
      x.qEnabled 0 = true ∧ (x.w 0 (iRA w)).toNat % 2048 = 2047 ∧ x.qSpace 0 2047 false = false) := by decide +kernel

theorem wit_WeftQueuePushes_stall :
    (let s := on (waiting (.push 0 [1] 1 0)) queue0
      let x := s.blk.start.toBeat (max 0 (s.blk.queue 0).freedBeat + 1)
      (s.blk.strand 0).wait = .push 0 [1] 1 0 ∧ x.qSpace 0 1 false = true ∧ (x.checkWrite 0).queue 0 = x.queue 0)
    ∧ (let d : List Byte := List.replicate 2047 0
      let s := on (waiting (.push 0 d 1 0)) queue0
      let x := s.blk.start.toBeat (max 0 (s.blk.queue 0).freedBeat + 1)
      (s.blk.strand 0).wait = .push 0 d 1 0 ∧ x.qEnabled 0 = true ∧ x.qSpace 0 d.length false = false)
    ∧ (let s := waiting (.push 0 [1] 1 0)
      (s.blk.strand 0).wait = .push 0 [1] 1 0 ∧ (s.blk.start.toBeat (max 0 (s.blk.queue 0).freedBeat + 1)).qEnabled 0 = false)
    ∧ (Block.atReset.queue 255).wpA = ~~~(Block.atReset.queue 255).wpB := by decide +kernel

/-! ### Plait and the shaper -/

/-- The region of a write `v` of PLQ_CFG_n is accepted: SIZE 2 to 8,192, within the RAM, apart from that of every other queue enabled (R376). -/
def regionGood (s : State) (n : Nat) (v : Word) : Prop :=
  2 ≤ fget v PLQ_CFG.SIZE ∧ fget v PLQ_CFG.SIZE ≤ 8192 ∧ fget v PLQ_CFG.BASE + fget v PLQ_CFG.SIZE ≤ 8192
  ∧ ∀ m, m < 256 → m ≠ n → s.blk.bit PLQ_CFG.EN m = true →
    s.blk.rd PLQ_CFG.BASE m + s.blk.rd PLQ_CFG.SIZE m ≤ fget v PLQ_CFG.BASE ∨ fget v PLQ_CFG.BASE + fget v PLQ_CFG.SIZE ≤ s.blk.rd PLQ_CFG.BASE m

/-- The greatest region where no queue is enabled, and the least one just above queue 0 where that is; a queue enabled and one that is not. -/
theorem wit_PlaitQueueConfiguration : regionGood State.reset 0 0x48000000 ∧ State.reset.blk.bit PLQ_CFG.EN 0 = false
    ∧ regionGood (on State.reset queue0) 255 0x40008002 ∧ (on State.reset queue0).blk.bit PLQ_CFG.EN 255 = false
    ∧ (on State.reset queue0).blk.bit PLQ_CFG.EN 0 = true := by
  unfold regionGood
  decide +kernel

/-- SIZE 1; the last block of the RAM and one beyond it; a region upon queue 0. -/
theorem wit_PlaitQueueConfiguration_refused : ¬ regionGood State.reset 0 0x40004000 ∧ ¬ regionGood State.reset 0 0x40009FFF
    ∧ ¬ regionGood (on State.reset queue0) 255 0x40008001 := by
  refine ⟨?_, ?_, ?_⟩ <;> unfold regionGood <;> decide +kernel

/-- The shaper enabled with a pool of one buffer, context 1 enabled without a bound, and context 2 with the bound 1. -/
def shaping (b : Block) : Block :=
  { (b.set SHP_CTL.EN).wr SHP_POOL_COUNT.COUNT 1 with shp := { b.shp with
      ctxs := [(1, { ShpCtx.fresh with cfg := { ShpCfg.zero with en := true } }), (2, { ShpCtx.fresh with cfg := { ShpCfg.zero with en := true, qmax := 1 } })] } }

theorem wit_ShaperCommands :
    State.reset.blk.bit SHP_CTL.EN = false ∧ (on State.reset shaping).blk.bit SHP_CTL.EN = true
    ∧ (on State.reset (·.set SHP_CTX_ST.BUSY)).blk.bit SHP_CTX_ST.BUSY = true ∧ State.reset.blk.bit SHP_CTX_ST.BUSY = false
    ∧ State.reset.blk.rd SHP_CTX_CFG_2.DQ < 128
    ∧ (let s := on State.reset (·.wr SHP_CTX_CFG_2.DQ 128)
      ¬ (s.blk.rd SHP_CTX_CFG_2.DQ < 128 ∨ s.blk.rd SHP_CTX_CFG_2.AIR % 8 = 7 ∨ s.blk.shp.resv2 = true ∨ s.blk.shp.resv3 = true))
    ∧ (on State.reset (fun b => { b with shp := { b.shp with op := some 1 } })).blk.shp.op = some 1
    ∧ (let s := on State.reset shaping
      ∀ x ∈ [1, 2], (s.blk.ctx x).cfg.en = true ∧ (s.blk.ctx x).staged = none
        ∧ ((s.blk.ctx x).cfg.qmax = 0 ∨ (s.blk.ctx x).held.length ≠ (s.blk.ctx x).cfg.qmax) ∧ s.blk.poolUsed.length < s.blk.rd SHP_POOL_COUNT.COUNT)
    ∧ 2031 < (List.replicate 2032 (0 : Byte)).length
    ∧ ((State.reset.blk.ctx (65535 % 65536)).staged = none ∧ (State.reset.blk.ctx (65535 % 65536)).held = [] ∧ (State.reset.blk.ctx 0).staged = none
      ∧ (State.reset.blk.ctx 0).held = []) := by decide +kernel

/-! ### The receive array -/

theorem wit_ReceiveLinks :
    State.reset.blk.bit RXA_SYSREF_CFG.SYSREF_EN = false
    ∧ (let s := on State.reset (fun b => ((b.set RXA_SYSREF_CFG.SYSREF_EN).set RXA_SYSREF_CFG.CHECK).set RXA_LINK_CFG.EN 0)
      s.blk.bit RXA_SYSREF_CFG.SYSREF_EN = true ∧ Tbl.find s.blk.rxa.lemc 0 = none ∧ s.blk.bit RXA_LINK_CFG.EN 0 = true
      ∧ s.blk.bit RXA_LINK_CFG.EN 7 = false)
    ∧ (let s := on State.reset (fun b => { ((b.set RXA_SYSREF_CFG.SYSREF_EN).set RXA_SYSREF_CFG.CHECK).set RXA_LINK_ST.UP 0 with
          rxa := { b.rxa with lemc := [(0, 5)] } })
      Tbl.find s.blk.rxa.lemc 0 = some 5 ∧ s.blk.bit RXA_LINK_ST.UP 0 = true ∧ s.blk.bit RXA_SYSREF_CFG.CHECK = true
      ∧ ∀ ph ∈ [3, 7], 1 < (5 + 512 - ph % 512) % 512 ∧ (5 + 512 - ph % 512) % 512 < 511)
    ∧ fget 0 RXA_LINK_CFG.EN = State.reset.blk.rd RXA_LINK_CFG.EN 7 ∧ fget 0xFFFFFFFF RXA_LINK_CFG.EN ≠ State.reset.blk.rd RXA_LINK_CFG.EN 7
    ∧ (let s := on State.reset (fun b => (b.set RXA_LINK_CFG.EN 7).set RXA_LINK_ST.ALIGNED 7)
      s.blk.bit RXA_LINK_CFG.EN 7 = true ∧ s.blk.bit RXA_LINK_ST.ALIGNED 7 = true ∧ s.blk.bit RXA_LINK_ST.CFG_ERR 7 = false
      ∧ s.blk.bit RXA_LINK_ST.UP 7 = false) := by decide +kernel

/-- An open window of strand 0 on stream 0, every port, from time 0 to 1,000. -/
def aWindow : Window :=
  { strand := 0, live := true, band := 0, ch := 0, sfc := 0, ports := 0xFFFFFFFF, opens := 0, closes := 1000, ack := false, mode := 1, home := 0,
    lateArm := false, granted := false, queue := [], dets := [] }

/-- Feed 0 brings band 0 of one channel over link 0, which is up; window 1 is open, with the lanes and records given. -/
def receiving (lanes : Tbl Lane) (posts : List RxPost) (w : Window) (b : Block) : Block :=
  { (((b.set RXA_CTL.EN).set RXA_LINK_ST.UP 0).setReg TXC_REGION_ACT.all.base 0x100) with rxa := { b.rxa with
      feeds := [(0, ⟨0, 0, 0, 0, 0, 0, false⟩)], wins := [(1, w)], lanes := lanes, posts := posts, gaps := [] } }

/-- A lane of window 1 in a state, with a header. -/
def aLane (st : LaneSt) (hdr : Nat) : Lane := { Lane.new st 1 0 9 100 [⟨0, 100, 9, 0, 0, 0⟩] 0 0 with hdr := hdr, cws := freshCws hdr, fbuf := some 3 }

/-- A record of no lane, due at 64 quanta. -/
def aPost : RxPost := { due := 64, win := 1, lane := none, res := some 12, release := false, bytes := [] }

theorem wit_ReceiveLanes_agc :
    State.reset.blk.bit RXA_CTL.EN = false ∧ (on State.reset (receiving [] [] aWindow)).blk.bit RXA_CTL.EN = true
    ∧ State.reset.blk.streamErased 2047 = true ∧ (on State.reset (receiving [(0, aLane .acq 0)] [] aWindow)).blk.streamBusy 0 = true
    ∧ (let s := on State.reset (receiving [] [] aWindow)
      s.blk.streamBusy 0 = false ∧ s.blk.streamErased 0 = false) := by decide +kernel

/-- A firing of window 1 on stream 0, at a first-chip time and of a level. -/
def aFiring (t1 : DWord) (level : Nat) : Firing := { win := 1, stream := 0, t1 := t1, q := 0, level := level, psnr := 0, rssi := 0, phase := 0, power := 0 }

/-- A firing at either end of the window's range, of the least level that is a detection, and one below it; two of one cycle on two streams. -/
theorem wit_ReceiveLanes_detection :
    let s := on State.reset (receiving [] [] aWindow)
    s.blk.bit RXA_CTL.EN = true ∧ s.blk.streamOf 0 = some (0, 0, 0) ∧ Tbl.find s.blk.rxa.wins (aFiring 0 0).win = some aWindow
    ∧ 0 < s.blk.rd RXA_BAND.DET_THR 0
    ∧ s.blk.erasedAt 0 (htQ 1000 + s.blk.rd RXA_BAND.DET_SYMS 0 * (sfOfCode aWindow.sfc * tcQ (s.blk.bandProfile 0))) = false
    ∧ s.blk.erasedAt 0 (s.blk.rd RXA_BAND.DET_SYMS 0 * (sfOfCode aWindow.sfc * tcQ (s.blk.bandProfile 0))) = false
    ∧ aWindow.live = true ∧ s.blk.winCovers aWindow 0 = true ∧ aWindow.holds 0 = true ∧ aWindow.holds 1000 = true ∧ aWindow.holds 2000 = false
    ∧ Tbl.find aWindow.dets 0 = none
    ∧ ((aFiring 0 1).level ≠ (aFiring 0 2).level ∨ (aFiring 0 1).stream ≠ (aFiring 0 2).stream) := by decide +kernel

/-- A lane of each state; headers of a frame and of an ACK; the codewords of a frame of 14 bytes. -/
theorem wit_ReceiveLanes_header :
    (let s := on State.reset (receiving [(0, aLane .acq 0)] [] aWindow)
     Tbl.find s.blk.rxa.lanes 0 = some (aLane .acq 0) ∧ Tbl.find s.blk.rxa.wins (aLane .acq 0).win = some aWindow ∧ (aLane .acq 0).st = LaneSt.acq)
    ∧ (let s := on State.reset (receiving [(0, aLane .hdr 0)] [] aWindow)
      Tbl.find s.blk.rxa.lanes 0 = some (aLane .hdr 0) ∧ (aLane .hdr 0).st = LaneSt.hdr ∧ (aLane .hdr 0).hdr = 0
      ∧ ∀ p ∈ s.blk.rxa.posts, p.lane ≠ some 0)
    ∧ hdrOk (golayBlockDecode (golay 0) (golay 0) 0) = false
    ∧ (let h := golayBlockDecode (golay (hdrWithCrc (14 * 4))) (golay (hdrWithCrc (14 * 4) / 4096)) 0
      hdrOk h = true ∧ (hType h == tyACK) ≠ true)
    ∧ (let h := golayBlockDecode (golay (hdrWithCrc 1)) (golay (hdrWithCrc 1 / 4096)) 0
      hdrOk h = true ∧ (hType h == tyACK) ≠ aWindow.ack ∧ hType h = tyACK) := by decide +kernel

theorem wit_ReceiveLanes_codewords :
    (let l := aLane .pay (hdrWithCrc (14 * 4))
      let s := on State.reset (receiving [(0, l)] [] aWindow)
      let b := s.blk.start.toQ (s.blk.cwReady l aWindow 0)
      Tbl.find s.blk.rxa.lanes 0 = some l ∧ Tbl.find s.blk.rxa.wins l.win = some aWindow ∧ l.cws[0]? = some ⟨false, 0, 0, false⟩ ∧ l.st = .pay
      ∧ b.decoding < 8 ∧ b.earlierWaits l.p = false)
    ∧ (let l : Lane := { aLane .pay (hdrWithCrc (14 * 4)) with cws := [⟨true, 0, 1, false⟩] }
      let s := on State.reset (receiving [(0, l)] [] aWindow)
      Tbl.find s.blk.rxa.lanes 0 = some l ∧ l.cws[0]? = some ⟨true, 0, 1, false⟩ ∧ l.fbuf = some 3) := by decide +kernel

/-- A queue of eight records, the most it holds, and a ninth to post. -/
theorem wit_ReceiveRecordsAndCensus :
    State.reset.blk.rxa.posts = []
    ∧ (let s := on State.reset (receiving [] [aPost] aWindow)
      nextPost s.blk.rxa.posts = some aPost ∧ aPost.lane = none ∧ Tbl.find s.blk.rxa.wins aPost.win = some aWindow ∧ aWindow.live = true
      ∧ aWindow.queue.length < 8 ∧ 8 ≤ { aWindow with queue := List.replicate 8 ⟨[], 0⟩ }.queue.length)
    ∧ State.reset.blk.ringCands 0 = [] ∧ 8 ≤ ((weft 0 (fun s => { s with ringCount := 8 })).blk.strand 0).ringCount
    ∧ (let s := on (weft 0) (receiving [] [] { aWindow with queue := [⟨[], 0⟩] })
      s.blk.ringCands 0 ≠ [] ∧ (s.blk.strand 0).ringCount < 8 ∧ (s.blk.strand 0).weave.isSome = true)
    ∧ State.reset.blk.xcWindows (leAt [] 2 1) (leAt [] 3 1) (leAt [] 4 1 % 8) (BitVec.ofNat 64 (leAt [] 12 8)) = []
    ∧ (let l : Lane := { aLane .pay 0 with ships := [(7, 0)], cws := [⟨false, 0, 0, false⟩] }
      let s := on State.reset (receiving [(0, l)] [] aWindow)
      s.blk.rxa.lanes.find? (fun e => e.2.ships.contains (7, leAt [] 0 2)) = some (0, l) ∧ l.cws[leAt [] 2 1]? = some ⟨false, 0, 0, false⟩)
    ∧ (let l : Lane := { aLane .pay 0 with ships := [(7, 0)], cws := [⟨true, 0, 0, false⟩] }
      let s := on State.reset (receiving [(0, l)] [] aWindow)
      s.blk.rxa.lanes.find? (fun e => e.2.ships.contains (7, leAt [] 0 2)) = some (0, l) ∧ l.cws[leAt [] 2 1]? = some ⟨true, 0, 0, false⟩)
    ∧ State.reset.blk.rxa.cenPend = []
    ∧ (on State.reset (fun b => { b with rxa := { b.rxa with cenPend := [⟨1, 1, false, [], [], [], []⟩] } })).blk.rxa.cenPend = [⟨1, 1, false, [], [], [], []⟩] := by
  decide +kernel

/-- One window only can be picked. -/
theorem pick_one (b : Block) (n : Nat) : b.pick [n] = n := by simp [Block.pick, Nat.mod_one]

/-- A lane of header 0 that T1 0 names, and window 1 that takes it. -/
def shipLane : Lane := { aLane .pay 0 with t1 := 0 }

/-- See `shipLane`. -/
def shipState : State := on State.reset (receiving [(0, shipLane)] [] aWindow)

theorem wit_ReceiveRecordsAndCensus_shipment :
    shipState.blk.xcWindows (leAt [] 2 1) (leAt [] 3 1) (leAt [] 4 1 % 8) (BitVec.ofNat 64 (leAt [] 12 8)) = [1]
    ∧ Tbl.find shipState.blk.rxa.wins (shipState.blk.pick [1]) = some aWindow
    ∧ nearest (BitVec.ofNat 64 (leAt [] 12 8)) ((shipState.blk.winLanes (shipState.blk.pick [1])).filter (fun e => e.2.hdr == leAt [] 8 4 % 2 ^ 24
        && (e.2.st == .pay || e.2.st == .hdr) && within (BitVec.ofNat 64 (leAt [] 12 8)) e.2.t1 (shipState.blk.rd RXA_CAS_CFG.XC_WIN) (10 ^ 9)))
      = some (0, shipLane) := by
  rw [pick_one]
  decide +kernel

/-! ### The transmitter and the beacon -/

/-- A transmission of a 14-byte frame at T1 1,000 on ports 0 and 1. -/
def aTx : Tx :=
  { owner := .strand 0, ports := [⟨0, false, .live, 0⟩, ⟨1, true, .live, 0⟩], band := 0, ch := 0, sfc := 0, mod := 0, code := 0,
    frame := .bytes 0 (List.replicate 14 0), t1 := 1000, nc := 100, tc := 10, atten := 0, air := 1, clamp := false, clip := false, recheck := false,
    aborted := false, cutAt := 0, due := 10 ^ 9 }

/-- The transmission armed as number 5. -/
def sending (b : Block) : Block := { b with txc := { b.txc with txs := [(5, aTx)] } }

theorem wit_TransmitPorts_links :
    fget 0 TXC_PORT_CFG.EN = State.reset.blk.rd TXC_PORT_CFG.EN 7 ∧ fget 0xFFFFFFFF TXC_PORT_CFG.EN ≠ State.reset.blk.rd TXC_PORT_CFG.EN 7
    ∧ fget 0xFFFFFFFF TXC_PORT_CFG.EN = 1
    ∧ (let s := on State.reset (fun b => (b.set TXC_PORT_CFG.EN 7).set TXC_PORT_ST.ALIGNED 7)
      s.blk.bit TXC_PORT_CFG.EN 7 = true ∧ s.blk.rd TXC_PORT_CFG.RATE 7 ≠ 3 ∧ s.blk.bit TXC_PORT_ST.ALIGNED 7 = true
      ∧ s.blk.bit TXC_PORT_ST.LINK_UP 7 = false)
    ∧ (let s := on (on State.reset sending) (·.set TXC_PORT_ST.LINK_UP 0)
      s.blk.bit TXC_PORT_ST.LINK_UP 0 = true ∧ Tbl.find s.blk.txc.txs 5 = some aTx ∧ s.blk.nowQ < aTx.endQ) := by decide +kernel

/-- Port 0 is live and not started, port 1 live and started; a clearing that gates port 0, and none; the only transmission, with PA set. -/
theorem wit_TransmitPorts_transmissions :
    let s := on State.reset sending
    Tbl.find State.reset.blk.txc.txs 5 = none ∧ Tbl.find s.blk.txc.txs 5 = some aTx
    ∧ aTx.ports.any (fun p => p.port == 0 && !p.started && p.ended == .live) = true
    ∧ aTx.ports.any (fun p => p.port == 1 && p.started && p.ended == .live) = true
    ∧ (on s (fun b => (b.set CLR_STAT.ACTIVE).wr CLR_CTL.PORTMASK 1)).blk.bit CLR_STAT.ACTIVE = true
    ∧ bitOf ((on s (fun b => (b.set CLR_STAT.ACTIVE).wr CLR_CTL.PORTMASK 1)).blk.rd CLR_CTL.PORTMASK) 0 = true
    ∧ s.blk.bit CLR_STAT.ACTIVE = false
    ∧ s.blk.txc.txs = [(5, aTx)] ∧ bitOf ((on s (·.wr TXC_STAT.PA 2)).blk.rd TXC_STAT.PA) 1 = true
    ∧ Block.paOn (s.blk.start.toQ (aTx.startQ - s.blk.paLead 0)) 0 = false
    ∧ Block.paOn ((on s (·.wr TXC_STAT.PA 1)).blk.start.toQ (aTx.startQ - s.blk.paLead 0)) 0 = true
    ∧ (1 ≠ 0 ∧ aTx.ports.any (fun p => p.port == 1 && p.started && p.ended == .live) = true)
    ∧ State.reset.blk.txc.txs = [] ∧ nextTx s.blk.txc.txs = some (5, aTx) := by decide +kernel

theorem wit_TransmitterStopsAndClears :
    State.reset.blk.bit TXC_CTL.EN = false ∧ (on State.reset (·.set TXC_CTL.EN)).blk.bit TXC_CTL.EN = true
    ∧ Tbl.find (sending Block.atReset).txc.txs 5 = some aTx ∧ (sending Block.atReset).nowQ < aTx.endQ
    ∧ (∀ e ∈ (sending Block.atReset).txc.txs, e.1 = 5 → e.2 = aTx) ∧ State.reset.blk.pwr.rst.isSome = true
    ∧ (on State.reset (fun b => { b with pwr := { b.pwr with rst := none } })).blk.pwr.rst = none
    ∧ State.reset.blk.pins.clrReq = false ∧ State.reset.blk.bit CLR_STAT.ACTIVE = false
    ∧ (on State.reset (fun b => { b with pins := { b.pins with clrReq := true } })).blk.pins.clrReq = true
    ∧ (on State.reset (·.set CLR_STAT.ACTIVE)).blk.bit CLR_STAT.ACTIVE = true ∧ (on State.reset (·.set CLR_STAT.ACTIVE)).blk.pins.clrReq = false
    ∧ (let x : Tx := { aTx with t1 := 0 }
      x.startQ ≤ State.reset.blk.nowQ ∧ State.reset.blk.nowQ ≤ x.endQ) := by decide +kernel

/-- The self-test of a gated port in cell 1 of superframe 0, and of a port that is not gated. -/
theorem wit_TransmitterStopsAndClears_test :
    let s := on State.reset (fun b => (({ b with clk := { b.clk with htime := 0x1000000 } }).wr CLR_CTL.TEST_LOG2 0).wr CLR_CTL.PORTMASK 0x80)
    s.blk.testDue 7 = true ∧ s.blk.testDue 0 = false := by decide +kernel

/-- Heartwood in NORMAL with an FC key in slot 0, beacons on. -/
def beaconing (b : Block) : Block :=
  ({ b with hwd := { b.hwd with slots := [(0, { KSlot.empty with act := ⟨1, 1, 0, []⟩ })] } }.wr HWD_STATE.ST hsNORMAL).set MAS_CTL.BCN_EN

theorem wit_SeenCacheAndBeacons :
    State.reset.blk.bit MAS_CTL.BCN_EN = false
    ∧ (let s := on State.reset (fun b => (beaconing b).wr HOOP_STATE.TQ 5)
      s.blk.bit MAS_CTL.BCN_EN = true ∧ s.blk.rd HOOP_STATE.TQ = 5 ∧ s.blk.bit HOOP_CTL.BCN_OVR = false)
    ∧ (let s := on State.reset (fun b => (beaconing b).wr HOOP_STATE.TQ 7)
      s.blk.rd HOOP_STATE.TQ = 7 ∧ (on s (·.set HOOP_CTL.BCN_OVR)).blk.bit HOOP_CTL.BCN_OVR = true)
    ∧ (let s := on State.reset (fun b => (beaconing b).wr HOOP_STATE.TQ 6)
      let b := s.blk.start.toTime (htAt s.blk.sf 0xFF000000)
      let half := (b.slot (b.rd MAS_BCN_CTL.BKSLOT)).halfFor (b.sf + 1) b.clk.beat
      s.blk.rd HOOP_STATE.TQ = 6 ∧ s.blk.hwdNormal = true ∧ half.typ = 1 ∧ half.allows mkFC = true ∧ 8 ∣ b.announce.1.length)
    ∧ (let s := on State.reset (fun b => ({ beaconing b with hwd := b.hwd }).wr HOOP_STATE.TQ 0)
      let b := s.blk.start.toTime (htAt s.blk.sf 0xFF000000)
      let half := (b.slot (b.rd MAS_BCN_CTL.BKSLOT)).halfFor (b.sf + 1) b.clk.beat
      s.blk.rd HOOP_STATE.TQ = 0 ∧ half.typ ≠ 1) := by decide +kernel

/-- With EN 0 a beacon is refused; with EN 1, no port to send on, and band 0 of one channel, its status is the first that applies. -/
theorem wit_SeenCacheAndBeacons_refused :
    Block.atReset.txStatus ⟨.beacon, 0, 0, 0, 0, 0, 0, .bytes tyBEACON [], htAt 1 0, 0⟩ Block.atReset.clk.htime ≠ 0 := by decide +kernel

/-- With the transmitter on, the link of port 0 up, band 0 of one channel and its budget without limit, a beacon is armed. -/
theorem wit_SeenCacheAndBeacons_armed :
    let b := (((Block.atReset.set TXC_CTL.EN).set TXC_PORT_ST.LINK_UP 0).setReg TXC_REGION_ACT.all.base 0x100).setReg TXC_DWELL_ACT.all.base 0xFFFFFFF
    b.txStatus ⟨.beacon, 1, 0, 0, 0, 0, 0, .bytes tyBEACON [], htAt 1 0, 0⟩ b.clk.htime = 0 := by decide +kernel

/-! ### The Hoop -/

/-- The block with its discipline changed. -/
def disciplined (f : HoopSync → HoopSync) (b : Block) : Block := b.setSync (f b.hoop.sync)

/-- PPS: the first edge is accepted; 1 s after an edge one within 1 µs (4,294 units) is, one further off is not, until four windows have closed. -/
theorem wit_HoopMeasurements_pps :
    let y (closed : Nat) : HoopSync := { Block.atReset.hoop.sync with ppsLast := some 0x500000000, ppsClosed := closed }
    ppsAccepted Block.atReset.hoop.sync 7 = true ∧ ppsAccepted (y 0) (0x600000000 + 4294) = true ∧ ppsAccepted (y 3) (0x600000000 + 4295) = false
    ∧ ppsAccepted (y 4) (0x600000000 + 4295) = true ∧ ppsAccepted (y 0) (0x500000000 + 4294) = false := by decide +kernel

theorem wit_HoopMeasurements_sources :
    State.reset.blk.hoop.sync.ppsLast = none
    ∧ (let s := on State.reset (disciplined (fun y => { y with ppsLast := some 7, ppsClosed := 3 }))
      s.blk.hoop.sync.ppsLast = some 7 ∧ s.blk.hoop.sync.ppsClosed < 4)
    ∧ 4 ≤ (on State.reset (disciplined (fun y => { y with ppsLast := some 7, ppsClosed := 4 }))).blk.hoop.sync.ppsClosed
    ∧ (let s := on State.reset (fun b => { b with clk := { b.clk with htime := 0x100000001 } })
      s.blk.rd64 HOOP_PTP_STAMP_LO.all HOOP_PTP_STAMP_HI.all + 2 ^ 32 < s.blk.clk.htime.toNat)
    ∧ (let s := on State.reset (fun b => { b with clk := { b.clk with htime := 0x100000000 } })
      s.blk.clk.htime.toNat ≤ s.blk.rd64 HOOP_PTP_STAMP_LO.all HOOP_PTP_STAMP_HI.all + 2 ^ 32)
    ∧ State.reset.blk.hoop.sync.ptpLast = none
    ∧ (on State.reset (disciplined (fun y => { y with ptpLast := some 7 }))).blk.hoop.sync.ptpLast ≠ none := by decide +kernel

/-- The lock states with REF_OK, an error above STEP_THR and one within LOCK_THR, and a register write that changes PSRC. -/
theorem wit_HoopMeasurements_lock :
    (Block.atReset.clr HOOP_STATE.REF_OK).bit HOOP_STATE.REF_OK = false ∧ (Block.atReset.set HOOP_STATE.REF_OK).bit HOOP_STATE.REF_OK = true
    ∧ (∀ l, l < 4 → (Block.atReset.wr HOOP_STATE.LOCK l).lock = l) ∧ Block.atReset.errPasses 0 = true ∧ Block.atReset.errBig (2 ^ 63) = true
    ∧ (Block.atReset.set HOOP_CTL.STEP_EN).bit HOOP_CTL.STEP_EN = true
    ∧ (let b := (Block.atReset.set RXA_STAT.DSP_HOLD).set HOOP_STATE.REF_OK
      b.bit RXA_STAT.DSP_HOLD = true ∧ b.bit HOOP_STATE.REF_OK = true)
    ∧ (let b := (Block.atReset.wr HOOP_STATE.LOCK lkHOLDOVER).setReg HOOP_HOLD_MAX.all.base 1
      b.lock = lkHOLDOVER ∧ b.reg HOOP_HOLD_MAX.all.base ≠ 0 ∧ Block.atReset.lock ≠ lkHOLDOVER)
    ∧ fget 0xFFFFFFFF HOOP_CTL.REARM = 1 ∧ fget 0xFFFFFFFF HOOP_CTL.FORCE_SW = 1 ∧ fget 0 HOOP_CTL.FORCE_SW = 0 := by decide +kernel

theorem wit_HoopRedundancy :
    (let s := on State.reset (·.wr HOOP_STATE.STBY 3)
     s.blk.rd HOOP_STATE.STBY = 3 ∧ s.blk.hoop.red.dead = false ∧ s.blk.hoop.red.gap = false)
    ∧ (let s := on State.reset (·.wr HOOP_STATE.STBY 0)
      s.blk.rd HOOP_STATE.STBY ≠ 3 ∧ s.blk.hoop.red.dead = false ∧ s.blk.hoop.red.gap = false)
    ∧ (on State.reset (fun b => b.setRed { b.hoop.red with gap := true, ckptA := none })).blk.hoop.red.gap = true
    ∧ (on State.reset (fun b => b.setRed { b.hoop.red with dead := true })).blk.hoop.red.dead = true
    ∧ (∀ st ∈ [0, 2], let s := on State.reset (fun b => ((b.wr HOOP_STATE.STBY st).set HOOP_CTL.PROOF_NOW).setRed { b.hoop.red with proofFrom := some 0 })
      s.blk.proofDue = true ∧ s.blk.rd HOOP_STATE.STBY = st)
    ∧ (on State.reset (·.wr HOOP_STATE.STBY 1)).blk.rd HOOP_STATE.STBY = 1 ∧ (on State.reset (·.wr HOOP_STATE.STBY 2)).blk.rd HOOP_STATE.STBY ≠ 1
    ∧ State.reset.blk.hoop.red.proofMism = 0 ∧ State.reset.blk.failoverDue = none ∧ State.reset.blk.hoopDown = false
    ∧ (let s := on State.reset (fun b => { b.setRed { b.hoop.red with hbX := ⟨4, 4⟩, hbY := ⟨4, 4⟩ } with clk := { b.clk with beat := 130 } })
      s.blk.hoop.red.gap = false ∧ s.blk.hoop.red.dead = false ∧ s.blk.rd HOOP_STATE.STBY ≠ 3 ∧ s.blk.failoverDue = some 132
      ∧ (on s (·.wr HOOP_STATE.STBY 3)).blk.failoverDue = some 132)
    ∧ (State.reset.blk.hoop.red.hbStop = none ∧ (none : Option (Nat × Bool)) ≠ some (1, true))
    ∧ (on State.reset (fun b => b.setRed { b.hoop.red with hbStop := some 0 })).blk.hoop.red.hbStop = some 0
    ∧ (on State.reset (fun b => b.setRed { b.hoop.red with proofMism := 1 })).blk.hoop.red.proofMism ≠ 0 := by decide +kernel

theorem wit_WarpWindow :
    (State.reset.blk.bit HOOP_WARP_ADDR.BANK_SEL = false ∧ State.reset.blk.epochBusy = false)
    ∧ (on State.reset (·.set HOOP_WARP_ADDR.BANK_SEL)).blk.bit HOOP_WARP_ADDR.BANK_SEL = true
    ∧ (∀ st ∈ [epVALIDATING, epARMED], (on State.reset (·.wr HOOP_EPOCH_ST.ST st)).blk.epochBusy = true) := by decide +kernel

/-- VALIDATING with a count of one more than the banks hold, with H 13, with the same EPOCH, with ACT_SF too near, with a descriptor of a reserved
type, and with nothing wrong. -/
theorem wit_HoopEpochs_validation :
    let v (f : Block → Block) := on State.reset (fun b => f ((b.wr HOOP_EPOCH_ST.ST epVALIDATING).setReg HOOP_ACT_SF.all.base 2))
    (v id).blk.rd HOOP_EPOCH_ST.ST = epVALIDATING
    ∧ (let s := v (fun b => (b.wr HOOP_EPOCH_PEND.SWAP 1).wr HOOP_WARP_COUNT.COUNT 131073)
      bitOf (s.blk.rd HOOP_EPOCH_PEND.SWAP) 0 = true ∧ 131072 < s.blk.rd HOOP_WARP_COUNT.COUNT)
    ∧ 12 < (v (·.wr HOOP_EPOCH_PEND.H 13)).blk.rd HOOP_EPOCH_PEND.H ∧ ¬ 12 < (v (·.wr HOOP_EPOCH_PEND.H 12)).blk.rd HOOP_EPOCH_PEND.H
    ∧ (v id).blk.rd HOOP_EPOCH_PEND.EPOCH = (v id).blk.rd HOOP_EPOCH_ACT.EPOCH
    ∧ (let s := v (fun b => (b.wr HOOP_EPOCH_PEND.EPOCH 1).setReg HOOP_ACT_SF.all.base 1)
      s.blk.rd HOOP_EPOCH_PEND.EPOCH ≠ s.blk.rd HOOP_EPOCH_ACT.EPOCH ∧ s.blk.actSf < s.blk.hoop.warp.commitSf + 2)
    ∧ (let s := v (·.wr HOOP_EPOCH_PEND.EPOCH 1)
      ¬ s.blk.actSf < s.blk.hoop.warp.commitSf + 2 ∧ s.blk.badDesc s.blk.hoop.warp.bank (s.blk.rd HOOP_WARP_ACT_COUNT.COUNT) (s.blk.rd HOOP_EPOCH_PEND.H) = none)
    ∧ (let s := v (fun b => ((b.wr HOOP_EPOCH_PEND.EPOCH 1).wr HOOP_WARP_ACT_COUNT.COUNT 1).setWarp { b.hoop.warp with warp := [(0, 0x81C00000)] })
      s.blk.badDesc s.blk.hoop.warp.bank (s.blk.rd HOOP_WARP_ACT_COUNT.COUNT) (s.blk.rd HOOP_EPOCH_PEND.H) = some 0) := by decide +kernel

/-- ARMED with HOLD_EN and a mismatch two superframes before ACT_SF (held) or three (not held), frozen, and the other states. -/
theorem wit_HoopEpochs_activation :
    let a (sf : Nat) (frozen : Bool) := on State.reset (fun b => (((b.wr HOOP_EPOCH_ST.ST epARMED).set HOOP_CTL.HOLD_EN).wr HOOP_ACT_SF.all sf).setWarp
      { b.hoop.warp with pendMm := some 3, frozen := frozen })
    (a 5 false).blk.rd HOOP_EPOCH_ST.ST = epARMED ∧ (a 5 false).blk.hoop.warp.frozen = false ∧ (a 5 false).blk.bit HOOP_CTL.HOLD_EN = true
    ∧ (a 5 false).blk.hoop.warp.pendMm = some 3 ∧ (a 5 false).blk.actSf ≤ 3 + 2 ∧ ¬ (a 6 false).blk.actSf ≤ 3 + 2
    ∧ (a 5 true).blk.rd HOOP_EPOCH_ST.ST = epARMED ∧ (a 5 true).blk.hoop.warp.frozen = true
    ∧ State.reset.blk.rd HOOP_EPOCH_ST.ST = epIDLE ∧ State.reset.blk.bit HOOP_CTL.HOLD_EN = false := by decide +kernel

/-- Descriptor 0 of bank 0 occupied in every superframe, with words 2 and 3 as given, of one in use. -/
def warped (w2 w3 : BitVec 32) (f : HoopWarp → HoopWarp) (b : Block) : Block :=
  (b.wr HOOP_WARP_ACT_COUNT.COUNT 1).setWarp (f { b.hoop.warp with warp := [(0, 0x80000000), (2, w2), (3, w3), (4, 1)] })

theorem wit_HoopGroupsAndStrobes :
    State.reset.blk.countFor 1 ≤ 0
    ∧ (let s := on State.reset (warped 0x800 0 id)
      let k := s.blk.bankFor 1
      0 < s.blk.countFor 1 ∧ s.blk.occupied k 0 1 = true ∧ s.blk.dsc k 0 2 11 11 ≠ 0 ∧ s.blk.dsc k 0 2 11 11 = 1
      ∧ s.blk.hoop.sync.strobeFloor.toNat ≤ s.blk.strobeTime k 0 1 ∧ s.blk.hoop.warp.scan ≤ s.blk.strobeTime k 0 1 ∧ s.blk.hoop.red.dead = false ∧ s.blk.hoop.red.journal.contains (0, 1) = false)
    ∧ (let s := on State.reset (warped 0 0 id)
      let k := s.blk.bankFor 1
      s.blk.occupied k 0 1 = true ∧ s.blk.dsc k 0 2 11 11 ≠ 1 ∧ s.blk.hoop.red.gap = false)
    ∧ (on (on State.reset (warped 0 0 id)) (fun b => b.setRed { b.hoop.red with gap := true })).blk.hoop.red.gap = true
    ∧ (∀ w ∈ [0, 0x80000000], let s := on State.reset (warped 0x800 0 (fun y => { y with groups := [⟨0, 1, BitVec.ofNat 32 w, false⟩] }))
      (s.blk.groupOf 0 1).map (fun g => (g.idx, g.sf, g.word.toNat, g.err)) = some (0, 1, w, false))
    ∧ ((0x80000000 : BitVec 32).getLsbD 31 = true ∧ (0 : BitVec 32).getLsbD 31 = false) := by decide +kernel

/-- No step waits; one waits for an instant before the next cell, and, of 1 unit in the last unit of a cell, for one after it begins. -/
theorem wit_CellBoundaryAndSteps :
    let p (e : Int) := on State.reset (fun b => (b.set HOOP_CTL.STEP_EN).setSync { b.hoop.sync with pendStep := some e })
    State.reset.blk.stepDue = none ∧ (p 5).blk.stepDue = some 5 ∧ (p (-5)).blk.stepDue = some (-5)
    ∧ (p (-5)).blk.clk.cell = 0 ∧ stepInstant (p (-5)).blk.clk.htime (-5) ≤ (0 + 1) * 2 ^ 24
    ∧ (let s := on (p 1) (fun b => { b with clk := { b.clk with htime := 0xFFFFFF } })
      s.blk.stepDue = some 1 ∧ (s.blk.clk.cell + 1) * 2 ^ 24 < stepInstant s.blk.clk.htime 1)
    ∧ Block.atReset.hoop.red.gap = false ∧ Block.atReset.hoop.red.dead = false ∧ Block.atReset.hoop.red.hbStop = none := by decide +kernel

/-! ### Grove -/

/-- Grove enabled and ready, its map and journal above its directory. -/
def groving (b : Block) : Block :=
  (((b.set GRV_CTL.EN).set GRV_STAT.READY).setReg GRV_MAP_BASE_HI.all.base 1).setReg GRV_JRNL_BASE_HI.all.base 2

/-- The journal holds, first, a whole entry of record 0 with a zero image. -/
def journalled (b : Block) : Block :=
  let e : List Byte := [0, 0, 0, 0x80] ++ List.replicate 248 0
  ((groving b).set GRV_STAT.REPLAYING).dramWrite (2 ^ 33) (e ++ leBytes 4 (crc32 e))

theorem wit_GroveJournalAndDrain_entry :
    (journalled Block.atReset).jrnlEntry 0 = (some (0, 0, List.replicate 128 0), false) ∧ (journalled Block.atReset).bit GRV_STAT.REPLAYING = true
    ∧ apart ((journalled Block.atReset).grvRec 0) 128 ((journalled Block.atReset).grvJrnl 0) (2 ^ 18) := by
  refine ⟨by decide +kernel, by decide +kernel, ?_⟩
  unfold apart
  decide +kernel

/-- An entry of zeros is dropped: its JCHK fails. -/
theorem zero_entry (b : Block) (j : Nat) (h : b.dramBytes (b.grvJrnl j) 256 = List.replicate 256 0) : b.jrnlEntry j = (none, true) := by
  unfold Block.jrnlEntry
  rw [h]
  decide +kernel

/-- An address above every key of a table reads as unlisted. -/
theorem get_above {α : Type} (d : Nat → α) (a : Nat) : ∀ t : Tbl α, (∀ e ∈ t, e.1 < a) → Tbl.get d t a = d a
  | [], _ => rfl
  | e :: t, h => by
    have h1 : e.1 < a := h e (List.mem_cons_self ..)
    have h2 := get_above d a t (fun x hx => h x (List.mem_cons_of_mem _ hx))
    obtain ⟨k, v⟩ := e
    simp only [Tbl.get] at h2 ⊢
    have : ¬ k = a := by omega
    simp_all

theorem journal_keys : ∀ e ∈ (journalled Block.atReset).dram.bytes, e.1 < 2 ^ 33 + 256 := by decide +kernel

theorem journal_base : (journalled Block.atReset).grvJrnl 0 = 2 ^ 33 := by decide +kernel

theorem grvJrnl_succ (b : Block) (j : Nat) : b.grvJrnl (j + 1) = b.grvJrnl 0 + 256 * (j + 1) := by
  unfold Block.grvJrnl
  omega

theorem later_entry (j i : Nat) : 2 ^ 33 + 256 ≤ 2 ^ 33 + 256 * (j + 1) + i := by omega

theorem journal_zeros (j : Nat) : (journalled Block.atReset).dramBytes ((journalled Block.atReset).grvJrnl (j + 1)) 256 = List.replicate 256 0 := by
  rw [grvJrnl_succ, journal_base]
  unfold Block.dramBytes
  rw [List.eq_replicate_iff]
  refine ⟨by simp, fun x hx => ?_⟩
  obtain ⟨i, _, rfl⟩ := List.mem_map.mp hx
  unfold Block.dramByte
  rw [get_above]
  · rfl
  · exact fun e he => Nat.lt_of_lt_of_le (journal_keys e he) (later_entry j i)

/-- Of a list of results only the first is one. -/
theorem only_first {α : Type} (f : Nat → Option α × Bool) (x : α) (n : Nat) (h0 : (f 0).1 = some x) (h : ∀ j ∈ List.range n, (f (j + 1)).1 = none) :
    ((List.range (n + 1)).map f).filterMap (·.1) = [x] := by
  rw [List.range_succ_eq_map, List.map_cons, List.filterMap_cons, h0, List.map_map, List.filterMap_map]
  exact congrArg (x :: ·) (List.filterMap_eq_nil_iff.mpr h)

/-- The whole entry is the only one that a replay finds. -/
theorem wit_GroveJournalAndDrain_replay :
    ((List.range 1024).map (journalled Block.atReset).jrnlEntry).filterMap (·.1) = [(0, 0, List.replicate 128 0)] := by
  refine only_first _ _ 1023 ?_ (fun j hj => ?_)
  · rw [wit_GroveJournalAndDrain_entry.1]
  · rw [zero_entry _ _ (journal_zeros j)]

theorem wit_GroveJournalAndDrain :
    State.reset.blk.bit GRV_CTL.EN = false ∧ (on State.reset groving).blk.bit GRV_CTL.EN = true ∧ State.reset.blk.bit GRV_STAT.REPLAYING = false
    ∧ State.reset.blk.grv.wb = []
    ∧ (∀ n ∈ [0, 1, 2, 3], let s := on State.reset (fun b => { groving b with grv := { b.grv with wb := [⟨7, []⟩], wbStep := n } })
      s.blk.dram.err = [] ∧ s.blk.ras.err = [] ∧ s.blk.grv.wb = [⟨7, []⟩] ∧ s.blk.grv.wbStep = n ∧ s.blk.grvJrnl (s.blk.grv.seq % 1024) % 8 = 0
      ∧ s.blk.wordPoisoned (s.blk.grvJrnl (s.blk.grv.seq % 1024) / 8) = false) := by decide +kernel

/-- The areas at their greatest lie apart when the map and the journal lie above the directory. -/
theorem wit_GroveInitAndSweeper :
    let s := on State.reset (fun b => (groving b).clr GRV_CTL.EN)
    s.blk.bit GRV_CTL.EN = false ∧ (on State.reset groving).blk.bit GRV_CTL.EN = true ∧ s.blk.dramPoisoned (s.blk.grvRec 33554431) 128 = false
    ∧ (s.blk.grvRec 0 + 2 ^ 32 ≤ s.blk.grvMap 0) ∧ (s.blk.grvRec 0 + 2 ^ 32 ≤ s.blk.grvJrnl 0) := by decide +kernel

/-- Record `i` is in the cache with a state in byte 56 and the rest zero, its lock as given. -/
def cached (i st : Nat) (lock : Option Nat) (b : Block) : Block :=
  { b with grv := { b.grv with lines := [(grvSet i * 16, ⟨i, splice (List.replicate 128 0) 56 (leBytes 1 st), false, 0, lock, 0, false, false⟩)] } }

/-- An ACTIVE record last heard in superframe 0: silent from the first superframe after SILENT_N superframes of 2^H, locked or not. -/
theorem wit_GroveInitAndSweeper_sweep :
    let s (sf : Nat) (lock : Option Nat) := on State.reset (fun b => { (((cached 1 gsACTIVE lock (groving b)).set GRV_CTL.SWEEP_EN).wr GRV_SWEEP_CFG.SILENT_N 3)
      with clk := { b.clk with htime := BitVec.ofNat 64 (sf * 2 ^ 32) }, grv := { (cached 1 gsACTIVE lock b).grv with sweep := some 1 } })
    (s 4 none).blk.bit GRV_CTL.SWEEP_EN = true ∧ (s 4 none).blk.bit GRV_STAT.READY = true ∧ recState ((s 4 none).blk.recordNow 1) = gsACTIVE
    ∧ (s 4 none).blk.recordLocked 1 = false ∧ (s 4 (some 0)).blk.recordLocked 1 = true
    ∧ (s 4 none).blk.rd GRV_SWEEP_CFG.SILENT_N * 2 ^ (s 4 none).blk.rd HOOP_EPOCH_ACT.H < (s 4 none).blk.sf - leAt ((s 4 none).blk.recordNow 1) 76 4
    ∧ ¬ (s 3 none).blk.rd GRV_SWEEP_CFG.SILENT_N * 2 ^ (s 3 none).blk.rd HOOP_EPOCH_ACT.H < (s 3 none).blk.sf - leAt ((s 3 none).blk.recordNow 1) 76 4
    ∧ (s 4 none).blk.grv.sweep = some 1 ∧ (s 4 none).blk.recordPoisoned 1 = false ∧ (s 4 none).blk.dram.err = [] ∧ (s 4 none).blk.ras.err = []
    ∧ (on (s 4 none) (fun b => { b with grv := { b.grv with lines := [] } })).blk.recordPoisoned 1 = true
    ∧ (on (s 4 none) (fun b => { b with grv := { b.grv with sweep := none, sweepSf := some 3 } })).blk.grv.sweep = none
    ∧ State.reset.blk.bit GRV_CTL.SWEEP_EN = false := by
  decide +kernel

/-- A record with a frame of a type waits; an entry of the heard table. -/
def hearing (typ : Nat) (heard : Tbl HeardE) (b : Block) : Block :=
  { b with grv := { b.grv with heard := heard, heardQ := [(List.replicate 4 0 ++ leBytes 4 typ, List.replicate 14 0)] } }

/-- An entry of an address. -/
def aHeard (a : Nat) : HeardE := ⟨a, 0, 0, 0, 1, 0, 0, []⟩

/-- A SHORT frame names address 0, a BEACON none; the entry is held in way 3, way 0 is the lowest free, and all eight ways hold others. -/
theorem wit_HeardTable :
    State.reset.blk.grv.heardQ = []
    ∧ (∀ ty ∈ [tySHORT, tyBEACON], (on State.reset (hearing ty [])).blk.grv.heardQ = [(List.replicate 4 0 ++ leBytes 4 ty, List.replicate 14 0)])
    ∧ heardAddr (leAt (List.replicate 4 0 ++ leBytes 4 tyBEACON) 4 4) (List.replicate 14 0) = none
    ∧ heardAddr (leAt (List.replicate 4 0 ++ leBytes 4 tySHORT) 4 4) (List.replicate 14 0) = some 0
    ∧ ((on State.reset (hearing tySHORT [(3, aHeard 0)])).blk.hrdWays 0).findSome? (fun x => match x.2 with
        | some y => if y.addr = 0 then some (x.1, y) else none | none => none) = some (3, aHeard 0)
    ∧ ((on State.reset (hearing tySHORT [])).blk.hrdWays 0).find? (fun x => x.2.isNone) = some (0, none)
    ∧ (let ways := (on State.reset (hearing tySHORT ((List.range 8).map (fun i => (i, aHeard 7))))).blk.hrdWays 0
      (∀ x ∈ ways, x.2 = some (aHeard 7)) ∧ (aHeard 7).addr ≠ 0 ∧ (∀ x ∈ ways, x.2.isSome = true)
      ∧ hrdOldest (ways.filterMap (fun x => x.2.map (fun y => (x.1, y)))) = some 0) := by decide +kernel

/-- Grove ready and not, BUSY and not, records 0 and 1 of each state, and an operation that awaits completion. -/
theorem wit_GroveHostAccess :
    (on State.reset (·.set GRV_HA_ST.BUSY)).blk.bit GRV_HA_ST.BUSY = true ∧ State.reset.blk.bit GRV_HA_ST.BUSY = false ∧ State.reset.blk.haReady = false
    ∧ (∀ st, st < 8 → let s := on State.reset (fun b => (cached 1 st none (groving b)).wr GRV_HA_IDX.IDX 1)
      s.blk.bit GRV_HA_ST.BUSY = false ∧ s.blk.haReady = true ∧ s.blk.rd GRV_HA_IDX.IDX = 1 ∧ recState (s.blk.recordNow 1) = st
      ∧ s.blk.recordLocked 1 = false ∧ recState s.blk.haImage = gsFREE ∧ s.blk.recordPoisoned 1 = false ∧ s.blk.recordFree 1 = (st == gsFREE)
      ∧ s.blk.dram.err = [] ∧ s.blk.ras.err = [])
    ∧ (on State.reset (fun b => cached 1 2 (some 0) (groving b))).blk.recordLocked 1 = true
    ∧ (let s := on State.reset groving
      s.blk.haReady = true ∧ s.blk.recordPoisoned 0 = true)
    ∧ State.reset.blk.grv.ha = none
    ∧ (on State.reset (fun b => { b with grv := { b.grv with ha := some ⟨0, some [1], some 2⟩ } })).blk.grv.ha = some ⟨0, some [1], some 2⟩ := by
  decide +kernel

/-- The payload of a MACCMD frame with one JOIN_REQ: the mandatory code and modulation, class 0, no capabilities and a firmware version. -/
def joinPayload : List Byte := [1, 8, 1, 1, 0, 0, 1, 2, 3, 4]

/-- Steward cores 1 and 2 serve the Grove. -/
def stewarded (b : Block) : Block := (b.set SYS_MBX_STATE.READY).wr SYS_MBX_STATE.STW_UP 15

/-- Records of every state, with a JOIN_REQ and with a pending join; a record locked, a poisoned one, and steward cores that restart. -/
theorem wit_GroveStewards_joins :
    (∀ st, st < 6 → let s := on State.reset (fun b => stewarded (cached 1 st none (groving b)))
      s.blk.bit GRV_STAT.READY = true ∧ s.blk.stewardUp 1 = true ∧ s.blk.recordLocked 1 = false ∧ s.blk.recordPoisoned 1 = false
      ∧ recState (s.blk.recordNow 1) = st ∧ (s.blk.recordNow 1).length = 128 ∧ s.blk.dram.err = [] ∧ s.blk.ras.err = [])
    ∧ (macBodies 1 joinPayload).filter (fun d => d.length == 8) = [[1, 1, 0, 0, 1, 2, 3, 4]]
    ∧ (∀ d ∈ macBodies 1 [1, 7, 0, 0, 0, 0, 0, 0, 0], d.length ≠ 8) ∧ macBodies 1 [9, 1, 0, 1, 200] = []
    ∧ 1 ∈ (on State.reset (fun b => { b with stw := { b.stw with joins := [1] } })).blk.stw.joins
    ∧ (let s := on State.reset (fun b => stewarded (groving b))
      s.blk.stewardUp 1 = true ∧ s.blk.recordLocked 1 = false ∧ s.blk.recordPoisoned 1 = true)
    ∧ State.reset.blk.bit GRV_STAT.READY = false ∧ (on State.reset groving).blk.stewardUp 1 = false
    ∧ (on State.reset (cached 1 2 (some 0))).blk.recordLocked 1 = true := by
  decide +kernel

/-- Node 1 is heard by this device with quality 5. -/
def heardNode (lock : Option Nat) (b : Block) : Block :=
  let b := stewarded ((cached 1 gsACTIVE lock (groving b)).set GRV_RL_CFG.RL_EN)
  { b with grv := { b.grv with heard := [(hrdSet 1 * 8, ⟨1, 0, 0, 0, 1, 0, 0, [0, 5]⟩)] } }

/-- A load that a lock alone refuses ends with the one status of the refusal. -/
theorem grvLoad_refused (b : Block) (k i n key : Nat) (l : GLine) (h1 : b.bit GRV_STAT.READY = true) (h2 : b.lockFails k i = [n])
    (h3 : (b.recordTouch i).grvFind i = some (key, l)) (h4 : l.bad = false) : (b.grvLoad k i true).1.1 = n := by
  simp [Block.grvLoad, h1, h2, h3, h4, pick_one]

/-- The lock of the record that strand 3 holds is refused to steward core 2. -/
theorem wit_GroveStewards_locked : ((on State.reset (heardNode (some 3))).blk.start.grvLoad 130 1 true).1.1 ≠ 0 := by
  rw [grvLoad_refused _ 130 1 4 (grvSet 1 * 16) ⟨1, splice (List.replicate 128 0) 56 (leBytes 1 gsACTIVE), false, 0, some 3, 0, false, false⟩
    (by decide +kernel) (by decide +kernel) (by decide +kernel) rfl]
  decide

/-- A report without neighbours whose one candidate is the device itself; a record locked, a foreign address, no command of the kind. -/
theorem wit_GroveStewards_routes :
    (let s := on State.reset (heardNode none)
     s.blk.bit GRV_RL_CFG.RL_EN = true ∧ s.blk.bit GRV_STAT.READY = true ∧ s.blk.stewardUp 2 = true ∧ homeOf 1 = s.blk.rd CNP_STAT.POS
      ∧ macBodies 7 [7, 0] = [[]] ∧ routeNbs [] = [] ∧ s.blk.recordPoisoned 1 = false ∧ recState (s.blk.recordNow (1 % 2 ^ 25)) ≠ gsFREE
      ∧ (bestParent (s.blk.candidates 1 [])).isSome = true ∧ (s.blk.start.grvLoad 130 1 true).1.1 = 0
      ∧ (s.blk.recordNow (1 % 2 ^ 25)).length = 128 ∧ s.blk.dram.err = [] ∧ s.blk.ras.err = [])
    ∧ macBodies 7 joinPayload = []
    ∧ homeOf (2 ^ 25) ≠ State.reset.blk.rd CNP_STAT.POS ∧ State.reset.blk.bit GRV_RL_CFG.RL_EN = false ∧ State.reset.blk.candidates 1 [] = [] := by
  decide +kernel

/-! ### Heartwood -/

/-- The steward has a mailbox command with a length and arguments, with Heartwood in NORMAL. -/
def commanded (op len : Nat) (args : List (BitVec 32)) (b : Block) : Block :=
  let b := (((((b.wr SYS_MBX_STATE.PHASE phBUSY).set SYS_MBX_STATE.READY).wr SYS_MBX_CMD.OPCODE op).wr SYS_MBX_CMD.ARG_LEN len).wr HWD_STATE.ST hsNORMAL)
  ((List.range args.length).zip args).foldl (fun b a => b.setReg (SYS_MBX_ARG.all.off a.1) a.2) b

/-- The least and the greatest ARG_LEN that each command of Heartwood takes (R370). -/
def hwdLens : List (Nat × (Nat → Bool) × List Nat) :=
  [(0x1000, (· == 0), [0]), (0x1001, (1 < ·), [2, 64]), (0x1002, (· == 0), [0]), (0x1003, (· == 0), [0]), (0x1004, (· == 11), [11]),
   (0x1010, (19 ≤ ·), [19, 64]), (0x1011, (5 ≤ ·), [5, 64]), (0x1012, (· == 2), [2]), (0x1013, (· == 1), [1]), (0x1014, (· == 1), [1]),
   (0x1015, (· == 1), [1]), (0x1016, (1 < ·), [2, 64]), (0x1020, (· == 1), [1]), (0x1021, (3 < ·), [4, 64]), (0x1022, (· == 6), [6]),
   (0x1030, (· == 17), [17]), (0x1031, (· == 61), [61]), (0x1040, (· == 0), [0]), (0x1041, (· == 0), [0])]

/-- Each is taken with those lengths; one of 65 words is not, nor is any when no command is with the steward, nor in ALARM. -/
theorem wit_HeartwoodServes : State.reset.blk.mbxServes 0x1000 = false
    ∧ ∀ x ∈ hwdLens, (∀ n ∈ x.2.2, (on State.reset (commanded x.1 n [])).blk.hwdTakes x.1 x.2.1 = true)
      ∧ (let s := on State.reset (commanded x.1 65 [])
        s.blk.mbxServes x.1 = true ∧ s.blk.mbxTakes x.1 x.2.1 = false)
      ∧ (let s := on State.reset (fun b => (commanded x.1 (x.2.2.headD 0) [] b).wr HWD_STATE.ST hsALARM)
        s.blk.mbxTakes x.1 x.2.1 = true ∧ s.blk.hwdNormal = false) := by decide +kernel

theorem wit_HeartwoodServes_state : ∀ st ∈ [hsNORMAL, hsALARM, hsZEROISED, hsTAMPERED],
    let s := on State.reset (fun b => (commanded 0x1041 0 [] b).wr HWD_STATE.ST st)
    s.blk.mbxTakes 0x1041 (· == 0) = true ∧ s.blk.rd HWD_STATE.ST = st := by decide +kernel

/-- Registers 1 and 2 of EXTEND with 240 and 241 bytes; a QUOTE at an aligned address without DRAM; a signing key in slot 0. -/
theorem wit_HeartwoodMeasuresAndSigns :
    (∀ k ∈ [1, 2], ∀ n ∈ [0, 1, 240, 241], let s := on State.reset (commanded 0x1001 (1 + wordsOf n) [BitVec.ofNat 32 (k + n * 2 ^ 16)])
      (n ≠ 0 → s.blk.hwdTakes 0x1001 (1 < ·) = true) ∧ s.blk.argN 0 % 8 = k ∧ s.blk.argN 0 / 2 ^ 16 % 256 = n ∧ s.blk.argLen = 1 + wordsOf n)
    ∧ (let s := on State.reset (fun b => commanded 0x1030 17 [0] { b with hwd := { b.hwd with slots := [(0, { KSlot.empty with act := ⟨3, 2 ^ mkSIGN, 0, []⟩ })] } })
      s.blk.hwdTakes 0x1030 (· == 17) = true ∧ (s.blk.slot (s.blk.argN 0 % 64)).act.typ = 3 ∧ (s.blk.slot (s.blk.argN 0 % 64)).act.allows mkSIGN = true)
    ∧ (on State.reset (commanded 0x1031 61 [0x80000000])).blk.hwdTakes 0x1031 (· == 61) = true := by decide +kernel

/-- Slot 63 in each state of a swap, with a command for it. -/
def slotted (op len : Nat) (args : List (BitVec 32)) (st : Nat) (b : Block) : Block :=
  commanded op len args { b with hwd := { b.hwd with slots := [(63, { KSlot.empty with act := ⟨1, 63, 0, List.replicate 16 0⟩, st := st })] } }

theorem wit_HeartwoodSlots : ∀ st, st < 4 →
    (let s := on State.reset (slotted 0x1012 2 [0x13F, 2] st)
     s.blk.hwdTakes 0x1012 (· == 2) = true ∧ s.blk.argN 0 % 64 = 63 ∧ s.blk.argN 0 / 2 ^ 8 % 4 = 1 ∧ (s.blk.slot 63).st = st ∧ ¬ s.blk.argN 1 ≤ s.blk.sf + 1)
    ∧ (on State.reset (slotted 0x1012 2 [0x13F, 1] st)).blk.argN 1 ≤ (on State.reset (slotted 0x1012 2 [0x13F, 1] st)).blk.sf + 1
    ∧ (let s := on State.reset (slotted 0x1011 5 [0x0100003F, 0, 0, 1] st)
      s.blk.hwdTakes 0x1011 (5 ≤ ·) = true ∧ s.blk.argLen = 4 + wordsOf (1 + 0) ∧ s.blk.argN 3 % 256 = 1 ∧ s.blk.argN 3 / 2 ^ 16 = 0)
    ∧ (let s := on State.reset (slotted 0x1010 19 [0x0104003F] st)
      s.blk.hwdTakes 0x1010 (19 ≤ ·) = true ∧ s.blk.argN 0 / 2 ^ 16 % 8 = 4 ∧ typeLen 4 ≠ 0 ∧ s.blk.argLen = 19 ∧ s.blk.argN 0 / 2 ^ 24 = 1)
    ∧ (let s := on State.reset (slotted 0x1015 1 [0x3F] st)
      s.blk.hwdTakes 0x1015 (· == 1) = true ∧ (s.blk.slot (s.blk.argN 0 % 64)).act.allows mkEXPORT = true)
    ∧ (let s := on State.reset (slotted 0x1016 11 [0x3F, 0x01100102] st)
      s.blk.hwdTakes 0x1016 (1 < ·) = true ∧ blobKlen (s.blk.argBytes 1 8) = 16 ∧ s.blk.argLen = 1 + wordsOf (24 + 16)
      ∧ typeLen (leAt (s.blk.argBytes 1 8) 3 1) = 16 ∧ leAt (s.blk.argBytes 1 8) 1 1 < 64)
    ∧ (on State.reset (slotted 0x1013 1 [0x3F] st)).blk.hwdTakes 0x1013 (· == 1) = true
    ∧ (let s := on State.reset (slotted 0x1014 1 [0x3F] st)
      s.blk.hwdTakes 0x1014 (· == 1) = true ∧ s.blk.wrapSlot 0 ≠ some 63 ∧ s.blk.wrapSlot 1 ≠ some 63) := by decide +kernel

/-- A wrap key in slot 1 named by WSEL 0, a transport key in slot 2, and 1 GiB of DRAM. -/
def wrapping (op len : Nat) (args : List (BitVec 32)) (b : Block) : Block :=
  let k : Half := ⟨2, 63, 0, List.replicate 32 0⟩
  (((commanded op len args { b with hwd := { b.hwd with slots := [(1, { KSlot.empty with act := k }), (2, { KSlot.empty with act := k })] } }).wr
    HWD_WRAP_CFG.WRAP_SLOT_0 1).set HWD_WRAP_CFG.W0_VALID).setReg DDRC_CFG.all.base (fput (fput 0 DDRC_CFG.GIB 1) DDRC_CFG.CH0_UP 1)

theorem wit_HeartwoodWraps :
    (on State.reset (wrapping 0x1020 1 [0x80000000])).blk.hwdTakes 0x1020 (· == 1) = true
    ∧ (let s := on State.reset (wrapping 0x1020 1 [0x200])
      s.blk.hwdTakes 0x1020 (· == 1) = true ∧ (s.blk.argN 0).testBit 31 = false ∧ s.blk.transportKey (s.blk.argN 0 / 2 ^ 8 % 64) ≠ none
      ∧ s.blk.wrapKey 0 ≠ none ∧ s.blk.wrapKey 1 = none)
    ∧ (let s := on State.reset (wrapping 0x1021 13 [0x200, 0, 0, 0x00100001])
      s.blk.hwdTakes 0x1021 (3 < ·) = true ∧ blobKlen (s.blk.argBytes 3 8) = 16 ∧ s.blk.argLen = 3 + wordsOf (24 + 16))
    ∧ (∀ n ∈ [1, 65536], let s := on State.reset (wrapping 0x1022 6 [0x200, 0, 0, 0x400000, 0, BitVec.ofNat 32 n])
      s.blk.hwdTakes 0x1022 (· == 6) = true ∧ s.blk.argN 5 = n ∧ s.blk.mbxArg64 3 % 8 = 0 ∧ s.blk.mbxArg64 1 + 64 * n ≤ s.blk.mbxArg64 3
      ∧ s.blk.mbxArg64 3 + 64 * n ≤ s.blk.dramSize)
    ∧ (on State.reset (wrapping 0x1040 0 [])).blk.hwdTakes 0x1040 (· == 0) = true := by decide +kernel

/-- An ALARM, tamper inputs disabled and enabled, the pack retained in SLEEP or not, LOCK set and not, and the credits at 63 and 64. -/
theorem wit_TamperAndCredits :
    (on State.reset (·.wr HWD_STATE.ST hsALARM)).blk.rd HWD_STATE.ST = hsALARM
    ∧ (on State.reset (·.clr HWD_TIN_CFG.EN0)).blk.bit HWD_TIN_CFG.EN0 = false ∧ (on State.reset (·.clr HWD_TIN_CFG.EN1)).blk.bit HWD_TIN_CFG.EN1 = false
    ∧ (on State.reset (·.set HWD_TIN_CFG.EN0)).blk.bit HWD_TIN_CFG.EN0 = true ∧ (on State.reset (·.set HWD_TIN_CFG.EN1)).blk.bit HWD_TIN_CFG.EN1 = true
    ∧ (let s := on State.reset (fun b => { b.clr PWR_CTL.SEC_KEEP with pwr := { b.pwr with sleep := true } })
      s.blk.pwr.sleep = true ∧ s.blk.bit PWR_CTL.SEC_KEEP = false)
    ∧ State.reset.blk.pwr.sleep = false
    ∧ (on State.reset (·.set HWD_TIN_CFG.LOCK)).blk.bit HWD_TIN_CFG.LOCK = true ∧ State.reset.blk.bit HWD_TIN_CFG.LOCK = false
    ∧ (∀ n ∈ [63, 64], (on State.reset (·.wr HWD_CREDIT.CREDIT n)).blk.rd HWD_CREDIT.CREDIT = n) := by decide +kernel

/-- A blob of a zero key, sealed under a zero wrap key for address 0, opens, and not for address 1. -/
theorem wit_HeartwoodWraps_blob : let k : List Byte := List.replicate 32 0
    let blob := blobSeal k [1, 0, 16, 0, 0, 0, 0, 0] (leBytes 4 0) (List.replicate 16 0)
    blobOpen k blob (leBytes 4 0) = some (List.replicate 16 0) ∧ blobOpen k blob (leBytes 4 1) = none := by decide +kernel

theorem leBytes_len (n v : Nat) : (leBytes n v).length = n := by
  induction n generalizing v with
  | zero => rfl
  | succ n ih => simp [leBytes, ih]

theorem edSign_len (sk m : List Byte) : (edSign sk m).length = 114 := by
  simp [edSign, edEncode, leBytes_len]

/-- A quote of no register has 170 bytes; 1 GiB of DRAM holds it at 0 (R342). -/
theorem wit_HeartwoodMeasuresAndSigns_quote :
    let s := on State.reset (wrapping 0x1004 11 [])
    s.blk.hwdTakes 0x1004 (· == 11) = true
    ∧ (let q := s.blk.quote (s.blk.argN 0 % 256) (s.blk.argBytes 3 32)
      ¬ (s.blk.mbxArg64 1 % 64 ≠ 0 ∨ s.blk.dramSize < s.blk.mbxArg64 1 + q.length ∨ s.blk.dramPoisoned (s.blk.mbxArg64 1) q.length = true)) := by
  have h (b : Block) (l : List Byte) : (b.quote 0 l).length = 56 + l.length + 0 + 82 := by
    have e : (List.range 8).filter (bitOf 0) = [] := by decide +kernel
    simp [Block.quote, signData, edSign_len, leBytes_len, ascii, e]
    omega
  refine ⟨by decide +kernel, ?_⟩
  have h0 : (on State.reset (wrapping 0x1004 11 [])).blk.argN 0 % 256 = 0 := by decide +kernel
  have h1 : ((on State.reset (wrapping 0x1004 11 [])).blk.argBytes 3 32).length = 32 := by decide +kernel
  simp only [h0, h, h1]
  decide +kernel

/-- A command served with each of the effects that wait for its completion. -/
theorem wit_HeartwoodSlots_completes :
    ∀ fx ∈ [HwdFx.extend 1 [0], .fill 63 ⟨1, 1, 0, []⟩, .commit 63 0 0, .commit 63 1 2, .cancel 63, .erase 63, .wrap 1 (some 63), .wrap 0 none, .flush, .write 64 [1] true],
    let s := on State.reset (fun b => { (b.wr SYS_MBX_STATE.PHASE phBUSY).set SYS_MBX_STATE.READY with
      stw := { b.stw with held := some (0, []) }, hwd := { b.hwd with fx := fx } })
    s.blk.mbxBusy = true ∧ s.blk.bit SYS_MBX_STATE.READY = true ∧ s.blk.stw.held = some (0, []) ∧ s.blk.hwd.fx = fx
    ∧ s.blk.dram.err = [] ∧ s.blk.ras.err = [] ∧ s.blk.dramPoisoned 64 1 = false := by decide +kernel

/-- TAMPER_IN0 low for no cycle is not active, high for its filter's cycles under POL0 it is. -/
theorem wit_TamperAndCredits_pins :
    let s := on State.reset (fun b => (b.set HWD_TIN_CFG.EN0).set HWD_TIN_CFG.POL0)
    (decide (s.blk.rd HWD_TIN_CFG.TIN_FILT ≤ 0) && (s.blk.bit HWD_TIN_CFG.EN0 && false == s.blk.bit HWD_TIN_CFG.POL0)) = false
    ∧ (decide (s.blk.rd HWD_TIN_CFG.TIN_FILT ≤ s.blk.rd HWD_TIN_CFG.TIN_FILT) && (s.blk.bit HWD_TIN_CFG.EN0 && true == s.blk.bit HWD_TIN_CFG.POL0)) = true := by
  decide +kernel

/-! ### The border -/

theorem wit_reset_inv : State.Inv State.reset := by
  unfold State.Inv
  decide +kernel

/-- DMA runs; ring 3 of each direction is enabled with 16 descriptors, of which one is posted. -/
def ringing (b : Block) : Block :=
  let b := { (b.set PCI_CTL.DMA_EN).set PCI_STAT.LINK_UP with fn := { b.fn with busMaster := true } }
  let b := ((b.set PCI_H2D_CFG.EN 3).wr PCI_H2D_CFG.LOG2 4 3).wr PCI_H2D_TAIL.TAIL 1 3
  ((b.set PCI_D2H_CFG.EN 3).wr PCI_D2H_CFG.LOG2 4 3).wr PCI_D2H_TAIL.TAIL 1 3

/-- LOG2 4 and 16 are taken, 3 and 17 not; a TAIL of 15 is in a ring of 16, one of 16 is not; write-backs wait with a coalescing count. -/
theorem wit_DmaRings : ∀ d ∈ [false, true],
    ((on State.reset ringing).blk.ringEn d 3 = true ∧ (on State.reset ringing).blk.ringEn d 0 = false
      ∧ (on State.reset ringing).blk.ringSize d 3 = 16 ∧ 16 ≤ 16 % 65536 ∧ ¬ 16 ≤ 15 % 65536)
    ∧ ([3, 4, 16, 17].map (fun n => decide (fget (fput 0 PCI_H2D_CFG.LOG2 n) PCI_H2D_CFG.LOG2 < 4 ∨ 16 < fget (fput 0 PCI_H2D_CFG.LOG2 n) PCI_H2D_CFG.LOG2))
      = [true, false, false, true])
    ∧ (State.reset.blk.coal d 3).1 = 0
    ∧ (let s := on State.reset (fun b => ((ringing b).wr PCI_H2D_COAL.COAL_N 1 3).wr PCI_D2H_COAL.COAL_N 1 3 |>.setCoal d 3 (1, 9))
      (s.blk.coal d 3).1 ≠ 0 ∧ s.blk.ringF d PCI_H2D_COAL.COAL_N PCI_D2H_COAL.COAL_N 3 ≠ 0) := by decide +kernel

/-- A descriptor of a kind, well formed. -/
def aDesc (kind : Nat) : H2dDesc := ⟨0, 60, kind, 0, 0, 0, 0⟩

/-- Ring 3 is next; descriptors of each kind, of the greatest length and one more; Ethernet port 0 up and down. -/
theorem wit_H2dRings :
    State.reset.blk.h2dNext = none ∧ (on State.reset ringing).blk.h2dNext = some 3 ∧ (∀ k, k < 3 → h2dBad (aDesc k) = false ∧ (aDesc k).flags % 4 = k)
    ∧ h2dBad (aDesc 3) = true ∧ h2dBad { aDesc 0 with len := 9600 } = false ∧ h2dBad { aDesc 0 with len := 9601 } = true
    ∧ h2dBad { aDesc 0 with len := 0 } = true ∧ (on State.reset (·.set ETH_STAT.LINK_UP 0)).blk.bit ETH_STAT.LINK_UP 0 = true
    ∧ State.reset.blk.bit ETH_STAT.LINK_UP 0 = false := by decide +kernel

/-- Port 1 enabled in each MODE; frames that are no IPv6, that are local and that are to be looked up, of the greatest length and one more. -/
theorem wit_EthernetPorts :
    (∀ m, m < 4 → let s := on State.reset (fun b => (b.set ETH_CTL.EN 1).wr ETH_CTL.MODE m 1)
      s.blk.bit ETH_CTL.EN 1 = true ∧ s.blk.rd ETH_CTL.MODE 1 = m)
    ∧ (let s := on State.reset (fun b => (((ringing b).set ETH_STAT.LINK_UP 1).set ETH_CTL.PROMISC 1).wr ETH_EXC.EXC_RING 3 1 |>.set BGH_CTL.EN)
      let f (ty : Nat) (hlim : Nat) : List Byte := List.replicate 12 0 ++ beBytes 2 ty ++ List.replicate 7 0 ++ leBytes 1 hlim ++ List.replicate 32 0
      s.blk.bit ETH_STAT.LINK_UP 1 = true ∧ (∀ ty ∈ [0x0800, 0x86DD], s.blk.ethAccepts 1 (f ty 2) = true ∧ (frameTci (f ty 2)).isSome = false
        ∧ beNat (slice (f ty 2) 12 2) = ty ∧ (f ty 2).length + 4 ≤ s.blk.rd ETH_MAXLEN.LEN 1)
      ∧ s.blk.rd ETH_EXC.EXC_RING 1 = 3 ∧ s.blk.ringReady true 3 = true ∧ s.blk.bit BGH_CTL.EN = true
      ∧ 1 < ip6Hlim (s.blk.ip6Pad (f 0x86DD 2 |>.drop 14)) ∧ ¬ 1 < ip6Hlim (s.blk.ip6Pad (f 0x86DD 1 |>.drop 14)))
    ∧ (let s := on State.reset (fun b => b.wr ETH_MAXLEN.LEN 64 1)
      (s.blk.rd ETH_MAXLEN.LEN 1 < (List.replicate 61 (0 : Byte)).length + 4) ∧ ¬ s.blk.rd ETH_MAXLEN.LEN 1 < (List.replicate 60 (0 : Byte)).length + 4)
    ∧ State.reset.blk.ethAccepts 1 (List.replicate 60 2) = false ∧ State.reset.blk.ringReady true 0 = false := by decide +kernel

/-- The last entry and the one after it; entries that agree with the shadow and that do not; a root entry without a child, with and without a result. -/
theorem wit_BoughTables :
    (on State.reset (·.wr BGH_ENT_IDX.IDX bghEntries)).blk.rd BGH_ENT_IDX.IDX = bghEntries
    ∧ (on State.reset (·.wr BGH_ENT_IDX.IDX (bghEntries - 1))).blk.rd BGH_ENT_IDX.IDX < bghEntries
    ∧ (let s := on State.reset (fun b => b.set BGH_CTL.SCRUB_EN)
      s.blk.bit BGH_CTL.SCRUB_EN = true ∧ s.blk.bghEnt 0 = BitVec.ofNat 32 (s.blk.dramLe (s.blk.bghShadow + 4 * 0) 4)
      ∧ (s.blk.setEnt 0 7).bghEnt 0 ≠ BitVec.ofNat 32 ((s.blk.setEnt 0 7).dramLe ((s.blk.setEnt 0 7).bghShadow + 4 * 0) 4))
    ∧ State.reset.blk.bit BGH_CTL.SCRUB_EN = false ∧ (on State.reset (·.set BGH_CTL.LOAD)).blk.bit BGH_CTL.LOAD = true
    ∧ State.reset.blk.bit BGH_CTL.LOAD = false ∧ State.reset.blk.wordPoisoned (State.reset.blk.bghShadow / 8) = false
    ∧ (let s := on State.reset (fun b => { (b.set BGH_CTL.SCRUB_EN).setEnt 0 7 with dram := { b.dram with poison := [(b.bghShadow / 8, true)] } })
      s.blk.dram.err = [] ∧ s.blk.ras.err = [] ∧ s.blk.bit BGH_CTL.SCRUB_EN = true ∧ s.blk.wordPoisoned ((s.blk.bghShadow + 4 * s.blk.bdr.scrub) / 8) = true)
    ∧ (on State.reset (·.set BGH_CTL.LOAD)).blk.dram.err = [] ∧ (on State.reset (·.set BGH_CTL.LOAD)).blk.ras.err = []
    ∧ Tbl.find (Tbl.put (fun _ => (0 : Word)) [] BGH_NH_LO.all.base 5) BGH_NH_LO.all.base = some 5
    ∧ (∀ e ∈ [0, 0x40000000], ((Block.atReset.setEnt 0 (BitVec.ofNat 32 e)).bghEnt (beNat (slice [] 0 2))).getLsbD 31 = false) := by decide +kernel

/-- Queue 0 of a mode with its one item, whose ring has a descriptor. -/
def upQueue (mode : Nat) (b : Block) : Block := ((ringing (queue0 b)).wr BGH_UQ.MODE mode 0).wr BGH_UQ.RING 3 0

theorem wit_UpQueuesAndDownlinkPackets :
    (∀ m, m < 4 → let s := on State.reset (upQueue m)
      s.blk.rd BGH_UQ.MODE 0 = m ∧ s.blk.qEnabled 0 = true ∧ s.blk.bit PLQ_CFG.EN 0 = true ∧ (s.blk.queue 0).items = [⟨[7], []⟩]
      ∧ (s.blk.queue 0).rpA = ~~~(s.blk.queue 0).rpB ∧ s.blk.dram.err = [] ∧ s.blk.ras.err = [] ∧ s.blk.ringReady true (s.blk.rd BGH_UQ.RING 0) = true
      ∧ (⟨[7], []⟩ : QItem).read ≠ [] ∧ (⟨[7], []⟩ : QItem).read.length ≤ 1 ∧ s.blk.fwdFree 0 (s.blk.itemDecide (⟨[7], []⟩ : QItem).read).1 = true)
    ∧ (let s := on State.reset (fun b => (upQueue 2 b).wr BGH_UQ.RING 0 0)
      s.blk.ringReady true (s.blk.rd BGH_UQ.RING 0) = false ∧ s.blk.fwdFree 0 (s.blk.itemDecide (⟨[7], []⟩ : QItem).read).1 = false)
    ∧ (∀ m ∈ [1, 3], let s := on State.reset (fun b => { upQueue m b with plq := { b.plq with queues := [(0, { Queue.fresh with items := [⟨[7], []⟩], rpA := 1 })] } })
      s.blk.rd BGH_UQ.MODE 0 = m ∧ s.blk.ringReady true (s.blk.rd BGH_UQ.RING 0) = true ∧ s.blk.qHead 0 ≠ none
      ∧ (s.blk.queue 0).rpA ≠ ~~~(s.blk.queue 0).rpB)
    ∧ State.reset.blk.qHead 0 = none ∧ State.reset.blk.bit PLQ_CFG.EN 0 = false
    ∧ (on State.reset (fun b => (upQueue 1 b).clr PLQ_CFG.EN 0)).blk.bit PLQ_CFG.EN 0 = false
    ∧ homeOf (leAt (leBytes 4 (2 ^ 25)) 0 4 % 2 ^ 28) ≠ State.reset.blk.rd CNP_STAT.POS
    ∧ homeOf (leAt [0, 0, 0, 0, 1] 0 4 % 2 ^ 28) = State.reset.blk.rd CNP_STAT.POS ∧ leAt [0, 0, 0, 0, 1] 4 1 = 1 := by decide +kernel

/-! ### The Canopy -/

/-- The Canopy enabled as position 0, following master 1, both ports up. -/
def ringed (b : Block) : Block :=
  let b := ((b.set CNP_CTL.EN).set CNP_PORT_E.LINK_UP).set CNP_PORT_W.LINK_UP
  { (b.clr CNP_STAT.MASTER).wr CNP_STAT.MASTER_POS 1 with cnp := { b.cnp with led := true } }

/-- The Canopy part of the block changed. -/
def cnpWith (f : Cnp → Cnp) (b : Block) : Block := { ringed b with cnp := f (ringed b).cnp }

/-- Both ports changed. -/
def portsWith (f : CnpPort → CnpPort) : Block → Block := cnpWith (fun c => { c with east := f c.east, west := f c.west })

theorem wit_CanopyPorts :
    State.reset.blk.bit CNP_CTL.EN = false ∧ (on State.reset ringed).blk.bit CNP_CTL.EN = true ∧ fget (cnpWord 0xFFFFFFFF) CNP_CTL.EN = 1
    ∧ fget (cnpWord 0) CNP_CTL.EN = 0 ∧ fget (0xFFFFFFFF : Word) CNP_CTL.FWRAP_E = 1 ∧ fget (0xFFFFFFFF : Word) CNP_CTL.FWRAP_W = 1
    ∧ (∀ w ∈ [false, true], State.reset.blk.portUp w = false ∧ (on State.reset ringed).blk.portUp w = true
      ∧ (on State.reset (·.set CNP_CTL.EN)).blk.portUp w = false) := by decide +kernel

/-- A flit of a type from position 1 to `dest` after `hops`, with its FCRC. -/
def aFlit (ty dest hops : Nat) : List Byte :=
  let f := leBytes 1 ty ++ [1] ++ leBytes 1 dest ++ leBytes 1 hops ++ List.replicate 56 0
  f ++ leBytes 4 (crc32 f)

/-- A DATA flit for this device, transit flits of 14 and 15 hops, a flit with a wrong FCRC, and a wrapped port. -/
theorem wit_CanopyFlits :
    (∀ h ∈ [14, 15], ∀ ty ∈ [1, 2, 8], let f := slice (aFlit ty 2 h) 0 64
      leAt f 60 4 = crc32 (f.take 60) ∧ leAt f 1 1 % 8 ≠ (on State.reset ringed).blk.cpos ∧ leAt f 0 1 = ty ∧ leAt f 2 1 % 8 = 2 ∧ leAt f 3 1 = h)
    ∧ leAt (slice (aFlit 8 0 0) 0 64) 2 1 % 8 = State.reset.blk.cpos ∧ leAt (slice [] 0 64) 60 4 ≠ crc32 ((slice [] 0 64).take 60)
    ∧ (∀ w ∈ [false, true], (on State.reset (fun b => ((ringed b).clr CNP_STAT.WRAP_E).clr CNP_STAT.WRAP_W)).blk.wrapped w = false
      ∧ (on State.reset (fun b => ((ringed b).set CNP_STAT.WRAP_E).set CNP_STAT.WRAP_W)).blk.wrapped w = true) := by decide +kernel

/-- A message from position 1 in progress, and one complete with its bytes. -/
def aReasm (last : Bool) (bytes : List Byte) : Reasm := { origin := 1, mseq := 0, next := 0, bytes := bytes, since := 0, last := last }

theorem wit_CanopySlots : ∀ w ∈ [false, true],
    ((on State.reset ringed).blk.port w).ctl = []
    ∧ (let s := on State.reset (portsWith (fun p => { p with ctl := [.dreq, .mark] }))
      (s.blk.port w).ctl = [.dreq, .mark] ∧ s.blk.portUp w = true)
    ∧ (let x : CnpTx := { dest := 2, mseq := 0, fidx := 0, rest := List.replicate 53 0 }
      let s := on State.reset (fun b => ((portsWith (fun p => { p with cur := some x, credit := 1 }) b).clr CNP_STAT.WRAP_E).clr CNP_STAT.WRAP_W)
      s.blk.wrapped (if s.blk.wrapped w then !w else w) = false ∧ s.blk.portUp w = true ∧ (s.blk.port w).credit ≠ 0 ∧ (s.blk.port w).cur = some x) := by
  decide +kernel

/-- Messages of 1, 9,728 and 9,729 bytes, plain; a sealed one with a link key, its tag right and wrong; and a message in progress. -/
theorem wit_CanopyMessages :
    (∀ n ∈ [1, 9728, 9729], leAt (leBytes 1 0x20 ++ [0] ++ leBytes 2 n) 2 2 = n ∧ (leAt (leBytes 1 0x20 ++ [0] ++ leBytes 2 n) 1 1).testBit 0 = false)
    ∧ (let r := aReasm true [0x20, 0, 1, 0, 0, 0, 0, 0, 7]
      let s := on State.reset (cnpWith (fun c => { c with reasm := [r] }))
      s.blk.cnp.reasm.find? (fun r => r.origin == 1 && r.last) = some r ∧ leAt (slice r.bytes 0 8) 2 2 = 1 ∧ ¬ r.bytes.length < 8 + 1)
    ∧ State.reset.blk.cnp.reasm.find? (fun r => r.origin == 1 && r.last) = none ∧ State.reset.blk.cnpKey = none
    ∧ (let f := aFlit 8 0 0
      let r := aReasm false [1]
      (on State.reset (cnpWith (fun c => { c with reasm := [r] }))).blk.cnp.reasm = [r] ∧ r.origin = leAt f 1 1 % 8 ∧ r.mseq = leAt f 4 2 ∧ r.last = false
      ∧ r.bytes ≠ [] ∧ r.next = leAt f 6 1) := by decide +kernel

/-- Slot 0 holds a Canopy key and a sealed message of one byte waits; its bytes carry the tag that the key gives. -/
theorem wit_CanopyMessages_sealed :
    let h : Half := ⟨2, 2 ^ mkCNP, 0, List.replicate 32 0⟩
    let hdr : List Byte := [0x20, 1, 1, 0, 0, 0, 0, 0]
    let r := aReasm true (hdr ++ [7] ++ gcmTag h.key (cnpNonce 1 0 0 0) hdr [7])
    let s := on State.reset (fun b => (cnpWith (fun c => { c with reasm := [r] })
      { b with hwd := { b.hwd with slots := [(0, { KSlot.empty with act := h })] } }).wr HWD_STATE.ST hsNORMAL)
    s.blk.cnpKey = some h ∧ ¬ r.bytes.length < 8 + 1 + 16 ∧ h.gen % 256 = leAt hdr 4 1 ∧ gcmTag h.key (cnpNonce 1 (leAt hdr 5 3) (cellOf r.since % 256)
      (sfOf r.since)) hdr (slice r.bytes 8 1) = slice r.bytes (8 + 1) 16 := by decide +kernel

/-- A MARK of the master at the greatest offset it may have, one unit beyond, and of another position; windows with one and two misses before. -/
theorem wit_CanopyTimeAndMembership_marks :
    let s := on State.reset ringed
    let d (pos : Nat) : List Byte := List.replicate 5 0 ++ leBytes 1 pos
    s.blk.bit CNP_CTL.EN = true ∧ leAt (d 1) 5 1 % 8 ≠ s.blk.cpos ∧ leAt (d 0) 5 1 % 8 = s.blk.cpos ∧ s.blk.cnp.led = true
    ∧ s.blk.bit CNP_STAT.MASTER = false ∧ leAt (d 1) 5 1 % 8 = s.blk.rd CNP_STAT.MASTER_POS ∧ leAt (d 2) 5 1 % 8 ≠ s.blk.rd CNP_STAT.MASTER_POS
    ∧ (274877 : DWord).toNat % 2 ^ 24 * 10 ^ 6 ≤ 64 * 2 ^ 32 ∧ 64 * 2 ^ 32 < (274878 : DWord).toNat % 2 ^ 24 * 10 ^ 6 ∧ s.blk.cnp.used = none
    ∧ (on State.reset (fun b => (ringed b).set CNP_STAT.MASTER)).blk.bit CNP_STAT.MASTER = true
    ∧ (on State.reset (cnpWith (fun c => { c with missRun := 1 }))).blk.cnp.missRun < 2
    ∧ 2 ≤ (on State.reset (cnpWith (fun c => { c with missRun := 2 }))).blk.cnp.missRun
    ∧ (∀ w ∈ [false, true], (s.blk.port w).t1 = none ∧ ((on State.reset (portsWith (fun p => { p with t1 := some 5 }))).blk.port w).t1 = some 5) := by decide +kernel

/-- A HELLO of position 1 that proposes superframe 4 for both ports. -/
def aHello (member : Bool) (count : Nat) : Hello := ⟨1, 0, member, 1, count, false, false, some 4, some 4⟩

/-- A wrapped port that proposes 3 meets that neighbour, in JOIN and as MEMBER; this device present alone. -/
theorem wit_CanopyTimeAndMembership_unwrap : ∀ w ∈ [false, true], ∀ m ∈ [false, true], ∀ st ∈ [csJOIN, csMEMBER], ∀ n ∈ [1, 2],
    let s := on State.reset (fun b => (((portsWith (fun p => { p with prop := some 3, nb := some (aHello m n) }) b).set CNP_STAT.WRAP_E).set CNP_STAT.WRAP_W).wr CNP_STAT.STATE st)
    s.blk.wrapped w = true ∧ s.blk.bit CNP_CTL.EN = true ∧ (s.blk.port w).prop = some 3 ∧ (s.blk.port w).nbProp w = some 4
    ∧ (s.blk.port w).nb = some (aHello m n) ∧ s.blk.rd CNP_STAT.STATE = st ∧ (aHello m n).origin % 8 ≠ s.blk.cpos := by decide +kernel

/-- A member under master 1 meets a HELLO of a member that followed master 1 and now shows master 2, and one of a member it never heard. -/
theorem wit_CanopyTimeAndMembership_follow : ∀ l ∈ [[], [(3, (⟨0, none, none, 1⟩ : CnpPeer))]],
    let s := on State.reset (fun b => (cnpWith (fun c => { c with peers := l }) b).wr CNP_STAT.STATE csMEMBER)
    s.blk.bit CNP_CTL.EN = true ∧ s.blk.portUp false = true ∧ s.blk.portUp true = true ∧ s.blk.cnp.led = true ∧ s.blk.rd CNP_STAT.STATE = csMEMBER
    ∧ (3 : Nat) % 8 ≠ s.blk.cpos ∧ (2 : Nat) ≠ s.blk.rd CNP_STAT.MASTER_POS
    ∧ (((Tbl.find s.blk.cnp.peers 3).map (·.master)).getD 2 = s.blk.rd CNP_STAT.MASTER_POS ↔ l ≠ []) := by decide +kernel

/-! ### The update -/

/-- 1 GiB of DRAM. -/
def withDram (b : Block) : Block := b.setReg DDRC_CFG.all.base (fput (fput 0 DDRC_CFG.GIB 1) DDRC_CFG.CH0_UP 1)

/-- A command of the update with a staging slot of 512 bytes being written. -/
def staging (st op len : Nat) (args : List (BitVec 32)) (b : Block) : Block :=
  commanded op len args ((withDram { b with upd := { b.upd with stgLen := 512, stgUndef := false } }).wr UPD_STG_ST.STATE st)

/-- An erased flash reads FFH. -/
theorem erased_byte (b : Block) (a : Nat) (h : b.upd.flash = []) : b.fl a 1 = [0xFF] := by
  simp [Block.fl, h, Tbl.get, flErased]

/-- Each staging command with its length and with another; BEGIN in and outside WRITING, at each bound of its length; WRITE at its bounds; FINISH in
each of its states; CANCEL in EMPTY and outside. -/
theorem wit_UpdateStaging :
    (∀ x ∈ [(0x2000, 1), (0x2001, 4), (0x2002, 0), (0x2003, (0 : Nat))], State.reset.blk.mbxServes x.1 = false
      ∧ (let s := on State.reset (commanded x.1 65 [])
        s.blk.mbxServes x.1 = true ∧ s.blk.mbxTakes x.1 (· == x.2) = false))
    ∧ (∀ st ∈ [sgEMPTY, sgWRITING], ∀ n ∈ [255, 256, 0x2000000, 0x2000001],
      let s := on State.reset (staging st 0x2000 1 [BitVec.ofNat 32 n])
      s.blk.mbxTakes 0x2000 (· == 1) = true ∧ s.blk.argN 0 = n ∧ s.blk.rd UPD_STG_ST.STATE = st)
    ∧ (∀ x ∈ [(0, 256), (256, 256), (0, 512)], let s := on State.reset (staging sgWRITING 0x2001 4 [BitVec.ofNat 32 x.1, 0, 0, BitVec.ofNat 32 x.2])
      s.blk.mbxTakes 0x2001 (· == 4) = true ∧ s.blk.rd UPD_STG_ST.STATE = sgWRITING ∧ s.blk.argN 3 = x.2 ∧ x.1 + x.2 ≤ s.blk.upd.stgLen
      ∧ s.blk.areaBad (s.blk.mbxArg64 1) x.2 = false ∧ s.blk.upd.flash = [])
    ∧ (let s := on State.reset (staging sgWRITING 0x2001 4 [0, 0x40000000, 0, 256])
      s.blk.mbxTakes 0x2001 (· == 4) = true ∧ s.blk.areaBad (s.blk.mbxArg64 1) 256 = true ∧ s.blk.dram.err = [] ∧ s.blk.ras.err = [])
    ∧ (let s := on State.reset (fun b => let b := staging sgWRITING 0x2001 4 [0, 64, 0, 256] b
        { b with dram := { b.dram with poison := [(8, true)] } })
      s.blk.mbxTakes 0x2001 (· == 4) = true ∧ s.blk.areaBad (s.blk.mbxArg64 1) 256 = true)
    ∧ (∀ st ∈ [sgEMPTY, sgWRITING], (on State.reset (staging st 0x2002 0 [])).blk.mbxTakes 0x2002 (· == 0) = true
      ∧ (on State.reset (staging st 0x2003 0 [])).blk.mbxTakes 0x2003 (· == 0) = true) := by decide +kernel

/-- A flash whose journal holds one OPEN entry. -/
def opened (b : Block) : Block := b.flProg (flJournal 0) (JEnt.bytes ⟨jOPEN, 0, 1, 0⟩)

theorem opened_keys : ∀ e ∈ (opened Block.atReset).upd.flash, e.1 < 16 := by decide +kernel

/-- The journal has one entry, with the rest of the half erased. -/
theorem wit_UpdateStaging_journal : (opened Block.atReset).jHalf = some 0 ∧ (opened Block.atReset).jLog 0 = [⟨jOPEN, 0, 1, 0⟩]
    ∧ ∀ x, 16 ≤ x → Tbl.get flErased (opened Block.atReset).upd.flash (flJournal 0 + x) = 0xFF := by
  refine ⟨by decide +kernel, by decide +kernel, fun x hx => ?_⟩
  rw [get_above]
  · rfl
  · exact fun e he => Nat.lt_of_lt_of_le (opened_keys e he) (Nat.le_trans hx (Nat.le_add_left ..))

/-- A record of the host in area 0, which is active. -/
def configured (b : Block) : Block :=
  let b := b.flProg (flCfg 0) (ascii "GRNCREC1" ++ leBytes 4 1 ++ leBytes 2 0)
  let b := b.flProg (flCfg 0 + 32) (leBytes 4 1)
  b.flProg (flCfg 0 + 64) (CfgRec.bytes { typ := 0x8000, inst := 5, ver := 1, seq := 0, deleted := false, body := [7, 8], pos := 64 })

theorem configured_live : (configured Block.atReset).cfgLive = [⟨0x8000, 5, 1, 0, false, [7, 8], 64⟩] ∧ (configured Block.atReset).cfgActive = some 0 := by
  decide +kernel

/-- A command for the records with those in place. -/
def recording (op len : Nat) (args : List (BitVec 32)) (b : Block) : Block := commanded op len args (withDram (configured b))

/-- Each command with its length and with another; a key with and without a live record; bodies of 0 and 4,096 bytes; Sybema types. -/
theorem wit_ConfigurationRecords :
    (∀ x ∈ [(0x2010, 1), (0x2011, 3), (0x2012, 4), (0x2013, (1 : Nat))], State.reset.blk.mbxServes x.1 = false
      ∧ (let s := on State.reset (commanded x.1 65 [])
        s.blk.mbxServes x.1 = true ∧ s.blk.mbxTakes x.1 (· == x.2) = false))
    ∧ (on State.reset (recording 0x2010 1 [0])).blk.mbxTakes 0x2010 (· == 1) = true
    ∧ (∀ k ∈ [0x80000004, 0x80000005], let s := on State.reset (recording 0x2011 3 [BitVec.ofNat 32 k])
      s.blk.mbxTakes 0x2011 (· == 3) = true ∧ (s.blk.cfgLive.find? (fun r => r.key == s.blk.argN 0)).isSome = (k == 0x80000005))
    ∧ (∀ k ∈ [0x7FFFFFFF, 0x80000000], let s := on State.reset (recording 0x2012 4 [BitVec.ofNat 32 k, 0x00010002])
      s.blk.mbxTakes 0x2012 (· == 4) = true ∧ s.blk.argN 0 = k ∧ s.blk.argN 1 % 65536 = 2 ∧ s.blk.areaBad (s.blk.mbxArg64 2) 2 = false
      ∧ (s.blk.cfgAppend { typ := k / 65536, inst := k % 65536, ver := 1, seq := 0, deleted := false, body := s.blk.dramBytes (s.blk.mbxArg64 2) 2, pos := 0 }).isSome = true)
    ∧ (∀ n ∈ [4096, 4097], (on State.reset (recording 0x2012 4 [0x80000000, BitVec.ofNat 32 n])).blk.argN 1 % 65536 = n)
    ∧ (∀ k ∈ [0x7FFFFFFF, 0x80000004, 0x80000005], let s := on State.reset (recording 0x2013 1 [BitVec.ofNat 32 k])
      s.blk.mbxTakes 0x2013 (· == 1) = true ∧ s.blk.argN 0 = k ∧ s.blk.cfgLive.all (fun r => r.key != k) = (k != 0x80000005)
      ∧ (s.blk.cfgAppend { typ := k / 65536, inst := k % 65536, ver := 0, seq := 0, deleted := true, body := [], pos := 0 }).isSome = true) := by
  decide +kernel

/-- A record that no area takes, and a compaction of the active area. -/
theorem wit_ConfigurationRecords_full : Block.atReset.cfgPut 0 flCfgSize [⟨0x8000, 5, 1, 0, false, [], 0⟩] = none
    ∧ ((configured Block.atReset).cfgCompact []).isSome = true := by decide +kernel

/-- A session with one block of one symbol. -/
def aSeed : Seed := { session := 1, img := 0, f := 16, t := 16, z := 1, ctx := 0, nsym := 1, repair := 0, fwver := 0, manifest := List.replicate 218 0,
                      blk := 0, esi := 0, prepared := true, manSent := false, retryCell := 0 }

/-- The session in a state, with context 0 on. -/
def seeding (st : Nat) (e : Seed) (b : Block) : Block :=
  let c := ShpCtx.fresh
  ((({ b with upd := { b.upd with seed := some e } }.setCtx 0 { c with cfg := { c.cfg with en := true, qmax := 4 } })).wr UPD_SEED_ST.ST st).wr
    UPD_SEED_ST.SESSION 1

/-- The recovery flash with a command running. -/
def flashing (op : Nat) (a : BitVec 32) (b : Block) : Block :=
  (((b.wr UPD_BOOT_ST.RESULT brRECOVERY).set UPD_FL_CMD.BUSY).wr UPD_FL_CMD.OP op).setReg UPD_FL_ADDR.all.base a

theorem wit_SeedfallAndRecovery :
    (∀ x ∈ [(0x2020, 7), (0x2021, 0), (0x2022, (0 : Nat))], State.reset.blk.mbxServes x.1 = false
      ∧ (let s := on State.reset (commanded x.1 65 [])
        s.blk.mbxServes x.1 = true ∧ s.blk.mbxTakes x.1 (· == x.2) = false)
      ∧ ∀ st, st < 5 → (on State.reset (fun b => commanded x.1 x.2 [] (seeding st aSeed b))).blk.mbxTakes x.1 (· == x.2) = true
        ∧ (on State.reset (fun b => commanded x.1 x.2 [] (seeding st aSeed b))).blk.rd UPD_SEED_ST.ST = st)
    ∧ State.reset.blk.upd.seed = none
    ∧ (∀ st ∈ [1, 2, 3], ∀ p ∈ [false, true], ∀ n ∈ [0, 4], let s := on State.reset (fun b => (seeding st { aSeed with prepared := p } b).wr SHP_POOL_COUNT.COUNT n)
      s.blk.upd.seed = some { aSeed with prepared := p } ∧ s.blk.rd UPD_SEED_ST.ST = st ∧ (s.blk.ctx 0).cfg.qmax = 4 ∧ (s.blk.ctx 0).held.length < 4
      ∧ ¬ s.blk.clk.cell < aSeed.retryCell) := by decide +kernel

/-- A report with no session since reset; one that the record of node 0 takes, one whose record is poisoned, and one whose record is FREE. -/
theorem wit_SeedfallAndRecovery_report : State.reset.blk.seedSession = none
    ∧ (∀ p ∈ [false, true], let s := on State.reset (fun b => let b := stewarded ((cached 0 gsJOINING none (groving (seeding 2 aSeed b))).set GRV_STAT.READY)
        if p then { b with grv := { b.grv with lines := [] }, dram := { b.dram with poison := [(b.grvRec 0 / 8, true)] } } else b)
      s.blk.seedSession = some 1 ∧ s.blk.stewardUp 2 = true ∧ s.blk.recordFree 0 = false ∧ s.blk.dram.err = [] ∧ s.blk.ras.err = []
      ∧ ((s.blk.start.grvLoad 130 0 true).1.1 = 0 ↔ p = false))
    ∧ (on State.reset (fun b => stewarded ((cached 0 gsFREE none (groving (seeding 2 aSeed b))).set GRV_STAT.READY))).blk.recordFree 0 = true := by
  decide +kernel

theorem wit_SeedfallAndRecovery_idle : State.reset.blk.rd UPD_BOOT_ST.RESULT ≠ brRECOVERY ∧ State.reset.blk.bit UPD_FL_CMD.BUSY = false
    ∧ (on State.reset (·.wr UPD_BOOT_ST.RESULT brRECOVERY)).blk.rd UPD_BOOT_ST.RESULT = brRECOVERY := by decide +kernel

theorem wit_SeedfallAndRecovery_flash : ∀ op ∈ [0, 1, 2, 3], ∀ a ∈ [0, 65536, 256], let s := on State.reset (flashing op (BitVec.ofNat 32 a))
    s.blk.bit UPD_FL_CMD.BUSY = true ∧ s.blk.rd UPD_FL_CMD.OP = op ∧ (s.blk.reg UPD_FL_ADDR.all.base).toNat = a := by decide +kernel

/-! ### Interrupts, timers and error protection -/

/-- Source 5 is on, has counted one and goes to target `k`. -/
def pendingTo (k : Nat) (b : Block) : Block :=
  ((b.set ICU_SRC.EN 5).wr ICU_SRC.COUNT 1 5).wr ICU_SRC.TARGET k 5

/-- Every strand and steward core runs and the host takes vectors. -/
def awake (b : Block) : Block :=
  let b := ((b.set SYS_MBX_STATE.STW_UP).set PCI_STAT.LINK_UP).wr WFT_CTL.STRAND_EN 15
  { b.set ICU_TGT_CFG.AREA_EN with fn := { b.fn with d3hot := false, busMaster := true, msixEn := true } }

/-- Targets 32 to 36, and engine 0 for its strands: a source presented, one held, none; a store of a strand waits. -/
theorem wit_InterruptClaims :
    (∀ k ∈ [32, 33, 34, 35, 36], let s := on State.reset (fun b => pendingTo k (awake b))
      s.blk.claimOf k = none ∧ s.blk.presented k = some 5)
    ∧ (∀ k ∈ [32, 36], let s := on State.reset (fun b => { awake b with icu := { b.icu with claims := [(k, 5)] } })
      s.blk.claimOf k = some 5)
    ∧ (∀ k ∈ [32, 36], State.reset.blk.claimOf k = none ∧ State.reset.blk.presented k = none) := by decide +kernel

/-- A store of strand `k`, waiting. -/
def storing (k : Nat) (isDone : Bool) (b : Block) : Block := { b with icu := { b.icu with stores := [⟨k, 1, isDone⟩] } }

theorem wit_InterruptClaims_engine : ∀ k ∈ [0, 3], ∀ d ∈ [false, true],
    let s := on State.reset (fun b => pendingTo 0 (awake (storing k d b)))
    s.blk.icu.stores.find? (fun x => x.strand == k && x.isDone == d) = some ⟨k, 1, d⟩
    ∧ s.blk.icu.stores.find? (fun x => engOf x.strand == engOf k) = some ⟨k, 1, d⟩ ∧ State.reset.blk.icu.stores = []
    ∧ s.blk.claimOf (engOf k) = none ∧ s.blk.presented (engOf k) = some 5
    ∧ (let t := on s (fun b => { b with icu := { b.icu with claims := [(0, 5)] } })
      t.blk.claimOf (engOf k) = some 5)
    ∧ (let t := on s (·.clr ICU_SRC.EN 5)
      t.blk.presented (engOf k) = none) := by decide +kernel

/-- A pin, an event and a pulse that rise; a level that has held too short a time for its FILT, and long enough; reserved and good targets; a completion of the claimed source and of another. -/
theorem wit_InterruptSources :
    (∀ n ∈ [4, 5, 7, 224, 239], let s := on State.reset (fun b => ((b.set PWR_EVT.TEMP_ALARM).setReg PWR_IE.all.base 1).pulse n)
      s.blk.filtered n = false ∧ s.blk.rd ICU_SRC.FILT n ≤ 0 ∧ (n = 5 ∨ (224 ≤ n ∧ n ≤ 239) ∨ s.blk.rawLevel n = true))
    ∧ (let s := on State.reset (·.wr ICU_SRC.FILT 3 224)
      2 < s.blk.rd ICU_SRC.FILT 224 ∧ s.blk.rd ICU_SRC.FILT 224 ≤ 3)
    ∧ ¬ 0x24 < fget (fput 0 ICU_SRC.TARGET 0x24) ICU_SRC.TARGET ∧ 0x24 < fget (fput 0 ICU_SRC.TARGET 0x25) ICU_SRC.TARGET
    ∧ (∀ k ∈ [32, 36], ∀ n ∈ [5, 6], let s := on State.reset (fun b => { b with icu := { b.icu with claims := [(k, 5)] } })
      (s.blk.claimOf k = some (fget (BitVec.ofNat 32 n) ICU_DONE.SRC)) = (n = 5)) := by
  refine ⟨by decide +kernel, by decide +kernel, by decide +kernel, by decide +kernel, by decide +kernel⟩

/-- GO_AT armed or not, in the gap or not; a timer that runs, upwards or downwards, linked or not. -/
theorem wit_Timers :
    State.reset.blk.bit TMR_GO_ST.ARMED = false ∧ (on State.reset (·.set TMR_GO_ST.ARMED)).blk.bit TMR_GO_ST.ARMED = true
    ∧ State.reset.blk.hoop.red.dead = false
    ∧ State.reset.blk.tmrRuns 0 = false ∧ (on State.reset (·.set TMR_CFG.LINK 1)).blk.linked 1 = true
    ∧ (∀ n ∈ [0, 1, 31], let s := on State.reset (·.setReg TMR_RUN.all.base 0xFFFFFFFF)
      s.blk.tmrRuns n = true ∧ s.blk.linked n = false) := by decide +kernel

/-- The worked example of R523: S0 = 5AH and S1 = 03H is an error at c_6, and the INFO of its entry. -/
theorem test_syndromes : gfPow 0x5A 6 = 0x03 ∧ rsDecide 0x5A 0x03 = .corrected 6 0x5A ∧ ceInfo 0x5A 0x03 6 2 1 = 0x0126035A := by decide +kernel

/-- Eight bytes, a position and an error. -/
theorem wit_SingleSymbolErrorsAreCorrected : (List.replicate 8 (0xA5 : Byte)).length = 8 ∧ 0 < 10 ∧ 9 < 10 ∧ 0 < 1 ∧ 255 < 256 := by decide

/-- Both channels of DRAM, with the scrubs and the check on. -/
def scrubbing (b : Block) : Block :=
  let b := (withDram b).setReg DDRC_CFG.all.base (fput (fput (fput 0 DDRC_CFG.GIB 1) DDRC_CFG.CH0_UP 1) DDRC_CFG.CH1_UP 1)
  ((b.set RAS_CTL.SCRUB_EN).set RAS_CTL.ONDIE_EN).set RAS_CTL.TCHK_EN

/-- The four outcomes of a read of a word of zeros, and the enables each way. -/
theorem wit_ErrorProtection :
    (∀ ch ∈ [0, 1], (on State.reset (·.clr RAS_CTL.SCRUB_EN)).blk.bit RAS_CTL.SCRUB_EN = false
      ∧ (let s := on State.reset scrubbing
        s.blk.bit RAS_CTL.SCRUB_EN = true ∧ s.blk.dram.err = [] ∧ s.blk.ras.err = [] ∧ (if ch = 0 then s.blk.bit DDRC_CFG.CH0_UP else s.blk.bit DDRC_CFG.CH1_UP) = true
        ∧ ∀ w, w < 8 → ∀ i, i < 8 → s.blk.wordPoisoned ((s.blk.patrolAddr ch 0 + 8 * i) / 8) = false))
    ∧ ([[], [0, 0, 5], [1, 1], [2, 2]].map (fun e => let c := rsArray (List.replicate 8 0) false e
        rsDecide (rsS0 c) (rsS1 c))) = [.clean, .corrected 2 5, .poisoned, .bad]
    ∧ State.reset.blk.ras.fixes = [] ∧ (on State.reset (fun b => { b with ras := { b.ras with fixes := [⟨8, [1], true⟩] } })).blk.ras.fixes = [⟨8, [1], true⟩]
    ∧ (on State.reset (·.clr RAS_CTL.ONDIE_EN)).blk.bit RAS_CTL.ONDIE_EN = false ∧ (on State.reset scrubbing).blk.bit RAS_CTL.ONDIE_EN = true
    ∧ leBytes 8 (Tbl.get (fun _ => 0) State.reset.blk.wft.ibank 0).toNat = List.replicate 8 0
    ∧ leBytes 8 (Tbl.get (fun _ => 0) State.reset.blk.wft.table 0).toNat = List.replicate 8 0
    ∧ Tbl.get (fun _ => false) State.reset.blk.wft.tblPoison 0 = false := by decide +kernel

theorem wit_ErrorProtection_tables :
    State.reset.blk.bit RAS_CTL.TCHK_EN = false
    ∧ (let s := on State.reset scrubbing
      s.blk.bit RAS_CTL.TCHK_EN = true ∧ s.blk.ras.tchkWait = false ∧ s.blk.ras.tchk < s.blk.tchkWords ∧ s.blk.dram.err = [] ∧ s.blk.ras.err = []
      ∧ s.blk.logLater (s.blk.tchkWord s.blk.ras.tchk).1 = [] ∧ s.blk.dramPoisoned 0x400000 4 = false
      ∧ (on s (fun b => { b with dram := { b.dram with poison := [(0x80000, true)] } })).blk.dramPoisoned 0x400000 4 = true)
    ∧ (∀ r ∈ [0, 1], ∀ v ∈ [0, 1, 2], let s := on State.reset (fun b => (b.wr RAS_LOG_WR.SEQ 1).wr RAS_LOG_RD.SEQ r)
      decide ((v + 65536 - s.blk.rd RAS_LOG_RD.SEQ) % 65536 ≤ (s.blk.rd RAS_LOG_WR.SEQ + 65536 - s.blk.rd RAS_LOG_RD.SEQ) % 65536)
        = (decide (r ≤ v) && decide (v ≤ 1)))
    ∧ (let e : LogEntry := ⟨1, 5, 3, 0, 0, 0, 0, 1⟩
      Tbl.find (on State.reset (fun b => { b with ras := { b.ras with log := [(1, e)] } })).blk.ras.log 1 = some e ∧ e.seq < 65536 ∧ e.kind < 256) := by
  decide +kernel

/-! ### Resets, the low-speed peripherals, accesses, the mailbox and the step -/

/-- The power state changed. -/
def powered (f : Pwr → Pwr) (b : Block) : Block := { b with pwr := f b.pwr }

/-- A reset of a kind is in progress. -/
def inReset (kind : Nat) : Block → Block := powered (fun p => { p with rst := some ⟨kind, 1, 0⟩ })

/-- What stands at a release. -/
def aBoard (test : Bool) (cut : Option Nat) : BoardAt :=
  { chain := 0, gib := 1, testEn := test, tripped := 0, padLow := 0, up0 := true, up1 := false, srFail := false, octal := true, cut := cut }

/-- A reset in progress of each kind or none; in SLEEP or not; held or not. -/
theorem wit_ResetsAndPower :
    (∀ k ∈ [rkAON_POR, rkCOLD, rkWARM, rkSLEEP_EXIT], ∀ z ∈ [false, true], let s := on State.reset (fun b => inReset k (powered (fun p => { p with sleep := z }) b))
      s.blk.pwr.rst = some ⟨k, 1, 0⟩ ∧ s.blk.pwr.sleep = z)
    ∧ (let s := on State.reset (powered (fun p => { p with rst := none }))
      s.blk.pwr.rst = none ∧ s.blk.pwr.secLost = false ∧ s.blk.pwr.sleep = false)
    ∧ (∀ z ∈ [false, true], ∀ l ∈ [false, true], let s := on State.reset (fun b => powered (fun p => { p with rst := none, sleep := z, secLost := l }) (b.set PWR_CTL.SEC_KEEP))
      s.blk.pwr.rst = none ∧ s.blk.pwr.sleep = z ∧ (s.blk.bit PWR_CTL.SEC_KEEP && !s.blk.pwr.secLost) = !l)
    ∧ (∀ v ∈ [false, true], (on State.reset (·.flag PWR_CTL.PERST_SCOPE v)).blk.bit PWR_CTL.PERST_SCOPE = v)
    ∧ fget (0 : Word) PWR_CTL.REQ = 0 ∧ fget (0 : Word) PWR_CTL.SW_RST = 0 := by decide +kernel

/-- A reset that nothing holds, and one held, for a release. -/
theorem wit_ResetsAndPower_release :
    (let s := on State.reset (fun b => { inReset rkCOLD ((b.wr PWR_STAT.RAILS 255)) with pins := { b.pins with pwrGood := true } })
     s.blk.pwr.rst.isSome = true ∧ s.blk.resetHeld = false
     ∧ (on s (fun b => { b with pins := { b.pins with clrReq := true } })).blk.pins.clrReq = true)
    ∧ (let s := on State.reset (fun b => { inReset rkCOLD b with pins := { b.pins with pwrGood := false } })
      s.blk.resetHeld = true)
    ∧ (aBoard true none).testEn = true ∧ (aBoard false none).testEn = false := by decide +kernel

/-- RUN and STANDBY; every enable 0 and one set; SLEEP with the alarm passed and to come; a source for a steward core. -/
theorem wit_ResetsAndPower_states :
    (∀ st ∈ [0, 1], (on State.reset (·.wr PWR_STAT.STATE st)).blk.rd PWR_STAT.STATE = st)
    ∧ State.reset.blk.mayStandby = true ∧ (on State.reset (·.set RXA_CTL.EN)).blk.mayStandby = false
    ∧ (∀ a ∈ [0, 5], let s := on State.reset (fun b => powered (fun p => { p with sleep := true, rst := none }) ((b.set PWR_STAT.RTC_VALID).setReg PWR_RTC_ALM_LO.all.base (BitVec.ofNat 32 a)))
      s.blk.pwr.sleep = true ∧ s.blk.pwr.rst = none ∧ (decide (s.blk.rtcAlarm = 0) || decide (s.blk.rtcAlarm < s.blk.rtcNow)) = (a == 0))
    ∧ State.reset.blk.stewardCalled = false ∧ (on State.reset (fun b => pendingTo 32 (awake b))).blk.stewardCalled = true := by decide +kernel

/-- Pads 0 and 47; a transfer that runs or not; the UART's FIFOs empty, with a byte, and full. -/
theorem wit_LowSpeedPeripherals :
    0 < 48 ∧ 47 < 48
    ∧ (∀ i, i < 2 → ∀ v ∈ [false, true], (on State.reset (·.flag SYS_SPI_ST.BUSY v i)).blk.bit SYS_SPI_ST.BUSY i = v
      ∧ (on State.reset (·.flag SYS_SPI_CTL.EN v i)).blk.bit SYS_SPI_CTL.EN i = v ∧ (on State.reset (·.flag SYS_I2C_ST.BUSY v i)).blk.bit SYS_I2C_ST.BUSY i = v
      ∧ (on State.reset (·.flag SYS_UART_CTL.EN v)).blk.bit SYS_UART_CTL.EN = v)
    ∧ State.reset.blk.low.rx = [] ∧ State.reset.blk.low.tx.length < 64 ∧ State.reset.blk.low.sending = none
    ∧ (let s := on State.reset (fun b => { b with low := ⟨List.replicate 64 1, List.replicate 64 2, some 3⟩ })
      64 ≤ s.blk.low.tx.length ∧ 64 ≤ s.blk.low.rx.length ∧ s.blk.low.rx = 2 :: List.replicate 63 2 ∧ s.blk.low.sending.isSome = true) := by decide +kernel

/-- A plain register, a reserved offset, a misaligned one and the first beyond the map, a pair, a beat in which nothing was set, and DRAM in, at the end of,
and beyond memory. -/
theorem wit_RegisterAndMemoryAccesses :
    plainWrite RAS_CTL.all.base = true ∧ plainRead RAS_CTL.all.base = true ∧ plainWrite 0x7C0FFC = true ∧ plainRead 0x7C0FFC = true
    ∧ plainWrite 0x900000 = false ∧ plainRead 0x900000 = false ∧ (2 : Nat) % 4 ≠ 0 ∧ State.reset.blk.logLater 16 = []
    ∧ State.reset.blk.dram.err = [] ∧ State.reset.blk.ras.err = []
    ∧ (on State.reset (fun b => { b with clk := b.clk.add 1 })).blk.tie.beat ≠ (on State.reset (fun b => { b with clk := b.clk.add 1 })).blk.clk.beat
    ∧ State.reset.blk.tieAt RXA_POOL_ST.all.base = (State.reset.blk.reg RXA_POOL_ST.all.base, 0)
    ∧ (∃ off, isPairLo off = true) ∧ isPairLo RAS_CTL.all.base = false
    ∧ (let off := RAS_TCHK_BASE_HI.all.base
      isPairHi off = true ∧ isPairLo off = false ∧ (portAt readPorts off).isNone = true ∧ off ≠ CLR_TIME.all.base ∧ (WFT_CNT_STALL.all.index? 32 off).isNone = true
      ∧ Tbl.find (on State.reset (fun b => { b with hiLatch := [(off, 1)] })).blk.hiLatch off = some 1)
    ∧ (∀ x ∈ [(0x3FFFFFF8, 8, false), (0x3FFFFFFC, 8, true)], let s := on State.reset withDram
      decide (s.blk.dramSize < x.1 + x.2.1) = x.2.2)
    ∧ (∀ v ∈ [false, true], (on State.reset (fun b => { b with stw := { b.stw with rrs := v } })).blk.stw.rrs = v) := by
  refine ⟨by decide +kernel, by decide +kernel, by decide +kernel, by decide +kernel, by decide +kernel, by decide +kernel, by decide +kernel,
    by decide +kernel, by decide +kernel, by decide +kernel, by decide +kernel, by decide +kernel, ⟨RAS_TCHK_BASE_LO.all.base, by decide +kernel⟩, by decide +kernel,
    by decide +kernel, by decide +kernel, by decide +kernel⟩

/-- A write to an area of the enabled Grove. -/
theorem wit_RegisterAndMemoryAccesses_grove : let s := on State.reset (fun b => (groving b).set GRV_CTL.EN)
    s.blk.bit GRV_CTL.EN = true ∧ s.blk.inGrove (s.blk.grvJrnl 0) 8 = true ∧ s.blk.inGrove 0x300000000 8 = false := by decide +kernel

/-- Each phase, with READY each way; a command held and none; the deadlines each way. -/
theorem wit_MailboxRing : ∀ ph ∈ [phIDLE, phDONE, phBUSY, phABORTING], ∀ v ∈ [false, true],
    let s := on State.reset (fun b => ((b.wr SYS_MBX_STATE.PHASE ph).flag SYS_MBX_STATE.READY v).wr SYS_MBX_STATE.STW_UP v.toNat)
    s.blk.rd SYS_MBX_STATE.PHASE = ph ∧ s.blk.bit SYS_MBX_STATE.READY = v ∧ (s.blk.rd SYS_MBX_STATE.STW_UP ≠ 0) = (v = true) := by decide +kernel

theorem wit_MailboxAndStewards :
    (∀ h ∈ [none, some (mbxOK, [])], ∀ ph ∈ [phBUSY, phABORTING], let s := on State.reset (fun b => (commanded 0x0000 2 [1, 2] { b with stw := { b.stw with
        held := h, deadline := some 9, abortAt := some 9 } }).wr SYS_MBX_STATE.PHASE ph)
      s.blk.mbxBusy = true ∧ s.blk.hwd.fx = .none ∧ s.blk.rd SYS_MBX_CMD.OPCODE ≠ 0x1004 ∧ s.blk.bit SYS_MBX_STATE.READY = true ∧ s.blk.stw.held = h ∧ s.blk.stw.deadline = some 9 ∧ s.blk.stw.abortAt = some 9)
    ∧ State.reset.blk.mbxBusy = false ∧ State.reset.blk.stw.deadline = none ∧ State.reset.blk.stw.abortAt = none
    ∧ (on State.reset (commanded 0x1012 2 [1, 0])).blk.rd SYS_MBX_CMD.OPCODE = 0x1012 ∧ (0x7777 : Nat) ∉ mbxOpcodes
    ∧ (∀ op ∈ [0x0000, 0x0001, 0x0002], State.reset.blk.mbxServes op = false ∧ (on State.reset (commanded op 65 [])).blk.mbxServes op = true
      ∧ (on State.reset (commanded op 65 [])).blk.mbxTakes op (· == 0) = false ∧ (on State.reset (commanded op 0 [])).blk.mbxTakes op (· == 0) = true)
    ∧ (on State.reset (commanded 0x0000 65 [])).blk.mbxTakes 0x0000 (fun _ => true) = false
    ∧ (on State.reset (commanded 0x0000 2 [])).blk.mbxTakes 0x0000 (fun _ => true) = true := by decide +kernel

theorem wit_MailboxAndStewards_ready : ∀ rrs ∈ [false, true],
    let s := on State.reset (fun b => { ((b.wr SYS_MBX_STATE.STW_UP 15).clr SYS_MBX_STATE.READY) with stw := { b.stw with rrs := rrs }, pwr := { b.pwr with rst := none } })
    s.blk.pwr.rst = none ∧ s.blk.bit SYS_MBX_STATE.READY = false ∧ s.blk.rd SYS_MBX_STATE.STW_UP = 15 ∧ s.blk.stw.rrs = rrs
      ∧ s.blk.rd UPD_BOOT_ST.RESULT ≠ brRECOVERY := by decide +kernel

/-- PING answers its arguments. -/
theorem test_ping : (match exec .ping (on State.reset (commanded 0x0000 2 [7, 9])) with
    | .next t => t.blk.stw.held == some (mbxOK, [7, 9])
    | _ => false) = true := by decide +kernel

/-- The empty queue, and the invariant at reset. -/
theorem wit_StepRunsTheFrontCommand : State.reset.pending = [] ∧ (match step { State.reset with pending := [.caParityAlert, .ping] } with
    | .next t => t.pending == [.ping]
    | _ => false) = true := by decide +kernel

/-- Edges that wait at the port in Shift-DR, Update-IR and Capture-DR, and one with TRST_n low; instruction codes of the table. -/
theorem wit_StepRunsTheFrontCommand_port :
    (∀ st ∈ [TapSt.shiftDr, .updateIr, .captureDr], ∀ n ∈ [false, true], ∀ ir ∈ [0x01, 0x02, 0xFF],
      let s := on State.reset (fun b => { b with tap := { b.tap with st := st, ir := ir, edges := [⟨n, true, false⟩] } })
      s.blk.tap.edges = ⟨n, true, false⟩ :: [] ∧ s.blk.tap.st = st ∧ s.blk.tap.ir = ir ∧ s.blk.pins.testEn = false)
    ∧ State.reset.blk.tap.edges = [] := by decide +kernel

/-- Five edges with TMS 1 lead to Test-Logic-Reset from Shift-DR, and the first 32 bits that leave after a Capture-DR under IDCODE are those of B9640A4BH. -/
theorem test_idcode :
    let clock (n : Nat) (tms : Bool) (b : Block) : Block := n.repeat (fun b => { b with tap := { b.tap with edges := [⟨true, tms, true⟩] } }.tapClock) b
    let shift (b : Block) (l : List Bool) : Block × List Bool := let b := clock 1 false b
      (b, l ++ [b.tap.tdo])
    let b := clock 5 true { State.reset.blk with tap := { State.reset.blk.tap with st := .shiftDr } }
    let ready := clock 2 false (clock 1 true (clock 1 false b))
    b.tap.st = .testLogicReset ∧ ready.tap.st = .shiftDr
      ∧ ((List.range 32).foldl (fun (p : Block × List Bool) _ => shift p.1 p.2) (ready, [])).2 = (List.range 32).map (0xB9640A4B : BitVec 32).getLsbD := by
  decide +kernel

theorem wit_EveryStepKeepsTheMemoriesCanonical : State.reset.Inv ∧ (match step State.reset with
    | .next t => t.blk.clk.beat == 1
    | _ => false) = true := ⟨wit_reset_inv, by decide +kernel⟩

theorem wit_ResetLeavesTheLogEmpty : State.reset.blk = State.reset.blk ∧ (rkWARM = rkWARM ∨ rkWARM = rkSLEEP_EXIT) := by decide

/-- The check value of CRC-32. -/
theorem test_crc32 : crc32 (ascii "123456789") = 0xCBF43926 := by decide +kernel

/-! ### Well-formed commands -/

/-- A descriptor of a device-to-host ring. -/
def aD2h : D2hDesc := { addr := 0, buflen := 64 }

/-- An ill-formed term for each check, which the check refuses. -/
theorem test_illFormed : [Instr.regWrite 0 2 0, .regWrite 2 0 0, .regWrite 4 0x8000 0, .counterReadClear 1, .pairLoRead 6, .unassignedAccess 5 0x900000 false,
    .unassignedAccess 0 0x8FFFFC false, .warpDataLoad 8, .warpDataStore 8 0, .groupListRead 131072, .slotStrobe 131072 0, .sysrefEdge 512,
    .rxLinkEnable 8 0, .agcUpdate 2048 0, .agcUpdate 0 1024, .agcUpdate 0 (-1025), .gateSelfTest 8 false false false, .ringEntryWrite 128, .iAdd 128,
    .ctxldDelivery 0 8, .ctxldDelivery 128 0, .wftDoorbell 32 0, .sweepVisit (2 ^ 25) true, .joinReqAdmit (2 ^ 25) 1 [] true 0 0 true, .joinReqAdmit 0 1 [] true 0 65536 true, .routeReportProcess (2 ^ 28) [],
    .heartbeatMiss ⟨false, some (64, true)⟩, .haBadOp 3, .hwdWrapBatch 65537, .class1Event 4, .class2Event ⟨3, true, 0⟩,
    .class2Event ⟨7, true, 0⟩, .queueEnable 256 0, .fcInChange 8 ⟨true, 0⟩, .fcInChange 0 ⟨true, 4⟩, .upqHostRead 128 false aD2h, .decompressItem 128 aD2h, .upqStewardRead 128 false,
    .shpAdmission (2 ^ 28) 0 0 [], .shpAdmission 0 8 0 [], .shpAdmission 0 0 65536 [], .h2dTailWrite 16 0, .ethLinkUp 2,
    .flitReceive false [], .messageReassembled 8, .seedReportProcess 0 0 0, .seedReportProcess 0 0 5, .icuSourceEdge 256 ⟨true, 0⟩, .icuClaim 37, .targetWake 37 true,
    .timerTick 32, .tmrCapture 0, .tmrCapture 20, .patrolRead 2 ⟨[], []⟩, .patrolRead 0 ⟨[(8, [])], []⟩,
    .patrolRead 0 ⟨[], [(16, 0, [])]⟩, .ondieScrubRead ⟨[(1, 0, [])], []⟩, .ondieScrubRead ⟨[(16, 0, [])], []⟩,
    .detection 0 2048 0 0 0 ⟨0, 0, 0⟩ 0 [], .detection 0 0 0 0 0 ⟨0, 0, 0⟩ 0 [⟨0, 0, 0, 4, 0, 0, 0, 0, 0⟩],
    .railOutOfTolerance 8 false, .tempConversion 32768, .pllLock 6, .pllLockLoss 6, .pllLockLoss 10, .gpioEvent 48 true, .spiTransfer 2 0,
    .internalResetRelease { aBoard false none with gib := 3 }].all (fun i => !i.wellFormed) = true := by decide +kernel

/-- Terms at the bounds, which the check takes. -/
theorem test_wellFormed : [Instr.regWrite 0 4 0, .regWrite 4 0x7FFC 0, .counterReadClear 4, .unassignedAccess 4 0x900000 true, .warpDataLoad 7,
    .groupListRead 131071, .agcUpdate 2047 1023, .agcUpdate 0 (-1024), .iAdd 127, .ctxldDelivery 127 7, .wftDoorbell 31 0, .haBadOp 2, .hwdWrapBatch 65536,
    .class1Event 3, .class2Event ⟨4, true, 0⟩, .class2Event ⟨6, false, 9⟩, .queueEnable 255 0, .upqHostRead 127 false aD2h, .shpAdmission 0 0 0 (List.replicate 2032 0),
    .ondieScrubRead ⟨[(2, 0, [])], [(15, 0, [255])]⟩, .seedReportProcess 0 0 1, .seedReportProcess 0 0 4,
    .icuSourceEdge 255 ⟨true, 0⟩, .icuClaim 36, .timerTick 31, .tmrCapture 1, .tmrCapture 19, .tempConversion 32767, .tempConversion (-32768), .pllLock 9,
    .pllLockLoss 9, .gpioEvent 47 true, .spiTransfer 1 0].all Instr.wellFormed = true := by decide +kernel

/-! ### The worked examples of the spec -/

/-- The header of the SHORT frame, its two codewords and its length (03_air_interface.md), and the header of its ACK (08_weft_instructions.md). -/
theorem test_header : hdrWithCrc 0x50C7 = 0x9D50C7 ∧ hdrWithCrc 0x0015 = 0x670015 ∧ golayBlock 0x9D50C7 = [0x0C7 + 4096 * 3444, 0x9D5 + 4096 * 1007]
    ∧ codedBits 5 49 = 648 ∧ frameSyms tySHORT 5 0 49 = 728 ∧ frameChips tySHORT 5 0 49 4 = 93184 := by decide +kernel

/-- The slot of 02_hoop_time_base.md: occupied in its superframe, with its start, its strobe and the member entry read. -/
theorem test_slot :
    let b := (Block.atReset.wr HOOP_WARP_ACT_COUNT.COUNT 1).setWarp { Block.atReset.hoop.warp with
      warp := [(0, 0xC1050125), (1, 0xF), (2, 0x00012801), (3, 0x04800000), (4, 3), (5, 0x2004), (6, 0x00068DB9)] }
    let b := { (b.setReg DDRC_CFG.all.base (fput (fput 0 DDRC_CFG.GIB 8) DDRC_CFG.CH0_UP 1)) with
      dram := { b.dram with bytes := [(0x120000004, 0x27), (0x120000005, 0x4F), (0x120000006, 0x1C)] } }
    b.occupied 0 0 1742330881 = true ∧ b.occupied 0 0 1742330882 = false ∧ b.slotStart 0 0 1742330881 = 0x67D9DC0125000000
      ∧ b.strobeTime 0 0 1742330881 = 0x67D9DC0124F97247 ∧ (b.groupFetch 0 0 1742330881).1 = ⟨0, 1742330881, 0x001C4F27, false⟩ := by decide +kernel

/-- The set and the record of the parking node (09_grove_directory.md). -/
theorem test_grove_record : grvSet 0x1C4F27 = 0xFC5 ∧ (Block.atReset.setReg GRV_DIR_BASE.all.base 2).grvRec 0x1C4F27 = 0x20E279380 := by decide +kernel

/-- The costs of the two packets of its context, Profile L, SF 128, BPSK, CODE 5, OVH 21 with an ACK (11_plait_queues_shaping.md,
12_border_routing.md). -/
theorem test_cost : let c : ShpCfg := { ShpCfg.zero with ovh := 21, air := 4 + 16 * 5, ackc := true }
    c.cost 20 = 16149 ∧ c.cost 40 = 19609 := by decide +kernel

/-- The source symbols of the image of 14_updates_seedfall.md. -/
theorem test_seed_block : seedBlock 150000 256 1 0 = (586, 0) := by decide +kernel

/-- The address, and the packet as compressed, of 12_border_routing.md. -/
theorem test_compress :
    let b := (Block.atReset.setReg BGH_CTX0_HI.all.base 0x20010DB8).setReg BGH_CTX0_LO.all.base 0x7A310010
    (b.compress ([0x60, 0, 0, 0, 0, 20, 0x11, 0x3F] ++ List.replicate 16 1 ++ [0x20, 0x01, 0x0D, 0xB8, 0x7A, 0x31, 0x00, 0x10] ++ [0, 0, 0, 0xFF, 0xFE, 0x1C, 0x4F, 0x27] ++ List.replicate 20 9))
      = [0x78, 0x07, 0x11, 0x3F] ++ List.replicate 16 1 ++ List.replicate 20 9 := by decide +kernel

/-- CMPI p4 := (w14 = 0) of 08_weft_instructions.md. -/
theorem test_cmpi : (match exec (.iCmpi 0) (weft 0x3102380000000000) with
    | .next t => bitOf (t.blk.strand 0).preds.toNat 4
    | _ => false) = true := by decide +kernel

/-- GET_FW_INFO of 01_device_organisation.md completes with TAG 21H, RES_LEN 4 and STATUS OK. -/
theorem test_status : (match exec .mbxComplete (on State.reset (fun b => { ((commanded 1 0 [] b).wr SYS_MBX_CMD.TAG 0x21).wr SYS_MBX_STATE.STW_UP 15 with
        stw := { b.stw with held := some (mbxOK, [0x00030207, 0, 5, 0]) } })) with
    | .next t => t.blk.reg SYS_MBX_STATUS.all.base == 0x21040000 && t.blk.reg SYS_MBX_STATE.all.base == 0x0000F105
        && t.blk.regNow (SYS_MBX_RES.all.off 0) == 0x00030207
    | _ => false) = true := by decide +kernel

/-- Cycle 3 of 15_interrupts_timers.md: the claim returns source 33 with VALID and COUNT 1, and nothing is presented then. -/
theorem test_claim : (match exec (.icuClaim 34) (on State.reset (fun b => [33, 40].foldl (fun (b : Block) n =>
        ((b.set ICU_SRC.EN n).wr ICU_SRC.COUNT 1 n).wr ICU_SRC.TARGET 34 n) (awake b))) with
    | .next t => t.blk.resp == .data 0x80010021 && t.blk.rd ICU_SRC.COUNT 33 == 0 && t.blk.presented 34 == none && t.blk.claimOf 34 == some 33
    | _ => false) = true := by decide +kernel

/-- The airtime of an ACK (05_transmit_and_clearing.md). -/
theorem test_airtime : ceilDiv (13824 * tcQ 0) qAir = 2265 := by decide +kernel

end Sys2Proof.Tests
end

section
/-! SUPPORT. Every step keeps the memories in their canonical form (R9, R310, R464, R518, R519). -/

namespace Sys2Proof.Machine

/-! ### The canonical form at the end of a command -/

/-- The answer is no next state, or one whose block is a canonical form. -/
def EndsCanonical : Out → Prop
  | .next t => ∃ b : Block, t.blk = b.canon
  | _ => True

theorem runCmd_endsCanonical (s : State) (f : Block → Block) : EndsCanonical (runCmd s f) := ⟨f s.blk.start, rfl⟩

theorem execInternalResetRelease_endsCanonical (w : BoardAt) (s : State) : EndsCanonical (execInternalResetRelease w s) := by
  unfold execInternalResetRelease
  split
  · split
    · exact runCmd_endsCanonical s id
    · split
      · trivial
      · exact runCmd_endsCanonical s _
  · exact runCmd_endsCanonical s id

/-- Every command ends with the memories in their canonical form: each meaning is one `runCmd`, but for the release, which may stop the model. -/
theorem exec_endsCanonical (c : Instr) (s : State) : EndsCanonical (exec c s) := by
  cases c with
  | internalResetRelease w => exact execInternalResetRelease_endsCanonical w s
  | _ => exact ⟨_, rfl⟩

/-! ### The canonical form over an idle beat -/

theorem Block.canon_memWf (b : Block) : b.canon.memWf = true := by
  simp only [Block.memWf, Block.canon, Tbl.canon_wf, Bool.and_self]

/-- The registers are in their canonical form. -/
def Block.regsWf (b : Block) : Prop := Tbl.wf regReset b.regs = true

theorem Block.setReg_regsWf {b : Block} (h : b.regsWf) (o : Nat) (v : BitVec 32) : (b.setReg o v).regsWf := Tbl.put_wf _ _ _ _ h

/-- A flag that the hardware sets is one register stored. -/
theorem Block.set_regsWf {b : Block} (h : b.regsWf) (f : Fld) (n : Nat) : (b.set f n).regsWf :=
  Block.setReg_regsWf (b := b.tieNote (f.off n) (fun v => fput v f 1)) h _ _

theorem Block.raiseWake_regs (b : Block) (k : Nat) : (b.raiseWake k).regs = b.regs := by
  unfold Block.raiseWake
  split <;> rfl

theorem Block.msix_regs (b : Block) (n : Nat) : (b.msix n).regs = b.regs := by
  unfold Block.msix
  split
  · rfl
  · split <;> rfl

theorem Block.wakeFor_regsWf {b : Block} (h : b.regsWf) (n : Nat) : (b.wakeFor n).regsWf := by
  have raised (k : Nat) : (b.raiseWake k).regsWf := by
    unfold Block.regsWf
    rwa [Block.raiseWake_regs]
  unfold Block.wakeFor
  dsimp only
  split
  · exact h
  · split
    · exact h
    · split
      · exact raised _
      · split
        · exact h
        · split
          · exact raised _
          · exact Block.set_regsWf h _ _

theorem foldl_wakeFor_regsWf : ∀ (l : List Nat) {b : Block}, b.regsWf → (l.foldl Block.wakeFor b).regsWf
  | [], _, h => h
  | n :: l, _, h => foldl_wakeFor_regsWf l (Block.wakeFor_regsWf h n)

/-- A decision of presentation keeps the registers' canonical form: it stores RESCUE_BLOCKED alone (R504). -/
theorem Block.icuEval_regsWf {b : Block} (h : b.regsWf) : b.icuEval.regsWf := by
  have woken := foldl_wakeFor_regsWf (List.range 256)
    (b := { b with icu := { b.icu with wakes := b.icu.wakes.filter (fun e => b.asleep e.1) } }) h
  unfold Block.icuEval
  dsimp only
  revert woken
  generalize List.foldl Block.wakeFor _ (List.range 256) = c
  intro woken
  split
  · exact woken
  · split
    · unfold Block.regsWf
      rwa [Block.msix_regs]
    · exact woken

theorem Block.tapClock_memWf (b : Block) : b.tapClock.memWf = b.memWf := by
  obtain ⟨t, n, e⟩ := b.tapClock_only
  rw [e]
  rfl

/-- A change of the interrupt controller leaves every memory but the registers. -/
theorem Block.IcuOnly.memWf {b c : Block} (h : b.IcuOnly c) (hb : b.memWf = true) (hc : c.regsWf) : c.memWf = true := by
  obtain ⟨⟨icu, regs, tie, fn, out, rfl⟩, -⟩ := h
  simp only [Block.memWf, Bool.and_eq_true, and_assoc] at hb ⊢
  exact ⟨hc, hb.2⟩

theorem Block.regsWf_of_memWf {b : Block} (h : b.memWf = true) : b.regsWf := by
  simp only [Block.memWf, Bool.and_eq_true, and_assoc] at h
  exact h.1

/-- An idle beat touches no memory but a register of the interrupt controller. -/
theorem Block.idleBeat_memWf {b : Block} (h : b.memWf = true) : b.idleBeat.memWf = true := by
  have ht : b.tapClock.memWf = true := by rw [Block.tapClock_memWf, h]
  have shown := b.tapClock.icuEval_icuOnly.memWf ht (Block.icuEval_regsWf (Block.regsWf_of_memWf ht))
  simpa only [Block.idleBeat, Block.memWf, Block.beatTick] using shown

/-- Settles O59: a command ends with the canonical form of its memories, and an idle beat keeps the form. -/
theorem everyStepKeepsTheMemoriesCanonical : Obligations.EveryStepKeepsTheMemoriesCanonical := by
  intro s t h hstep
  cases hp : s.pending with
  | nil =>
    simp only [step, hp] at hstep
    cases hstep
    exact Block.idleBeat_memWf h
  | cons c rest =>
    simp only [step, hp] at hstep
    have ends := exec_endsCanonical c { s with pending := rest }
    rw [hstep] at ends
    obtain ⟨b, hb⟩ := ends
    unfold State.Inv
    rw [hb, Block.canon_memWf]

end Sys2Proof.Machine
end

section
/-! SUPPORT. How a claim about a command is shown from its effect on the block: what `Runs` and `Gives` ask, and the registers and memories that the
shared operations keep. -/

namespace Sys2Proof.Machine

/-! ### From the meaning of a command to its claim -/

/-- A command whose meaning is one effect runs, and leaves the canonical form of what the effect leaves. -/
theorem runs_of_runCmd {c : Instr} {s : State} {f : Block → Block} {P : Block → Prop} (h : exec c s = runCmd s f) (hP : P (f s.blk.start).canon) :
    Runs c s P :=
  ⟨_, h, rfl, hP⟩

/-- The same, where the effect on this block is known to leave `b`. -/
theorem runs_of_effect {c : Instr} {s : State} {f : Block → Block} {b : Block} {P : Block → Prop} (h : exec c s = runCmd s f)
    (hb : f s.blk.start = b) (hP : P b.canon) : Runs c s P :=
  runs_of_runCmd h (hb ▸ hP)

/-- A command whose meaning is one effect gives what the effect leaves. -/
theorem gives_of_runCmd {c : Instr} {s : State} {f : Block → Block} {b : Block} (h : exec c s = runCmd s f) (hb : f s.blk.start = b) :
    Gives c s b := by
  rw [Gives, h, ← hb]
  rfl

/-! ### What a conditional effect keeps -/

/-- A part that an effect keeps is kept by the effect under a condition. -/
theorem Block.when_keeps {α : Type} (p : Block → α) {b : Block} {f : Block → Block} (h : p (f b) = p b) (c : Bool) : p (b.when c f) = p b := by
  cases c
  · rfl
  · exact h

/-! ### Counters -/

/-- A counter reads one more, up to its greatest value (R12). -/
theorem Block.rd_inc_same (b : Block) (f : Fld) (n : Nat) (h : f.hi < 32) : (b.inc f n).rd f n = min (b.rd f n + 1) (2 ^ f.width - 1) := by
  refine (Block.rd_wr_same (b.tieNote _ _) f _ n h).trans (Nat.mod_eq_of_lt ?_)
  exact Nat.lt_of_le_of_lt (Nat.min_le_right _ _) (Nat.sub_lt (Nat.two_pow_pos _) (by decide))

/-! ### Registers kept -/

theorem RegsKept.of_regs {b c : Block} {l : List Nat} (h : c.regs = b.regs) : RegsKept b c l := fun o _ => Block.reg_congr h o

theorem RegsKept.refl (b : Block) (l : List Nat) : RegsKept b b l := fun _ _ => rfl

theorem RegsKept.trans {a b c : Block} {l : List Nat} (h : RegsKept a b l) (g : RegsKept b c l) : RegsKept a c l :=
  fun o ho => (g o ho).trans (h o ho)

theorem RegsKept.mono {b c : Block} {l m : List Nat} (h : RegsKept b c l) (hs : l ⊆ m) : RegsKept b c m := fun o ho => h o (fun hl => ho (hs hl))

theorem RegsKept.canon {b c : Block} {l : List Nat} (h : RegsKept b c l) : RegsKept b c.canon l := fun o ho => by rw [Block.canon_reg]; exact h o ho

theorem RegsKept.when {a b : Block} {l : List Nat} {f : Block → Block} (h : RegsKept a b l) (hf : RegsKept a (f b) l) (c : Bool) :
    RegsKept a (b.when c f) l := by
  cases c
  · exact h
  · exact hf

/-- A stored register is the one register changed. -/
theorem RegsKept.setReg {a b : Block} {l : List Nat} (h : RegsKept a b l) {o : Nat} (ho : o ∈ l) (v : BitVec 32) : RegsKept a (b.setReg o v) l :=
  fun p hp => (b.reg_setReg_other o p v (fun e => hp (e ▸ ho))).trans (h p hp)

theorem RegsKept.wr {a b : Block} {l : List Nat} (h : RegsKept a b l) (f : Fld) (x n : Nat) (ho : f.off n ∈ l) : RegsKept a (b.wr f x n) l :=
  h.setReg ho _

theorem RegsKept.set {a b : Block} {l : List Nat} (h : RegsKept a b l) (f : Fld) (n : Nat) (ho : f.off n ∈ l) : RegsKept a (b.set f n) l :=
  RegsKept.wr (b := b.tieNote (f.off n) _) h f 1 n ho

theorem RegsKept.when_set {a b : Block} {l : List Nat} (h : RegsKept a b l) (f : Fld) (n : Nat) (c : Bool) (ho : f.off n ∈ l) :
    RegsKept a (b.when c (fun b => b.set f n)) l :=
  h.when (h.set f n ho) c

theorem RegsKept.clr {a b : Block} {l : List Nat} (h : RegsKept a b l) (f : Fld) (n : Nat) (ho : f.off n ∈ l) : RegsKept a (b.clr f n) l :=
  h.wr f 0 n ho

theorem RegsKept.incBy {a b : Block} {l : List Nat} (h : RegsKept a b l) (f : Fld) (k n : Nat) (ho : f.off n ∈ l) : RegsKept a (b.incBy f k n) l :=
  RegsKept.wr (b := b.tieNote (f.off n) _) h f _ n ho

/-! ### Fields apart -/

/-- A write of a field leaves every field of other bits, of whatever register. -/
theorem Block.rd_wr_disjoint (b : Block) (f g : Fld) (x n m : Nat) (h : f.hi < g.lo ∨ g.hi < f.lo) : (b.wr f x n).rd g m = b.rd g m := by
  by_cases ho : g.off m = f.off n
  · exact b.rd_wr_apart f g x n m ho h
  · exact b.rd_wr_other f g x n m ho

theorem Block.bit_wr_disjoint (b : Block) (f g : Fld) (x n m : Nat) (h : f.hi < g.lo ∨ g.hi < f.lo) : (b.wr f x n).bit g m = b.bit g m := by
  unfold Block.bit
  rw [b.rd_wr_disjoint f g x n m h]

theorem Block.rd_set_disjoint (b : Block) (f g : Fld) (n m : Nat) (h : f.hi < g.lo ∨ g.hi < f.lo) : (b.set f n).rd g m = b.rd g m :=
  (b.tieNote (f.off n) _).rd_wr_disjoint f g 1 n m h

theorem Block.bit_set_disjoint (b : Block) (f g : Fld) (n m : Nat) (h : f.hi < g.lo ∨ g.hi < f.lo) : (b.set f n).bit g m = b.bit g m :=
  (b.tieNote (f.off n) _).bit_wr_disjoint f g 1 n m h

theorem Block.bit_clr_same (b : Block) (f : Fld) (n : Nat) (h : f.hi < 32) : (b.clr f n).bit f n = false := by
  unfold Block.bit Block.clr
  rw [b.rd_wr_same f 0 n h, Nat.zero_mod]
  rfl

theorem RegsKept.rd {b c : Block} {l : List Nat} (h : RegsKept b c l) (f : Fld) (n : Nat) (ho : f.off n ∉ l) : c.rd f n = b.rd f n := by
  unfold Block.rd
  rw [h _ ho]

theorem RegsKept.bit {b c : Block} {l : List Nat} (h : RegsKept b c l) (f : Fld) (n : Nat) (ho : f.off n ∉ l) : c.bit f n = b.bit f n := by
  unfold Block.bit
  rw [h.rd f n ho]

/-! ### DRAM kept -/

theorem DramKept.of_dram {b c : Block} (h : c.dram = b.dram) : DramKept b c :=
  ⟨fun _ => by unfold Block.dramByte; rw [h], fun _ => by unfold Block.wordPoisoned; rw [h]⟩

theorem DramKept.canon {b c : Block} (h : DramKept b c) : DramKept b c.canon :=
  ⟨fun a => by rw [Block.canon_dramByte, h.1 a], fun w => by rw [Block.canon_wordPoisoned, h.2 w]⟩

/-! ### The Weft memories in the canonical form -/

@[simp] theorem Block.canon_iword (b : Block) (n c i : Nat) : b.canon.iword n c i = b.iword n c i := Tbl.get_canon _ _ _
@[simp] theorem Block.canon_dmemByte (b : Block) (n a : Nat) : b.canon.dmemByte n a = b.dmemByte n a := Tbl.get_canon _ _ _
@[simp] theorem Block.canon_tblWord (b : Block) (i : Nat) : b.canon.tblWord i = b.tblWord i := Tbl.get_canon _ _ _

/-! ### A number written as little-endian bytes -/

theorem leBytes_length : ∀ n v : Nat, (leBytes n v).length = n
  | 0, _ => rfl
  | n + 1, v => by rw [leBytes, List.length_cons, leBytes_length n]

theorem leBytes_getD : ∀ n v i : Nat, i < n → (leBytes n v).getD i 0 = BitVec.ofNat 8 (v / 256 ^ i)
  | n + 1, v, 0, _ => by simp [leBytes]
  | n + 1, v, i + 1, h => by
    rw [leBytes, List.getD_cons_succ, leBytes_getD n (v / 256) i (by omega), Nat.div_div_eq_div_mul, Nat.pow_succ, Nat.mul_comm]

theorem leNat_leBytes : ∀ n v : Nat, leNat (leBytes n v) = v % 256 ^ n
  | 0, v => by simp [leBytes, leNat, Nat.mod_one]
  | n + 1, v => by
    rw [leBytes, leNat, leNat_leBytes n, Nat.pow_succ, Nat.mul_comm (256 ^ n), Nat.mod_mul, BitVec.toNat_ofNat]

theorem leNat_leBytes_toNat (v : BitVec 64) : BitVec.ofNat 64 (leNat (leBytes 8 v.toNat)) = v := by
  rw [leNat_leBytes, show (256 : Nat) ^ 8 = 2 ^ 64 by decide, Nat.mod_eq_of_lt v.isLt, BitVec.ofNat_toNat, BitVec.setWidth_eq]

end Sys2Proof.Machine
end

section
/-! SUPPORT. The host's accesses to the Weft engines (R248–R250, R261, R265, R266, R270, R271). -/

namespace Sys2Proof.Machine

variable (b : Block)

/-! ### The address windows -/

/-- An index that counts under its AUTO_INC bit. -/
theorem Block.rd_when_wr_succ (f : Fld) (n : Nat) (c : Bool) (h : f.hi < 32) :
    (b.when c (fun b => b.wr f (b.rd f n + 1) n)).rd f n = if c then (b.rd f n + 1) % 2 ^ f.width else b.rd f n := by
  cases c
  · rfl
  · exact Block.rd_wr_same b f _ n h

theorem Block.iaddrStep_wft (n : Nat) : (b.iaddrStep n).wft = b.wft := Block.when_keeps (·.wft) rfl _
theorem Block.iaddrStep_dram (n : Nat) : (b.iaddrStep n).dram = b.dram := Block.when_keeps (·.dram) rfl _

theorem Block.iaddrStep_iword (n m c i : Nat) : (b.iaddrStep n).iword m c i = b.iword m c i := by
  unfold Block.iword
  rw [Block.iaddrStep_wft]

theorem Block.iaddrStep_rd_index (n : Nat) : (b.iaddrStep n).rd WFT_IADDR.INDEX n
    = if b.bit WFT_IADDR.AUTO_INC n then (b.rd WFT_IADDR.INDEX n + 1) % 8192 else b.rd WFT_IADDR.INDEX n :=
  b.rd_when_wr_succ WFT_IADDR.INDEX n _ (by decide)

theorem Block.iaddrStep_bit_other (f : Fld) (n m : Nat) (h : f.off m ≠ WFT_IADDR.INDEX.off n) : (b.iaddrStep n).bit f m = b.bit f m := by
  unfold Block.iaddrStep
  cases b.bit WFT_IADDR.AUTO_INC n
  · rfl
  · exact b.bit_wr_other WFT_IADDR.INDEX f (b.rd WFT_IADDR.INDEX n + 1) n m (.inl h)

theorem RegsKept.iaddrStep {a b : Block} {l : List Nat} (h : RegsKept a b l) (n : Nat) (ho : WFT_IADDR.all.off n ∈ l) : RegsKept a (b.iaddrStep n) l :=
  h.when (h.wr WFT_IADDR.INDEX _ n ho) _

theorem Block.tblStep_wft : b.tblStep.wft = b.wft := Block.when_keeps (·.wft) rfl _

theorem Block.tblStep_tblWord (i : Nat) : b.tblStep.tblWord i = b.tblWord i := by
  unfold Block.tblWord
  rw [Block.tblStep_wft]

theorem RegsKept.tblStep {a b : Block} {l : List Nat} (h : RegsKept a b l) (ho : WFT_TBL_ADDR.all.base ∈ l) : RegsKept a b.tblStep l :=
  h.when (h.wr WFT_TBL_ADDR.INDEX _ 0 ho) _

/-- The high half of a 64-bit word. -/
theorem high_half (v : BitVec 64) : BitVec.ofNat 32 (v.toNat / 2 ^ 32) = (v >>> 32).truncate 32 := by
  apply BitVec.eq_of_toNat_eq
  rw [BitVec.truncate_eq_setWidth, BitVec.toNat_setWidth, BitVec.toNat_ofNat, BitVec.toNat_ushiftRight, Nat.shiftRight_eq_div_pow]

/-- The low half of a 64-bit word. -/
theorem low_half (v : BitVec 64) : BitVec.ofNat 32 v.toNat = v.truncate 32 := by
  apply BitVec.eq_of_toNat_eq
  rw [BitVec.truncate_eq_setWidth, BitVec.toNat_setWidth, BitVec.toNat_ofNat]

/-! ### The strands that a write of WFT_CTL releases (R270) -/

theorem Block.strand_onStrand (k j : Nat) (f : Strand → Strand) : (b.onStrand k f).strand j = if j = k then f (b.strand k) else b.strand j := by
  split
  · next h => rw [h]; exact Tbl.get_put_same _ _ _ _
  · next h => exact Tbl.get_put_other _ _ _ _ _ h

/-- The write releases strand `4 n + i` of the engine if bit `i` of `v` is 1. -/
def Block.releaseIf (b : Block) (n : Nat) (v : BitVec 32) (i : Nat) : Block :=
  if bitOf v.toNat i then b.onStrand (4 * n + i) (fun s => { s with stopped := false }) else b

theorem Block.releaseIf_regs (n : Nat) (v : BitVec 32) (i : Nat) : (b.releaseIf n v i).regs = b.regs := by
  unfold Block.releaseIf
  split <;> rfl

theorem Block.releaseIf_stopped (n : Nat) (v : BitVec 32) (i j : Nat) : ((b.releaseIf n v i).strand (4 * n + j)).stopped
    = ((b.strand (4 * n + j)).stopped && !(j == i && v.toNat.testBit i)) := by
  unfold Block.releaseIf bitOf
  cases hv : v.toNat.testBit i
  · simp
  · by_cases hj : j = i
    · simp [Block.strand_onStrand, hj]
    · simp [Block.strand_onStrand, hj]

theorem Block.strandCtl_eq (n : Nat) (v : BitVec 32) : b.strandCtl n v
    = ((((b.setReg (WFT_CTL.all.off n) (v &&& 0x10F)).releaseIf n v 0).releaseIf n v 1).releaseIf n v 2).releaseIf n v 3 := rfl

theorem Block.strandCtl_reg (n : Nat) (v : BitVec 32) (o : Nat) :
    (b.strandCtl n v).reg o = (b.setReg (WFT_CTL.all.off n) (v &&& 0x10F)).reg o := by
  apply Block.reg_congr
  rw [Block.strandCtl_eq, Block.releaseIf_regs, Block.releaseIf_regs, Block.releaseIf_regs, Block.releaseIf_regs]

theorem Block.strandCtl_stopped (n : Nat) (v : BitVec 32) (i : Nat) (h : i < 4) :
    ((b.strandCtl n v).strand (4 * n + i)).stopped = ((b.strand (4 * n + i)).stopped && !v.toNat.testBit i) := by
  have kept : (b.setReg (WFT_CTL.all.off n) (v &&& 0x10F)).strand (4 * n + i) = b.strand (4 * n + i) := rfl
  rw [Block.strandCtl_eq]
  simp only [Block.releaseIf_stopped, kept]
  have : i = 0 ∨ i = 1 ∨ i = 2 ∨ i = 3 := by omega
  rcases this with rfl | rfl | rfl | rfl <;> simp

/-! ### Data memory (R249) -/

theorem get_dmemPut_outside : ∀ (d : List Byte) (t : Tbl Byte) (a x : Nat), x < a ∨ a + d.length ≤ x →
    Tbl.get (fun _ => 0) (dmemPut t a d) x = Tbl.get (fun _ => 0) t x
  | [], _, _, _, _ => rfl
  | y :: l, t, a, x, h => by
    simp only [List.length_cons] at h
    rw [dmemPut, get_dmemPut_outside l _ (a + 1) x (by omega), Tbl.get_put_other _ _ _ _ _ (by omega)]

theorem get_dmemPut_inside : ∀ (d : List Byte) (t : Tbl Byte) (a i : Nat), i < d.length → Tbl.get (fun _ => 0) (dmemPut t a d) (a + i) = d.getD i 0
  | y :: l, t, a, 0, _ => by
    rw [dmemPut, get_dmemPut_outside l _ (a + 1) (a + 0) (by omega)]
    exact Tbl.get_put_same _ t a y
  | y :: l, t, a, i + 1, h => by
    rw [dmemPut, show a + (i + 1) = a + 1 + i by omega, get_dmemPut_inside l _ (a + 1) i (by simpa using h), List.getD_cons_succ]

theorem Block.dmemByte_dmemWrite (n a i : Nat) (d : List Byte) (h : i < d.length) : (b.dmemWrite n a d).dmemByte n (a + i) = d.getD i 0 := by
  unfold Block.dmemByte
  rw [← Nat.add_assoc]
  exact get_dmemPut_inside d _ _ i h

/-! ### The shared table (R250, R518) -/

/-- A read of a table word with no error in its array leaves a clean word. -/
theorem Block.tblFind_clean (i : Nat) (he : Tbl.get (fun _ => []) b.ras.err (odKey 6 i) = []) (hp : b.tblBad i = false) : b.tblFind i 0 [] = b := by
  unfold Block.tblFind Block.odFind
  simp [he, hp, errAdd]

/-- A read of a poisoned table word counts one uncorrectable error, and stores the word and its poison as they were. -/
theorem Block.tblFind_poisoned (i : Nat) (he : Tbl.get (fun _ => []) b.ras.err (odKey 6 i) = []) (hp : b.tblBad i = true) :
    (b.tblFind i 0 []).wft = { b.wft with table := Tbl.put (fun _ => 0) b.wft.table i (b.tblWord i),
                                          tblPoison := Tbl.put (fun _ => false) b.wft.tblPoison i true }
    ∧ (b.tblFind i 0 []).regs = (b.inc RAS_UE_CNT.all).regs := by
  unfold Block.tblFind Block.odFind
  rw [he, show errAdd [] [] = [] by decide, hp]
  simp only [List.isEmpty_nil, Bool.not_true, Bool.and_false, Bool.false_eq_true, if_false]
  rw [Block.readWord_word _ _ _ _ _ _ _ _ (leBytes_length 8 _), leNat_leBytes_toNat]
  exact ⟨rfl, rfl⟩

/-- What a read of a table word with no error in its array does: a poisoned word is counted, and every word stays. -/
theorem Block.tblFind_reads (i : Nat) (he : Tbl.get (fun _ => []) b.ras.err (odKey 6 i) = []) :
    (b.tblFind i 0 []).tblBad i = b.tblBad i ∧ (∀ j, (b.tblFind i 0 []).tblWord j = b.tblWord j)
    ∧ (b.tblFind i 0 []).rd RAS_UE_CNT.all = (if b.tblBad i then min (b.rd RAS_UE_CNT.all + 1) (2 ^ 32 - 1) else b.rd RAS_UE_CNT.all)
    ∧ RegsKept b (b.tblFind i 0 []) [RAS_UE_CNT.all.base] := by
  cases hp : b.tblBad i with
  | false =>
    rw [b.tblFind_clean i he hp]
    exact ⟨hp, fun _ => rfl, rfl, .refl _ _⟩
  | true =>
    obtain ⟨hw, hr⟩ := b.tblFind_poisoned i he hp
    refine ⟨?_, fun j => ?_, ?_, fun o ho => ?_⟩
    · rw [Block.tblBad, hw]
      exact Tbl.get_put_same (fun _ => false) b.wft.tblPoison i true
    · rw [Block.tblWord, hw]
      by_cases hj : j = i
      · rw [hj]; exact Tbl.get_put_same (fun _ => 0) b.wft.table i _
      · exact Tbl.get_put_other (fun _ => 0) b.wft.table i j _ hj
    · rw [Block.rd_congr hr, if_pos rfl]
      exact b.rd_inc_same RAS_UE_CNT.all 0 (by decide)
    · rw [Block.reg_congr hr]
      exact (RegsKept.refl b _).incBy RAS_UE_CNT.all 1 0 (List.mem_singleton.2 rfl) o ho

theorem Block.tblWord_tblPut (i j : Nat) (v : BitVec 64) : (b.tblPut i v).tblWord j = if j = i then v else b.tblWord j := by
  split
  · next h => rw [h]; exact Tbl.get_put_same _ _ _ _
  · next h => exact Tbl.get_put_other _ _ _ _ _ h

/-- Of several stores to one table word in a beat, that of a lower strand is lost (R250). -/
theorem Block.tblStore_lower (i k : Nat) (v : BitVec 64) (t : TblStore) (ht : b.tblStoreNow i = some t) (hk : k < t.strand) : b.tblStore i k v = b := by
  unfold Block.tblStore
  rw [ht]
  exact if_pos hk

/-- A store that no higher strand has made in its beat is kept (R250). -/
theorem Block.tblStore_same (i k : Nat) (v : BitVec 64) (h : ∀ t, b.tblStoreNow i = some t → ¬ k < t.strand) : (b.tblStore i k v).tblWord i = v := by
  unfold Block.tblStore
  split
  · next t ht =>
    rw [if_neg (h t ht), Block.tblWord_tblPut, if_pos rfl]
  · rw [Block.tblWord_tblPut, if_pos rfl]

theorem Block.tblStore_other (i k j : Nat) (v : BitVec 64) (h : j ≠ i) : (b.tblStore i k v).tblWord j = b.tblWord j := by
  unfold Block.tblStore
  split
  · split
    · rfl
    · rw [Block.tblWord_tblPut, if_neg h]
      rfl
  · rw [Block.tblWord_tblPut, if_neg h]
    rfl

theorem Block.tblStore_regs (i k : Nat) (v : BitVec 64) : (b.tblStore i k v).regs = b.regs := by
  unfold Block.tblStore
  split
  · split <;> rfl
  · rfl

/-! ### The commands -/

theorem wftDoorbell_gives (s : State) (n : Nat) (v : Word) (h : n < 32) :
    Gives (.wftDoorbell n v) s (s.blk.start.onEngine n (fun e => { e with doorbells := e.doorbells ||| BitVec.ofNat 4 v.toNat })) := by
  refine gives_of_runCmd (f := fun b => b.ringBells (n % 32) (BitVec.ofNat 4 v.toNat)) rfl ?_
  rw [Nat.mod_eq_of_lt h]
  rfl

theorem strandEnableWrite_runs (s : State) (n : Nat) (v : Word) (h : n < 32) : Runs (.strandEnableWrite n v) s (fun t =>
    t.reg (WFT_CTL.all.off n) = v &&& 0x10F ∧ RegsKept s.blk t [WFT_CTL.all.off n]
    ∧ ∀ i, i < 4 → (t.strand (4 * n + i)).stopped = ((s.blk.strand (4 * n + i)).stopped && !v.toNat.testBit i)) := by
  refine runs_of_runCmd (f := fun b => b.strandCtl (n % 32) v) rfl ?_
  rw [Nat.mod_eq_of_lt h]
  refine ⟨?_, RegsKept.canon fun o ho => ?_, fun i hi => s.blk.start.strandCtl_stopped n v i hi⟩
  · rw [Block.canon_reg, Block.strandCtl_reg, Block.reg_setReg_same]
  · rw [Block.strandCtl_reg]
    exact Block.reg_setReg_other _ _ _ _ (fun e => ho (List.mem_singleton.2 e))

theorem instrWordLoad_lo_gives (s : State) (n : Nat) (h : n < 32) : Gives (.instrWordLoad n false) s
    (let x := s.blk.iword n (s.blk.iaddrBank n) (s.blk.rd WFT_IADDR.INDEX n)
     { s.blk.start with wft := { s.blk.wft with ird := Tbl.put (fun _ => 0) s.blk.wft.ird n x }, resp := .data (x.truncate 32) }) := by
  refine gives_of_runCmd (f := fun b => b.instrLoad (n % 32) false) rfl ?_
  rw [Nat.mod_eq_of_lt h]
  dsimp only
  rw [← low_half]
  rfl

theorem instrWordLoad_hi_runs (s : State) (n : Nat) (h : n < 32) : Runs (.instrWordLoad n true) s (fun t =>
    t.resp = .data ((Tbl.get (fun _ => 0) s.blk.wft.ird n >>> 32).truncate 32)
    ∧ t.rd WFT_IADDR.INDEX n = (if s.blk.bit WFT_IADDR.AUTO_INC n then (s.blk.rd WFT_IADDR.INDEX n + 1) % 8192 else s.blk.rd WFT_IADDR.INDEX n)
    ∧ RegsKept s.blk t [WFT_IADDR.all.off n]) := by
  refine runs_of_runCmd (f := fun b => b.instrLoad (n % 32) true) rfl ?_
  rw [Nat.mod_eq_of_lt h]
  refine ⟨?_, ?_, RegsKept.canon ?_⟩
  · rw [← high_half]
    rfl
  · rw [Block.canon_rd]
    exact s.blk.start.iaddrStep_rd_index n
  · exact (RegsKept.of_regs (c := s.blk.start) rfl).iaddrStep n (List.mem_singleton.2 rfl)

theorem instrWordStore_open_runs (s : State) (n : Nat) (v : Word) (h : n < 32) (hb : s.blk.bit WFT_IADDR.BANK_SEL n = false)
    (hl : s.blk.bankLocked n = false) : Runs (.instrWordStore n v) s (fun t =>
    t.iword n (1 - (s.blk.engine n).bank) (s.blk.rd WFT_IADDR.INDEX n) = join32 v (Tbl.get (fun _ => 0) s.blk.wft.iwr n)
    ∧ (∀ m c i, ibKey m c i ≠ ibKey n (1 - (s.blk.engine n).bank) (s.blk.rd WFT_IADDR.INDEX n) → t.iword m c i = s.blk.iword m c i)
    ∧ RegsKept s.blk t [WFT_IADDR.all.off n] ∧ DramKept s.blk t) := by
  refine runs_of_runCmd (f := fun b => b.instrStore (n % 32) v) rfl ?_
  rw [Nat.mod_eq_of_lt h]
  have pending : s.blk.start.iaddrBank n = 1 - (s.blk.engine n).bank := by
    unfold Block.iaddrBank
    rw [Block.start_bit, hb]
    rfl
  have locked : s.blk.start.bankLocked n = false := hl
  unfold Block.instrStore
  simp only [Block.start_bit, hb, locked, pending, Bool.or_self, Bool.false_eq_true, if_false]
  refine ⟨?_, fun m c i hk => ?_, RegsKept.canon (.iaddrStep (.of_regs rfl) n (List.mem_singleton.2 rfl)),
    DramKept.canon (.of_dram (Block.iaddrStep_dram _ n))⟩
  · rw [Block.canon_iword, Block.iaddrStep_iword]
    exact Tbl.get_put_same _ _ _ _
  · rw [Block.canon_iword, Block.iaddrStep_iword]
    exact Tbl.get_put_other _ _ _ _ _ hk

theorem instrWordStore_ignored_runs (s : State) (n : Nat) (v : Word) (h : n < 32)
    (hl : s.blk.bit WFT_IADDR.BANK_SEL n = true ∨ s.blk.bankLocked n = true) : Runs (.instrWordStore n v) s (fun t =>
    t.bit WFT_EVT.WR_IGN n = true ∧ (∀ m c i, t.iword m c i = s.blk.iword m c i)
    ∧ RegsKept s.blk t [WFT_IADDR.all.off n, WFT_EVT.all.off n]) := by
  refine runs_of_runCmd (f := fun b => b.instrStore (n % 32) v) rfl ?_
  rw [Nat.mod_eq_of_lt h]
  have ignored : (s.blk.start.bit WFT_IADDR.BANK_SEL n || s.blk.start.bankLocked n) = true := by
    rw [Bool.or_eq_true]
    exact hl
  unfold Block.instrStore
  simp only [ignored, if_true]
  have apart : WFT_EVT.WR_IGN.off n ≠ WFT_IADDR.INDEX.off n := by simp only [Fld.off]; omega
  refine ⟨?_, fun m c i => ?_, RegsKept.canon (.iaddrStep (.set (.of_regs rfl) _ n (by simp [Fld.off])) n (by simp))⟩
  · rw [Block.canon_bit, Block.iaddrStep_bit_other _ _ _ _ apart, Block.bit_set_same _ _ _ (by decide) (by decide)]
  · rw [Block.canon_iword, Block.iaddrStep_iword]
    rfl

theorem dmemHostAccess_read_runs (s : State) (n : Nat) (v : Word) (h : n < 32) : Runs (.dmemHostAccess n false v) s (fun t =>
    t.resp = .data (BitVec.ofNat 32 (leNat (s.blk.dmemBytes n (4 * s.blk.rd WFT_DADDR.ADDR n) 4)))
    ∧ (∀ m c, t.dmemByte m c = s.blk.dmemByte m c) ∧ RegsKept s.blk t [WFT_DADDR.all.off n]) := by
  refine runs_of_runCmd (f := fun b => b.dmemHost (n % 32) false v) rfl ?_
  rw [Nat.mod_eq_of_lt h]
  have answered : RegsKept s.blk (s.blk.start.answer (.data (BitVec.ofNat 32 (leNat (s.blk.dmemBytes n (4 * s.blk.rd WFT_DADDR.ADDR n) 4)))))
    [WFT_DADDR.all.off n] := .of_regs rfl
  refine ⟨Block.when_keeps (·.resp) rfl _, fun m c => ?_, RegsKept.canon (answered.when (answered.wr WFT_DADDR.ADDR _ n (List.mem_singleton.2 rfl)) _)⟩
  rw [Block.canon_dmemByte]
  exact Block.when_keeps (·.dmemByte m c) rfl _

theorem dmemHostAccess_write_runs (s : State) (n : Nat) (v : Word) (h : n < 32) : Runs (.dmemHostAccess n true v) s (fun t =>
    (∀ i, i < 4 → t.dmemByte n (4 * s.blk.rd WFT_DADDR.ADDR n + i) = BitVec.ofNat 8 (v.toNat / 256 ^ i)) ∧ RegsKept s.blk t [WFT_DADDR.all.off n]) := by
  refine runs_of_runCmd (f := fun b => b.dmemHost (n % 32) true v) rfl ?_
  rw [Nat.mod_eq_of_lt h]
  have written : RegsKept s.blk (s.blk.start.dmemWrite n (4 * s.blk.rd WFT_DADDR.ADDR n) (leBytes 4 v.toNat)) [WFT_DADDR.all.off n] := .of_regs rfl
  refine ⟨fun i hi => ?_, RegsKept.canon (written.when (written.wr WFT_DADDR.ADDR _ n (List.mem_singleton.2 rfl)) _)⟩
  rw [Block.canon_dmemByte, ← leBytes_getD 4 v.toNat i hi, ← s.blk.start.dmemByte_dmemWrite n _ i _ (by rw [leBytes_length]; exact hi)]
  exact Block.when_keeps (·.dmemByte n (4 * s.blk.rd WFT_DADDR.ADDR n + i)) rfl _

theorem tableWordLoad_lo_runs (s : State) (he : Tbl.get (fun _ => []) s.blk.ras.err (odKey 6 (s.blk.rd WFT_TBL_ADDR.INDEX)) = []) :
    Runs (.tableWordLoad false) s (fun t =>
      let i := s.blk.rd WFT_TBL_ADDR.INDEX
      let bad := Tbl.get (fun _ => false) s.blk.wft.tblPoison i
      let x := if bad then 0 else s.blk.tblWord i
      t.wft.trd = x ∧ t.resp = .data (x.truncate 32)
      ∧ t.rd RAS_UE_CNT.all = (if bad then min (s.blk.rd RAS_UE_CNT.all + 1) (2 ^ 32 - 1) else s.blk.rd RAS_UE_CNT.all)
      ∧ (∀ j, t.tblWord j = s.blk.tblWord j) ∧ RegsKept s.blk t [RAS_UE_CNT.all.base]) := by
  refine runs_of_runCmd (f := fun b => b.tblHostLoad false) rfl ?_
  obtain ⟨hbad, hword, hcount, hregs⟩ := s.blk.start.tblFind_reads (s.blk.rd WFT_TBL_ADDR.INDEX) he
  have value : (s.blk.start.tblFind (s.blk.rd WFT_TBL_ADDR.INDEX) 0 []).tblValue (s.blk.rd WFT_TBL_ADDR.INDEX)
      = if s.blk.tblBad (s.blk.rd WFT_TBL_ADDR.INDEX) then 0 else s.blk.tblWord (s.blk.rd WFT_TBL_ADDR.INDEX) := by
    unfold Block.tblValue
    rw [hbad, hword]
    rfl
  refine ⟨value, ?_, ?_, fun j => ?_, RegsKept.canon hregs⟩
  · exact (congrArg (fun x : BitVec 64 => Resp.data (BitVec.ofNat 32 x.toNat)) value).trans (congrArg Resp.data (low_half _))
  · rw [Block.canon_rd]
    exact hcount
  · rw [Block.canon_tblWord]
    exact hword j

theorem tableWordLoad_hi_runs (s : State) : Runs (.tableWordLoad true) s (fun t =>
    t.resp = .data ((s.blk.wft.trd >>> 32).truncate 32) ∧ RegsKept s.blk t [WFT_TBL_ADDR.all.base]) := by
  refine runs_of_runCmd (f := fun b => b.tblHostLoad true) rfl ⟨?_, RegsKept.canon ?_⟩
  · rw [← high_half]
    rfl
  · exact (RegsKept.of_regs (c := s.blk.start) rfl).tblStep (List.mem_singleton.2 rfl)

theorem tableWordStore_runs (s : State) (v : Word) : Runs (.tableWordStore v) s (fun t => t.tblWord (s.blk.rd WFT_TBL_ADDR.INDEX) =
      (match s.blk.tblStoreNow (s.blk.rd WFT_TBL_ADDR.INDEX) with
        | some y => if 128 < y.strand then s.blk.tblWord (s.blk.rd WFT_TBL_ADDR.INDEX) else join32 v s.blk.wft.twr
        | none => join32 v s.blk.wft.twr)
    ∧ (∀ j, j ≠ s.blk.rd WFT_TBL_ADDR.INDEX → t.tblWord j = s.blk.tblWord j) ∧ RegsKept s.blk t [WFT_TBL_ADDR.all.base]) := by
  refine runs_of_runCmd (f := fun b => b.tblHostStore v) rfl ?_
  unfold Block.tblHostStore
  refine ⟨?_, fun j hj => ?_, RegsKept.canon (.tblStep (.of_regs (Block.tblStore_regs _ _ _ _)) (List.mem_singleton.2 rfl))⟩
  · rw [Block.canon_tblWord, Block.tblStep_tblWord]
    have now : s.blk.start.tblStoreNow (s.blk.start.rd WFT_TBL_ADDR.INDEX) = s.blk.tblStoreNow (s.blk.rd WFT_TBL_ADDR.INDEX) := rfl
    split
    · next y hy =>
      split
      · next hk => rw [s.blk.start.tblStore_lower _ _ _ y (now.trans hy) hk]; rfl
      · next hk => exact Block.tblStore_same _ _ _ _ (fun t ht => by rw [now, hy] at ht; cases ht; exact hk)
    · next hy => exact Block.tblStore_same _ _ _ _ (fun t ht => by rw [now, hy] at ht; cases ht)
  · rw [Block.canon_tblWord, Block.tblStep_tblWord]
    exact Block.tblStore_other _ _ _ _ _ hj

/-- Settles O10, command by command. -/
theorem weftHostAccesses : Obligations.WeftHostAccesses :=
  ⟨fun s n v h => ⟨wftDoorbell_gives s n v h, strandEnableWrite_runs s n v h, instrWordLoad_lo_gives s n h, instrWordLoad_hi_runs s n h,
    instrWordStore_open_runs s n v h, instrWordStore_ignored_runs s n v h, dmemHostAccess_read_runs s n v h, dmemHostAccess_write_runs s n v h⟩,
   fun s v => ⟨tableWordLoad_lo_runs s, tableWordLoad_hi_runs s, tableWordStore_runs s v⟩⟩

end Sys2Proof.Machine
end

section
/-! SUPPORT. GPIO, SPI, I²C and UART (R12, R566, R567). -/

namespace Sys2Proof.Machine

variable (b : Block)

/-! ### A ball takes a level (R567) -/

theorem getLsbD_one_shiftLeft {w : Nat} (k j : Nat) (hj : j < w) : ((1 : BitVec w) <<< k).getLsbD j = (j == k) := by
  rw [BitVec.getLsbD_shiftLeft, Bool.eq_iff_iff]
  simp only [BitVec.ofNat_eq_ofNat, BitVec.getLsbD_one, Bool.and_eq_true, Bool.not_eq_true', decide_eq_true_eq, decide_eq_false_iff_not, beq_iff_eq]
  omega

/-- The event register's value takes the bit from a number. -/
theorem getLsbD_natCast_one_shiftLeft (k j : Nat) (hj : j < 32) : (((1 <<< k : Nat) : BitVec 32)).getLsbD j = (j == k) := by
  rw [BitVec.natCast_eq_ofNat, BitVec.getLsbD_ofNat, Nat.one_shiftLeft, Nat.testBit_two_pow, Bool.eq_iff_iff]
  simp only [Bool.and_eq_true, decide_eq_true_eq, beq_iff_eq]
  omega

/-- The pins with ball `n` at a level. -/
def Pins.withBall (p : Pins) (n : Nat) (level : Bool) : Pins :=
  { p with gpio := if level then p.gpio ||| (1 : BitVec 48) <<< n else p.gpio &&& ~~~((1 : BitVec 48) <<< n) }

theorem Pins.withBall_gpio (p : Pins) (n j : Nat) (level : Bool) (hj : j < 48) :
    (p.withBall n level).gpio.getLsbD j = if j = n then level else p.gpio.getLsbD j := by
  unfold Pins.withBall
  have one := getLsbD_one_shiftLeft n j hj
  cases level
  · simp only [Bool.false_eq_true, if_false, BitVec.getLsbD_and, BitVec.getLsbD_not, one, hj]
    split <;> simp_all
  · simp only [if_true, BitVec.getLsbD_or, one]
    split <;> simp_all

/-- Ball `n` takes a level, and its event, if it fires, is an update of one register. -/
theorem Block.gpioTake_eq (n : Nat) (level : Bool) : b.gpioTake n level =
    (if gpioFires (b.rd SYS_GPIO_CFG.EVMODE n) (b.pins.gpio.getLsbD n) level then
      ({ b with pins := b.pins.withBall n level }.tieNote (SYS_GPIO_EVT.all.off (n / 32)) (fun v => v ||| 1 <<< (n % 32))).setReg
        (SYS_GPIO_EVT.all.off (n / 32)) (b.reg (SYS_GPIO_EVT.all.off (n / 32)) ||| 1 <<< (n % 32))
    else { b with pins := b.pins.withBall n level }) := rfl

theorem Block.gpioTake_pins (n : Nat) (level : Bool) : (b.gpioTake n level).pins = b.pins.withBall n level := by
  rw [Block.gpioTake_eq]
  split <;> rfl

theorem Block.gpioTake_ball (n j : Nat) (level : Bool) (hj : j < 48) :
    (b.gpioTake n level).pins.gpio.getLsbD j = if j = n then level else b.pins.gpio.getLsbD j := by
  rw [Block.gpioTake_pins, Pins.withBall_gpio _ _ _ _ hj]

theorem Block.gpioTake_tmr (n : Nat) (level : Bool) : (b.gpioTake n level).tmr = b.tmr := by
  rw [Block.gpioTake_eq]
  split <;> rfl

theorem RegsKept.gpioTake {a b : Block} {l : List Nat} (h : RegsKept a b l) (n : Nat) (level : Bool) (ho : SYS_GPIO_EVT.all.off (n / 32) ∈ l) :
    RegsKept a (b.gpioTake n level) l := by
  rw [Block.gpioTake_eq]
  split
  · exact RegsKept.setReg (b := { b with pins := b.pins.withBall n level }.tieNote _ _) h ho _
  · exact h

/-- The event bit of the ball sets under EVMODE; the others stay. -/
theorem Block.gpioTake_event (n j : Nat) (level : Bool) (hj : j < 32) :
    ((b.gpioTake n level).reg (SYS_GPIO_EVT.all.off (n / 32))).getLsbD j = ((b.reg (SYS_GPIO_EVT.all.off (n / 32))).getLsbD j
      || (j == n % 32 && gpioFires (b.rd SYS_GPIO_CFG.EVMODE n) (b.pins.gpio.getLsbD n) level)) := by
  rw [Block.gpioTake_eq]
  split
  · next h => rw [Block.reg_setReg_same, BitVec.getLsbD_or, getLsbD_natCast_one_shiftLeft _ j hj, h, Bool.and_true]
  · next h =>
    rw [Bool.eq_false_iff.2 h, Bool.and_false, Bool.or_false]
    rfl

/-! ### Every ball looked at again (R567) -/

/-- The registers of the GPIO events. -/
def gpioEvents : List Nat := [SYS_GPIO_EVT.all.off 0, SYS_GPIO_EVT.all.off 1]

theorem gpioEvent_mem {n : Nat} (h : n < 48) : SYS_GPIO_EVT.all.off (n / 32) ∈ gpioEvents := by
  have : n / 32 = 0 ∨ n / 32 = 1 := by omega
  rcases this with e | e <;> simp [gpioEvents, e]

/-- What drives a ball: its configuration, OE, OUT and its timer, none of them an event register. -/
theorem RegsKept.gpioDriven {b c : Block} (h : RegsKept b c gpioEvents) (ht : c.tmr = b.tmr) {j : Nat} (hj : j < 48) : c.gpioDriven j = b.gpioDriven j := by
  have apart (f : Fld) (n : Nat) (hf : f.off n ≠ 0x4018 ∧ f.off n ≠ 0x401C) : c.reg (f.off n) = b.reg (f.off n) :=
    h _ (by simpa [gpioEvents, Fld.off] using hf)
  have cfg := apart SYS_GPIO_CFG.FUNC j (by simp only [Fld.off]; omega)
  have oe := apart SYS_GPIO_OE.all (j / 32) (by simp only [Fld.off]; omega)
  have out := apart SYS_GPIO_OUT.all (j / 32) (by simp only [Fld.off]; omega)
  unfold Block.gpioDriven Block.gpioBit Block.rd Block.timer
  rw [cfg, oe, out, ht]

/-- Ball `n` is looked at again. -/
def Block.gpioLook (b : Block) (n : Nat) : Block :=
  (if (b.gpioDriven n).isSome && b.gpioBall n != b.pins.gpio.getLsbD n then b.emit (.pin "GPIO" n (b.gpioBall n)) else b).gpioTake n (b.gpioBall n)

theorem Block.gpioSettle_eq : b.gpioSettle = (List.range 48).foldl Block.gpioLook b := rfl

/-- `c` is `b` with the balls below `k` looked at again: they have the levels that `b` drives, and nothing but events has changed. -/
structure Block.Looked (b c : Block) (k : Nat) : Prop where
  regs : RegsKept b c gpioEvents
  tmr : c.tmr = b.tmr
  balls : ∀ j, j < 48 → c.pins.gpio.getLsbD j = if j < k then b.gpioBall j else b.pins.gpio.getLsbD j

theorem Block.Looked.next {b c : Block} {k : Nat} (h : b.Looked c k) (hk : k < 48) : b.Looked (c.gpioLook k) (k + 1) := by
  have now : c.gpioBall k = b.gpioBall k := by
    unfold Block.gpioBall
    rw [h.regs.gpioDriven h.tmr hk, h.balls k hk, if_neg (Nat.lt_irrefl k)]
  have emitted : ∀ d : Block, d.regs = c.regs → d.tmr = c.tmr → d.pins = c.pins → b.Looked (d.gpioTake k (c.gpioBall k)) (k + 1) := by
    intro d hr ht hp
    refine ⟨.gpioTake (fun o ho => (Block.reg_congr hr o).trans (h.regs o ho)) _ _ (gpioEvent_mem hk), ?_, fun j hj => ?_⟩
    · rw [Block.gpioTake_tmr, ht, h.tmr]
    · rw [Block.gpioTake_ball _ _ _ _ hj, now, hp, h.balls j hj]
      by_cases hjk : j = k
      · rw [if_pos hjk, if_pos (by omega), hjk]
      · rw [if_neg hjk]
        by_cases hlt : j < k
        · rw [if_pos hlt, if_pos (by omega)]
        · rw [if_neg hlt, if_neg (by omega)]
  unfold Block.gpioLook
  split
  · exact emitted _ rfl rfl rfl
  · exact emitted _ rfl rfl rfl

theorem Block.looked_foldl : ∀ k, k ≤ 48 → b.Looked ((List.range k).foldl Block.gpioLook b) k
  | 0, _ => ⟨.refl b _, rfl, fun _ _ => rfl⟩
  | k + 1, h => by
    rw [List.range_succ, List.foldl_append]
    exact (Block.looked_foldl k (by omega)).next (by omega)

/-- After every ball has been looked at, each has the level driven, or its own where none is driven. -/
theorem Block.gpioSettle_looked : b.Looked b.gpioSettle 48 := by
  rw [Block.gpioSettle_eq]
  exact b.looked_foldl 48 (Nat.le_refl _)

theorem gpioEvent_runs (s : State) (n : Nat) (level : Bool) (h : n < 48) :
    let lv := (s.blk.gpioDriven n).getD level
    let prev := s.blk.pins.gpio.getLsbD n
    Runs (.gpioEvent n level) s (fun t => (∀ j, j < 48 → t.pins.gpio.getLsbD j = if j = n then lv else s.blk.pins.gpio.getLsbD j)
      ∧ (∀ j, j < 32 → (t.reg (SYS_GPIO_EVT.all.off (n / 32))).getLsbD j = ((s.blk.reg (SYS_GPIO_EVT.all.off (n / 32))).getLsbD j
          || (j == n % 32 && gpioFires (s.blk.rd SYS_GPIO_CFG.EVMODE n) prev lv)))
      ∧ RegsKept s.blk t [SYS_GPIO_EVT.all.off (n / 32)]) := by
  intro lv prev
  refine runs_of_runCmd (f := fun b => b.gpioTake (n % 48) ((b.gpioDriven (n % 48)).getD level)) rfl ?_
  rw [Nat.mod_eq_of_lt h]
  refine ⟨fun j hj => s.blk.start.gpioTake_ball n j _ hj, fun j hj => ?_,
    RegsKept.canon (.gpioTake (.of_regs rfl) _ _ (List.mem_singleton.2 rfl))⟩
  rw [Block.canon_reg]
  exact s.blk.start.gpioTake_event n j _ hj

/-- The pin's configuration as a write stores it (R566). -/
def Block.gpioFields (b : Block) (n : Nat) (v : BitVec 32) : Block :=
  ((b.wr SYS_GPIO_CFG.FUNC (if fget v SYS_GPIO_CFG.FUNC = 1 ∧ n < 32 then 1 else 0) n).wr SYS_GPIO_CFG.PULL
    (if fget v SYS_GPIO_CFG.PULL = 3 then 0 else fget v SYS_GPIO_CFG.PULL) n).wr SYS_GPIO_CFG.EVMODE
    (if 6 ≤ fget v SYS_GPIO_CFG.EVMODE then 0 else fget v SYS_GPIO_CFG.EVMODE) n

theorem Block.gpioCfg_eq (n : Nat) (v : BitVec 32) : b.gpioCfg n v = (b.gpioFields n v).gpioSettle := rfl

theorem Block.gpioFields_func (n : Nat) (v : BitVec 32) :
    (b.gpioFields n v).rd SYS_GPIO_CFG.FUNC n = if fget v SYS_GPIO_CFG.FUNC = 1 ∧ n < 32 then 1 else 0 := by
  unfold Block.gpioFields
  rw [Block.rd_wr_disjoint _ _ _ _ _ _ (by decide), Block.rd_wr_disjoint _ _ _ _ _ _ (by decide), Block.rd_wr_same _ _ _ _ (by decide)]
  split <;> rfl

theorem Block.gpioFields_pull (n : Nat) (v : BitVec 32) :
    (b.gpioFields n v).rd SYS_GPIO_CFG.PULL n = if fget v SYS_GPIO_CFG.PULL = 3 then 0 else fget v SYS_GPIO_CFG.PULL := by
  unfold Block.gpioFields
  rw [Block.rd_wr_disjoint _ _ _ _ _ _ (by decide), Block.rd_wr_same _ _ _ _ (by decide)]
  split
  · rfl
  · exact Nat.mod_eq_of_lt (fget_lt v SYS_GPIO_CFG.PULL)

theorem Block.gpioFields_evmode (n : Nat) (v : BitVec 32) :
    (b.gpioFields n v).rd SYS_GPIO_CFG.EVMODE n = if 6 ≤ fget v SYS_GPIO_CFG.EVMODE then 0 else fget v SYS_GPIO_CFG.EVMODE := by
  unfold Block.gpioFields
  rw [Block.rd_wr_same _ _ _ _ (by decide)]
  split
  · rfl
  · exact Nat.mod_eq_of_lt (fget_lt v SYS_GPIO_CFG.EVMODE)

theorem gpioCfgWrite_runs (s : State) (n : Nat) (v : Word) (h : n < 48) : Runs (.gpioCfgWrite n v) s (fun t =>
    t.rd SYS_GPIO_CFG.FUNC n = (if fget v SYS_GPIO_CFG.FUNC = 1 ∧ n < 32 then 1 else 0)
    ∧ t.rd SYS_GPIO_CFG.PULL n = (if fget v SYS_GPIO_CFG.PULL = 3 then 0 else fget v SYS_GPIO_CFG.PULL)
    ∧ t.rd SYS_GPIO_CFG.EVMODE n = (if 6 ≤ fget v SYS_GPIO_CFG.EVMODE then 0 else fget v SYS_GPIO_CFG.EVMODE)
    ∧ (∀ j l, j < 48 → t.gpioDriven j = some l → t.pins.gpio.getLsbD j = l)
    ∧ (∀ j, j < 48 → t.gpioDriven j = none → t.pins.gpio.getLsbD j = s.blk.pins.gpio.getLsbD j)
    ∧ RegsKept s.blk t [SYS_GPIO_CFG.all.off n, SYS_GPIO_EVT.all.off 0, SYS_GPIO_EVT.all.off 1]) := by
  refine runs_of_runCmd (f := fun b => b.gpioCfg (n % 48) v) rfl ?_
  rw [Nat.mod_eq_of_lt h]
  rw [Block.gpioCfg_eq]
  have stored : RegsKept s.blk (s.blk.start.gpioFields n v) [SYS_GPIO_CFG.all.off n] :=
    (((RegsKept.of_regs (c := s.blk.start) rfl).wr SYS_GPIO_CFG.FUNC _ n (List.mem_singleton.2 rfl)).wr SYS_GPIO_CFG.PULL _ n
      (List.mem_singleton.2 rfl)).wr SYS_GPIO_CFG.EVMODE _ n (List.mem_singleton.2 rfl)
  have func := s.blk.start.gpioFields_func n v
  have pull := s.blk.start.gpioFields_pull n v
  have evmode := s.blk.start.gpioFields_evmode n v
  have pins : (s.blk.start.gpioFields n v).pins = s.blk.pins := rfl
  generalize s.blk.start.gpioFields n v = c at stored func pull evmode pins ⊢
  have looked := c.gpioSettle_looked
  have apart : SYS_GPIO_CFG.all.off n ∉ gpioEvents := by
    simp only [gpioEvents, Fld.off, List.mem_cons, List.not_mem_nil, or_false]
    omega
  have cfg (f : Fld) (hf : f.off n = SYS_GPIO_CFG.all.off n) : c.gpioSettle.canon.rd f n = c.rd f n := by
    rw [Block.canon_rd]
    exact looked.regs.rd f n (hf ▸ apart)
  have driven {j : Nat} (hj : j < 48) : c.gpioSettle.canon.gpioDriven j = c.gpioDriven j :=
    (RegsKept.canon looked.regs).gpioDriven looked.tmr hj
  have ball {j : Nat} (hj : j < 48) : c.gpioSettle.canon.pins.gpio.getLsbD j = c.gpioBall j := (looked.balls j hj).trans (if_pos hj)
  refine ⟨(cfg SYS_GPIO_CFG.FUNC rfl).trans func, (cfg SYS_GPIO_CFG.PULL rfl).trans pull, (cfg SYS_GPIO_CFG.EVMODE rfl).trans evmode, fun j l hj hl => ?_, fun j hj hl => ?_, RegsKept.canon ?_⟩
  · rw [ball hj, Block.gpioBall, ← driven hj, hl]
    rfl
  · rw [ball hj, Block.gpioBall, ← driven hj, hl, pins]
    rfl
  · exact (stored.mono (by simp)).trans (looked.regs.mono (by simp [gpioEvents]))

/-! ### SPI (R566, R567) -/

theorem Block.spiData_busy (i : Nat) (v : BitVec 32) (h : b.bit SYS_SPI_ST.BUSY i = true) : b.spiData i v = b.set SYS_SPI_ST.WR_IGN i := if_pos h

theorem Block.spiData_off (i : Nat) (v : BitVec 32) (h : b.bit SYS_SPI_ST.BUSY i = false) (he : b.bit SYS_SPI_CTL.EN i = false) :
    b.spiData i v = b := by
  simp [Block.spiData, h, he]

theorem Block.spiData_sends (i : Nat) (v : BitVec 32) (h : b.bit SYS_SPI_ST.BUSY i = false) (he : b.bit SYS_SPI_CTL.EN i = true) :
    b.spiData i v = (b.set SYS_SPI_ST.BUSY i).emit (.spi i (b.rd SYS_SPI_CTL.CS i) (b.rd SYS_SPI_CTL.MODE i) (2 * (b.rd SYS_SPI_CTL.DIV i + 1))
      (b.rd SYS_SPI_CTL.LEN i) (v.toNat % 2 ^ b.rd SYS_SPI_CTL.LEN i) (b.bit SYS_SPI_CTL.CS_HOLD i)) := by
  simp [Block.spiData, h, he]

theorem spiTransfer_runs (s : State) (i : Nat) (v : Word) (h : i < 2) :
    if s.blk.bit SYS_SPI_ST.BUSY i = true then Gives (.spiTransfer i v) s (s.blk.start.set SYS_SPI_ST.WR_IGN i)
    else if s.blk.bit SYS_SPI_CTL.EN i = false then NoEffect (.spiTransfer i v) s
    else Runs (.spiTransfer i v) s (fun t => t.bit SYS_SPI_ST.BUSY i = true ∧ RegsKept s.blk t [SYS_SPI_ST.all.off i]
      ∧ t.out = [.spi i (s.blk.rd SYS_SPI_CTL.CS i) (s.blk.rd SYS_SPI_CTL.MODE i) (2 * (s.blk.rd SYS_SPI_CTL.DIV i + 1))
          (s.blk.rd SYS_SPI_CTL.LEN i) (v.toNat % 2 ^ s.blk.rd SYS_SPI_CTL.LEN i) (s.blk.bit SYS_SPI_CTL.CS_HOLD i)]) := by
  have meaning : exec (.spiTransfer i v) s = runCmd s (fun b => b.spiData (i % 2) v) := rfl
  rw [Nat.mod_eq_of_lt h] at meaning
  split
  · next busy => exact gives_of_runCmd meaning (s.blk.start.spiData_busy i v busy)
  · next idle =>
    rw [Bool.not_eq_true] at idle
    split
    · next off => exact gives_of_runCmd meaning (s.blk.start.spiData_off i v idle off)
    · next on =>
      rw [Bool.not_eq_false] at on
      refine runs_of_effect meaning (s.blk.start.spiData_sends i v idle on) ⟨?_, RegsKept.canon ?_, rfl⟩
      · rw [Block.canon_bit]
        exact s.blk.start.bit_set_same SYS_SPI_ST.BUSY i (by decide) (by decide)
      · exact RegsKept.set (b := s.blk.start) (.of_regs rfl) SYS_SPI_ST.BUSY i (List.mem_singleton.2 rfl)

/-- The end of a transfer that received `v`. -/
def Block.spiEnd (b : Block) (i : Nat) (v : BitVec 32) : Block :=
  ((b.setReg (SYS_SPI_DATA.all.off i) (BitVec.ofNat 32 (v.toNat % 2 ^ b.rd SYS_SPI_CTL.LEN i))).clr SYS_SPI_ST.BUSY i).set SYS_SPI_ST.DONE i

theorem execSpiDone_eq (s : State) (i : Nat) (v : Word) (h : i < 2) :
    exec (.spiDone i v) s = runCmd s (fun b => if !b.bit SYS_SPI_ST.BUSY i then b else b.spiEnd i v) := by
  have meaning : exec (.spiDone i v) s = runCmd s (fun b => if !b.bit SYS_SPI_ST.BUSY (i % 2) then b else b.spiEnd (i % 2) v) := rfl
  rwa [Nat.mod_eq_of_lt h] at meaning

theorem Block.spiEnd_flags (i : Nat) (v : BitVec 32) :
    (b.spiEnd i v).bit SYS_SPI_ST.BUSY i = false ∧ (b.spiEnd i v).bit SYS_SPI_ST.DONE i = true := by
  unfold Block.spiEnd
  constructor
  · rw [Block.bit_set_disjoint _ _ _ _ _ (by decide), Block.bit_clr_same _ _ _ (by decide)]
  · rw [Block.bit_set_same _ _ _ (by decide) (by decide)]

theorem Block.spiEnd_data (i : Nat) (v : BitVec 32) :
    ((b.spiEnd i v).reg (SYS_SPI_DATA.all.off i)).toNat = v.toNat % 2 ^ b.rd SYS_SPI_CTL.LEN i := by
  have apart : SYS_SPI_DATA.all.off i ∉ [SYS_SPI_ST.all.off i] := by
    simp only [Fld.off, List.mem_singleton]
    omega
  unfold Block.spiEnd
  rw [(((RegsKept.refl _ _).clr SYS_SPI_ST.BUSY i (List.mem_singleton.2 rfl)).set SYS_SPI_ST.DONE i (List.mem_singleton.2 rfl)) _ apart,
    Block.reg_setReg_same, BitVec.toNat_ofNat]
  exact Nat.mod_eq_of_lt (Nat.lt_of_le_of_lt (Nat.mod_le _ _) v.isLt)

theorem RegsKept.spiEnd {a b : Block} (h : RegsKept a b []) (i : Nat) (v : BitVec 32) :
    RegsKept a (b.spiEnd i v) [SYS_SPI_DATA.all.off i, SYS_SPI_ST.all.off i] :=
  (((h.mono (List.nil_subset _)).setReg (List.mem_cons_self) _).clr SYS_SPI_ST.BUSY i (List.mem_cons_of_mem _ (List.mem_singleton.2 rfl))).set
    SYS_SPI_ST.DONE i (List.mem_cons_of_mem _ (List.mem_singleton.2 rfl))

theorem spiDone_runs (s : State) (i : Nat) (v : Word) (h : i < 2) :
    if s.blk.bit SYS_SPI_ST.BUSY i = false then NoEffect (.spiDone i v) s
    else Runs (.spiDone i v) s (fun t => t.bit SYS_SPI_ST.BUSY i = false ∧ t.bit SYS_SPI_ST.DONE i = true
      ∧ (t.reg (SYS_SPI_DATA.all.off i)).toNat = v.toNat % 2 ^ s.blk.rd SYS_SPI_CTL.LEN i
      ∧ RegsKept s.blk t [SYS_SPI_DATA.all.off i, SYS_SPI_ST.all.off i]) := by
  split
  · next idle => exact gives_of_runCmd (execSpiDone_eq s i v h) (if_pos (by rw [Block.start_bit, idle]; rfl))
  · next busy =>
    rw [Bool.not_eq_false] at busy
    obtain ⟨ended, done⟩ := s.blk.start.spiEnd_flags i v
    refine runs_of_effect (execSpiDone_eq s i v h) (if_neg (by rw [Block.start_bit, busy]; exact Bool.false_ne_true)) ⟨?_, ?_, ?_, RegsKept.canon ?_⟩
    · rw [Block.canon_bit, ended]
    · rw [Block.canon_bit, done]
    · rw [Block.canon_reg]
      exact s.blk.start.spiEnd_data i v
    · exact RegsKept.spiEnd (.of_regs rfl) i v

/-! ### I²C (R566, R567) -/

theorem Block.i2cCmd_busy (i : Nat) (v : BitVec 32) (h : b.bit SYS_I2C_ST.BUSY i = true) : b.i2cCmd i v = b.set SYS_I2C_ST.WR_IGN i := if_pos h

theorem Block.i2cCmd_idle (i : Nat) (v : BitVec 32) (h : b.bit SYS_I2C_ST.BUSY i = false) : b.i2cCmd i v =
    (let c := b.regStore (SYS_I2C_CMD.all.off i) v
     if c.bit SYS_I2C_CTL.EN i then (c.set SYS_I2C_ST.BUSY i).emit (.i2c i (c.rd SYS_I2C_CTL.SPEED i) (c.reg (SYS_I2C_CMD.all.off i)).toNat) else c) :=
  if_neg (by simp [h])

/-- A register whose bits are RW or none takes the bits that are RW (R11). -/
theorem accessStore_rw (rw old v : BitVec 32) : accessStore rw 0 0 old v = (old &&& ~~~rw) ||| (v &&& rw) := by
  have all (x : BitVec 32) : x &&& ~~~(v &&& 0#32) = x := by rw [BitVec.and_zero, BitVec.not_zero, BitVec.and_allOnes]
  unfold accessStore
  rw [BitVec.ofNat_eq_ofNat, all, BitVec.and_zero, BitVec.or_zero]

/-- A write of SYS_I2C_CMD_i stores its twelve bits. -/
theorem Block.reg_regStore_i2cCmd (i : Nat) (v : BitVec 32) (h : i < 2) : (b.regStore (SYS_I2C_CMD.all.off i) v).reg (SYS_I2C_CMD.all.off i)
    = (b.reg (SYS_I2C_CMD.all.off i) &&& 0xFFFFF000) ||| (v &&& 0xFFF) := by
  have masks : rowMasks (SYS_I2C_CMD.all.off i) = (0xFFF, 0, 0) := by
    have : i = 0 ∨ i = 1 := by omega
    rcases this with rfl | rfl <;> decide +kernel
  unfold Block.regStore
  rw [Block.reg_setReg_same, masks, accessStore_rw]
  simp

theorem RegsKept.regStore {a b : Block} {l : List Nat} (h : RegsKept a b l) {o : Nat} (ho : o ∈ l) (v : BitVec 32) : RegsKept a (b.regStore o v) l :=
  h.setReg ho _

theorem i2cCmd_runs (s : State) (i : Nat) (v : Word) (h : i < 2) :
    let w := (s.blk.reg (SYS_I2C_CMD.all.off i) &&& 0xFFFFF000) ||| (v &&& 0xFFF)
    if s.blk.bit SYS_I2C_ST.BUSY i = true then Gives (.i2cCmd i v) s (s.blk.start.set SYS_I2C_ST.WR_IGN i)
    else Runs (.i2cCmd i v) s (fun t => t.reg (SYS_I2C_CMD.all.off i) = w ∧ t.bit SYS_I2C_ST.BUSY i = s.blk.bit SYS_I2C_CTL.EN i
      ∧ t.out = (if s.blk.bit SYS_I2C_CTL.EN i then [.i2c i (s.blk.rd SYS_I2C_CTL.SPEED i) w.toNat] else [])
      ∧ RegsKept s.blk t [SYS_I2C_CMD.all.off i, SYS_I2C_ST.all.off i]) := by
  intro w
  have meaning : exec (.i2cCmd i v) s = runCmd s (fun b => b.i2cCmd (i % 2) v) := rfl
  rw [Nat.mod_eq_of_lt h] at meaning
  split
  · next busy => exact gives_of_runCmd meaning (s.blk.start.i2cCmd_busy i v busy)
  · next idle =>
    rw [Bool.not_eq_true] at idle
    refine runs_of_effect meaning (s.blk.start.i2cCmd_idle i v idle) ?_
    dsimp only
    have stored : (s.blk.start.regStore (SYS_I2C_CMD.all.off i) v).reg (SYS_I2C_CMD.all.off i) = w := s.blk.start.reg_regStore_i2cCmd i v h
    have kept : RegsKept s.blk (s.blk.start.regStore (SYS_I2C_CMD.all.off i) v) [SYS_I2C_CMD.all.off i] :=
      RegsKept.regStore (b := s.blk.start) (.of_regs rfl) (List.mem_singleton.2 rfl) v
    have out : (s.blk.start.regStore (SYS_I2C_CMD.all.off i) v).out = [] := rfl
    generalize s.blk.start.regStore (SYS_I2C_CMD.all.off i) v = c at stored kept out ⊢
    have enable : c.bit SYS_I2C_CTL.EN i = s.blk.bit SYS_I2C_CTL.EN i := kept.bit _ _ (by simp only [Fld.off, List.mem_singleton]; omega)
    have speed : c.rd SYS_I2C_CTL.SPEED i = s.blk.rd SYS_I2C_CTL.SPEED i := kept.rd _ _ (by simp only [Fld.off, List.mem_singleton]; omega)
    have busy : c.bit SYS_I2C_ST.BUSY i = s.blk.bit SYS_I2C_ST.BUSY i := kept.bit _ _ (by simp only [Fld.off, List.mem_singleton]; omega)
    rw [enable, speed, stored]
    have keptBoth : RegsKept s.blk c [SYS_I2C_CMD.all.off i, SYS_I2C_ST.all.off i] := kept.mono (by simp)
    cases s.blk.bit SYS_I2C_CTL.EN i with
    | false => exact ⟨(Block.canon_reg _ _).trans stored, (Block.canon_bit _ _ _).trans (busy.trans idle), out, keptBoth.canon⟩
    | true =>
      have apart : SYS_I2C_CMD.all.off i ∉ [SYS_I2C_ST.all.off i] := by
        simp only [Fld.off, List.mem_singleton]
        omega
      refine ⟨?_, ?_, ?_, RegsKept.canon (RegsKept.set keptBoth SYS_I2C_ST.BUSY i (by simp [Fld.off]))⟩
      · rw [Block.canon_reg]
        exact ((RegsKept.refl c _).set SYS_I2C_ST.BUSY i (List.mem_singleton.2 rfl) _ apart).trans stored
      · rw [Block.canon_bit]
        exact c.bit_set_same SYS_I2C_ST.BUSY i (by decide) (by decide)
      · exact congrArg (· ++ [_]) out

/-- The flags at the end of a byte step (R567). -/
def Block.i2cFlags (b : Block) (i : Nat) (nack arb : Bool) : Block :=
  (((b.clr SYS_I2C_ST.BUSY i).set SYS_I2C_ST.DONE i).when nack (fun b => b.set SYS_I2C_ST.NACK i)).when arb (fun b => b.set SYS_I2C_ST.ARB_LOST i)

/-- The end of a byte step: its flags, and the byte of a read that did not end early (R567). -/
def Block.i2cEnd (b : Block) (i : Nat) (byte : Byte) (nack arb : Bool) : Block :=
  (b.i2cFlags i nack arb).when ((b.i2cFlags i nack arb).bit SYS_I2C_CMD.READ i && !nack && !arb) (fun b => b.wr SYS_I2C_ST.BYTE byte.toNat i)

theorem execI2cStepDone_eq (s : State) (i : Nat) (byte : Byte) (nack arb : Bool) (h : i < 2) : exec (.i2cStepDone i byte nack arb) s
    = runCmd s (fun b => if !b.bit SYS_I2C_ST.BUSY i then b else b.i2cEnd i byte nack arb) := by
  have meaning : exec (.i2cStepDone i byte nack arb) s
      = runCmd s (fun b => if !b.bit SYS_I2C_ST.BUSY (i % 2) then b else b.i2cEnd (i % 2) byte nack arb) := rfl
  rwa [Nat.mod_eq_of_lt h] at meaning

theorem RegsKept.i2cFlags {a b : Block} {l : List Nat} (h : RegsKept a b l) (i : Nat) (nack arb : Bool) (ho : SYS_I2C_ST.all.off i ∈ l) :
    RegsKept a (b.i2cFlags i nack arb) l :=
  (((h.clr SYS_I2C_ST.BUSY i ho).set SYS_I2C_ST.DONE i ho).when_set SYS_I2C_ST.NACK i nack ho).when_set SYS_I2C_ST.ARB_LOST i arb ho

theorem RegsKept.i2cEnd {a b : Block} {l : List Nat} (h : RegsKept a b l) (i : Nat) (byte : Byte) (nack arb : Bool) (ho : SYS_I2C_ST.all.off i ∈ l) :
    RegsKept a (b.i2cEnd i byte nack arb) l :=
  (h.i2cFlags i nack arb ho).when ((h.i2cFlags i nack arb ho).wr SYS_I2C_ST.BYTE byte.toNat i ho) _

/-- A flag is set where the condition holds, and else as it was. -/
theorem Block.bit_when_set_same (f : Fld) (n : Nat) (c : Bool) (h : f.hi < 32) (hl : f.lo ≤ f.hi) : (b.when c (fun b => b.set f n)).bit f n = (b.bit f n || c) := by
  cases c
  · rw [Bool.or_false, Block.when_false]
  · rw [Bool.or_true, Block.when_true, Block.bit_set_same _ _ _ h hl]

theorem Block.rd_when_set_disjoint (f g : Fld) (n m : Nat) (c : Bool) (h : f.hi < g.lo ∨ g.hi < f.lo) : (b.when c (fun b => b.set f n)).rd g m = b.rd g m := by
  cases c
  · rfl
  · exact b.rd_set_disjoint f g n m h

theorem Block.bit_when_set_disjoint (f g : Fld) (n m : Nat) (c : Bool) (h : f.hi < g.lo ∨ g.hi < f.lo) : (b.when c (fun b => b.set f n)).bit g m = b.bit g m := by
  unfold Block.bit
  rw [b.rd_when_set_disjoint f g n m c h]

theorem Block.bit_when_wr_disjoint (f g : Fld) (x n m : Nat) (c : Bool) (h : f.hi < g.lo ∨ g.hi < f.lo) : (b.when c (fun b => b.wr f x n)).bit g m = b.bit g m := by
  cases c
  · rfl
  · exact b.bit_wr_disjoint f g x n m h

theorem Block.i2cEnd_flags (i : Nat) (byte : Byte) (nack arb : Bool) :
    (b.i2cEnd i byte nack arb).bit SYS_I2C_ST.BUSY i = false ∧ (b.i2cEnd i byte nack arb).bit SYS_I2C_ST.DONE i = true
    ∧ (b.i2cEnd i byte nack arb).bit SYS_I2C_ST.NACK i = (b.bit SYS_I2C_ST.NACK i || nack)
    ∧ (b.i2cEnd i byte nack arb).bit SYS_I2C_ST.ARB_LOST i = (b.bit SYS_I2C_ST.ARB_LOST i || arb) := by
  unfold Block.i2cEnd Block.i2cFlags
  refine ⟨?_, ?_, ?_, ?_⟩ <;> rw [Block.bit_when_wr_disjoint _ _ _ _ _ _ _ (by decide)]
  · rw [Block.bit_when_set_disjoint _ _ _ _ _ _ (by decide), Block.bit_when_set_disjoint _ _ _ _ _ _ (by decide),
      Block.bit_set_disjoint _ _ _ _ _ (by decide), Block.bit_clr_same _ _ _ (by decide)]
  · rw [Block.bit_when_set_disjoint _ _ _ _ _ _ (by decide), Block.bit_when_set_disjoint _ _ _ _ _ _ (by decide),
      Block.bit_set_same _ _ _ (by decide) (by decide)]
  · rw [Block.bit_when_set_disjoint _ _ _ _ _ _ (by decide), Block.bit_when_set_same _ _ _ _ (by decide) (by decide),
      Block.bit_set_disjoint _ _ _ _ _ (by decide), Block.clr, Block.bit_wr_disjoint _ _ _ _ _ _ (by decide)]
  · rw [Block.bit_when_set_same _ _ _ _ (by decide) (by decide), Block.bit_when_set_disjoint _ _ _ _ _ _ (by decide),
      Block.bit_set_disjoint _ _ _ _ _ (by decide), Block.clr, Block.bit_wr_disjoint _ _ _ _ _ _ (by decide)]

theorem Block.i2cEnd_byte (i : Nat) (byte : Byte) (nack arb : Bool) : (b.i2cEnd i byte nack arb).rd SYS_I2C_ST.BYTE i
    = if b.bit SYS_I2C_CMD.READ i && !nack && !arb then byte.toNat else b.rd SYS_I2C_ST.BYTE i := by
  have kept := (RegsKept.refl b [SYS_I2C_ST.all.off i]).i2cFlags i nack arb (List.mem_singleton.2 rfl)
  unfold Block.i2cEnd
  rw [kept.bit SYS_I2C_CMD.READ i (by simp only [Fld.off, List.mem_singleton]; omega)]
  cases b.bit SYS_I2C_CMD.READ i && !nack && !arb with
  | true =>
    rw [Block.when_true, Block.rd_wr_same _ _ _ _ (by decide), if_pos rfl]
    exact Nat.mod_eq_of_lt byte.isLt
  | false =>
    rw [Block.when_false, if_neg Bool.false_ne_true, Block.i2cFlags, Block.rd_when_set_disjoint _ _ _ _ _ _ (by decide),
      Block.rd_when_set_disjoint _ _ _ _ _ _ (by decide), Block.rd_set_disjoint _ _ _ _ _ (by decide), Block.clr,
      Block.rd_wr_disjoint _ _ _ _ _ _ (by decide)]

theorem i2cStepDone_runs (s : State) (i : Nat) (byte : Byte) (nack arb : Bool) (h : i < 2) :
    if s.blk.bit SYS_I2C_ST.BUSY i = false then NoEffect (.i2cStepDone i byte nack arb) s
    else Runs (.i2cStepDone i byte nack arb) s (fun t => t.bit SYS_I2C_ST.BUSY i = false ∧ t.bit SYS_I2C_ST.DONE i = true
      ∧ t.bit SYS_I2C_ST.NACK i = (s.blk.bit SYS_I2C_ST.NACK i || nack) ∧ t.bit SYS_I2C_ST.ARB_LOST i = (s.blk.bit SYS_I2C_ST.ARB_LOST i || arb)
      ∧ t.rd SYS_I2C_ST.BYTE i = (if s.blk.bit SYS_I2C_CMD.READ i && !nack && !arb then byte.toNat else s.blk.rd SYS_I2C_ST.BYTE i)
      ∧ RegsKept s.blk t [SYS_I2C_ST.all.off i]) := by
  have meaning := execI2cStepDone_eq s i byte nack arb h
  split
  · next idle => exact gives_of_runCmd meaning (if_pos (by rw [Block.start_bit, idle]; rfl))
  · next busy =>
    rw [Bool.not_eq_false] at busy
    obtain ⟨ended, done, nacked, lost⟩ := s.blk.start.i2cEnd_flags i byte nack arb
    refine runs_of_effect meaning (if_neg (by rw [Block.start_bit, busy]; exact Bool.false_ne_true)) ?_
    simp only [Block.canon_bit, Block.canon_rd]
    exact ⟨ended, done, nacked, lost, s.blk.start.i2cEnd_byte i byte nack arb,
      RegsKept.canon (RegsKept.i2cEnd (.of_regs rfl) i byte nack arb (List.mem_singleton.2 rfl))⟩

/-! ### UART (R566, R567) -/

/-- The next frame may start: none is being sent, EN is 1, and flow control lets it. -/
def Block.uartGo (b : Block) : Bool := b.low.sending.isNone && b.bit SYS_UART_CTL.EN && !(b.bit SYS_UART_CTL.RTSCTS && b.pins.ctsN)

theorem Block.uartGo_sending (h : b.uartGo = true) : b.low.sending = none := by
  simp only [Block.uartGo, Bool.and_eq_true, Option.isNone_iff_eq_none] at h
  exact h.1.1

/-- The block with the first byte of the transmit FIFO being sent. -/
def Block.uartSent (b : Block) (x : Byte) (l : List Byte) : Block :=
  (({ b with low := { b.low with tx := l, sending := some x } }.uartShow).when l.isEmpty (fun b => b.set SYS_UART_ST.TXE)).emit (.uart x)

theorem Block.uartStop_eq : (b.low.sending.isSome || !b.bit SYS_UART_CTL.EN || (b.bit SYS_UART_CTL.RTSCTS && b.pins.ctsN)) = !b.uartGo := by
  unfold Block.uartGo
  cases b.low.sending <;> cases b.bit SYS_UART_CTL.EN <;> simp

theorem Block.uartStart_held (h : b.uartGo = false) : b.uartStart = b := by
  unfold Block.uartStart
  rw [Block.uartStop_eq, h]
  rfl

theorem Block.uartStart_empty (h : b.low.tx = []) : b.uartStart = b := by
  unfold Block.uartStart
  rw [h]
  exact ite_self b

theorem Block.uartStart_sends (x : Byte) (l : List Byte) (h : b.uartGo = true) (ht : b.low.tx = x :: l) : b.uartStart = b.uartSent x l := by
  unfold Block.uartStart
  rw [Block.uartStop_eq, h, ht]
  rfl

/-- What the start of the next frame does: nothing, or the first byte is sent. -/
theorem Block.uartStart_cases : (b.uartStart = b ∧ (b.uartGo = false ∨ b.low.tx = []))
    ∨ ∃ x l, b.uartGo = true ∧ b.low.tx = x :: l ∧ b.uartStart = b.uartSent x l := by
  cases hg : b.uartGo with
  | false => exact .inl ⟨b.uartStart_held hg, .inl rfl⟩
  | true =>
    cases ht : b.low.tx with
    | nil => exact .inl ⟨b.uartStart_empty ht, .inr rfl⟩
    | cons x l => exact .inr ⟨x, l, rfl, rfl, b.uartStart_sends x l hg ht⟩

theorem Block.uartSent_low (x : Byte) (l : List Byte) : (b.uartSent x l).low = { b.low with tx := l, sending := some x } :=
  Block.when_keeps (·.low) rfl _

theorem Block.uartSent_pins (x : Byte) (l : List Byte) : (b.uartSent x l).pins = b.pins := Block.when_keeps (·.pins) rfl _

theorem Block.uartSent_out (x : Byte) (l : List Byte) : (b.uartSent x l).out = b.out ++ [.uart x] := by
  unfold Block.uartSent
  rw [Block.emit_out]
  cases l <;> rfl

theorem RegsKept.uartShow {a b : Block} {l : List Nat} (h : RegsKept a b l) (ho : SYS_UART_ST.all.base ∈ l) : RegsKept a b.uartShow l :=
  (h.wr SYS_UART_ST.RXLEV _ 0 ho).wr SYS_UART_ST.TXLEV _ 0 ho

theorem Block.uartShow_rxlev : b.uartShow.rd SYS_UART_ST.RXLEV = b.low.rx.length % 128 := by
  unfold Block.uartShow
  rw [Block.rd_wr_disjoint _ _ _ _ _ _ (by decide), Block.rd_wr_same _ _ _ _ (by decide)]
  rfl

theorem Block.uartShow_txlev : b.uartShow.rd SYS_UART_ST.TXLEV = b.low.tx.length % 128 := by
  unfold Block.uartShow
  rw [Block.rd_wr_same _ _ _ _ (by decide)]
  rfl

theorem RegsKept.uartSent {a b : Block} {l : List Nat} (h : RegsKept a b l) (x : Byte) (q : List Byte) (ho : SYS_UART_ST.all.base ∈ l) :
    RegsKept a (b.uartSent x q) l :=
  (RegsKept.uartShow (b := { b with low := { b.low with tx := q, sending := some x } }) h ho).when_set SYS_UART_ST.TXE 0 _ ho

theorem Block.uartSent_txlev (x : Byte) (l : List Byte) : (b.uartSent x l).rd SYS_UART_ST.TXLEV = l.length % 128 := by
  refine (Block.rd_when_set_disjoint _ SYS_UART_ST.TXE SYS_UART_ST.TXLEV 0 0 _ (by decide)).trans ?_
  exact Block.uartShow_txlev _

/-- What the start of the next frame leaves: the FIFO without its first byte where it is sent, the byte being sent, and the output. -/
theorem Block.uartStart_low : b.uartStart.low.tx = (if b.uartGo then b.low.tx.drop 1 else b.low.tx) ∧ b.uartStart.low.rx = b.low.rx
    ∧ b.uartStart.low.sending = (if b.uartGo then b.low.tx.head? else b.low.sending) := by
  rcases b.uartStart_cases with ⟨e, held | empty⟩ | ⟨x, l, go, ht, e⟩
  · rw [e, held]
    exact ⟨rfl, rfl, rfl⟩
  · rw [e, empty]
    refine ⟨by simp, rfl, ?_⟩
    split
    · next go => exact b.uartGo_sending go
    · rfl
  · rw [e, Block.uartSent_low, go, ht]
    exact ⟨rfl, rfl, rfl⟩

theorem Block.uartStart_out : b.uartStart.out = b.out ++ (if b.uartGo then (b.low.tx.take 1).map .uart else []) := by
  rcases b.uartStart_cases with ⟨e, held | empty⟩ | ⟨x, l, go, ht, e⟩
  · rw [e, held]
    exact (List.append_nil _).symm
  · rw [e, empty]
    simp
  · rw [e, Block.uartSent_out, go, ht]
    rfl

theorem Block.uartStart_pins : b.uartStart.pins = b.pins := by
  rcases b.uartStart_cases with ⟨e, -⟩ | ⟨x, l, -, -, e⟩
  · rw [e]
  · rw [e, Block.uartSent_pins]

theorem RegsKept.uartStart {a b : Block} {l : List Nat} (h : RegsKept a b l) (ho : SYS_UART_ST.all.base ∈ l) : RegsKept a b.uartStart l := by
  rcases b.uartStart_cases with ⟨e, -⟩ | ⟨x, q, -, -, e⟩
  · rw [e]
    exact h
  · rw [e]
    exact h.uartSent x q ho

/-- The level shown follows the FIFO. -/
theorem Block.uartStart_txlev (h : b.rd SYS_UART_ST.TXLEV = b.low.tx.length % 128) : b.uartStart.rd SYS_UART_ST.TXLEV = b.uartStart.low.tx.length % 128 := by
  rcases b.uartStart_cases with ⟨e, -⟩ | ⟨x, l, -, -, e⟩
  · rw [e, h]
  · rw [e, Block.uartSent_txlev, Block.uartSent_low]

/-- TXE sets as the FIFO becomes empty. -/
theorem Block.uartStart_txe (h : b.uartGo = true) (hl : b.low.tx.length = 1) : b.uartStart.bit SYS_UART_ST.TXE = true := by
  obtain ⟨x, ht⟩ := List.length_eq_one_iff.1 hl
  rw [b.uartStart_sends x [] h ht]
  exact Block.bit_set_same _ SYS_UART_ST.TXE 0 (by decide) (by decide)

/-- The block with a byte queued for sending. -/
def Block.uartQueue (b : Block) (x : Byte) : Block := { b with low := { b.low with tx := b.low.tx ++ [x] } }.uartShow

theorem Block.uartGo_congr {b c : Block} (h : RegsKept b c [SYS_UART_ST.all.base]) (hs : c.low.sending = b.low.sending) (hp : c.pins = b.pins) :
    c.uartGo = b.uartGo := by
  unfold Block.uartGo
  rw [hs, hp, h.bit SYS_UART_CTL.EN 0 (by decide), h.bit SYS_UART_CTL.RTSCTS 0 (by decide)]

theorem uartDataWrite_runs (s : State) (v : Word) :
    let go := s.blk.low.sending.isNone && s.blk.bit SYS_UART_CTL.EN && !(s.blk.bit SYS_UART_CTL.RTSCTS && s.blk.pins.ctsN)
    let q := s.blk.low.tx ++ [v.setWidth 8]
    if 64 ≤ s.blk.low.tx.length then Gives (.uartDataWrite v) s (s.blk.start.set SYS_UART_ST.TX_OVF)
    else Runs (.uartDataWrite v) s (fun t => t.low.tx = (if go then q.drop 1 else q) ∧ t.low.rx = s.blk.low.rx
      ∧ t.low.sending = (if go then q.head? else s.blk.low.sending) ∧ t.out = (if go then (q.take 1).map .uart else [])
      ∧ t.rd SYS_UART_ST.TXLEV = t.low.tx.length ∧ RegsKept s.blk t [SYS_UART_ST.all.base]) := by
  intro go q
  have meaning : exec (.uartDataWrite v) s = runCmd s (fun b => b.uartData v) := rfl
  split
  · next full => exact gives_of_runCmd meaning (if_pos full)
  · next room =>
    have queued : s.blk.start.uartData v = (s.blk.start.uartQueue (v.setWidth 8)).uartStart := if_neg room
    have kept : RegsKept s.blk (s.blk.start.uartQueue (v.setWidth 8)) [SYS_UART_ST.all.base] :=
      RegsKept.uartShow (b := { s.blk.start with low := { s.blk.low with tx := q } }) (.of_regs rfl) (List.mem_singleton.2 rfl)
    have level : (s.blk.start.uartQueue (v.setWidth 8)).rd SYS_UART_ST.TXLEV = q.length % 128 := Block.uartShow_txlev _
    have low : (s.blk.start.uartQueue (v.setWidth 8)).low = { s.blk.low with tx := q } := rfl
    have goes : (s.blk.start.uartQueue (v.setWidth 8)).uartGo = go := Block.uartGo_congr kept rfl rfl
    have out : (s.blk.start.uartQueue (v.setWidth 8)).out = [] := rfl
    refine runs_of_effect meaning queued ?_
    generalize s.blk.start.uartQueue (v.setWidth 8) = c at kept level low goes out ⊢
    obtain ⟨tx, rx, sending⟩ := c.uartStart_low
    have shown := c.uartStart_txlev (by rw [level, low])
    have short : c.uartStart.low.tx.length < 128 := by
      have hq : q.length = s.blk.low.tx.length + 1 := List.length_append
      have held : c.low.tx = q := congrArg (·.tx) low
      rw [tx, held]
      split
      · rw [List.length_drop]; omega
      · omega
    rw [low, goes] at tx sending
    rw [low] at rx
    refine ⟨tx, rx, sending, ?_, ?_, RegsKept.canon (kept.uartStart (List.mem_singleton.2 rfl))⟩
    · rw [Block.canon_out, Block.uartStart_out, out, low, goes, List.nil_append]
    · rw [Block.canon_rd, shown]
      exact Nat.mod_eq_of_lt short

/-! The receive FIFO. -/

/-- The receive FIFO holds `l`, and its level is shown. -/
def Block.rxHolds (b : Block) (l : List Byte) : Block := { b with low := { b.low with rx := l } }.uartShow

/-- The FIFO is replaced; UART_RTS_n is driven where it changes. -/
theorem Block.setRx_eq (l : List Byte) : b.setRx l = if (b.rxHolds l).uartRts = b.uartRts then b.rxHolds l
    else (b.rxHolds l).emit (.pin "UART_RTS" 0 (b.rxHolds l).uartRts) := rfl

theorem Block.rxHolds_kept (l : List Byte) : RegsKept b (b.rxHolds l) [SYS_UART_ST.all.base] :=
  RegsKept.uartShow (b := { b with low := { b.low with rx := l } }) (.of_regs rfl) (List.mem_singleton.2 rfl)

theorem Block.rxHolds_rts (l : List Byte) : (b.rxHolds l).uartRts = (b.bit SYS_UART_CTL.RTSCTS && decide (56 ≤ l.length)) := by
  unfold Block.uartRts
  rw [(b.rxHolds_kept l).bit SYS_UART_CTL.RTSCTS 0 (by decide)]
  rfl

theorem Block.setRx_low (l : List Byte) : (b.setRx l).low = { b.low with rx := l } := by
  rw [Block.setRx_eq]
  split <;> rfl

theorem Block.setRx_regs (l : List Byte) : (b.setRx l).regs = (b.rxHolds l).regs := by
  rw [Block.setRx_eq]
  split <;> rfl

theorem Block.setRx_kept (l : List Byte) : RegsKept b (b.setRx l) [SYS_UART_ST.all.base] :=
  (b.rxHolds_kept l).trans (.of_regs (b.setRx_regs l))

theorem Block.setRx_rxlev (l : List Byte) : (b.setRx l).rd SYS_UART_ST.RXLEV = l.length % 128 := by
  rw [Block.rd_congr (b.setRx_regs l)]
  exact Block.uartShow_rxlev _

theorem Block.setRx_rxav (l : List Byte) : (b.setRx l).bit SYS_UART_ST.RXAV = b.bit SYS_UART_ST.RXAV := by
  unfold Block.bit
  rw [Block.rd_congr (b.setRx_regs l), Block.rxHolds, Block.uartShow, Block.rd_wr_disjoint _ _ _ _ _ _ (by decide),
    Block.rd_wr_disjoint _ _ _ _ _ _ (by decide)]
  rfl

theorem Block.setRx_out (l : List Byte) : (b.setRx l).out = b.out ++ (if (b.rxHolds l).uartRts = b.uartRts then []
    else [.pin "UART_RTS" 0 (b.rxHolds l).uartRts]) := by
  rw [Block.setRx_eq]
  split
  · exact (List.append_nil _).symm
  · rfl

theorem uartDataRead_empty_gives (s : State) (h : s.blk.low.rx = []) : Gives .uartDataRead s { s.blk.start with resp := .data 0 } := by
  refine gives_of_runCmd (f := Block.uartRead) rfl ?_
  unfold Block.uartRead
  rw [Block.start_low, h]
  rfl

theorem uartDataRead_runs (s : State) (x : Byte) (l : List Byte) (h : s.blk.low.rx = x :: l) : Runs .uartDataRead s (fun t =>
    t.low.rx = l ∧ t.low.tx = s.blk.low.tx ∧ t.resp = .data (BitVec.ofNat 32 (256 + x.toNat)) ∧ t.rd SYS_UART_ST.RXLEV = l.length % 128
    ∧ RegsKept s.blk t [SYS_UART_ST.all.base]) := by
  have taken : s.blk.start.uartRead = (s.blk.start.setRx l).answer (.data (BitVec.ofNat 32 (256 + x.toNat))) := by
    unfold Block.uartRead
    rw [Block.start_low, h]
  have low := s.blk.start.setRx_low l
  refine runs_of_effect (f := Block.uartRead) rfl taken ⟨congrArg (·.rx) low, congrArg (·.tx) low, rfl, ?_, RegsKept.canon (s.blk.start.setRx_kept l)⟩
  rw [Block.canon_rd]
  exact s.blk.start.setRx_rxlev l

/-- A frame received with its stop bit joins the FIFO, and RXAV sets where the FIFO was empty. -/
def Block.uartTake (b : Block) (x : Byte) : Block := (b.setRx (b.low.rx ++ [x])).when b.low.rx.isEmpty (fun b => b.set SYS_UART_ST.RXAV)

theorem Block.uartTake_low (x : Byte) : (b.uartTake x).low = { b.low with rx := b.low.rx ++ [x] } := by
  unfold Block.uartTake
  rw [← Block.setRx_low]
  exact Block.when_keeps (·.low) rfl _

theorem Block.uartTake_rxav (x : Byte) : (b.uartTake x).bit SYS_UART_ST.RXAV = (b.bit SYS_UART_ST.RXAV || b.low.rx.isEmpty) := by
  unfold Block.uartTake
  rw [Block.bit_when_set_same _ _ _ _ (by decide) (by decide), Block.setRx_rxav]

theorem Block.uartTake_rxlev (x : Byte) (h : b.low.rx.length < 64) : (b.uartTake x).rd SYS_UART_ST.RXLEV = b.low.rx.length + 1 := by
  unfold Block.uartTake
  rw [Block.rd_when_set_disjoint _ _ _ _ _ _ (by decide), Block.setRx_rxlev, List.length_append, List.length_singleton]
  exact Nat.mod_eq_of_lt (by omega)

/-- UART_RTS_n rises with the 56th byte (R567). -/
theorem Block.uartTake_out (x : Byte) : (b.uartTake x).out
    = b.out ++ (if b.bit SYS_UART_CTL.RTSCTS && b.low.rx.length == 55 then [.pin "UART_RTS" 0 true] else []) := by
  have kept : (b.uartTake x).out = (b.setRx (b.low.rx ++ [x])).out := Block.when_keeps (·.out) rfl _
  rw [kept, Block.setRx_out, Block.rxHolds_rts, Block.uartRts, List.length_append, List.length_singleton]
  congr 1
  cases b.bit SYS_UART_CTL.RTSCTS with
  | false => rfl
  | true =>
    simp only [Bool.true_and, beq_iff_eq]
    by_cases h : b.low.rx.length = 55
    · simp [h]
    · have same : decide (56 ≤ b.low.rx.length + 1) = decide (56 ≤ b.low.rx.length) := decide_eq_decide.2 (by omega)
      rw [if_pos same, if_neg h]

theorem Block.uartTake_kept (x : Byte) : RegsKept b (b.uartTake x) [SYS_UART_ST.all.base] :=
  (b.setRx_kept _).when_set SYS_UART_ST.RXAV 0 _ (List.mem_singleton.2 rfl)

theorem uartRxFrame_runs (s : State) (x : Byte) :
    (s.blk.bit SYS_UART_CTL.EN = false → NoEffect (.uartRxFrame x true) s ∧ NoEffect (.uartRxFrame x false) s)
    ∧ (s.blk.bit SYS_UART_CTL.EN = true → Gives (.uartRxFrame x false) s (s.blk.start.set SYS_UART_ST.FRAME)
      ∧ (64 ≤ s.blk.low.rx.length → Gives (.uartRxFrame x true) s (s.blk.start.set SYS_UART_ST.RX_OVR))
      ∧ (s.blk.low.rx.length < 64 → Runs (.uartRxFrame x true) s (fun t => t.low.rx = s.blk.low.rx ++ [x] ∧ t.low.tx = s.blk.low.tx
        ∧ t.bit SYS_UART_ST.RXAV = (s.blk.bit SYS_UART_ST.RXAV || s.blk.low.rx.isEmpty) ∧ t.rd SYS_UART_ST.RXLEV = s.blk.low.rx.length + 1
        ∧ t.out = (if s.blk.bit SYS_UART_CTL.RTSCTS && s.blk.low.rx.length == 55 then [.pin "UART_RTS" 0 true] else [])
        ∧ RegsKept s.blk t [SYS_UART_ST.all.base]))) := by
  have meaning (stop : Bool) : exec (.uartRxFrame x stop) s = runCmd s (fun b => if !b.bit SYS_UART_CTL.EN then b
      else if !stop then b.set SYS_UART_ST.FRAME else if 64 ≤ b.low.rx.length then b.set SYS_UART_ST.RX_OVR else b.uartTake x) := rfl
  constructor
  · intro off
    have deaf : (!s.blk.start.bit SYS_UART_CTL.EN) = true := by rw [Block.start_bit, off]; rfl
    exact ⟨gives_of_runCmd (meaning true) (if_pos deaf), gives_of_runCmd (meaning false) (if_pos deaf)⟩
  · intro on
    have hears : ¬ (!s.blk.start.bit SYS_UART_CTL.EN) = true := by rw [Block.start_bit, on]; exact Bool.false_ne_true
    refine ⟨gives_of_runCmd (meaning false) ((if_neg hears).trans (if_pos rfl)), fun full => ?_, fun room => ?_⟩
    · exact gives_of_runCmd (meaning true) ((if_neg hears).trans ((if_neg Bool.false_ne_true).trans (if_pos full)))
    · have low := s.blk.start.uartTake_low x
      refine runs_of_effect (b := s.blk.start.uartTake x) (meaning true)
        ((if_neg hears).trans ((if_neg Bool.false_ne_true).trans (if_neg (Nat.not_le.2 room)))) ?_
      rw [Block.canon_bit, Block.canon_rd]
      exact ⟨congrArg (·.rx) low, congrArg (·.tx) low, s.blk.start.uartTake_rxav x, s.blk.start.uartTake_rxlev x room, s.blk.start.uartTake_out x,
        RegsKept.canon (s.blk.start.uartTake_kept x)⟩

/-- The frame that was being sent is over. -/
def Block.uartFree (b : Block) : Block := { b with low := { b.low with sending := none } }

theorem execUartTxFrameDone_eq (s : State) : exec .uartTxFrameDone s = runCmd s (fun b => if b.low.sending.isSome then b.uartFree.uartStart else b) := rfl

theorem uartTxFrameDone_idle (s : State) (h : s.blk.low.sending = none) : NoEffect .uartTxFrameDone s :=
  gives_of_runCmd (execUartTxFrameDone_eq s) (if_neg (by rw [Block.start_low, h]; exact Bool.false_ne_true))

theorem uartTxFrameDone_runs (s : State) (h : s.blk.low.sending.isSome = true) :
    let go := s.blk.bit SYS_UART_CTL.EN && !(s.blk.bit SYS_UART_CTL.RTSCTS && s.blk.pins.ctsN)
    Runs .uartTxFrameDone s (fun t => t.low.tx = (if go then s.blk.low.tx.drop 1 else s.blk.low.tx)
      ∧ t.low.sending = (if go then s.blk.low.tx.head? else none) ∧ t.out = (if go then (s.blk.low.tx.take 1).map .uart else [])
      ∧ (go = true → s.blk.low.tx.length = 1 → t.bit SYS_UART_ST.TXE = true)) := by
  intro go
  have goes : s.blk.start.uartFree.uartGo = go := rfl
  obtain ⟨tx, -, sending⟩ := s.blk.start.uartFree.uartStart_low
  have out := s.blk.start.uartFree.uartStart_out
  rw [goes] at tx sending out
  refine runs_of_effect (b := s.blk.start.uartFree.uartStart) (execUartTxFrameDone_eq s)
    (if_pos (show s.blk.start.low.sending.isSome = true from h)) ⟨tx, sending, out, fun hgo hl => ?_⟩
  rw [Block.canon_bit]
  exact Block.uartStart_txe _ (goes.trans hgo) hl

/-- UART_CTS_n is at a level. -/
def Block.ctsAt (b : Block) (level : Bool) : Block := { b with pins := { b.pins with ctsN := level } }

theorem uartCtsChange_runs (s : State) (lv : Bool) :
    let go := s.blk.low.sending.isNone && s.blk.bit SYS_UART_CTL.EN && !(s.blk.bit SYS_UART_CTL.RTSCTS && lv)
    Runs (.uartCtsChange lv) s (fun t => t.pins = { s.blk.pins with ctsN := lv } ∧ t.low.rx = s.blk.low.rx
      ∧ t.low.tx = (if go then s.blk.low.tx.drop 1 else s.blk.low.tx)
      ∧ t.low.sending = (if go then s.blk.low.tx.head? else s.blk.low.sending) ∧ t.out = (if go then (s.blk.low.tx.take 1).map .uart else [])) := by
  intro go
  have meaning : exec (.uartCtsChange lv) s = runCmd s (fun b => (b.ctsAt lv).uartStart) := rfl
  obtain ⟨tx, rx, sending⟩ := (s.blk.start.ctsAt lv).uartStart_low
  exact runs_of_effect (b := (s.blk.start.ctsAt lv).uartStart) meaning rfl
    ⟨(s.blk.start.ctsAt lv).uartStart_pins, rx, tx, sending, (s.blk.start.ctsAt lv).uartStart_out⟩

/-- Settles O54, command by command. -/
theorem lowSpeedPeripherals : Obligations.LowSpeedPeripherals :=
  ⟨gpioEvent_runs, gpioCfgWrite_runs, spiTransfer_runs, spiDone_runs, i2cCmd_runs, i2cStepDone_runs, uartDataWrite_runs, uartDataRead_empty_gives,
   uartDataRead_runs, uartRxFrame_runs, uartTxFrameDone_idle, uartTxFrameDone_runs, uartCtsChange_runs⟩

end Sys2Proof.Machine
end

section
/-! SUPPORT. Register and memory accesses: the registers after a Function Level Reset (R409), and a state of no invariant in which they are not as
the obligation says. -/

namespace Sys2Proof.Machine

/-! ### A Function Level Reset of registers in the canonical form -/

/-- In a table in its canonical form, what is left of the keys that `p` keeps holds what it held, and every other key its default. -/
theorem Tbl.get_filter_of_wf {α : Type} [DecidableEq α] (d : Nat → α) (p : Nat → Bool) : ∀ (t : Tbl α) (lo : Option Nat) (k : Nat),
    Tbl.wfFrom d lo t = true → Tbl.get d (t.filter (fun e => p e.1)) k = if p k then Tbl.get d t k else d k
  | [], _, k, _ => (ite_self (d k)).symm
  | (j, v) :: t, lo, k, h => by
    simp only [Tbl.wfFrom, Bool.and_eq_true] at h
    have ih := Tbl.get_filter_of_wf d p t (some j) k h.2
    have below : k ≤ j → Tbl.get d t k = d k := Tbl.get_below d t j k h.2
    cases hp : p j with
    | true =>
      rw [List.filter_cons, if_pos hp, Tbl.get, Tbl.get, ih]
      by_cases hj : j = k
      · rw [if_pos hj, if_pos hj, ← hj, hp, if_pos rfl]
      · rw [if_neg hj, if_neg hj]
        by_cases hk : k < j
        · rw [if_pos hk, if_pos hk, ite_self]
        · rw [if_neg hk, if_neg hk]
    | false =>
      rw [List.filter_cons, if_neg (ne_true_of_eq_false hp), ih, Tbl.get]
      by_cases hj : j = k
      · rw [← hj, hp, if_neg Bool.false_ne_true, if_neg Bool.false_ne_true]
      · rw [if_neg hj]
        by_cases hk : k < j
        · rw [if_pos hk, below (Nat.le_of_lt hk)]
        · rw [if_neg hk]

/-- A Function Level Reset brings the registers of the PCI block to their reset values but for PCI_STAT, and keeps every other one (R409). -/
theorem Block.flr_reg {b : Block} (h : b.regsWf) (o : Nat) : b.flr.reg o =
    if (o < 0x6C0000 ∨ 0x700000 ≤ o) ∨ o = PCI_STAT.all.base then b.reg o else regReset o := by
  have rest : Tbl.get regReset (b.regs.filter (fun e => decide (e.1 < 0x6C0000) || decide (0x700000 ≤ e.1))) o
      = if decide (o < 0x6C0000) || decide (0x700000 ≤ o) then b.reg o else regReset o :=
    Tbl.get_filter_of_wf regReset (fun k => decide (k < 0x6C0000) || decide (0x700000 ≤ k)) b.regs none o h
  have set := Block.reg_setReg { b.ringsStop with regs := b.regs.filter (fun e => decide (e.1 < 0x6C0000) || decide (0x700000 ≤ e.1)), fn := PciFn.fresh }
    PCI_STAT.all.base o (b.reg PCI_STAT.all.base)
  refine set.trans ?_
  by_cases hs : o = PCI_STAT.all.base
  · rw [if_pos hs, if_pos (.inr hs), hs]
  · rw [if_neg hs]
    refine rest.trans ?_
    simp only [Bool.or_eq_true, decide_eq_true_eq, hs, or_false]

theorem foldl_clr_dram : ∀ (l : List Nat) (b : Block), (l.foldl (fun (b : Block) r => (b.clr PCI_H2D_CFG.EN r).clr PCI_D2H_CFG.EN r) b).dram = b.dram
  | [], _ => rfl
  | _ :: l, _ => foldl_clr_dram l _

theorem Block.flr_dram (b : Block) : b.flr.dram = b.dram := by
  unfold Block.flr
  rw [Block.setReg_dram]
  unfold Block.ringsStop
  dsimp only
  rw [foldl_clr_dram]

/-- From every state of the invariant, a Function Level Reset does what the obligation says of it. -/
theorem flr_runs_of_inv (s : State) (h : s.Inv) (hr : s.blk.stw.rrs = false) : Runs (.configRequest .flr) s (fun t =>
    t.fn = PciFn.fresh ∧ t.resp = .done ∧ DramKept s.blk t
    ∧ (∀ o, 0x6C0000 ≤ o → o < 0x700000 → o ≠ PCI_STAT.all.base → t.reg o = regReset o)
    ∧ ∀ o, o < 0x6C0000 ∨ 0x700000 ≤ o ∨ o = PCI_STAT.all.base → t.reg o = s.blk.reg o) := by
  have meaning : exec (.configRequest .flr) s = runCmd s (fun b => if b.stw.rrs then b.answer .retry else b.flr.answer .done) := rfl
  have wf : s.blk.start.regsWf := Block.regsWf_of_memWf (b := s.blk) h
  refine runs_of_effect (b := s.blk.start.flr.answer .done) meaning (if_neg (by rw [Block.start_stw, hr]; exact Bool.false_ne_true)) ⟨rfl, rfl, ?_, ?_, ?_⟩
  · exact DramKept.canon (.of_dram s.blk.start.flr_dram)
  · intro o lo hi ho
    rw [Block.canon_reg]
    exact (Block.flr_reg wf o).trans (if_neg (by omega))
  · intro o ho
    rw [Block.canon_reg]
    exact (Block.flr_reg wf o).trans (if_pos (by omega))

/-! ### Registers that are not in the canonical form -/

/-- The state after the boot's Request Retry Status with two registers listed in falling order of their offsets: the entry of SYS_GPIO_OUT_0 lies
behind one of the PCI block, where a read does not come to it. -/
def fallingRegs : State :=
  { State.reset with blk := { Block.atReset with regs := [(PCI_CTL.all.base, 1), (SYS_GPIO_OUT.all.base, 7)], stw := { Block.atReset.stw with rrs := false } } }

/-- No step leads to such a state from one of the invariant. -/
theorem fallingRegs_not_inv : ¬ fallingRegs.Inv := by unfold State.Inv; decide +kernel

/-- Refutes O55: the obligation asks its clause on a Function Level Reset of every state, also of one whose registers are not in the canonical form.
In `fallingRegs` SYS_GPIO_OUT_0 reads 0; the reset drops the entry of the PCI block before it, and then it reads 7. From every state of the invariant
the clause holds (`flr_runs_of_inv`). -/
theorem not_registerAndMemoryAccesses : ¬ Obligations.RegisterAndMemoryAccesses := by
  intro h
  obtain ⟨-, -, -, -, -, -, -, -, -, -, -, -, -, -, config⟩ := h
  obtain ⟨-, -, -, -, -, -, t, next, -, -, -, -, -, kept⟩ := config fallingRegs rfl
  have out : t.blk.reg SYS_GPIO_OUT.all.base = fallingRegs.blk.reg SYS_GPIO_OUT.all.base := kept _ (.inl (by decide))
  cases next
  exact absurd out (by decide +kernel)

end Sys2Proof.Machine
end

section
/-! SUPPORT. What a write of DRAM and an ended command of Heartwood can change beside the memory (R37, R372, R519, R522). -/

namespace Sys2Proof.Machine

/-- `c` is `b` but for DRAM, the error log, and the registers from the RAS block on. -/
def Block.RasOnly (b c : Block) : Prop :=
  (∃ dram ras regs tie, c = { b with dram := dram, ras := ras, regs := regs, tie := tie }) ∧ ∀ o, o < RAS_CTL.all.base → c.reg o = b.reg o

theorem Block.RasOnly.refl (b : Block) : b.RasOnly b := ⟨⟨b.dram, b.ras, b.regs, b.tie, rfl⟩, fun _ _ => rfl⟩

theorem Block.RasOnly.of_parts (b : Block) (d : Dram) (r : Ras) (t : Tie) : b.RasOnly { b with dram := d, ras := r, tie := t } :=
  ⟨⟨d, r, b.regs, t, rfl⟩, fun _ _ => rfl⟩

theorem Block.RasOnly.trans {a b c : Block} (h : a.RasOnly b) (g : b.RasOnly c) : a.RasOnly c := by
  obtain ⟨⟨d, r, x, t, rfl⟩, hr⟩ := h
  obtain ⟨⟨d', r', x', t', rfl⟩, gr⟩ := g
  exact ⟨⟨d', r', x', t', rfl⟩, fun o ho => (gr o ho).trans (hr o ho)⟩

theorem Block.RasOnly.foldl {α : Type} {f : Block → α → Block} (h : ∀ (b : Block) (x : α), b.RasOnly (f b x)) : ∀ (l : List α) (b : Block), b.RasOnly (l.foldl f b)
  | [], b => .refl b
  | x :: l, b => (h b x).trans (foldl h l (f b x))

variable {a b : Block}

theorem Block.RasOnly.setReg (h : a.RasOnly b) {o : Nat} (ho : RAS_CTL.all.base ≤ o) (v : BitVec 32) : a.RasOnly (b.setReg o v) :=
  h.trans ⟨⟨b.dram, b.ras, _, b.tie, rfl⟩, fun p hp => b.reg_setReg_other o p v (by omega)⟩

theorem Block.RasOnly.wr (h : a.RasOnly b) (f : Fld) (x n : Nat) (ho : RAS_CTL.all.base ≤ f.off n) : a.RasOnly (b.wr f x n) := h.setReg ho _

theorem Block.RasOnly.set (h : a.RasOnly b) (f : Fld) (n : Nat) (ho : RAS_CTL.all.base ≤ f.off n) : a.RasOnly (b.set f n) :=
  (h.trans (.of_parts b b.dram b.ras _)).setReg ho _

theorem Block.RasOnly.inc (h : a.RasOnly b) (f : Fld) (n : Nat) (ho : RAS_CTL.all.base ≤ f.off n) : a.RasOnly (b.inc f n) :=
  (h.trans (.of_parts b b.dram b.ras _)).setReg ho _

theorem Block.RasOnly.unitCe (h : a.RasOnly b) (u : Nat) : a.RasOnly (b.inc RAS_UNIT_CE.all u) :=
  h.inc RAS_UNIT_CE.all u (Nat.le_trans (by decide) (Nat.le_add_right RAS_UNIT_CE.all.base _))

theorem Block.RasOnly.logEvent (h : a.RasOnly b) (kind : Nat) : a.RasOnly (b.logEvent kind) := by
  unfold Block.logEvent
  split
  · exact h.set RAS_EVT.UE_LOG 0 (by decide)
  · split
    · exact h.set RAS_EVT.ACCESS 0 (by decide)
    · exact h

theorem Block.RasOnly.logLost (h : a.RasOnly b) : a.RasOnly b.logLost :=
  (h.inc RAS_LOST_CNT.all 0 (by decide)).set RAS_EVT.LOG_OVF 0 (by decide)

theorem Block.RasOnly.logCount (h : a.RasOnly b) : a.RasOnly b.logCount :=
  (h.trans (.of_parts b b.dram _ b.tie)).wr RAS_LOG_WR.SEQ _ 0 (by decide)

theorem Block.RasOnly.logPut (h : a.RasOnly b) (n : Nat) (e : LogEntry) : a.RasOnly (b.logPut n e) := h.trans (.of_parts b b.dram _ b.tie)

theorem Block.RasOnly.logInsert (h : a.RasOnly b) (e : LogEntry) (later : List LogEntry) (full : Bool) : a.RasOnly (b.logInsert e later full) := by
  have put := h.trans (.foldl (f := fun (c : Block) (x : Nat × LogEntry) => c.logPut (b.rd RAS_LOG_WR.SEQ + 65536 - later.length + x.1) x.2)
    (fun c x => (RasOnly.refl c).logPut _ _) ((List.range (e :: (if full then later.dropLast else later)).length).zip (e :: (if full then later.dropLast else later))) b)
  unfold Block.logInsert
  cases full
  · exact put.logCount
  · exact put.logLost

theorem Block.RasOnly.log (h : a.RasOnly b) (kind unit : Nat) (info : BitVec 32) (addr : Nat) (x y : BitVec 32) : a.RasOnly (b.log kind unit info addr x y) := by
  unfold Block.log
  dsimp only
  split
  · split
    · exact h.logLost
    · exact ((h.logPut _ _).logCount).logEvent kind
  · exact (h.logInsert _ _ _).logEvent kind

theorem Block.RasOnly.logUE (h : a.RasOnly b) (unit addr info flags : Nat) : a.RasOnly (b.logUE unit addr info flags) := h.log ..

theorem Block.RasOnly.ceReport (h : a.RasOnly b) (unit addr info : Nat) : a.RasOnly (b.ceReport unit addr info) := by
  have counted := (h.inc RAS_CE_CNT.all 0 (by decide)).unitCe unit
  have high : ∀ c : Bool, a.RasOnly (((b.inc RAS_CE_CNT.all).inc RAS_UNIT_CE.all unit).when c (fun b => b.set RAS_EVT.CE_HI)) := by
    intro c
    cases c
    · exact counted
    · exact counted.set RAS_EVT.CE_HI 0 (by decide)
  unfold Block.ceReport
  dsimp only
  split
  · exact high _
  · exact ((high _).trans (.of_parts _ _ _ _)).log ..

/-- The decoder's read of a word changes no more than what stores the word does. -/
theorem Block.RasOnly.readWord (h : a.RasOnly b) {store : Block → List Byte → Bool → List Nat → Block} (hs : ∀ c d p e, a.RasOnly c → a.RasOnly (store c d p e))
    (unit addr lane flags : Nat) (d : List Byte) (p : Bool) (e : List Nat) : a.RasOnly (b.readWord unit addr lane flags d p e store) := by
  unfold Block.readWord
  dsimp only
  split
  · exact h
  · split
    · exact hs _ _ _ _ h
    · exact hs _ _ _ _ (h.ceReport ..)
    · exact hs _ _ _ _ (h.inc RAS_UE_CNT.all 0 (by decide))
    · exact (hs _ _ _ _ (h.inc RAS_UE_CNT.all 0 (by decide))).logUE ..

theorem Block.RasOnly.dramFind (h : a.RasOnly b) (w flags : Nat) (extra : List Nat) : a.RasOnly (b.dramFind w flags extra) := by
  unfold Block.dramFind
  refine h.readWord (fun c d p e hc => ?_) ..
  dsimp only
  split
  · exact hc.trans (.of_parts c _ c.ras c.tie)
  · exact hc.trans (.of_parts c _ _ c.tie)

theorem Block.RasOnly.dramWriteWord (h : a.RasOnly b) (x : Nat) (d : List Byte) : a.RasOnly (b.dramWriteWord x d) := by
  unfold Block.dramWriteWord
  dsimp only
  split
  · exact h.trans (.of_parts b _ b.ras b.tie)
  · have found : a.RasOnly (if (b.dramErr (x / 8)).isEmpty then b else b.dramFind (x / 8) 0 []) := by
      split
      · exact h
      · exact h.dramFind ..
    revert found
    generalize (if (b.dramErr (x / 8)).isEmpty then b else b.dramFind (x / 8) 0 []) = c
    intro found
    split
    · exact found.logUE ..
    · exact found.trans (.of_parts c _ c.ras c.tie)

theorem Block.RasOnly.dramWriteAux : ∀ (fuel : Nat) {b : Block} (x : Nat) (d : List Byte), a.RasOnly b → a.RasOnly (b.dramWriteAux x d fuel)
  | 0, _, _, _, h => h
  | fuel + 1, b, x, d, h => by
    unfold Block.dramWriteAux
    split
    · exact h
    · exact dramWriteAux fuel _ _ (h.dramWriteWord x _)

/-- A write of DRAM changes DRAM, and what the reads of its words find is logged. -/
theorem Block.RasOnly.dramWrite (h : a.RasOnly b) (x : Nat) (d : List Byte) : a.RasOnly (b.dramWrite x d) :=
  (dramWriteAux (d.length + 1) x d h).trans (.of_parts _ _ _ _)

/-! ### What a stopped command leaves -/

/-- `c` is `b` but for what a command that does not finish may leave: its effect on Heartwood gone, DRAM that it was to write, the state of the
staging slot, and a free value taken. -/
def Block.Stopped (b c : Block) : Prop :=
  (∃ dram ras regs tie free fx undef, c = { b with
    dram := dram, ras := ras, regs := regs, tie := tie, clk := { b.clk with free := free }, hwd := { b.hwd with fx := fx }
    upd := { b.upd with stgUndef := undef } })
  ∧ ∀ o, o < UPD_STG_ST.all.base → c.reg o = b.reg o

theorem Block.Stopped.refl (b : Block) : b.Stopped b :=
  ⟨⟨b.dram, b.ras, b.regs, b.tie, b.clk.free, b.hwd.fx, b.upd.stgUndef, rfl⟩, fun _ _ => rfl⟩

theorem Block.Stopped.trans {a b c : Block} (h : a.Stopped b) (g : b.Stopped c) : a.Stopped c := by
  obtain ⟨⟨d, r, x, t, n, f, u, rfl⟩, hr⟩ := h
  obtain ⟨⟨d', r', x', t', n', f', u', rfl⟩, gr⟩ := g
  exact ⟨⟨d', r', x', t', n', f', u', rfl⟩, fun o ho => (gr o ho).trans (hr o ho)⟩

theorem Block.RasOnly.stopped {b c : Block} (h : b.RasOnly c) : b.Stopped c := by
  obtain ⟨⟨d, r, x, t, rfl⟩, kept⟩ := h
  exact ⟨⟨d, r, x, t, b.clk.free, b.hwd.fx, b.upd.stgUndef, rfl⟩, fun o ho => kept o (Nat.lt_trans ho (by decide))⟩

theorem Block.Stopped.rd {b c : Block} (h : b.Stopped c) (f : Fld) (n : Nat) (ho : f.off n < UPD_STG_ST.all.base) : c.rd f n = b.rd f n := by
  unfold Block.rd
  rw [h.2 _ ho]

theorem Block.Stopped.rest {b c : Block} (h : b.Stopped c) : c.stw = b.stw ∧ c.icu = b.icu ∧ c.upd.flash = b.upd.flash
    ∧ c.clk.beat = b.clk.beat ∧ { c.hwd with fx := .none } = { b.hwd with fx := .none } := by
  obtain ⟨⟨d, r, x, t, n, f, u, rfl⟩, -⟩ := h
  exact ⟨rfl, rfl, rfl, rfl, rfl⟩

theorem Block.at_stopped (b : Block) (fx : HwdFx) : b.Stopped (b.at fx) := ⟨⟨b.dram, b.ras, b.regs, b.tie, b.clk.free, fx, b.upd.stgUndef, rfl⟩, fun _ _ => rfl⟩

theorem Block.took_stopped (b : Block) : b.Stopped b.took := ⟨⟨b.dram, b.ras, b.regs, b.tie, _, b.hwd.fx, b.upd.stgUndef, rfl⟩, fun _ _ => rfl⟩

theorem Block.dramWrite_took (b : Block) (a : Nat) (d : List Byte) : b.Stopped (b.dramWrite a d).took :=
  ((RasOnly.refl b).dramWrite a d).stopped.trans (took_stopped _)

theorem Block.dramWrite_took_reg (b : Block) (a : Nat) (d : List Byte) (o : Nat) (ho : o < RAS_CTL.all.base) : (b.dramWrite a d).took.reg o = b.reg o :=
  ((RasOnly.refl b).dramWrite a d).2 o ho

/-- An aborted command of Heartwood leaves no more, and every register below the RAS block. -/
theorem Block.hwdAbort_stopped (b : Block) : b.Stopped b.hwdAbort ∧ ∀ o, o < RAS_CTL.all.base → b.hwdAbort.reg o = b.reg o := by
  unfold Block.hwdAbort
  dsimp only
  split
  · exact ⟨(at_stopped b .none).trans (dramWrite_took _ _ _), dramWrite_took_reg _ _ _⟩
  · split
    · exact ⟨dramWrite_took _ _ _, dramWrite_took_reg _ _ _⟩
    · exact ⟨at_stopped b .none, fun _ _ => rfl⟩

/-- Where no effect of Heartwood waits, only a HWD_QUOTE leaves something (R372). -/
theorem Block.hwdAbort_none (b : Block) (hfx : b.hwd.fx = .none) (hop : b.rd SYS_MBX_CMD.OPCODE ≠ 0x1004) : b.hwdAbort = b.at .none := by
  unfold Block.hwdAbort
  rw [hfx]
  exact if_neg (fun h => hop h.1)

/-- The staging registers alone change as a staging state is shown. -/
theorem Block.stgShow_kept (b : Block) (st : Nat) : RegsKept b (b.stgShow st) [UPD_STG_ST.all.base, UPD_STG_VER.all.base] :=
  (((RegsKept.refl b _).wr UPD_STG_ST.STATE _ 0 (by decide)).wr UPD_STG_ST.ROLL _ 0 (by decide)).setReg (by decide) _

theorem Block.stgShow_state (b : Block) (st : Nat) : (b.stgShow st).rd UPD_STG_ST.STATE = st % 4 := by
  unfold Block.stgShow
  dsimp only
  rw [show ∀ (c : Block) v, (c.setReg UPD_STG_VER.all.base v).rd UPD_STG_ST.STATE = c.rd UPD_STG_ST.STATE from
      fun c v => congrArg (fget · UPD_STG_ST.STATE) (c.reg_setReg_other _ _ v (by decide)),
    Block.rd_wr_disjoint _ _ _ _ _ _ (by decide), Block.rd_wr_same _ _ _ _ (by decide)]
  rfl

theorem Block.stgBroken_stopped (b : Block) : b.Stopped b.stgBroken :=
  ⟨⟨b.dram, b.ras, _, b.tie, b.clk.free, b.hwd.fx, true, rfl⟩, fun o ho =>
    Block.stgShow_kept { b with upd := { b.upd with stgUndef := true } } sgWRITING o (fun h => by
      rcases List.mem_pair.1 h with rfl | rfl <;> exact absurd ho (by decide))⟩

theorem Block.updAbort_stopped (b : Block) : b.Stopped b.updAbort := by
  unfold Block.updAbort
  dsimp only
  split
  · exact stgBroken_stopped b
  · exact .refl b

/-- What an aborted staging command leaves (R487). -/
theorem Block.updAbort_staging (b : Block) (h : (b.rd SYS_MBX_CMD.OPCODE = 0x2000 ∧ b.rd UPD_STG_ST.STATE ≠ sgWRITING)
    ∨ (b.rd SYS_MBX_CMD.OPCODE = 0x2001 ∧ b.rd UPD_STG_ST.STATE = sgWRITING)) :
    b.updAbort.rd UPD_STG_ST.STATE = sgWRITING ∧ b.updAbort.upd.stgUndef = true := by
  have broken : b.updAbort = b.stgBroken := if_pos h
  rw [broken]
  exact ⟨Block.stgShow_state _ sgWRITING, rfl⟩

theorem Block.updAbort_dram (b : Block) : b.updAbort.dram = b.dram := by
  unfold Block.updAbort
  dsimp only
  split <;> rfl

end Sys2Proof.Machine
end

section
/-! SUPPORT. The mailbox: a RING, a completion and a restart of the steward cores (R33–R42). -/

namespace Sys2Proof.Machine

variable (b : Block)

/-! ### What a decision of presentation keeps of the interrupt controller -/

/-- The interrupt controller of `c` is that of `b` but for the wakes raised and the source last shown to the host. -/
def Block.IcuShown (b c : Block) : Prop := ∃ w l, c.icu = { b.icu with wakes := w, lastHost := l }

theorem Block.IcuShown.of_icu {b c : Block} (h : c.icu = b.icu) : b.IcuShown c := ⟨b.icu.wakes, b.icu.lastHost, h⟩

theorem Block.IcuShown.trans {a b c : Block} (h : a.IcuShown b) (g : b.IcuShown c) : a.IcuShown c := by
  obtain ⟨w, l, e⟩ := h
  obtain ⟨w', l', e'⟩ := g
  exact ⟨w', l', by rw [e', e]⟩

theorem Block.raiseWake_icuShown (k : Nat) : b.IcuShown (b.raiseWake k) := by
  unfold Block.raiseWake
  split
  · exact .of_icu rfl
  · exact ⟨_, b.icu.lastHost, rfl⟩

theorem Block.wakeFor_icuShown (n : Nat) : b.IcuShown (b.wakeFor n) := by
  unfold Block.wakeFor
  dsimp only
  split
  · exact .of_icu rfl
  · split
    · exact .of_icu rfl
    · split
      · exact b.raiseWake_icuShown _
      · split
        · exact .of_icu rfl
        · split
          · exact b.raiseWake_icuShown _
          · exact .of_icu rfl

theorem Block.foldl_wakeFor_icuShown : ∀ (l : List Nat) (b : Block), b.IcuShown (l.foldl Block.wakeFor b)
  | [], _ => .of_icu rfl
  | n :: l, b => (b.wakeFor_icuShown n).trans (foldl_wakeFor_icuShown l _)

theorem Block.msix_icu (n : Nat) : (b.msix n).icu = b.icu := by
  unfold Block.msix
  split
  · rfl
  · split <;> rfl

/-- Presentation decided again raises wakes and shows a source to the host, and keeps what else the interrupt controller holds. -/
theorem Block.icuEval_icuShown : b.IcuShown b.icuEval := by
  have woken : b.IcuShown ((List.range 256).foldl Block.wakeFor { b with icu := { b.icu with wakes := b.icu.wakes.filter (fun e => b.asleep e.1) } }) :=
    .trans ⟨_, b.icu.lastHost, rfl⟩ (Block.foldl_wakeFor_icuShown _ _)
  unfold Block.icuEval
  dsimp only
  revert woken
  generalize List.foldl Block.wakeFor _ (List.range 256) = c
  intro woken
  split
  · exact woken
  · split
    · exact woken.trans ⟨c.icu.wakes, _, Block.msix_icu _ _⟩
    · exact woken.trans ⟨c.icu.wakes, _, rfl⟩

theorem Block.icuEval_kept : RegsKept b b.icuEval [ICU_EVT.all.base] :=
  fun o ho => b.icuEval_icuOnly.2 o (fun h => ho (List.mem_singleton.2 h))

theorem Block.icuEval_rest : b.icuEval.stw = b.stw ∧ b.icuEval.dram = b.dram ∧ b.icuEval.upd = b.upd := by
  obtain ⟨⟨icu, regs, tie, fn, out, e⟩, -⟩ := b.icuEval_icuOnly
  rw [e]
  exact ⟨rfl, rfl, rfl⟩

/-! ### The flags of the mailbox -/

theorem Block.rd_set_other (f g : Fld) (n m : Nat) (h : g.off m ≠ f.off n) : (b.set f n).rd g m = b.rd g m :=
  (b.tieNote (f.off n) _).rd_wr_other f g 1 n m h

theorem Block.rd_set_same (f : Fld) (n : Nat) (h : f.hi < 32) (hl : f.lo ≤ f.hi) : (b.set f n).rd f n = 1 :=
  ((b.tieNote (f.off n) _).rd_wr_same f 1 n h).trans (Nat.mod_eq_of_lt (Nat.one_lt_two_pow (by unfold Fld.width; omega)))

/-- No command is with the steward in IDLE and DONE. -/
theorem Block.mbxBusy_idle (h : b.rd SYS_MBX_STATE.PHASE = phIDLE ∨ b.rd SYS_MBX_STATE.PHASE = phDONE) : b.mbxBusy = false := by
  unfold Block.mbxBusy
  rcases h with h | h <;> rw [h] <;> rfl

theorem Block.mbxBusy_iff : b.mbxBusy = true ↔ b.rd SYS_MBX_STATE.PHASE = phBUSY ∨ b.rd SYS_MBX_STATE.PHASE = phABORTING := by
  simp only [Block.mbxBusy, Bool.or_eq_true, beq_iff_eq]

/-! ### A completion (R40) -/

/-- The registers that a completion of the mailbox command writes. -/
def mbxRegs : List Nat := [SYS_MBX_STATE.all.base, SYS_MBX_DB.all.base, SYS_MBX_STATUS.all.base]

/-- A completion before its registers show it. -/
def Block.mbxEnd (b : Block) (res : List (BitVec 32)) : Block :=
  { b with stw := { b.stw with deadline := none, abortAt := none, held := none, res := res }, hwd := { b.hwd with fx := .none } }

theorem Block.mbxComplete_kept (st : Nat) (res : List (BitVec 32)) : RegsKept b (b.mbxComplete st res) mbxRegs := by
  have ended : RegsKept b (b.mbxEnd res) mbxRegs := .of_regs rfl
  exact ((((((ended.wr SYS_MBX_STATUS.TAG _ 0 (by decide)).wr SYS_MBX_STATUS.RES_LEN _ 0 (by decide)).wr SYS_MBX_STATUS.STATUS _ 0 (by decide)).set
    SYS_MBX_STATE.DONE 0 (by decide)).wr SYS_MBX_STATE.PHASE _ 0 (by decide)).clr SYS_MBX_DB.RING 0 (by decide)).clr SYS_MBX_DB.ABORT 0 (by decide)

theorem Block.mbxComplete_status (st : Nat) (res : List (BitVec 32)) : (b.mbxComplete st res).rd SYS_MBX_STATUS.STATUS = st % 65536
    ∧ (b.mbxComplete st res).rd SYS_MBX_STATUS.RES_LEN = res.length % 256 ∧ (b.mbxComplete st res).rd SYS_MBX_STATUS.TAG = b.rd SYS_MBX_CMD.TAG := by
  have tag : b.rd SYS_MBX_CMD.TAG % 2 ^ SYS_MBX_STATUS.TAG.width = b.rd SYS_MBX_CMD.TAG := Nat.mod_eq_of_lt (fget_lt _ SYS_MBX_CMD.TAG)
  unfold Block.mbxComplete Block.clr
  refine ⟨?_, ?_, ?_⟩
  · simp (disch := decide) only [Block.rd_wr_other, Block.rd_set_other, Block.rd_wr_same]
    rfl
  · simp (disch := decide) only [Block.rd_wr_other, Block.rd_set_other, Block.rd_wr_disjoint, Block.rd_wr_same]
    rfl
  · simp (disch := decide) only [Block.rd_wr_other, Block.rd_set_other, Block.rd_wr_disjoint, Block.rd_wr_same]
    exact tag

theorem Block.mbxComplete_state (st : Nat) (res : List (BitVec 32)) : (b.mbxComplete st res).rd SYS_MBX_STATE.PHASE = phDONE
    ∧ (b.mbxComplete st res).bit SYS_MBX_STATE.DONE = true ∧ (b.mbxComplete st res).bit SYS_MBX_DB.RING = false
    ∧ (b.mbxComplete st res).bit SYS_MBX_DB.ABORT = false := by
  unfold Block.mbxComplete Block.clr Block.bit
  refine ⟨?_, ?_, ?_, ?_⟩ <;>
    simp (disch := decide) only [Block.rd_wr_other, Block.rd_set_same, Block.rd_wr_disjoint, Block.rd_wr_same] <;> rfl

/-- READY and STW_UP stand beside what a completion writes. -/
theorem Block.mbxComplete_up (st : Nat) (res : List (BitVec 32)) : (b.mbxComplete st res).rd SYS_MBX_STATE.READY = b.rd SYS_MBX_STATE.READY
    ∧ (b.mbxComplete st res).rd SYS_MBX_STATE.STW_UP = b.rd SYS_MBX_STATE.STW_UP := by
  have ended (f : Fld) : (b.mbxEnd res).rd f = b.rd f := rfl
  unfold Block.mbxComplete Block.clr
  rw [← ended SYS_MBX_STATE.READY, ← ended SYS_MBX_STATE.STW_UP]
  constructor <;> simp (disch := decide) only [Block.rd_wr_disjoint, Block.rd_wr_other, Block.rd_set_disjoint, Block.mbxEnd]

/-- What a completion shows, whatever came before it, where it left the command. -/
theorem Block.completed (s : State) (c : Block) (st : Nat) (res : List (BitVec 32)) (h : c.rd SYS_MBX_CMD.TAG = s.blk.rd SYS_MBX_CMD.TAG) :
    Completed s (c.mbxComplete st res).canon st res := by
  obtain ⟨status, resLen, tag⟩ := c.mbxComplete_status st res
  obtain ⟨phase, done, ring, abort⟩ := c.mbxComplete_state st res
  unfold Completed
  simp only [Block.canon_rd, Block.canon_bit]
  exact ⟨phase, done, status, resLen, tag.trans h, rfl, rfl, rfl, rfl, ring, abort⟩

/-! ### What the steward did not finish stops (R37–R39, R487) -/

/-- The block before the completion of a command that is given up. -/
def Block.mbxStop (b : Block) : Block := b.hwdAbort.when b.stw.held.isNone Block.updAbort

theorem Block.mbxGiveUp_eq (st : Nat) : b.mbxGiveUp st = b.mbxStop.mbxComplete st [] := rfl

theorem Block.mbxStop_stopped : b.Stopped b.mbxStop := by
  unfold Block.mbxStop
  cases b.stw.held.isNone
  · exact b.hwdAbort_stopped.1
  · exact b.hwdAbort_stopped.1.trans (Block.updAbort_stopped _)

theorem Block.mbxStop_dram (hfx : b.hwd.fx = .none) (hop : b.rd SYS_MBX_CMD.OPCODE ≠ 0x1004) : b.mbxStop.dram = b.dram := by
  unfold Block.mbxStop
  rw [b.hwdAbort_none hfx hop]
  exact Block.when_keeps (·.dram) (Block.updAbort_dram _) _

/-- A staging command whose steward has held nothing leaves WRITING. -/
theorem Block.stopsStaging (s : State) (c : Block) (h : ∀ o, o < RAS_CTL.all.base → c.reg o = s.blk.reg o) (st : Nat) :
    StopsStaging s (c.hwdAbort.updAbort.mbxComplete st []).canon := by
  intro staging
  have kept (f : Fld) (ho : f.off 0 < RAS_CTL.all.base) : c.hwdAbort.rd f = s.blk.rd f := by
    unfold Block.rd
    rw [c.hwdAbort_stopped.2 _ ho, h _ ho]
  rw [← kept SYS_MBX_CMD.OPCODE (by decide), ← kept UPD_STG_ST.STATE (by decide)] at staging
  obtain ⟨state, undef⟩ := Block.updAbort_staging _ staging
  refine ⟨?_, undef⟩
  rw [Block.canon_rd, (Block.mbxComplete_kept _ st []).rd UPD_STG_ST.STATE 0 (by decide)]
  exact state

end Sys2Proof.Machine
end

section
/-! SUPPORT. A RING, the accesses that a busy mailbox refuses, and a restart of the steward cores in the midst of a command (R35, R36, R39). -/

namespace Sys2Proof.Machine

/-! ### The register at an offset -/

theorem Fld.index?_off (f : Fld) {count n : Nat} (hs : f.stride ≠ 0) (h : n < count) : f.index? count (f.off n) = some n := by
  unfold Fld.index? Fld.off
  rw [if_neg (Nat.not_lt.2 (Nat.le_add_right _ _)), if_neg hs, Nat.add_sub_cancel_left, Nat.mul_mod_left, Nat.mul_div_cancel _ (Nat.pos_of_ne_zero hs),
    if_pos ⟨rfl, h⟩]

theorem Fld.index?_ne (f : Fld) {count off : Nat} (hs : f.stride = 0) (h : off ≠ f.base) : f.index? count off = none := by
  unfold Fld.index?
  rw [if_pos hs, if_neg h, ite_self]

theorem portAt_hit {α : Type} (p : RegPort α) (l : List (RegPort α)) {off n : Nat} (h : p.fld.index? p.count off = some n) :
    portAt (p :: l) off = some (p.act n) := by
  unfold portAt
  rw [List.findSome?_cons, h]
  rfl

theorem portAt_miss {α : Type} (p : RegPort α) (l : List (RegPort α)) {off : Nat} (h : p.fld.index? p.count off = none) :
    portAt (p :: l) off = portAt l off := by
  unfold portAt
  rw [List.findSome?_cons, h]
  rfl

variable (b : Block)

/-! ### A RING -/

/-- The block after an accepted RING (R35), before READY decides. -/
def Block.mbxRung (b : Block) : Block :=
  let tmo := b.clk.beat + msBeats (b.rd SYS_MBX_TMO.TMO_MS)
  let b := { b with stw := { b.stw with deadline := some tmo, abortAt := none, held := none, res := [] } }
  ((b.clr SYS_MBX_STATE.DONE).wr SYS_MBX_STATE.PHASE phBUSY).set SYS_MBX_DB.RING

theorem Block.mbxRung_kept : RegsKept b b.mbxRung [SYS_MBX_STATE.all.base, SYS_MBX_DB.all.base] := by
  have timed : RegsKept b { b with stw := { b.stw with deadline := some (b.clk.beat + msBeats (b.rd SYS_MBX_TMO.TMO_MS)), abortAt := none, held := none, res := [] } }
    [SYS_MBX_STATE.all.base, SYS_MBX_DB.all.base] := .of_regs rfl
  exact ((timed.clr SYS_MBX_STATE.DONE 0 (by decide)).wr SYS_MBX_STATE.PHASE _ 0 (by decide)).set SYS_MBX_DB.RING 0 (by decide)

theorem Block.mbxRung_state : b.mbxRung.bit SYS_MBX_STATE.DONE = false ∧ b.mbxRung.rd SYS_MBX_STATE.PHASE = phBUSY
    ∧ b.mbxRung.bit SYS_MBX_STATE.READY = b.bit SYS_MBX_STATE.READY := by
  unfold Block.mbxRung Block.clr Block.bit
  refine ⟨?_, ?_, ?_⟩ <;> simp (disch := decide) only [Block.rd_set_other, Block.rd_wr_disjoint, Block.rd_wr_same] <;> rfl

/-- An idle mailbox takes a RING; with READY 0 the command completes one beat later (R36). -/
theorem Block.mbxRing_idle (h : b.mbxBusy = false) :
    b.mbxRing = if b.bit SYS_MBX_STATE.READY then b.mbxRung else b.mbxRung.beatTick.mbxComplete mbxNOT_READY [] := by
  rw [← b.mbxRung_state.2.2, Block.mbxRing, if_neg (ne_true_of_eq_false h)]
  rfl

/-- The result registers read the results of the last command. -/
theorem Block.regNow_res (n : Nat) (h : n < 64) : b.regNow (SYS_MBX_RES.all.off n) = b.stw.res.getD n 0 := by
  have port : portAt livePorts (SYS_MBX_RES.all.off n) = some (fun b : Block => b.stw.res.getD n 0) :=
    portAt_hit _ _ (SYS_MBX_RES.all.index?_off (by decide) h)
  unfold Block.regNow
  rw [port]

theorem mbxRing_ready_runs (s : State) (h : s.blk.mbxBusy = false) (hr : s.blk.bit SYS_MBX_STATE.READY = true) : Runs .mbxRing s (fun t =>
    t.bit SYS_MBX_STATE.DONE = false ∧ (∀ n, n < 64 → t.regNow (SYS_MBX_RES.all.off n) = 0) ∧ t.rd SYS_MBX_STATE.PHASE = phBUSY
    ∧ t.stw.deadline = some (s.blk.clk.beat + s.blk.rd SYS_MBX_TMO.TMO_MS * 250000) ∧ t.clk = s.blk.clk
    ∧ RegsKept s.blk t [SYS_MBX_STATE.all.base, SYS_MBX_DB.all.base]) := by
  obtain ⟨done, phase, -⟩ := s.blk.start.mbxRung_state
  refine runs_of_effect (f := Block.mbxRing) rfl ((s.blk.start.mbxRing_idle h).trans (if_pos hr)) ?_
  rw [Block.canon_bit, Block.canon_rd]
  exact ⟨done, fun n hn => Block.regNow_res _ n hn, phase, rfl, rfl, s.blk.start.mbxRung_kept.canon⟩

theorem mbxRing_notReady_runs (s : State) (h : s.blk.mbxBusy = false) (hr : s.blk.bit SYS_MBX_STATE.READY = false) : Runs .mbxRing s (fun t =>
    t.rd SYS_MBX_STATUS.STATUS = 0x8005 ∧ t.rd SYS_MBX_STATUS.RES_LEN = 0 ∧ t.rd SYS_MBX_STATE.PHASE = phDONE ∧ t.bit SYS_MBX_STATE.DONE = true
    ∧ t.clk.beat = s.blk.clk.beat + 1 ∧ t.stw.res = []
    ∧ RegsKept s.blk t [SYS_MBX_STATE.all.base, SYS_MBX_DB.all.base, SYS_MBX_STATUS.all.base]) := by
  obtain ⟨status, resLen, -⟩ := s.blk.start.mbxRung.beatTick.mbxComplete_status mbxNOT_READY []
  obtain ⟨phase, done, -, -⟩ := s.blk.start.mbxRung.beatTick.mbxComplete_state mbxNOT_READY []
  have rung : RegsKept s.blk s.blk.start.mbxRung.beatTick mbxRegs := s.blk.start.mbxRung_kept.mono (by decide)
  refine runs_of_effect (f := Block.mbxRing) rfl ((s.blk.start.mbxRing_idle h).trans (if_neg (ne_true_of_eq_false hr))) ?_
  simp only [Block.canon_bit, Block.canon_rd]
  exact ⟨status, resLen, phase, done, rfl, rfl, (rung.trans (Block.mbxComplete_kept _ _ _)).canon⟩

/-! ### A busy mailbox -/

theorem mbxRing_busy_gives (s : State) (h : s.blk.mbxBusy = true) : Gives .mbxRing s (s.blk.start.set SYS_MBX_STATE.DB_REJECT) :=
  gives_of_runCmd (f := Block.mbxRing) rfl (if_pos h)

/-- A write of the command or of an argument while a command is in progress is refused. -/
theorem Block.writeAt_cmd_busy (h : b.mbxBusy = true) (v : BitVec 32) : b.writeAt SYS_MBX_CMD.all.base v = b.set SYS_MBX_STATE.WR_REJECT := by
  have port : b.writeAt SYS_MBX_CMD.all.base v = b.guarded b.mbxBusy SYS_MBX_STATE.WR_REJECT (fun b => b.regStore SYS_MBX_CMD.all.base v) := rfl
  exact port.trans (if_pos h)

theorem Block.writeAt_arg_busy (h : b.mbxBusy = true) (n : Nat) (hn : n < 64) (v : BitVec 32) :
    b.writeAt (SYS_MBX_ARG.all.off n) v = b.set SYS_MBX_STATE.WR_REJECT := by
  have low : SYS_MBX_ARG.all.off n < 0x40000 := show 0x1100 + n * 4 < 0x40000 by omega
  have apart : SYS_MBX_ARG.all.off n ≠ SYS_MBX_CMD.all.base := show 0x1100 + n * 4 ≠ 0x1000 by omega
  have port : portAt writePortsSys (SYS_MBX_ARG.all.off n) = some (fun v (b : Block) => b.guarded b.mbxBusy SYS_MBX_STATE.WR_REJECT
      (fun b => b.regStore (SYS_MBX_ARG.all.off n) v)) :=
    (portAt_miss _ _ (SYS_MBX_CMD.all.index?_ne rfl apart)).trans (portAt_hit _ _ (SYS_MBX_ARG.all.index?_off (by decide) hn))
  unfold Block.writeAt
  rw [if_pos low]
  dsimp only
  rw [port]
  exact if_pos h

theorem regWrite_gives (s : State) (off : Nat) (v : BitVec 32) (c : Block) (ha : off % 4 = 0) (hu : off < unassignedFrom) (h : s.blk.start.writeAt off v = c) :
    Gives (.regWrite 0 off v) s c := by
  refine gives_of_runCmd (f := fun b => if (0 : Nat) = 4 then b.msixWrite off v else b.access off true (fun b => b.writeAt off v)) rfl ?_
  rw [if_neg (by decide), Block.access, if_neg (not_not.2 ha), if_neg (Nat.not_le.2 hu)]
  exact h

theorem regWrite_arg_busy_gives (s : State) (h : s.blk.mbxBusy = true) (n : Nat) (v : BitVec 32) (hn : n < 64) :
    Gives (.regWrite 0 (SYS_MBX_ARG.all.off n) v) s (s.blk.start.set SYS_MBX_STATE.WR_REJECT) := by
  have aligned : SYS_MBX_ARG.all.off n % 4 = 0 := show (0x1100 + n * 4) % 4 = 0 by omega
  have assigned : SYS_MBX_ARG.all.off n < unassignedFrom := show 0x1100 + n * 4 < 0x900000 by omega
  exact regWrite_gives s _ v _ aligned assigned (s.blk.start.writeAt_arg_busy h n hn v)

/-! ### A restart of the steward cores -/

/-- The steward cores restart (R32): READY and STW_UP clear, and source 4 rises. -/
def Block.stwRestart (b : Block) : Block :=
  let b := { b with stw := { b.stw with restarts := b.stw.restarts + 1 }, icu := { b.icu with wfe := [] } }
  ((b.clr SYS_MBX_STATE.READY).clr SYS_MBX_STATE.STW_UP).pulse 4

theorem execStewardWatchdogExpiry_eq (s : State) : exec .stewardWatchdogExpiry s
    = runCmd s (fun b => if b.rd SYS_MBX_STATE.STW_UP = 0 then b
        else (b.stwRestart.when b.stwRestart.mbxBusy (fun b => b.mbxGiveUp mbxSTEWARD_RESET)).icuEval) := rfl

theorem Block.stwRestart_kept : RegsKept b b.stwRestart [SYS_MBX_STATE.all.base] := by
  have counted : RegsKept b { b with stw := { b.stw with restarts := b.stw.restarts + 1 }, icu := { b.icu with wfe := [] } } [SYS_MBX_STATE.all.base] :=
    .of_regs rfl
  exact RegsKept.trans ((counted.clr SYS_MBX_STATE.READY 0 (by decide)).clr SYS_MBX_STATE.STW_UP 0 (by decide)) (.of_regs rfl)

theorem Block.stwRestart_state : b.stwRestart.bit SYS_MBX_STATE.READY = false ∧ b.stwRestart.rd SYS_MBX_STATE.STW_UP = 0
    ∧ b.stwRestart.rd SYS_MBX_STATE.PHASE = b.rd SYS_MBX_STATE.PHASE := by
  let c := { b with stw := { b.stw with restarts := b.stw.restarts + 1 }, icu := { b.icu with wfe := [] } }
  have pulsed (f : Fld) : b.stwRestart.rd f = ((c.wr SYS_MBX_STATE.READY 0).wr SYS_MBX_STATE.STW_UP 0).rd f := rfl
  have counted (f : Fld) : c.rd f = b.rd f := rfl
  unfold Block.bit
  refine ⟨?_, ?_, ?_⟩ <;> rw [pulsed] <;> simp (disch := decide) only [Block.rd_wr_disjoint, Block.rd_wr_same] <;> rfl

theorem Block.stwRestart_busy : b.stwRestart.mbxBusy = b.mbxBusy := by
  unfold Block.mbxBusy
  rw [b.stwRestart_state.2.2]

theorem stewardWatchdogExpiry_busy_runs (s : State) (h : s.blk.mbxBusy = true) (hu : s.blk.rd SYS_MBX_STATE.STW_UP ≠ 0) :
    Runs .stewardWatchdogExpiry s (fun t => t.rd SYS_MBX_STATUS.STATUS = 0x8006 ∧ t.rd SYS_MBX_STATUS.RES_LEN = 0
      ∧ t.rd SYS_MBX_STATE.PHASE = phDONE ∧ t.bit SYS_MBX_STATE.DONE = true ∧ t.stw.res = []) := by
  have busy : s.blk.start.stwRestart.mbxBusy = true := s.blk.start.stwRestart_busy.trans h
  obtain ⟨status, resLen, -⟩ := s.blk.start.stwRestart.mbxStop.mbxComplete_status mbxSTEWARD_RESET []
  obtain ⟨phase, done, -, -⟩ := s.blk.start.stwRestart.mbxStop.mbxComplete_state mbxSTEWARD_RESET []
  refine runs_of_effect (b := (s.blk.start.stwRestart.mbxStop.mbxComplete mbxSTEWARD_RESET []).icuEval) (execStewardWatchdogExpiry_eq s)
    ((if_neg hu).trans (congrArg Block.icuEval (if_pos busy))) ?_
  have kept := (s.blk.start.stwRestart.mbxStop.mbxComplete mbxSTEWARD_RESET []).icuEval_kept
  simp only [Block.canon_rd, Block.canon_bit]
  rw [kept.rd SYS_MBX_STATUS.STATUS 0 (by decide), kept.rd SYS_MBX_STATUS.RES_LEN 0 (by decide), kept.rd SYS_MBX_STATE.PHASE 0 (by decide),
    kept.bit SYS_MBX_STATE.DONE 0 (by decide)]
  exact ⟨status, resLen, phase, done, congrArg (·.res) (Block.icuEval_rest _).1⟩

/-- Settles O56: an idle mailbox takes a RING, a busy one refuses it and the writes, and a restart completes the command. -/
theorem mailboxRing : Obligations.MailboxRing := by
  unfold Obligations.MailboxRing
  refine ⟨fun s h => ?_, fun s h => ?_⟩
  · have idle := s.blk.mbxBusy_idle h
    exact ⟨mbxRing_ready_runs s idle, mbxRing_notReady_runs s idle⟩
  · have busy := s.blk.mbxBusy_iff.2 h
    exact ⟨mbxRing_busy_gives s busy, fun v => regWrite_gives s _ v _ (by decide) (by decide) (s.blk.start.writeAt_cmd_busy busy v),
      fun n v hn => regWrite_arg_busy_gives s busy n v hn, stewardWatchdogExpiry_busy_runs s busy⟩

end Sys2Proof.Machine
end

section
/-! SUPPORT. Mailbox commands end, and the stewards start (R32, R37–R43, R476, R540). -/

namespace Sys2Proof.Machine

variable (b : Block)

theorem FlashIs.of_flash {b c : Block} (h : c.upd.flash = b.upd.flash) : FlashIs b c := fun _ => by rw [h]

theorem FlashIs.canon {b c : Block} (h : FlashIs b c) : FlashIs b c.canon := fun x => (Tbl.get_canon _ _ _).trans (h x)

/-! ### ABORT (R38) -/

theorem mbxAbort_idle (s : State) (h : s.blk.rd SYS_MBX_STATE.PHASE ≠ phBUSY) : NoEffect .mbxAbort s :=
  gives_of_runCmd (f := Block.mbxAbort) rfl (if_neg h)

/-- The block after an ABORT in BUSY. -/
def Block.mbxAborting (b : Block) : Block :=
  ({ b with stw := { b.stw with abortAt := some (b.clk.beat + msBeats 10) } }.wr SYS_MBX_STATE.PHASE phABORTING).set SYS_MBX_DB.ABORT

theorem Block.mbxAborting_phase : b.mbxAborting.rd SYS_MBX_STATE.PHASE = phABORTING :=
  (Block.rd_set_other _ SYS_MBX_DB.ABORT _ 0 0 (by decide)).trans (Block.rd_wr_same _ _ _ 0 (by decide))

theorem mbxAbort_runs (s : State) (h : s.blk.rd SYS_MBX_STATE.PHASE = phBUSY) : Runs .mbxAbort s (fun t => t.rd SYS_MBX_STATE.PHASE = phABORTING
    ∧ t.stw = { s.blk.stw with abortAt := some (s.blk.clk.beat + 2500000) } ∧ RegsKept s.blk t [SYS_MBX_STATE.all.base, SYS_MBX_DB.all.base]) := by
  have timed : RegsKept s.blk { s.blk.start with stw := { s.blk.start.stw with abortAt := some (s.blk.start.clk.beat + msBeats 10) } }
    [SYS_MBX_STATE.all.base, SYS_MBX_DB.all.base] := .of_regs rfl
  refine runs_of_effect (f := Block.mbxAbort) (b := s.blk.start.mbxAborting) rfl (if_pos h) ⟨?_, rfl, ?_⟩
  · rw [Block.canon_rd]
    exact s.blk.start.mbxAborting_phase
  · exact ((timed.wr SYS_MBX_STATE.PHASE _ 0 (by decide)).set SYS_MBX_DB.ABORT 0 (by decide)).canon

/-! ### The steward completes a command (R40–R42) -/

theorem mbxComplete_idle (s : State) (h : s.blk.mbxBusy = false ∨ s.blk.bit SYS_MBX_STATE.READY = false) : NoEffect .mbxComplete s := by
  refine gives_of_runCmd (f := Block.mbxFinish) rfl (if_pos (show (!s.blk.mbxBusy || !s.blk.bit SYS_MBX_STATE.READY) = true from ?_))
  rcases h with h | h <;> simp [h]

/-- With a command in progress and the stewards ready, what a completion does follows from the result held. -/
theorem Block.mbxFinish_served (h : b.mbxBusy = true) (hr : b.bit SYS_MBX_STATE.READY = true) : b.mbxFinish = match b.stw.held with
    | some (st, res) => (b.hwdFinish st).1.mbxComplete (b.hwdFinish st).2 res
    | none =>
      if b.rd SYS_MBX_STATE.PHASE = phABORTING then b.hwdAbort.updAbort.mbxComplete mbxABORTED []
      else if !mbxOpcodes.contains (b.rd SYS_MBX_CMD.OPCODE) then b.mbxComplete mbxBAD_OPCODE []
      else if 64 < b.rd SYS_MBX_CMD.ARG_LEN then b.mbxComplete mbxBAD_LENGTH []
      else b := by
  have open_ : ¬ (!b.mbxBusy || !b.bit SYS_MBX_STATE.READY) = true := by simp [h, hr]
  exact if_neg open_

theorem Block.hwdFinish_none (h : b.hwd.fx = .none) (st : Nat) : b.hwdFinish st = (b, st) := by
  unfold Block.hwdFinish
  rw [h]

theorem mbxComplete_held_runs (s : State) (h : s.blk.mbxBusy = true) (hr : s.blk.bit SYS_MBX_STATE.READY = true) (st : Nat) (res : List (BitVec 32))
    (hh : s.blk.stw.held = some (st, res)) (hfx : s.blk.hwd.fx = .none) : Runs .mbxComplete s (fun t =>
      Completed s t st res ∧ t.hwd = s.blk.hwd ∧ DramKept s.blk t ∧ FlashIs s.blk t) := by
  have hwd : s.blk.hwd = { s.blk.hwd with fx := .none } := by rw [← hfx]
  refine runs_of_effect (f := Block.mbxFinish) (b := s.blk.start.mbxComplete st res) rfl ?_
    ⟨Block.completed s _ st res rfl, hwd.symm, DramKept.canon (.of_dram rfl), FlashIs.canon (.of_flash rfl)⟩
  rw [s.blk.start.mbxFinish_served h hr, Block.start_stw, hh]
  dsimp only
  rw [s.blk.start.hwdFinish_none hfx]

theorem mbxComplete_unheld_runs (s : State) (h : s.blk.mbxBusy = true) (hr : s.blk.bit SYS_MBX_STATE.READY = true) (hh : s.blk.stw.held = none) :
    if s.blk.rd SYS_MBX_STATE.PHASE = phABORTING then Runs .mbxComplete s (fun t => Completed s t mbxABORTED [] ∧ StopsStaging s t)
    else if s.blk.rd SYS_MBX_CMD.OPCODE ∉ mbxOpcodes then Gives .mbxComplete s (s.blk.start.mbxComplete mbxBAD_OPCODE [])
    else if 64 < s.blk.rd SYS_MBX_CMD.ARG_LEN then Gives .mbxComplete s (s.blk.start.mbxComplete mbxBAD_LENGTH [])
    else NoEffect .mbxComplete s := by
  have served := s.blk.start.mbxFinish_served h hr
  rw [Block.start_stw, hh] at served
  dsimp only at served
  split
  · next aborting =>
    have kept := s.blk.start.hwdAbort_stopped.1.trans (Block.updAbort_stopped _)
    exact runs_of_effect (f := Block.mbxFinish) rfl (served.trans (if_pos aborting))
      ⟨Block.completed s _ _ [] (kept.rd SYS_MBX_CMD.TAG 0 (by decide)), Block.stopsStaging s s.blk.start (fun _ _ => rfl) _⟩
  · next busy =>
    have asked := served.trans (if_neg busy)
    split
    · next unknown => exact gives_of_runCmd (f := Block.mbxFinish) rfl (asked.trans (if_pos (by simpa using unknown)))
    · next known =>
      have known' : ¬ (!mbxOpcodes.contains (s.blk.rd SYS_MBX_CMD.OPCODE)) = true := by simpa using known
      split
      · next long => exact gives_of_runCmd (f := Block.mbxFinish) rfl (asked.trans ((if_neg known').trans (if_pos long)))
      · next short => exact gives_of_runCmd (f := Block.mbxFinish) rfl (asked.trans ((if_neg known').trans (if_neg short)))

/-! ### The hardware gives a command up (R37, R38) -/

/-- What a command given up leaves, where time alone has passed before. -/
theorem Block.gaveUp (s : State) (n st : Nat) : let t := ((s.blk.start.toBeat n).mbxGiveUp st).canon
    Completed s t st [] ∧ t.clk.beat = max s.blk.clk.beat n ∧ (s.blk.stw.held = none → StopsStaging s t) ∧ t.hwd = { s.blk.hwd with fx := .none }
      ∧ (s.blk.rd SYS_MBX_CMD.OPCODE ≠ 0x1004 → s.blk.hwd.fx = .none → DramKept s.blk t) := by
  intro t
  have stopped := (s.blk.start.toBeat n).mbxStop_stopped
  obtain ⟨-, -, -, beat, hwd⟩ := stopped.rest
  refine ⟨Block.completed s _ st [] (stopped.rd SYS_MBX_CMD.TAG 0 (by decide)), ?_, fun unheld => ?_, hwd, fun hop hfx => ?_⟩
  · have later : (s.blk.start.toBeat n).clk.beat = s.blk.clk.beat + (n - s.blk.clk.beat) := rfl
    exact beat.trans (by omega)
  · have all : (s.blk.start.toBeat n).mbxStop = (s.blk.start.toBeat n).hwdAbort.updAbort := if_pos (congrArg Option.isNone unheld)
    have ends : t = ((s.blk.start.toBeat n).hwdAbort.updAbort.mbxComplete st []).canon := by rw [← all]; rfl
    rw [ends]
    exact Block.stopsStaging s (s.blk.start.toBeat n) (fun _ _ => rfl) st
  · exact DramKept.canon (.of_dram (Block.mbxStop_dram _ hfx hop))

theorem mbxTimeout_runs (s : State) (d : Nat) (hd : s.blk.stw.deadline = some d) (h : s.blk.mbxBusy = true) : Runs .mbxTimeout s (fun t =>
    Completed s t mbxTIMEOUT [] ∧ t.clk.beat = max s.blk.clk.beat d ∧ (s.blk.stw.held = none → StopsStaging s t) ∧ t.hwd = { s.blk.hwd with fx := .none }
      ∧ (s.blk.rd SYS_MBX_CMD.OPCODE ≠ 0x1004 → s.blk.hwd.fx = .none → DramKept s.blk t)) := by
  refine runs_of_effect (f := fun b => match b.stw.deadline with
    | some d => if b.mbxBusy then (b.toBeat d).mbxGiveUp mbxTIMEOUT else b
    | none => b) rfl ?_ (Block.gaveUp s d mbxTIMEOUT)
  rw [Block.start_stw, hd]
  exact if_pos h

theorem mbxTimeout_idle (s : State) (h : s.blk.stw.deadline = none ∨ s.blk.mbxBusy = false) : NoEffect .mbxTimeout s := by
  refine gives_of_runCmd (f := fun b => match b.stw.deadline with
    | some d => if b.mbxBusy then (b.toBeat d).mbxGiveUp mbxTIMEOUT else b
    | none => b) rfl ?_
  rw [Block.start_stw]
  cases hd : s.blk.stw.deadline with
  | none => rfl
  | some d => exact if_neg (ne_true_of_eq_false (h.resolve_left (by rw [hd]; exact Option.some_ne_none d)))

theorem mbxAbortTimeout_runs (s : State) (d : Nat) (hd : s.blk.stw.abortAt = some d) (h : s.blk.rd SYS_MBX_STATE.PHASE = phABORTING) :
    Runs .mbxAbortTimeout s (fun t => Completed s t mbxABORTED [] ∧ t.clk.beat = max s.blk.clk.beat d ∧ (s.blk.stw.held = none → StopsStaging s t)
      ∧ t.hwd = { s.blk.hwd with fx := .none } ∧ (s.blk.rd SYS_MBX_CMD.OPCODE ≠ 0x1004 → s.blk.hwd.fx = .none → DramKept s.blk t)) := by
  refine runs_of_effect (f := fun b => match b.stw.abortAt with
    | some d => if b.rd SYS_MBX_STATE.PHASE = phABORTING then (b.toBeat d).mbxGiveUp mbxABORTED else b
    | none => b) rfl ?_ (Block.gaveUp s d mbxABORTED)
  rw [Block.start_stw, hd]
  exact if_pos h

theorem mbxAbortTimeout_idle (s : State) (h : s.blk.stw.abortAt = none ∨ s.blk.rd SYS_MBX_STATE.PHASE ≠ phABORTING) : NoEffect .mbxAbortTimeout s := by
  refine gives_of_runCmd (f := fun b => match b.stw.abortAt with
    | some d => if b.rd SYS_MBX_STATE.PHASE = phABORTING then (b.toBeat d).mbxGiveUp mbxABORTED else b
    | none => b) rfl ?_
  rw [Block.start_stw]
  cases hd : s.blk.stw.abortAt with
  | none => rfl
  | some d => exact if_neg (h.resolve_left (by rw [hd]; exact Option.some_ne_none d))

/-! ### Commands that the stewards serve (R41, R43) -/

/-- A command served does nothing while the steward has none of its opcode. -/
theorem serve_idle {c : Instr} {s : State} {op : Nat} {len : Nat → Bool} {f : Block → Block} (hc : exec c s = runCmd s (fun b => b.mbxServe op len f))
    (h : s.blk.mbxServes op = false) : NoEffect c s :=
  gives_of_runCmd hc (s.blk.start.mbxServe_idle op len f h)

theorem Block.mbxTakes_iff (op : Nat) (len : Nat → Bool) : b.mbxTakes op len = true
    ↔ b.mbxServes op = true ∧ b.rd SYS_MBX_CMD.ARG_LEN ≤ 64 ∧ len (b.rd SYS_MBX_CMD.ARG_LEN) = true := by
  simp only [Block.mbxTakes, Bool.and_eq_true, decide_eq_true_eq, and_assoc]

/-- It completes with BAD_LENGTH for an ARG_LEN that its table refuses. -/
theorem serve_badLength {c : Instr} {s : State} {op : Nat} {len : Nat → Bool} {f : Block → Block} (hc : exec c s = runCmd s (fun b => b.mbxServe op len f))
    (h : s.blk.mbxServes op = true) (ht : s.blk.mbxTakes op len = false) : Holds c s mbxBAD_LENGTH [] := by
  refine gives_of_runCmd hc (s.blk.start.mbxServe_badLength op len f h ?_)
  by_contra fits
  simp only [not_or, Nat.not_lt, Bool.not_eq_false] at fits
  rw [(s.blk.mbxTakes_iff op len).2 ⟨h, fits.1, fits.2⟩] at ht
  cases ht

/-- It does its effect where the steward takes it. -/
theorem Block.mbxServe_of_takes {op : Nat} {len : Nat → Bool} (f : Block → Block) (h : b.mbxTakes op len = true) : b.mbxServe op len f = f b := by
  obtain ⟨hs, hl, hf⟩ := (b.mbxTakes_iff op len).1 h
  exact b.mbxServe_takes op len f hs hl hf

/-- The effect of a command that the steward takes, of a state as the command finds it. -/
theorem serve_taken {c : Instr} {s : State} {op : Nat} {len : Nat → Bool} {f : Block → Block} {d : Block}
    (hc : exec c s = runCmd s (fun b => b.mbxServe op len f)) (h : s.blk.mbxTakes op len = true) (hf : f s.blk.start = d) : Gives c s d :=
  gives_of_runCmd hc ((Block.mbxServe_of_takes s.blk.start f h).trans hf)

theorem runs_of_taken {c : Instr} {s : State} {op : Nat} {len : Nat → Bool} {f : Block → Block} {d : Block} {P : Block → Prop}
    (hc : exec c s = runCmd s (fun b => b.mbxServe op len f)) (h : s.blk.mbxTakes op len = true) (hf : f s.blk.start = d) (hP : P d.canon) : Runs c s P :=
  runs_of_effect hc ((Block.mbxServe_of_takes s.blk.start f h).trans hf) hP

/-! ### A restart of the steward cores (R32) -/

theorem stewardWatchdogExpiry_idle (s : State) (h : s.blk.rd SYS_MBX_STATE.STW_UP = 0) : NoEffect .stewardWatchdogExpiry s :=
  gives_of_runCmd (execStewardWatchdogExpiry_eq s) (if_pos h)

/-- The block after the restart, and the end of a command in progress. -/
def Block.stwRestarted (b : Block) : Block := b.stwRestart.when b.stwRestart.mbxBusy (fun b => b.mbxGiveUp mbxSTEWARD_RESET)

theorem Block.stwRestarted_up : b.stwRestarted.rd SYS_MBX_STATE.READY = 0 ∧ b.stwRestarted.rd SYS_MBX_STATE.STW_UP = 0 := by
  obtain ⟨ready, up, -⟩ := b.stwRestart_state
  have ready0 : b.stwRestart.rd SYS_MBX_STATE.READY = 0 := by simpa [Block.bit] using ready
  unfold Block.stwRestarted
  cases b.stwRestart.mbxBusy
  · exact ⟨ready0, up⟩
  · have stopped := b.stwRestart.mbxStop_stopped
    obtain ⟨keptReady, keptUp⟩ := b.stwRestart.mbxStop.mbxComplete_up mbxSTEWARD_RESET []
    exact ⟨keptReady.trans ((stopped.rd SYS_MBX_STATE.READY 0 (by decide)).trans ready0),
      keptUp.trans ((stopped.rd SYS_MBX_STATE.STW_UP 0 (by decide)).trans up)⟩

theorem Block.stwRestarted_rest : b.stwRestarted.stw.restarts = b.stw.restarts + 1 ∧ b.stwRestarted.icu = b.stwRestart.icu
    ∧ b.stwRestarted.upd.flash = b.upd.flash ∧ (b.rd SYS_MBX_CMD.OPCODE ≠ 0x1004 → b.hwd.fx = .none → b.stwRestarted.dram = b.dram) := by
  unfold Block.stwRestarted
  cases b.stwRestart.mbxBusy
  · exact ⟨rfl, rfl, rfl, fun _ _ => rfl⟩
  · obtain ⟨stw, icu, flash, -, -⟩ := b.stwRestart.mbxStop_stopped.rest
    refine ⟨congrArg (·.restarts) stw, icu, flash, fun hop hfx => b.stwRestart.mbxStop_dram hfx ?_⟩
    rwa [b.stwRestart_kept.rd SYS_MBX_CMD.OPCODE 0 (by decide)]

/-- Source 4 has risen (R491). -/
theorem Block.rawLevel_four (h : b.icu.pulse = Tbl.put (fun _ => false) l 4 true) : b.rawLevel 4 = true := by
  have level : b.rawLevel 4 = Tbl.get (fun _ => false) b.icu.pulse 4 := rfl
  rw [level, h]
  exact Tbl.get_put_same _ _ _ _

theorem stewardWatchdogExpiry_runs (s : State) (hu : s.blk.rd SYS_MBX_STATE.STW_UP ≠ 0) : Runs .stewardWatchdogExpiry s (fun t =>
    t.bit SYS_MBX_STATE.READY = false ∧ t.rd SYS_MBX_STATE.STW_UP = 0 ∧ t.stw.restarts = s.blk.stw.restarts + 1 ∧ t.rawLevel 4 = true ∧ t.icu.wfe = []
      ∧ FlashIs s.blk t ∧ (s.blk.rd SYS_MBX_CMD.OPCODE ≠ 0x1004 → s.blk.hwd.fx = .none → DramKept s.blk t)
      ∧ (s.blk.mbxBusy = false → RegsKept s.blk t [SYS_MBX_STATE.all.base, ICU_EVT.all.base])) := by
  let c := s.blk.start.stwRestarted
  have shown := c.icuEval_kept
  obtain ⟨ready, up⟩ := s.blk.start.stwRestarted_up
  obtain ⟨restarts, icu, flash, dram⟩ := s.blk.start.stwRestarted_rest
  obtain ⟨stw, sameDram, sameUpd⟩ := c.icuEval_rest
  obtain ⟨w, l, sameIcu⟩ := c.icuEval_icuShown
  have icu' : c.icuEval.icu = { s.blk.start.stwRestart.icu with wakes := w, lastHost := l } := sameIcu.trans (by rw [icu])
  refine runs_of_effect (b := c.icuEval) (execStewardWatchdogExpiry_eq s) (if_neg hu) ⟨?_, ?_, ?_, ?_, ?_, ?_, fun hop hfx => ?_, fun idle => ?_⟩
  · rw [Block.canon_bit, Block.bit, shown.rd SYS_MBX_STATE.READY 0 (by decide), ready]
    rfl
  · rw [Block.canon_rd, shown.rd SYS_MBX_STATE.STW_UP 0 (by decide), up]
  · exact (congrArg (·.restarts) stw).trans restarts
  · exact Block.rawLevel_four (l := s.blk.icu.pulse) _ (congrArg (·.pulse) icu')
  · exact congrArg (·.wfe) icu'
  · exact FlashIs.canon (.of_flash ((congrArg (·.flash) sameUpd).trans flash))
  · exact DramKept.canon (.of_dram (sameDram.trans (dram hop hfx)))
  · have alone : c = s.blk.start.stwRestart := if_neg (ne_true_of_eq_false (s.blk.start.stwRestart_busy.trans idle))
    have restart : RegsKept s.blk c [SYS_MBX_STATE.all.base, ICU_EVT.all.base] := by
      rw [alone]
      exact s.blk.start.stwRestart_kept.mono (by decide)
    exact (restart.trans (shown.mono (by decide))).canon

/-! ### The start of the stewards (R476, R540) -/

/-- `c` is `b` but for registers, Heartwood and the flash. -/
def Block.CfgOnly (b c : Block) : Prop :=
  ∃ regs tie hwd flash, c = { b with regs := regs, tie := tie, hwd := hwd, upd := { b.upd with flash := flash } }

theorem Block.CfgOnly.refl : b.CfgOnly b := ⟨b.regs, b.tie, b.hwd, b.upd.flash, rfl⟩

theorem Block.CfgOnly.trans {a b c : Block} (h : a.CfgOnly b) (g : b.CfgOnly c) : a.CfgOnly c := by
  obtain ⟨r, t, x, f, rfl⟩ := h
  obtain ⟨r', t', x', f', rfl⟩ := g
  exact ⟨r', t', x', f', rfl⟩

theorem Block.CfgOnly.foldl {α : Type} {f : Block → α → Block} (h : ∀ (b : Block) (x : α), b.CfgOnly (f b x)) : ∀ (l : List α) (b : Block), b.CfgOnly (l.foldl f b)
  | [], b => .refl b
  | x :: l, b => (h b x).trans (foldl h l (f b x))

theorem Block.CfgOnly.setReg {a b : Block} (h : a.CfgOnly b) (o : Nat) (v : BitVec 32) : a.CfgOnly (b.setReg o v) := h.trans ⟨_, b.tie, b.hwd, b.upd.flash, rfl⟩

theorem Block.CfgOnly.set {a b : Block} (h : a.CfgOnly b) (f : Fld) : a.CfgOnly (b.set f) := h.trans ⟨_, _, b.hwd, b.upd.flash, rfl⟩

theorem Block.CfgOnly.flProg {a b : Block} (h : a.CfgOnly b) (x : Nat) (d : List Byte) : a.CfgOnly (b.flProg x d) := h.trans ⟨b.regs, b.tie, b.hwd, _, rfl⟩

theorem Block.cfgPut_only (area : Nat) : ∀ (l : List CfgRec) (b : Block) (pos : Nat) (c : Block), b.cfgPut area pos l = some c → b.CfgOnly c
  | [], b, _, c, h => by
    cases h
    exact .refl b
  | r :: l, b, pos, c, h => by
    unfold Block.cfgPut at h
    split at h
    · cases h
    · exact ((CfgOnly.refl b).flProg _ _).trans (cfgPut_only area l _ _ c h)

/-- A compaction changes the flash alone. -/
theorem Block.cfgCompact_only (rs : List CfgRec) (c : Block) (h : b.cfgCompact rs = some c) : b.CfgOnly c := by
  unfold Block.cfgCompact at h
  dsimp only at h
  split at h
  · next d hd =>
    cases h
    have erased (a n : Nat) : b.CfgOnly (b.flErase a n) := ⟨b.regs, b.tie, b.hwd, _, rfl⟩
    exact (((erased _ _).trans (cfgPut_only _ _ _ _ d hd)).flProg _ _).flProg _ _
  · cases h

theorem Block.mregShow_only {a b : Block} (h : a.CfgOnly b) : a.CfgOnly b.mregShow := h.trans (.foldl (fun c _ => (CfgOnly.refl c).setReg _ _) _ b)

theorem Block.cfgApply_only (r : CfgRec) : b.CfgOnly (b.cfgApply r) := ⟨b.regs, b.tie, _, b.upd.flash, rfl⟩

/-- The configuration records at a start change registers, Heartwood's measurements and the flash alone. -/
theorem Block.cfgStart_only : b.CfgOnly b.cfgStart := by
  have counted {c : Block} (h : b.CfgOnly c) : b.CfgOnly c.cfgCount := h.setReg _ _
  have flagged {c : Block} (h : b.CfgOnly c) (v : Bool) : b.CfgOnly (c.when v (fun b => b.set UPD_EVT.CFG_ERR)) := by
    cases v
    · exact h
    · exact h.set _
  unfold Block.cfgStart
  dsimp only
  refine counted (flagged (((Block.mregShow_only ?_).setReg _ _).setReg _ _) _)
  refine CfgOnly.trans ?_ (.foldl (fun c x => ?_) _ _)
  · split
    · next d hd =>
      split at hd
      · exact (b.cfgCompact_only _ d hd).set _
      · cases hd
    · exact .refl b
  · split
    · exact c.cfgApply_only _
    · exact c.cfgApply_only _
    · exact .refl c

/-- The stewards become ready. -/
def Block.stwReady (b : Block) : Block :=
  let b := b.when b.stw.rrs Block.cfgStart
  ({ b with stw := { b.stw with rrs := false } }.set SYS_MBX_STATE.READY).wr SYS_MBX_STATE.STW_UP 15

/-- The stewards do not become ready. -/
def Block.stwWaits (b : Block) : Bool :=
  b.pwr.rst.isSome || b.bit SYS_MBX_STATE.READY || (b.stw.rrs && !(b.rd SYS_MBX_STATE.STW_UP == 15)) || (!b.stw.rrs && b.rd UPD_BOOT_ST.RESULT == brRECOVERY)

theorem execStewardReady_eq (s : State) : exec .stewardReady s = runCmd s (fun b => if b.stwWaits then b else b.stwReady) := rfl

theorem stewardReady_waits (s : State) (h : s.blk.pwr.rst.isSome = true ∨ s.blk.bit SYS_MBX_STATE.READY = true
    ∨ (s.blk.stw.rrs = true ∧ s.blk.rd SYS_MBX_STATE.STW_UP ≠ 15) ∨ (s.blk.stw.rrs = false ∧ s.blk.rd UPD_BOOT_ST.RESULT = brRECOVERY)) :
    NoEffect .stewardReady s := by
  refine gives_of_runCmd (execStewardReady_eq s) (if_pos (show s.blk.stwWaits = true from ?_))
  unfold Block.stwWaits
  rcases h with reset | up | ⟨first, partly⟩ | ⟨again, recovery⟩
  · simp [reset]
  · simp [up]
  · simp [first, partly]
  · simp [again, recovery]

theorem Block.stwReady_state : b.stwReady.bit SYS_MBX_STATE.READY = true ∧ b.stwReady.rd SYS_MBX_STATE.STW_UP = 15 := by
  unfold Block.stwReady
  dsimp only
  constructor
  · rw [Block.bit_wr_disjoint _ _ _ _ _ _ (by decide)]
    exact Block.bit_set_same _ _ _ (by decide) (by decide)
  · exact Block.rd_wr_same _ _ _ _ (by decide)

theorem stewardReady_first_runs (s : State) (hp : s.blk.pwr.rst = none) (hr : s.blk.bit SYS_MBX_STATE.READY = false) (h : s.blk.stw.rrs = true)
    (hu : s.blk.rd SYS_MBX_STATE.STW_UP = 15) : Runs .stewardReady s (fun t => t.bit SYS_MBX_STATE.READY = true ∧ t.stw = { s.blk.stw with rrs := false }
      ∧ t.rd SYS_MBX_STATE.STW_UP = 15 ∧ DramKept s.blk t) := by
  have goes : ¬ s.blk.stwWaits = true := by simp [Block.stwWaits, hp, hr, h, hu]
  obtain ⟨ready, up⟩ := s.blk.start.stwReady_state
  have applied : s.blk.start.when s.blk.start.stw.rrs Block.cfgStart = s.blk.start.cfgStart := if_pos h
  have parts : s.blk.start.stwReady.stw = { s.blk.stw with rrs := false } ∧ s.blk.start.stwReady.dram = s.blk.dram := by
    obtain ⟨r, t, x, f, e⟩ := s.blk.start.cfgStart_only
    unfold Block.stwReady
    rw [applied, e]
    exact ⟨rfl, rfl⟩
  refine runs_of_effect (execStewardReady_eq s) (if_neg goes) ⟨?_, parts.1, ?_, DramKept.canon (.of_dram parts.2)⟩
  · rwa [Block.canon_bit]
  · rwa [Block.canon_rd]

theorem stewardReady_again_runs (s : State) (hp : s.blk.pwr.rst = none) (hr : s.blk.bit SYS_MBX_STATE.READY = false) (h : s.blk.stw.rrs = false)
    (hb : s.blk.rd UPD_BOOT_ST.RESULT ≠ brRECOVERY) : Runs .stewardReady s (fun t => t.bit SYS_MBX_STATE.READY = true ∧ t.stw = s.blk.stw
      ∧ t.rd SYS_MBX_STATE.STW_UP = 15 ∧ RegsKept s.blk t [SYS_MBX_STATE.all.base] ∧ FlashIs s.blk t) := by
  have goes : ¬ s.blk.stwWaits = true := by simp [Block.stwWaits, hp, hr, h, hb]
  obtain ⟨ready, up⟩ := s.blk.start.stwReady_state
  let c : Block := { s.blk.start with stw := { s.blk.stw with rrs := false } }
  have plain : s.blk.start.stwReady = (c.set SYS_MBX_STATE.READY).wr SYS_MBX_STATE.STW_UP 15 := by
    have skipped : s.blk.start.when s.blk.start.stw.rrs Block.cfgStart = s.blk.start := if_neg (ne_true_of_eq_false h)
    unfold Block.stwReady
    rw [skipped]
    rfl
  have stw : { s.blk.stw with rrs := false } = s.blk.stw := by rw [← h]
  have kept : RegsKept s.blk c [SYS_MBX_STATE.all.base] := .of_regs rfl
  refine runs_of_effect (execStewardReady_eq s) (if_neg goes) ⟨?_, ?_, ?_, ?_, ?_⟩
  · rwa [Block.canon_bit]
  · rw [plain]
    exact stw
  · rwa [Block.canon_rd]
  · rw [plain]
    exact ((kept.set SYS_MBX_STATE.READY 0 (by decide)).wr SYS_MBX_STATE.STW_UP _ 0 (by decide)).canon
  · rw [plain]
    exact FlashIs.canon (.of_flash rfl)

/-- PING, GET_FW_INFO and GET_HEALTH do nothing while the steward has no command of their opcode, and refuse a wrong length. -/
theorem infoCommands_served : ∀ x ∈ [(Instr.ping, 0x0000, fun _ => true), (.getFwInfo, 0x0001, (· == 0)), (.getHealth, 0x0002, (· == (0 : Nat)))],
    ∀ s : State, (s.blk.mbxServes x.2.1 = false → NoEffect x.1 s)
      ∧ (s.blk.mbxServes x.2.1 = true → s.blk.mbxTakes x.2.1 x.2.2 = false → Holds x.1 s mbxBAD_LENGTH []) := by
  simp only [List.forall_mem_cons, List.not_mem_nil, false_imp_iff, implies_true, and_true]
  exact ⟨fun _ => ⟨serve_idle rfl, serve_badLength rfl⟩, fun _ => ⟨serve_idle rfl, serve_badLength rfl⟩, fun _ => ⟨serve_idle rfl, serve_badLength rfl⟩⟩

/-- Settles O57, command by command. -/
theorem mailboxAndStewards : Obligations.MailboxAndStewards := by
  unfold Obligations.MailboxAndStewards
  exact ⟨fun s => ⟨mbxAbort_idle s, mbxAbort_runs s⟩, mbxComplete_idle, fun s h hr => ⟨mbxComplete_held_runs s h hr, mbxComplete_unheld_runs s h hr⟩,
    mbxTimeout_runs, mbxTimeout_idle, mbxAbortTimeout_runs, mbxAbortTimeout_idle, infoCommands_served,
    fun _ => ⟨fun h => serve_taken rfl h rfl, fun h => serve_taken rfl h rfl, fun h => serve_taken rfl h rfl⟩,
    stewardWatchdogExpiry_idle, stewardWatchdogExpiry_runs, stewardReady_waits,
    fun s hp hr => ⟨stewardReady_first_runs s hp hr, stewardReady_again_runs s hp hr⟩⟩

end Sys2Proof.Machine
end

section
/-! SUPPORT. Heartwood's mailbox commands: when they are served (R41, R363, R370), GET_STATE and TAMPER_CLEAR (R368, R369). -/

namespace Sys2Proof.Machine

/-- What every command of Heartwood answers before its own work. -/
def HwdAnswers (c : Instr) (op : Nat) (len : Nat → Bool) (s : State) : Prop :=
  (s.blk.mbxServes op = false → NoEffect c s)
  ∧ (s.blk.mbxServes op = true → s.blk.mbxTakes op len = false → Holds c s mbxBAD_LENGTH [])
  ∧ (s.blk.mbxTakes op len = true → s.blk.hwdNormal = false → op ≠ 0x1000 → op ≠ 0x1041 → Holds c s hwTAMPERED [])

/-- A command served in NORMAL alone refuses every other state. -/
theorem hwdServe_answers {c : Instr} {op : Nat} {len : Nat → Bool} {f : Block → Block} (hc : ∀ s, exec c s = runCmd s (fun b => b.hwdServe op len f))
    (s : State) : HwdAnswers c op len s :=
  ⟨serve_idle (hc s), serve_badLength (hc s), fun taken other _ _ => serve_taken (hc s) taken (if_neg (ne_true_of_eq_false other))⟩

/-- A command served in every state. -/
theorem mbxServe_answers {c : Instr} {op : Nat} {len : Nat → Bool} {f : Block → Block} (hc : ∀ s, exec c s = runCmd s (fun b => b.mbxServe op len f))
    (every : op = 0x1000 ∨ op = 0x1041) (s : State) : HwdAnswers c op len s :=
  ⟨serve_idle (hc s), serve_badLength (hc s), fun _ _ other other' => absurd every (not_or.2 ⟨other, other'⟩)⟩

theorem hwdCommands_answer : ∀ x ∈ [(Instr.hwdGetState, 0x1000, (· == 0)), (.hwdExtend, 0x1001, (1 < ·)), (.hwdGetIdentity, 0x1002, (· == 0)),
      (.hwdGetFidCert, 0x1003, (· == 0)), (.hwdQuote, 0x1004, (· == 11)), (.hwdSlotLoad, 0x1010, (19 ≤ ·)), (.hwdSlotDerive, 0x1011, (5 ≤ ·)),
      (.hwdSlotCommit, 0x1012, (· == 2)), (.hwdSlotCancel, 0x1013, (· == 1)), (.hwdSlotErase, 0x1014, (· == 1)), (.hwdSlotExport, 0x1015, (· == 1)),
      (.hwdSlotImport, 0x1016, (1 < ·)), (.hwdSetWrap, 0x1020, (· == 1)), (.hwdWrap, 0x1021, (3 < ·)), (.hwdWrapBatch 0, 0x1022, (· == 6)),
      (.hwdSign, 0x1030, (· == 17)), (.hwdVerify, 0x1031, (· == 61)), (.hwdCacheFlush, 0x1040, (· == 0)), (.hwdTamperClear, 0x1041, (· == (0 : Nat)))],
    ∀ s : State, HwdAnswers x.1 x.2.1 x.2.2 s := by
  simp only [List.forall_mem_cons, List.not_mem_nil, false_imp_iff, implies_true, and_true]
  exact ⟨mbxServe_answers (fun _ => rfl) (.inl rfl), hwdServe_answers (fun _ => rfl), hwdServe_answers (fun _ => rfl), hwdServe_answers (fun _ => rfl),
    hwdServe_answers (fun _ => rfl), hwdServe_answers (fun _ => rfl), hwdServe_answers (fun _ => rfl), hwdServe_answers (fun _ => rfl),
    hwdServe_answers (fun _ => rfl), hwdServe_answers (fun _ => rfl), hwdServe_answers (fun _ => rfl), hwdServe_answers (fun _ => rfl),
    hwdServe_answers (fun _ => rfl), hwdServe_answers (fun _ => rfl), hwdServe_answers (fun _ => rfl), hwdServe_answers (fun _ => rfl),
    hwdServe_answers (fun _ => rfl), hwdServe_answers (fun _ => rfl), mbxServe_answers (fun _ => rfl) (.inr rfl)⟩

/-- The latch and CAUSE cleared (R368). -/
def Block.tamperCleared (b : Block) : Block :=
  ({ b with hwd := { b.hwd with latch := false, aonCause := 0 } }.clr HWD_STATE.LATCH).wr HWD_STATE.CAUSE 0

theorem Block.tamperCleared_state (b : Block) : b.tamperCleared.bit HWD_STATE.LATCH = false ∧ b.tamperCleared.rd HWD_STATE.CAUSE = 0
    ∧ b.tamperCleared.rd HWD_STATE.ST = b.rd HWD_STATE.ST := by
  have before : b.rd HWD_STATE.ST = { b with hwd := { b.hwd with latch := false, aonCause := 0 } }.rd HWD_STATE.ST := rfl
  unfold Block.tamperCleared
  refine ⟨?_, Block.rd_wr_same _ _ _ _ (by decide), ?_⟩
  · rw [Block.bit_wr_disjoint _ _ _ _ _ _ (by decide)]
    exact Block.bit_clr_same _ _ _ (by decide)
  · rw [Block.rd_wr_disjoint _ _ _ _ _ _ (by decide), before]
    exact Block.rd_wr_disjoint _ _ _ _ _ _ (by decide)

theorem execHwdTamperClear_eq (s : State) : exec .hwdTamperClear s = runCmd s (fun b => b.mbxServe 0x1041 (· == 0) (fun b =>
    if b.rd HWD_STATE.ST == hsZEROISED || b.rd HWD_STATE.ST == hsTAMPERED then b.tamperCleared.hold mbxOK else b.hold hwNOT_TAMPERED)) := rfl

theorem hwdTamperClear_runs (s : State) (h : s.blk.mbxTakes 0x1041 (· == 0) = true) :
    if s.blk.rd HWD_STATE.ST = hsZEROISED ∨ s.blk.rd HWD_STATE.ST = hsTAMPERED then Runs .hwdTamperClear s (fun t =>
      t.hwd = { s.blk.hwd with latch := false, aonCause := 0 } ∧ t.bit HWD_STATE.LATCH = false ∧ t.rd HWD_STATE.CAUSE = 0
      ∧ t.rd HWD_STATE.ST = s.blk.rd HWD_STATE.ST ∧ t.stw.held = some (mbxOK, []))
    else Holds .hwdTamperClear s hwNOT_TAMPERED [] := by
  split
  · next tampered =>
    obtain ⟨latch, cause, st⟩ := s.blk.start.tamperCleared_state
    refine runs_of_taken (execHwdTamperClear_eq s) h (if_pos (by simpa using tampered)) ⟨rfl, ?_, ?_, ?_, rfl⟩
    · rw [Block.canon_bit]
      exact latch
    · rw [Block.canon_rd]
      exact cause
    · rw [Block.canon_rd]
      exact st
  · next sound => exact serve_taken (execHwdTamperClear_eq s) h (if_neg (by simpa using sound))

/-- Settles O33: one answer for all commands, and the two that every state serves. -/
theorem heartwoodServes : Obligations.HeartwoodServes := by
  unfold Obligations.HeartwoodServes
  exact ⟨hwdCommands_answer, fun _ h => serve_taken rfl h rfl, hwdTamperClear_runs⟩

end Sys2Proof.Machine
end

section
/-! SUPPORT. The boot flash in its canonical form: what an erase leaves, the entries of the journal, and the areas of the configuration records
(R464, R467, R468, R475). -/

namespace Sys2Proof.Machine

variable (b : Block)

/-! ### Ranges of the flash -/

/-- An erase of a flash in its canonical form clears its range and nothing else. -/
theorem Block.flErase_get (h : Tbl.wf flErased b.upd.flash = true) (a n x : Nat) :
    Tbl.get flErased (b.flErase a n).upd.flash x = if a ≤ x ∧ x < a + n then 0xFF else Tbl.get flErased b.upd.flash x := by
  have left := Tbl.get_filter_of_wf flErased (fun k => decide (k < a ∨ a + n ≤ k)) b.upd.flash none x h
  refine left.trans ?_
  by_cases hx : a ≤ x ∧ x < a + n
  · rw [if_pos hx, if_neg (by simp only [decide_eq_true_eq]; omega)]
    rfl
  · rw [if_neg hx, if_pos (by simp only [decide_eq_true_eq]; omega)]

/-- What a range reads depends on its bytes alone. -/
theorem Block.fl_congr {b c : Block} {a n : Nat} (h : ∀ i, i < n → Tbl.get flErased c.upd.flash (a + i) = Tbl.get flErased b.upd.flash (a + i)) :
    c.fl a n = b.fl a n :=
  List.map_congr_left (fun i hi => h i (List.mem_range.1 hi))

/-- Bytes programmed into an erased range are read. -/
theorem Block.fl_flProg (a : Nat) (d : List Byte) (h : ∀ i, i < d.length → Tbl.get flErased b.upd.flash (a + i) = 0xFF) : (b.flProg a d).fl a d.length = d := by
  refine List.ext_getElem (by simp [Block.fl]) (fun i hi hi' => ?_)
  simp only [Block.fl, List.getElem_map, List.getElem_range]
  have programmed : Tbl.get flErased (b.flProg a d).upd.flash (a + i) = Tbl.get flErased b.upd.flash (a + i) &&& d.getD i 0 :=
    get_flProgram_inside d b.upd.flash a i hi'
  rw [programmed, h i hi', List.getD_eq_getElem _ _ hi']
  exact BitVec.allOnes_and

/-! ### Entries of the journal (R467) -/

theorem crc32Byte_lt (c : Nat) (x : Byte) (h : c < 2 ^ 32) : crc32Byte c x < 2 ^ 32 := by
  have steps : ∀ (l : List Nat) (c : Nat), c < 2 ^ 32 → l.foldl (fun c _ => if c % 2 = 1 then (c / 2) ^^^ 0xEDB88320 else c / 2) c < 2 ^ 32 := by
    intro l
    induction l with
    | nil => exact fun _ h => h
    | cons _ l ih =>
      intro c h
      refine ih _ ?_
      dsimp only
      split
      · exact Nat.xor_lt_two_pow (by omega) (by decide)
      · omega
  exact steps _ _ (Nat.xor_lt_two_pow h (by have := x.isLt; omega))

theorem crc32_lt (l : List Byte) : crc32 l < 2 ^ 32 := by
  have bytes : ∀ (l : List Byte) (c : Nat), c < 2 ^ 32 → l.foldl crc32Byte c < 2 ^ 32 := by
    intro l
    induction l with
    | nil => exact fun _ h => h
    | cons x l ih => exact fun c h => ih _ (crc32Byte_lt c x h)
  exact Nat.xor_lt_two_pow (bytes l _ (by decide)) (by decide)

theorem JEnt.bytes_length (e : JEnt) : e.bytes.length = 16 := rfl

/-- An entry reads as it was written. -/
theorem jDecode_bytes (e : JEnt) (ht : e.typ < 256) (ha : e.arg < 65536) (hg : e.gen < 2 ^ 32) (hd : e.diglo < 2 ^ 32) : jDecode e.bytes = some e := by
  have typ : leAt e.bytes 0 1 = e.typ := (leNat_leBytes 1 e.typ).trans (Nat.mod_eq_of_lt ht)
  have arg : leAt e.bytes 2 2 = e.arg := (leNat_leBytes 2 e.arg).trans (Nat.mod_eq_of_lt ha)
  have gen : leAt e.bytes 4 4 = e.gen := (leNat_leBytes 4 e.gen).trans (Nat.mod_eq_of_lt hg)
  have dig : leAt e.bytes 8 4 = e.diglo := (leNat_leBytes 4 e.diglo).trans (Nat.mod_eq_of_lt hd)
  have crc : leAt e.bytes 12 4 = crc32 (slice e.bytes 0 12) := (leNat_leBytes 4 _).trans (Nat.mod_eq_of_lt (crc32_lt _))
  have written : e.bytes.all (· == 0xFF) = false := by
    have zero : (0 : Byte) ∈ e.bytes := List.mem_of_getElem (i := 1) (h := Nat.lt_of_lt_of_eq (by decide) e.bytes_length.symm) rfl
    refine Bool.eq_false_iff.2 (fun all => absurd (List.all_eq_true.1 all 0 zero) (by decide))
  unfold jDecode
  rw [written, crc, typ, arg, gen, dig]
  simp

/-- Nothing is read where the flash is erased. -/
theorem jDecode_erased (a : Nat) (h : ∀ i, i < 16 → Tbl.get flErased b.upd.flash (a + i) = 0xFF) : jDecode (b.fl a 16) = none := by
  have blank : (b.fl a 16).all (· == 0xFF) = true := by
    simp only [Block.fl, List.all_map, List.all_eq_true, List.mem_range]
    exact fun i hi => by simp [h i hi]
  unfold jDecode
  rw [blank]
  rfl

theorem leNat_lt : ∀ l : List Byte, leNat l < 256 ^ l.length
  | [] => Nat.one_pos
  | x :: l => by
    have ih := leNat_lt l
    have hx := x.isLt
    rw [leNat, List.length_cons, Nat.pow_succ]
    omega

theorem jDecode_gen_lt {l : List Byte} {e : JEnt} (h : jDecode l = some e) : e.gen < 2 ^ 32 := by
  unfold jDecode at h
  split at h
  · cases h
  · cases h
    have bound := leNat_lt (slice l 4 4)
    rwa [slice, List.length_map, List.length_range] at bound

/-- The GEN of a half, where its first entry is its OPEN. -/
theorem Block.jGen_of_decode {h : Nat} {e : JEnt} (hd : jDecode (b.fl (flJournal h) 16) = some e) (ho : e.typ = jOPEN) : b.jGen h = some e.gen := by
  unfold Block.jGen
  rw [hd]
  exact if_pos ho

theorem Block.jGen_lt {h g : Nat} (hg : b.jGen h = some g) : g < 2 ^ 32 := by
  unfold Block.jGen at hg
  split at hg
  · next e he =>
    split at hg
    · cases hg
      exact jDecode_gen_lt he
    · cases hg
  · cases hg

/-! ### A half opened (R468) -/

/-- The half that a new journal opens, and its GEN. -/
def Block.jNext (b : Block) : Nat × Nat :=
  match b.jHalf with
  | some h => (1 - h, ((b.jGen h).getD 0 + 1) % 2 ^ 32)
  | none => (0, 1)

/-- The OPEN entry of a GEN. -/
def openEntry (g : Nat) : JEnt := { typ := jOPEN, arg := 0, gen := g, diglo := 0 }

theorem Block.jOpen_eq : b.jOpen = (b.flErase (flJournal b.jNext.1) 0x10000).flProg (flJournal b.jNext.1) (openEntry b.jNext.2).bytes := rfl

theorem Block.jNext_half : b.jNext.1 ≤ 1 := by
  unfold Block.jNext
  cases b.jHalf with
  | none => exact Nat.zero_le 1
  | some h => exact Nat.sub_le 1 h

/-- Half 0 governs, or half 1, or none is open. -/
theorem Block.jNext_cases : (∃ g, b.jGen 0 = some g ∧ b.jNext = (1, (g + 1) % 2 ^ 32)) ∨ (∃ k, b.jGen 1 = some k ∧ b.jNext = (0, (k + 1) % 2 ^ 32))
    ∨ (b.jGen 1 = none ∧ b.jNext = (0, 1)) := by
  unfold Block.jNext Block.jHalf
  cases h0 : b.jGen 0 with
  | none =>
    cases h1 : b.jGen 1 with
    | none => exact .inr (.inr ⟨rfl, rfl⟩)
    | some k => exact .inr (.inl ⟨k, rfl, by simp only [h1, Option.getD_some, Nat.sub_self]⟩)
  | some g =>
    cases h1 : b.jGen 1 with
    | none => exact .inl ⟨g, rfl, by simp only [h0, Option.getD_some, Nat.sub_zero]⟩
    | some k =>
      by_cases first : (g + 2 ^ 32 - k) % 2 ^ 32 < 2 ^ 31
      · exact .inl ⟨g, rfl, by simp only [if_pos first, h0, Option.getD_some, Nat.sub_zero]⟩
      · exact .inr (.inl ⟨k, rfl, by simp only [if_neg first, h1, Option.getD_some, Nat.sub_self]⟩)

/-- The opened half governs: its GEN is one up, or it is the one half open. -/
theorem Block.jHalf_of_opened (c : Block) (opened : c.jGen b.jNext.1 = some b.jNext.2) (other : c.jGen (1 - b.jNext.1) = b.jGen (1 - b.jNext.1)) :
    c.jHalf = some b.jNext.1 := by
  unfold Block.jHalf
  rcases b.jNext_cases with ⟨g, hg, next⟩ | ⟨k, hk, next⟩ | ⟨hn, next⟩
  · rw [next] at opened other ⊢
    have c0 : c.jGen 0 = some g := other.trans hg
    have c1 : c.jGen 1 = some ((g + 1) % 2 ^ 32) := opened
    rw [c0, c1]
    have bound := b.jGen_lt hg
    exact congrArg some (if_neg (by omega))
  · rw [next] at opened other ⊢
    have c0 : c.jGen 0 = some ((k + 1) % 2 ^ 32) := opened
    have c1 : c.jGen 1 = some k := other.trans hk
    rw [c0, c1]
    have bound := b.jGen_lt hk
    exact congrArg some (if_pos (by omega))
  · rw [next] at opened other ⊢
    have c0 : c.jGen 0 = some 1 := opened
    have c1 : c.jGen 1 = none := other.trans hn
    rw [c0, c1]

/-- In a flash in its canonical form, the opened half governs and holds its OPEN entry alone; no byte outside it changes. -/
theorem Block.jOpen_opened (h : Tbl.wf flErased b.upd.flash = true) : b.jOpen.jHalf = some b.jNext.1 ∧ (b.jOpen.jLog b.jNext.1).length = 1
    ∧ FlashKept b b.jOpen (flJournal b.jNext.1) 0x10000 := by
  have half := b.jNext_half
  have kept : FlashKept b b.jOpen (flJournal b.jNext.1) 0x10000 := fun x hx => by
    rw [b.jOpen_eq, Block.flProg_outside _ _ _ x (by rw [JEnt.bytes_length]; omega), b.flErase_get h, if_neg (by omega)]
  have blank : ∀ i, 16 ≤ i → i < 0x10000 → Tbl.get flErased b.jOpen.upd.flash (flJournal b.jNext.1 + i) = 0xFF := fun i lo hi => by
    rw [b.jOpen_eq, Block.flProg_outside _ _ _ _ (by rw [JEnt.bytes_length]; omega), b.flErase_get h, if_pos (by omega)]
  have first : jDecode (b.jOpen.fl (flJournal b.jNext.1) 16) = some (openEntry b.jNext.2) := by
    have gen : b.jNext.2 < 2 ^ 32 := by
      rcases b.jNext_cases with ⟨g, -, next⟩ | ⟨k, -, next⟩ | ⟨-, next⟩ <;> rw [next] <;> dsimp only <;> omega
    have written := (b.flErase (flJournal b.jNext.1) 0x10000).fl_flProg (flJournal b.jNext.1) (openEntry b.jNext.2).bytes
      (fun i hi => (b.flErase_get h _ _ _).trans (if_pos (by rw [JEnt.bytes_length] at hi; omega)))
    rw [JEnt.bytes_length] at written
    rw [b.jOpen_eq, written]
    exact jDecode_bytes _ (show (0 : Nat) < 256 by decide) (show (0 : Nat) < 65536 by decide) gen (show (0 : Nat) < 2 ^ 32 by decide)
  refine ⟨b.jHalf_of_opened _ (b.jOpen.jGen_of_decode first rfl) ?_, ?_, kept⟩
  · have same : b.jOpen.fl (flJournal (1 - b.jNext.1)) 16 = b.fl (flJournal (1 - b.jNext.1)) 16 := Block.fl_congr (fun i hi => kept _ (by
      unfold flJournal
      omega))
    unfold Block.jGen
    rw [same]
  · have second : jDecode (b.jOpen.fl (flJournal b.jNext.1 + 16 * 1) 16) = none :=
      jDecode_erased _ _ (fun i hi => by rw [Nat.add_assoc]; exact blank _ (by omega) (by omega))
    have log : b.jOpen.jLog b.jNext.1 = [openEntry b.jNext.2] := by
      unfold Block.jLog
      rw [Block.jFrom, Nat.mul_zero, Nat.add_zero, first]
      dsimp only
      rw [Block.jFrom, second]
    rw [log]
    rfl

end Sys2Proof.Machine
end

section
/-! SUPPORT. Staging, configuration records and the recovery flash (R469, R475, R488): what their erases keep in a flash in its canonical form, and
flashes of no invariant in which they do not keep it. -/

namespace Sys2Proof.Machine

variable (b : Block)

theorem Block.flash_wf_of_inv {s : State} (h : s.Inv) : Tbl.wf flErased s.blk.upd.flash = true := by
  simp only [State.Inv, Block.memWf, Bool.and_eq_true] at h
  exact h.2

/-- Where no failure of a command applies, it does its effect. -/
theorem Block.firstFail_none (l : List (Bool × Nat)) (f : Block → Block) (h : ∀ x ∈ l, x.1 = false) : b.firstFail l f = f b := by
  unfold Block.firstFail
  rw [List.find?_eq_none.2 (fun x hx => ne_true_of_eq_false (h x hx))]

/-! ### The staging slot (R469) -/

theorem Block.jAppend_of_half {h : Nat} (hh : b.jHalf = some h) (typ arg dig : Nat) :
    b.jAppend typ arg dig = b.flProg (flJournal h + 16 * (b.jLog h).length) (JEnt.bytes ⟨typ, arg, (b.jGen h).getD 0, dig⟩) := by
  unfold Block.jAppend
  rw [hh]

/-- A new journal with its STAGE_BEGIN, and the staging slot erased. -/
def Block.stageBegun (b : Block) : Block := (b.jOpen.jAppend jSTAGE_BEGIN 0 0).flErase flStage flSlot

/-- The block as UPD_STAGE_BEGIN leaves it, for an image of `n` bytes. -/
def Block.stageOpened (b : Block) (n : Nat) : Block :=
  { b.stageBegun with upd := { b.stageBegun.upd with stgLen := n, stgUndef := false } }.stgShow sgWRITING

/-- A flash in its canonical form keeps every byte outside the staging slot and the half opened. -/
theorem Block.stageBegun_outside (h : Tbl.wf flErased b.upd.flash = true) (x : Nat) (slot : x < flStage ∨ flStage + flSlot ≤ x)
    (half : x < flJournal b.jNext.1 ∨ flJournal b.jNext.1 + 0x10000 ≤ x) : Tbl.get flErased b.stageBegun.upd.flash x = Tbl.get flErased b.upd.flash x := by
  obtain ⟨governs, log, kept⟩ := b.jOpen_opened h
  have opened : Tbl.wf flErased b.jOpen.upd.flash = true := Block.flProg_wf _ _ _ (b.flErase_wf _ _ h)
  unfold Block.stageBegun
  rw [Block.jAppend_of_half _ governs, Block.flErase_get _ (Block.flProg_wf _ _ _ opened), if_neg (by omega),
    Block.flProg_outside _ _ _ _ (by rw [JEnt.bytes_length, log]; omega), kept x half]

theorem updStageBegin_outside_of_inv (s : State) (h : s.Inv) (ht : s.blk.mbxTakes 0x2000 (· == 1) = true) (hw : s.blk.rd UPD_STG_ST.STATE ≠ sgWRITING)
    (hn : 256 ≤ s.blk.argN 0 ∧ s.blk.argN 0 ≤ flSlot) : Runs (.updStageBegin false) s (fun t =>
      ∀ x, x < flStage ∨ flStage + flSlot ≤ x → x < flJournal s.blk.jNext.1 ∨ flJournal s.blk.jNext.1 + 0x10000 ≤ x →
        Tbl.get flErased t.upd.flash x = Tbl.get flErased s.blk.upd.flash x) := by
  have meaning : exec (.updStageBegin false) s = runCmd s (fun b => b.mbxServe 0x2000 (· == 1) (fun b =>
      b.firstFail [(b.rd UPD_STG_ST.STATE == sgWRITING, updSTAGE_STATE), (decide (b.argN 0 < 256) || decide (flSlot < b.argN 0), updLENGTH)]
        (fun b => (b.stageOpened (b.argN 0)).hold mbxOK))) := rfl
  have goes : ∀ x ∈ [(s.blk.start.rd UPD_STG_ST.STATE == sgWRITING, updSTAGE_STATE),
      (decide (s.blk.start.argN 0 < 256) || decide (flSlot < s.blk.start.argN 0), updLENGTH)], x.1 = false := by
    simp only [List.forall_mem_cons, List.not_mem_nil, false_imp_iff, implies_true, and_true, beq_eq_false_iff_ne, Bool.or_eq_false_iff,
      decide_eq_false_iff_not, Nat.not_lt]
    exact ⟨hw, hn⟩
  exact runs_of_taken meaning ht (s.blk.start.firstFail_none _ _ goes)
    (fun x slot half => (Tbl.get_canon _ _ _).trans (s.blk.start.stageBegun_outside (Block.flash_wf_of_inv h) x slot half))

/-! ### Areas of configuration records (R475) -/

theorem CfgRec.bytes_length (r : CfgRec) : r.bytes.length = 20 + r.body.length := by
  simp only [CfgRec.bytes, List.length_append, leBytes_length, List.length_replicate]
  omega

/-- Records laid out in an area change no byte outside it. -/
theorem Block.cfgPut_outside (area x : Nat) (hx : x < flCfg area ∨ flCfg area + flCfgSize ≤ x) : ∀ (l : List CfgRec) (b : Block) (pos : Nat) (c : Block),
    b.cfgPut area pos l = some c → Tbl.get flErased c.upd.flash x = Tbl.get flErased b.upd.flash x
  | [], _, _, _, h => by
    cases h
    rfl
  | r :: l, b, pos, c, h => by
    unfold Block.cfgPut at h
    split at h
    · cases h
    · next fits =>
      rw [cfgPut_outside area x hx l _ _ c h, Block.flProg_outside _ _ _ _ (by rw [CfgRec.bytes_length]; omega)]

theorem Block.cfgActive_le {a : Nat} (h : b.cfgActive = some a) : a ≤ 1 := by
  unfold Block.cfgActive at h
  split at h <;> cases h
  · split <;> decide
  · decide
  · decide

/-- In a flash in its canonical form a compaction keeps every byte of the active area. -/
theorem Block.cfgCompact_keeps_active (hw : Tbl.wf flErased b.upd.flash = true) (rs : List CfgRec) (c : Block) (a : Nat) (hc : b.cfgCompact rs = some c)
    (ha : b.cfgActive = some a) (x : Nat) (lo : flCfg a ≤ x) (hi : x < flCfg a + flCfgSize) :
    Tbl.get flErased c.upd.flash x = Tbl.get flErased b.upd.flash x := by
  have one := b.cfgActive_le ha
  have away : x < flCfg (1 - a) ∨ flCfg (1 - a) + flCfgSize ≤ x := by
    unfold flCfg flCfgSize at *
    omega
  have magic : (ascii "GRNCREC1").length = 8 := by decide
  unfold Block.cfgCompact at hc
  rw [ha] at hc
  dsimp only at hc
  split at hc
  · next d hd =>
    cases hc
    have commit := Block.flProg_outside (d.flProg (flCfg (1 - a)) (ascii "GRNCREC1" ++ leBytes 4 ((b.cfgGen a).getD 0 + 1) ++ leBytes 2 d.stw.recVer))
      (flCfg (1 - a) + 32) (leBytes 4 1) x (by rw [leBytes_length]; unfold flCfgSize at away; omega)
    have header := Block.flProg_outside d (flCfg (1 - a)) (ascii "GRNCREC1" ++ leBytes 4 ((b.cfgGen a).getD 0 + 1) ++ leBytes 2 d.stw.recVer) x
      (by rw [List.length_append, List.length_append, leBytes_length, leBytes_length, magic]; unfold flCfgSize at away; omega)
    exact commit.trans (header.trans ((Block.cfgPut_outside _ x away _ _ _ d hd).trans ((b.flErase_get hw _ _ x).trans (if_neg (by omega)))))
  · cases hc

/-! ### The recovery flash (R488) -/

/-- A command's answer depends on its effect on the block it finds alone. -/
theorem runCmd_congr {s : State} {f g : Block → Block} (h : f s.blk.start = g s.blk.start) : runCmd s f = runCmd s g := by
  rw [runCmd, h, runCmd]

/-- A command of the recovery flash is over, its read-back right. -/
def Block.flEnd (b : Block) : Block := ((b.clr UPD_FL_CMD.BUSY).flag UPD_FL_CMD.ERR false).set UPD_EVT.FL_DONE

theorem execUpdFlDone_erase (s : State) (hb : s.blk.bit UPD_FL_CMD.BUSY = true) (ho : s.blk.rd UPD_FL_CMD.OP = 2)
    (ha : (s.blk.reg UPD_FL_ADDR.all.base).toNat % 65536 = 0) :
    exec (.updFlDone false) s = runCmd s (fun b => (b.flErase (b.reg UPD_FL_ADDR.all.base).toNat 65536).flEnd) := by
  have named : exec (.updFlDone false) s = execUpdFlDone false s := rfl
  rw [named, execUpdFlDone]
  refine runCmd_congr ?_
  dsimp only
  rw [if_neg (by rw [Block.start_bit, hb]; decide), Block.start_rd, ho]
  exact (if_neg (not_not.2 ha)).trans (if_neg Bool.false_ne_true)

theorem updFlDone_erase_of_inv (s : State) (h : s.Inv) (hb : s.blk.bit UPD_FL_CMD.BUSY = true) (ho : s.blk.rd UPD_FL_CMD.OP = 2)
    (ha : (s.blk.reg UPD_FL_ADDR.all.base).toNat % 65536 = 0) : Runs (.updFlDone false) s (fun t =>
      FlashKept s.blk t (s.blk.reg UPD_FL_ADDR.all.base).toNat 65536
      ∧ ∀ i, i < 65536 → Tbl.get flErased t.upd.flash ((s.blk.reg UPD_FL_ADDR.all.base).toNat + i) = 0xFF) := by
  have erased := s.blk.start.flErase_get (Block.flash_wf_of_inv h) (s.blk.reg UPD_FL_ADDR.all.base).toNat 65536
  refine runs_of_runCmd (execUpdFlDone_erase s hb ho ha) ⟨fun x hx => ?_, fun i hi => ?_⟩
  · exact (Tbl.get_canon _ _ _).trans ((erased x).trans (if_neg (by omega)))
  · exact (Tbl.get_canon _ _ _).trans ((erased _).trans (if_pos (by omega)))

/-! ### Flashes that are not in the canonical form -/

/-- The flash byte at `x` that a command's answer leaves. -/
def flashAfter (x : Nat) : Out → Option Byte
  | .next t => some (Tbl.get flErased t.blk.upd.flash x)
  | _ => none

/-- The steward has a mailbox command with one argument word. -/
def Block.askedFor (b : Block) (op arg : Nat) : Block :=
  ((((b.wr SYS_MBX_STATE.PHASE phBUSY).set SYS_MBX_STATE.READY).wr SYS_MBX_CMD.OPCODE op).wr SYS_MBX_CMD.ARG_LEN 1).setReg
    (SYS_MBX_ARG.all.off 0) (BitVec.ofNat 32 arg)

/-- UPD_STAGE_BEGIN for an image of 256 bytes, on a flash that lists a byte of the staging slot before one of configuration area 0, which a read does
not come to. -/
def staleStaging : State :=
  { State.reset with blk := { Block.atReset.askedFor 0x2000 256 with upd := { Block.atReset.upd with flash := [(flStage, 0), (flCfg 0, 7)] } } }

/-- No step leads to such a state from one of the invariant. -/
theorem staleStaging_not_inv : ¬ staleStaging.Inv := by unfold State.Inv; decide +kernel

theorem staleStaging_begun : flashAfter (flCfg 0) (exec (.updStageBegin false) staleStaging) = some 7 := by decide +kernel

/-- Refutes O45: the obligation asks its clause on UPD_STAGE_BEGIN of every state, also of one whose flash is not in the canonical form. In
`staleStaging` byte 0x20000 reads 0xFF; the erase drops the entry of the staging slot before it, and then it reads 7. From every state of the
invariant the command keeps that byte (`updStageBegin_outside_of_inv`). -/
theorem not_updateStaging : ¬ Obligations.UpdateStaging := by
  intro h
  obtain ⟨-, begins, -⟩ := h
  have begun := begins staleStaging false (by decide +kernel)
  rw [if_neg (by decide +kernel), if_neg (by decide +kernel), if_neg Bool.false_ne_true] at begun
  obtain ⟨t, next, -, -, -, -, -, -, -, -, outside⟩ := begun
  have kept := outside (flCfg 0) (.inl (by decide)) (.inr (by decide +kernel))
  have read := staleStaging_begun
  rw [next, flashAfter, kept] at read
  exact absurd read (by decide +kernel)

/-- Area 0 holds a complete header, and the flash lists a byte of area 1 before one more of area 0, which a read does not come to. -/
def staleAreas : Block :=
  let b := (Block.atReset.flProg (flCfg 0) (ascii "GRNCREC1" ++ leBytes 4 1)).flProg (flCfg 0 + 32) (leBytes 4 1)
  { b with upd := { b.upd with flash := b.upd.flash ++ [(flCfg 1, 0), (flCfg 0 + 100, 7)] } }

theorem staleAreas_not_wf : Tbl.wf flErased staleAreas.upd.flash = false := by decide +kernel

/-- A compaction makes byte 100 of the active area read 7. -/
theorem staleAreas_compacted : (staleAreas.cfgCompact []).map (fun c => Tbl.get flErased c.upd.flash (flCfg 0 + 100)) = some 7 := by decide +kernel

/-- Refutes O46: the obligation asks its clause on a compaction of every block, also of one whose flash is not in the canonical form. In `staleAreas`
byte 100 of the active area reads 0xFF; the erase of the other area drops the entry before it, and then it reads 7. In a flash in its canonical form
a compaction keeps the active area (`Block.cfgCompact_keeps_active`). -/
theorem not_configurationRecords : ¬ Obligations.ConfigurationRecords := by
  intro h
  obtain ⟨-, -, -, -, -, compacts⟩ := h
  obtain ⟨c, compacted, read⟩ := Option.map_eq_some_iff.1 staleAreas_compacted
  have kept := compacts staleAreas c [] 0 compacted (by decide +kernel) (flCfg 0 + 100) (by decide) (by decide)
  rw [read] at kept
  exact absurd kept (by decide +kernel)

/-- An ERASE of sector 1 of the recovery flash is in work, on a flash that lists a byte of that sector before byte 0, which a read does not come to. -/
def staleSector : State :=
  { State.reset with blk := { ((Block.atReset.set UPD_FL_CMD.BUSY).wr UPD_FL_CMD.OP 2).setReg UPD_FL_ADDR.all.base 65536 with
      upd := { Block.atReset.upd with flash := [(65536, 0), (0, 7)] } } }

/-- No step leads to such a state from one of the invariant. -/
theorem staleSector_not_inv : ¬ staleSector.Inv := by unfold State.Inv; decide +kernel

theorem staleSector_erased : flashAfter 0 (exec (.updFlDone false) staleSector) = some 7 := by decide +kernel

/-- Refutes O47: the obligation asks its clause on the end of an ERASE of every state, also of one whose flash is not in the canonical form. In
`staleSector` byte 0 reads 0xFF; the erase drops the entry of sector 1 before it, and then it reads 7. From every state of the invariant an ERASE
clears its sector and keeps every other byte (`updFlDone_erase_of_inv`). -/
theorem not_seedfallAndRecovery : ¬ Obligations.SeedfallAndRecovery := by
  intro h
  obtain ⟨-, -, -, -, -, -, -, -, -, ends⟩ := h
  obtain ⟨t, next, -, -, -, -, -, erases, -⟩ := ends staleSector false (by decide +kernel)
  obtain ⟨kept, -, -⟩ := erases (by decide +kernel) (by decide +kernel) rfl
  have read := staleSector_erased
  rw [next, flashAfter, kept 0 (.inl (by decide +kernel))] at read
  exact absurd read (by decide +kernel)

end Sys2Proof.Machine
end

section
/-! SUPPORT. A record that a steward writes (R314, R320, R329): what is read of it afterwards, and write-backs that wait where the model puts none, behind which
it is not read. -/

namespace Sys2Proof.Machine

variable (b : Block)

/-! ### Lines of the cache -/

theorem Tbl.find_insert_same {α : Type} : ∀ (t : Tbl α) (k : Nat) (v : α), Tbl.find (Tbl.insert t k v) k = some v
  | [], k, v => by rw [Tbl.insert, Tbl.find, if_pos rfl]
  | (j, w) :: t, k, v => by
    rw [Tbl.insert]
    split
    · rw [Tbl.find, if_pos rfl]
    · next hj =>
      split
      · rw [Tbl.find, if_pos rfl]
      · next hk => rw [Tbl.find, if_neg hj, if_neg hk, find_insert_same t k v]

theorem Tbl.find_insert_other {α : Type} : ∀ (t : Tbl α) (k i : Nat) (v : α), i ≠ k → Tbl.find (Tbl.insert t k v) i = Tbl.find t i
  | [], k, i, v, h => by
    show (if k = i then some v else if i < k then none else none) = none
    rw [if_neg (Ne.symm h), ite_self]
  | (j, w) :: t, k, i, v, h => by
    have ih := find_insert_other t k i v h
    rw [Tbl.insert]
    split
    · next hj =>
      subst hj
      simp only [Tbl.find, if_neg (Ne.symm h)]
    · split
      · next hk =>
        by_cases hi : i < k
        · rw [Tbl.find, Tbl.find, if_neg (Ne.symm h), if_pos hi, if_neg (by omega), if_pos (by omega)]
        · rw [Tbl.find, if_neg (Ne.symm h), if_neg hi]
      · rw [Tbl.find, Tbl.find, ih]

/-- What way `w` of the set of record i shows of the record. -/
def Block.grvWay (b : Block) (i w : Nat) : Option (Nat × GLine) :=
  match b.lineAt (grvSet i * 16 + w) with
  | some l => if l.idx = i then some (grvSet i * 16 + w, l) else none
  | none => none

theorem Block.grvFind_eq (i : Nat) : b.grvFind i = (List.range 16).findSome? (b.grvWay i) := rfl

/-- A way shows the record under its own key. -/
theorem Block.grvWay_some {i w key : Nat} {l : GLine} (h : b.grvWay i w = some (key, l)) : key = grvSet i * 16 + w ∧ l.idx = i := by
  unfold Block.grvWay at h
  split at h
  · split at h
    · next hi =>
      cases h
      exact ⟨rfl, hi⟩
    · cases h
  · cases h

/-- The first of a list that shows a key still is the first where that one shows another line and the others are as before. -/
theorem findSome_replaced {α : Type} {f g : Nat → Option (Nat × α)} {base key : Nat} {x y : α} (own : ∀ w k z, f w = some (k, z) → k = base + w)
    (there : ∀ w, base + w = key → g w = some (key, y)) (others : ∀ w, base + w ≠ key → g w = f w) : ∀ l : List Nat, l.findSome? f = some (key, x) →
    l.findSome? g = some (key, y)
  | [], h => by cases h
  | w :: l, h => by
    rw [List.findSome?_cons] at h ⊢
    by_cases hw : base + w = key
    · rw [there w hw]
    · rw [others w hw]
      cases hf : f w with
      | none =>
        rw [hf] at h
        exact findSome_replaced own there others l h
      | some z =>
        rw [hf] at h
        cases h
        exact absurd (own w key x hf).symm hw

/-- A line of the record written in place of the one that shows it shows it. -/
theorem Block.grvFind_putLine {i key : Nat} {l : GLine} (m : GLine) (h : b.grvFind i = some (key, l)) (hi : m.idx = i) (hv : m.void = false) :
    (b.putLine key m).grvFind i = some (key, m) := by
  have line (k : Nat) : (b.putLine key m).lineAt k = if k = key then some m else b.lineAt k := by
    unfold Block.lineAt Block.putLine Block.odClear Block.setLine
    dsimp only
    by_cases hk : k = key
    · rw [hk, Tbl.find_insert_same, if_pos rfl]
      dsimp only
      rw [hv]
      rfl
    · rw [Tbl.find_insert_other _ _ _ _ hk, if_neg hk]
  refine findSome_replaced (f := b.grvWay i) (base := grvSet i * 16) (x := l) (fun w k z hz => (b.grvWay_some hz).1) (fun w hw => ?_) (fun w hw => ?_) _ h
  · rw [line, if_pos hw]
    dsimp only
    rw [if_pos hi, hw]
  · rw [line, if_neg hw]
    rfl

/-! ### A record read after a steward's write -/

/-- A write-back finds its place: none waits, or the queue is full (R320). -/
def Block.wbOrdered (b : Block) : Prop := b.grv.wbWait = [] ∨ 512 ≤ b.grv.wb.length

/-- A record that a steward writes is read as it was written. -/
theorem Block.recordNow_recordPut (h : b.wbOrdered) (i : Nat) (d : List Byte) : (b.recordPut i d).recordNow i = d := by
  unfold Block.recordPut
  cases hf : b.grvFind i with
  | some x =>
    obtain ⟨key, l⟩ := x
    have hi : l.idx = i := by
      obtain ⟨w, -, hw⟩ := List.exists_of_findSome?_eq_some (b.grvFind_eq i ▸ hf)
      exact (b.grvWay_some hw).2
    unfold Block.recordNow
    dsimp only
    rw [b.grvFind_putLine { l with data := d, dirty := true, bad := false, void := false } hf hi rfl]
  | none =>
    have newest : (b.wbQueue i d).wbAll = { idx := i, image := d } :: b.wbAll := by
      unfold Block.wbQueue Block.wbAll
      dsimp only
      split
      · next room =>
        rcases h with none_ | full
        · simp [none_]
        · omega
      · simp
    have missed : (b.wbQueue i d).grvFind i = none := by
      unfold Block.wbQueue
      dsimp only
      split <;> exact hf
    unfold Block.recordNow
    dsimp only
    rw [missed]
    dsimp only
    unfold Block.dramRecord
    rw [newest, List.find?_cons_of_pos (by simp)]

/-! ### A write-back that waits behind nothing -/

/-- What is read after a command of the record of node `i`. -/
def recordAfter (i : Nat) : Out → Option (List Byte)
  | .next t => some (t.blk.recordNow i)
  | _ => none

def joiningImage : List Byte := recSetState freeRecord gsJOINING

/-- The accept of node 1 waits for its acknowledgement, and a write-back of its record waits while the queue has room. -/
def staleWriteBack : State :=
  let b := ((Block.atReset.set GRV_STAT.READY).set SYS_MBX_STATE.READY).wr SYS_MBX_STATE.STW_UP 15
  { State.reset with
    blk := { b with
      grv := { b.grv with wbWait := [{ idx := 1, image := joiningImage }] }
      stw := { b.stw with joins := [1] } } }

theorem staleWriteBack_not_ordered : ¬ staleWriteBack.blk.wbOrdered := by unfold Block.wbOrdered; decide +kernel

/-- The write-back that waits is read still, for the steward's own went into the queue. -/
theorem staleWriteBack_joined : (recordAfter 1 (exec (.joinReqAdmit 1 1 [] false 0 0 true) staleWriteBack)).map recState = some gsJOINING := by
  decide +kernel

/-- Refutes O32: the obligation asks its clause on an acknowledged accept of every state, also of one where a write-back waits while the queue has
room. In `staleWriteBack` the steward's ACTIVE image goes into the queue, and a read finds the older image that waits. Where no write-back waits
beside room a record is read as the steward wrote it (`Block.recordNow_recordPut`). -/
theorem not_groveStewards : ¬ Obligations.GroveStewards := by
  intro h
  obtain ⟨-, joins, -, -⟩ := h
  obtain ⟨-, accepts⟩ := joins staleWriteBack 1 [] false true 0 0 (by decide +kernel) (by decide +kernel) ⟨rfl, rfl⟩ (by decide +kernel)
    (fun _ => by decide +kernel)
  obtain ⟨acknowledged, -⟩ := accepts (by decide +kernel)
  obtain ⟨t, next, -, -, -, -, read⟩ := acknowledged rfl
  have joined := staleWriteBack_joined
  rw [next, recordAfter, read] at joined
  exact absurd joined (by decide +kernel)

end Sys2Proof.Machine
end

section
/-! SUPPORT. How HTIME advances (R45, R49, R52, R244). -/

namespace Sys2Proof.Machine

/-- A time counted in parts of 1/m of a unit, after k more parts: the units wrap at n, the part of a unit does not. -/
theorem units_add_parts (h k n m : Nat) : ((h + k / m) % n * m + k % m) % (n * m) = (h * m + k) % (n * m) := by
  have units : h * m + k = (h + k / m) * m + k % m := by
    rw [Nat.add_mul]
    have := Nat.div_add_mod' k m
    omega
  rw [units, Nat.add_mod ((h + k / m) * m), ← Nat.mul_mod_mul_right, Nat.add_mod_mod, Nat.mod_add_mod]

/-- A quotient rounded up is the first multiple that reaches the dividend. -/
theorem le_mul_ceilDiv (a d : Nat) (hd : 0 < d) : a ≤ ceilDiv a d * d := by
  unfold ceilDiv
  have := Nat.div_add_mod' (a + d - 1) d
  have := Nat.mod_lt (a + d - 1) hd
  omega

theorem ceilDiv_mul_lt (a d : Nat) (hd : 0 < d) : ceilDiv a d * d < a + d := by
  unfold ceilDiv
  have := Nat.div_mul_le_self (a + d - 1) d
  omega

theorem htDen_pos : 0 < htDen := by decide

/-- HTIME and the part of a unit after n beats, as one count of parts. -/
theorem Clk.add_parts (c : Clk) (n : Nat) : ((c.add n).htime.toNat * htDen + (c.add n).frac) % (2 ^ 64 * htDen)
    = (c.htime.toNat * htDen + c.frac + n * htNum c.rate) % (2 ^ 64 * htDen) := by
  unfold Clk.add
  rw [BitVec.toNat_add, BitVec.toNat_ofNat, Nat.add_mod_mod, units_add_parts, Nat.add_assoc]

/-- HTIME after n beats, where it does not wrap. -/
theorem Clk.add_htime (c : Clk) (n : Nat) (h : c.htime.toNat + (c.frac + n * htNum c.rate) / htDen < 2 ^ 64) :
    (c.add n).htime.toNat = c.htime.toNat + (c.frac + n * htNum c.rate) / htDen := by
  unfold Clk.add
  rw [BitVec.toNat_add, BitVec.toNat_ofNat, Nat.add_mod_mod, Nat.mod_eq_of_lt h]

/-- Within 10 ppm a beat advances HTIME by more than nothing and by less than 18 units. -/
theorem htNum_bounds (r : Int) (hl : -10000000 ≤ r) (hu : r ≤ 10000000) : 0 < htNum r ∧ htNum r < 18 * htDen := by
  unfold htNum htDen
  omega

/-- Waiting for a time ahead of HTIME brings HTIME to it, in the first beat of which that is so. -/
theorem Clk.beatsTo_first (c : Clk) (u : BitVec 64) (hl : -10000000 ≤ c.rate) (hu : c.rate ≤ 10000000) (hf : c.frac < htDen)
    (ht : c.htime.toNat < u.toNat) (hw : u.toNat + 2 ^ 8 < 2 ^ 64) :
    u.toNat ≤ (c.add (c.beatsTo u)).htime.toNat ∧ (c.add (c.beatsTo u - 1)).htime.toNat < u.toNat := by
  obtain ⟨hpos, hsmall⟩ := htNum_bounds c.rate hl hu
  have beats : c.beatsTo u = ceilDiv ((u.toNat - c.htime.toNat) * htDen - c.frac) (htNum c.rate) := by
    unfold Clk.beatsTo
    rw [if_neg (by omega), Nat.max_eq_right hpos]
  have whole : htDen ≤ (u.toNat - c.htime.toNat) * htDen := Nat.le_mul_of_pos_left _ (by omega)
  have reach := le_mul_ceilDiv ((u.toNat - c.htime.toNat) * htDen - c.frac) (htNum c.rate) hpos
  have short := ceilDiv_mul_lt ((u.toNat - c.htime.toNat) * htDen - c.frac) (htNum c.rate) hpos
  rw [← beats] at reach short
  have lower : u.toNat - c.htime.toNat ≤ (c.frac + c.beatsTo u * htNum c.rate) / htDen :=
    (Nat.le_div_iff_mul_le htDen_pos).2 (by omega)
  have upper : (c.frac + c.beatsTo u * htNum c.rate) / htDen < u.toNat - c.htime.toNat + 18 :=
    (Nat.div_lt_iff_lt_mul htDen_pos).2 (by rw [Nat.add_mul]; omega)
  have before : (c.frac + (c.beatsTo u - 1) * htNum c.rate) / htDen < u.toNat - c.htime.toNat :=
    (Nat.div_lt_iff_lt_mul htDen_pos).2 (by
      rw [Nat.sub_mul]
      omega)
  constructor
  · rw [c.add_htime _ (by omega)]
    omega
  · rw [c.add_htime _ (by omega)]
    omega

/-- Settles O9: HTIME with its part of a unit is one count of parts, to which every beat adds the advance at the rate in force. -/
theorem timeAdvancesAtTheRate : Obligations.TimeAdvancesAtTheRate :=
  ⟨fun c n => ⟨c.add_parts n, rfl, rfl, rfl⟩, fun c u => c.beatsTo_first u⟩

end Sys2Proof.Machine
end

section
/-! SUPPORT. What the shared operations leave of the Hoop, and what the commands on its parts leave of the registers. -/

namespace Sys2Proof.Machine

variable (b : Block)

@[simp] theorem Block.set_hoop (f : Fld) (n : Nat) : (b.set f n).hoop = b.hoop := rfl
@[simp] theorem Block.set_clk (f : Fld) (n : Nat) : (b.set f n).clk = b.clk := rfl
@[simp] theorem Block.set_out (f : Fld) (n : Nat) : (b.set f n).out = b.out := rfl
@[simp] theorem Block.clr_hoop (f : Fld) (n : Nat) : (b.clr f n).hoop = b.hoop := rfl
@[simp] theorem Block.clr_clk (f : Fld) (n : Nat) : (b.clr f n).clk = b.clk := rfl
@[simp] theorem Block.setSync_regs (y : HoopSync) : (b.setSync y).regs = b.regs := rfl
@[simp] theorem Block.setSync_clk (y : HoopSync) : (b.setSync y).clk = b.clk := rfl
@[simp] theorem Block.setSync_sync (y : HoopSync) : (b.setSync y).hoop.sync = y := rfl
@[simp] theorem Block.setRed_regs (r : HoopRed) : (b.setRed r).regs = b.regs := rfl
@[simp] theorem Block.setRed_red (r : HoopRed) : (b.setRed r).hoop.red = r := rfl
@[simp] theorem Block.setWarp_regs (w : HoopWarp) : (b.setWarp w).regs = b.regs := rfl
@[simp] theorem Block.setWarp_warp (w : HoopWarp) : (b.setWarp w).hoop.warp = w := rfl

/-! ### The warp memory -/

@[simp] theorem Block.canon_warpWord (x y z : Nat) : b.canon.warpWord x y z = b.warpWord x y z := Tbl.get_canon _ _ _

theorem Block.warpWord_congr {b c : Block} (h : c.hoop.warp.warp = b.hoop.warp.warp) (x y z : Nat) : c.warpWord x y z = b.warpWord x y z := by
  unfold Block.warpWord
  rw [h]

/-- Words of two descriptors have different keys, and so do two words of one descriptor (R59). -/
theorem warpKey_inj {x y z k i j : Nat} (hy : y < 131072) (hz : z < 8) (hi : i < 131072) (hj : j < 8) (h : warpKey x y z = warpKey k i j) :
    x = k ∧ y = i ∧ z = j := by
  unfold warpKey at h
  omega

/-- Values put at the keys of a range leave every other key. -/
theorem Tbl.get_foldl_put_other {α : Type} [DecidableEq α] (d : Nat → α) (key : Nat → Nat) (val : Nat → α) (t : Tbl α) (x : Nat) :
    ∀ n, (∀ i, i < n → x ≠ key i) → Tbl.get d ((List.range n).foldl (fun t i => Tbl.put d t (key i) (val i)) t) x = Tbl.get d t x
  | 0, _ => rfl
  | n + 1, h => by
    rw [List.range_succ, List.foldl_append]
    exact (Tbl.get_put_other _ _ _ _ _ (h n n.lt_succ_self)).trans (get_foldl_put_other d key val t x n (fun i hi => h i (by omega)))

/-- Values put at different keys of a range are read. -/
theorem Tbl.get_foldl_put_same {α : Type} [DecidableEq α] (d : Nat → α) (key : Nat → Nat) (val : Nat → α) (t : Tbl α) (j : Nat) :
    ∀ n, j < n → (∀ i k, i < n → k < n → key i = key k → i = k) →
      Tbl.get d ((List.range n).foldl (fun t i => Tbl.put d t (key i) (val i)) t) (key j) = val j
  | n + 1, hj, h => by
    rw [List.range_succ, List.foldl_append]
    by_cases e : j = n
    · rw [e]
      exact Tbl.get_put_same _ _ _ _
    · refine (Tbl.get_put_other _ _ _ _ _ (fun hk => e (h j n hj n.lt_succ_self hk))).trans ?_
      exact get_foldl_put_same d key val t j n (by omega) (fun i k hi hk => h i k (by omega) (by omega))

end Sys2Proof.Machine
end

section
/-! SUPPORT. The warp window (R59, R70, R84). -/

namespace Sys2Proof.Machine

variable (b : Block)

theorem Block.warpAdvance_eq : b.warpAdvance = b.when (b.bit HOOP_WARP_ADDR.AUTO_INC) (fun b => b.wr HOOP_WARP_ADDR.INDEX (b.rd HOOP_WARP_ADDR.INDEX + 1)) := rfl

theorem Block.warpAdvance_hoop : b.warpAdvance.hoop = b.hoop := by
  rw [Block.warpAdvance_eq]
  exact Block.when_keeps (·.hoop) rfl _

theorem Block.warpAdvance_resp : b.warpAdvance.resp = b.resp := by
  rw [Block.warpAdvance_eq]
  exact Block.when_keeps (·.resp) rfl _

theorem RegsKept.warpAdvance {a b : Block} (h : RegsKept a b [HOOP_WARP_ADDR.all.base]) : RegsKept a b.warpAdvance [HOOP_WARP_ADDR.all.base] := by
  rw [Block.warpAdvance_eq]
  exact h.when (h.wr HOOP_WARP_ADDR.INDEX _ 0 (List.mem_singleton.2 rfl)) _

theorem Block.warpAdvance_bit_other (f : Fld) (h : f.off 0 ≠ HOOP_WARP_ADDR.INDEX.off 0) : b.warpAdvance.bit f = b.bit f :=
  RegsKept.bit (RegsKept.warpAdvance (.refl b _)) f 0 (fun e => h (List.mem_singleton.1 e))

/-- INDEX after an access of word 7. -/
theorem Block.warpAdvance_index : b.warpAdvance.rd HOOP_WARP_ADDR.INDEX
    = (b.rd HOOP_WARP_ADDR.INDEX + if b.bit HOOP_WARP_ADDR.AUTO_INC = true then 1 else 0) % 131072 := by
  have small : b.rd HOOP_WARP_ADDR.INDEX < 131072 := fget_lt _ _
  rw [Block.warpAdvance_eq, b.rd_when_wr_succ HOOP_WARP_ADDR.INDEX 0 _ (by decide)]
  split
  · rfl
  · exact (Nat.mod_eq_of_lt small).symm

theorem warpDataLoad_first_runs (s : State) : Runs (.warpDataLoad 0) s (fun t =>
    let i := s.blk.rd HOOP_WARP_ADDR.INDEX
    t.resp = .data (s.blk.warpWord s.blk.warpAddrBank i 0) ∧ t.hoop.warp.rd = (List.range 8).map (s.blk.warpWord s.blk.warpAddrBank i)
    ∧ RegsKept s.blk t [] ∧ ∀ x y z, t.warpWord x y z = s.blk.warpWord x y z) :=
  runs_of_runCmd (f := fun b => b.warpRead 0) rfl ⟨rfl, rfl, RegsKept.canon (.of_regs rfl), fun x y z => Block.canon_warpWord _ x y z⟩

theorem warpDataLoad_next_runs (s : State) (n : Nat) (h0 : 0 < n) (h8 : n < 8) : Runs (.warpDataLoad n) s (fun t =>
    t.resp = .data (s.blk.hoop.warp.rd.getD n 0) ∧ t.hoop.warp.rd = s.blk.hoop.warp.rd
    ∧ t.rd HOOP_WARP_ADDR.INDEX = (s.blk.rd HOOP_WARP_ADDR.INDEX + if n = 7 ∧ s.blk.bit HOOP_WARP_ADDR.AUTO_INC = true then 1 else 0) % 131072
    ∧ ∀ x y z, t.warpWord x y z = s.blk.warpWord x y z) := by
  have read : s.blk.start.warpRead (n % 8) = (s.blk.start.answer (.data (s.blk.hoop.warp.rd.getD n 0))).when (n == 7) Block.warpAdvance := by
    rw [Nat.mod_eq_of_lt h8, Block.warpRead, beq_eq_false_iff_ne.2 (Nat.pos_iff_ne_zero.1 h0)]
    rfl
  have kept : ∀ c : Bool, ((s.blk.start.answer (.data (s.blk.hoop.warp.rd.getD n 0))).when c Block.warpAdvance).hoop = s.blk.hoop :=
    fun c => Block.when_keeps (·.hoop) (Block.warpAdvance_hoop _) c
  refine runs_of_effect (f := fun b => b.warpRead (n % 8)) rfl read ⟨?_, ?_, ?_, fun x y z => ?_⟩
  · exact Block.when_keeps (·.resp) (Block.warpAdvance_resp _) _
  · exact congrArg (·.warp.rd) (kept _)
  · rw [Block.canon_rd]
    by_cases h7 : n = 7
    · simp only [h7, BEq.rfl, Block.when_true, true_and]
      exact Block.warpAdvance_index _
    · rw [beq_eq_false_iff_ne.2 h7, Block.when_false]
      simp only [h7, false_and, if_false]
      exact (Nat.mod_eq_of_lt (fget_lt _ HOOP_WARP_ADDR.INDEX)).symm
  · rw [Block.canon_warpWord]
    exact Block.warpWord_congr (congrArg (·.warp.warp) (kept _)) x y z

/-- The words held once `v` is written to HOOP_WARP_DATA_n. -/
def Block.warpHeld (b : Block) (n : Nat) (v : BitVec 32) : List (BitVec 32) :=
  (List.range 8).map (fun i => if i = n then v else b.hoop.warp.wr.getD i 0)

theorem Block.warpHeld_getD (n : Nat) (v : BitVec 32) (j : Nat) (h : j < 8) :
    (b.warpHeld n v).getD j 0 = if j = n then v else b.hoop.warp.wr.getD j 0 := by
  unfold Block.warpHeld
  rw [List.getD_eq_getElem?_getD, List.getElem?_map, List.getElem?_range h]
  rfl

theorem warpDataStore_held_gives (s : State) (n : Nat) (v : Word) (h : n < 7) : Gives (.warpDataStore n v) s
    (s.blk.start.setWarp { s.blk.hoop.warp with wr := s.blk.warpHeld n v }) := by
  refine gives_of_runCmd (f := fun b => b.warpWrite (n % 8) v) rfl ?_
  rw [Nat.mod_eq_of_lt (by omega : n < 8), Block.warpWrite, if_pos (by omega)]
  rfl

/-- The block in which the words held have become the descriptor at INDEX of the pending bank. -/
def Block.warpStored (b : Block) (v : BitVec 32) : Block :=
  b.setWarp { b.hoop.warp with
    wr := b.warpHeld 7 v
    warp := (List.range 8).foldl (fun t i => Tbl.put (fun _ => (0 : BitVec 32)) t (warpKey (1 - b.hoop.warp.bank) (b.rd HOOP_WARP_ADDR.INDEX) i)
      ((b.warpHeld 7 v).getD i 0)) b.hoop.warp.warp }

theorem Block.warpWrite_stores (v : BitVec 32) (hb : b.bit HOOP_WARP_ADDR.BANK_SEL = false) (he : b.epochBusy = false) :
    b.warpWrite 7 v = (b.warpStored v).warpAdvance := by
  have open_ : ((b.setWarp { b.hoop.warp with wr := b.warpHeld 7 v }).bit HOOP_WARP_ADDR.BANK_SEL
      || (b.setWarp { b.hoop.warp with wr := b.warpHeld 7 v }).epochBusy) = false :=
    Bool.or_eq_false_iff.2 ⟨hb, he⟩
  have bank : (b.setWarp { b.hoop.warp with wr := b.warpHeld 7 v }).warpAddrBank = 1 - b.hoop.warp.bank := by
    unfold Block.warpAddrBank
    exact if_neg (fun h => Bool.false_ne_true (hb.symm.trans h))
  unfold Block.warpHeld at open_ bank
  unfold Block.warpWrite
  rw [if_neg (by decide)]
  simp only [open_, Bool.false_eq_true, if_false, bank]
  rfl

theorem Block.warpWrite_ignored (v : BitVec 32) (h : b.bit HOOP_WARP_ADDR.BANK_SEL = true ∨ b.epochBusy = true) :
    b.warpWrite 7 v = ((b.setWarp { b.hoop.warp with wr := b.warpHeld 7 v }).set HOOP_EPOCH_ST.WR_IGN).warpAdvance := by
  have shut : ((b.setWarp { b.hoop.warp with wr := b.warpHeld 7 v }).bit HOOP_WARP_ADDR.BANK_SEL
      || (b.setWarp { b.hoop.warp with wr := b.warpHeld 7 v }).epochBusy) = true :=
    Bool.or_eq_true_iff.2 h
  unfold Block.warpHeld at shut
  unfold Block.warpWrite
  rw [if_neg (by decide)]
  simp only [shut, if_true]
  rfl

theorem Block.warpStored_word (v : BitVec 32) (j : Nat) (h : j < 8) : (b.warpStored v).warpWord (1 - b.hoop.warp.bank) (b.rd HOOP_WARP_ADDR.INDEX) j
    = if j = 7 then v else b.hoop.warp.wr.getD j 0 := by
  refine (Tbl.get_foldl_put_same (fun _ => (0 : BitVec 32)) (warpKey (1 - b.hoop.warp.bank) (b.rd HOOP_WARP_ADDR.INDEX))
    (fun i => (b.warpHeld 7 v).getD i 0) _ j 8 h (fun i k _ _ e => ?_)).trans (b.warpHeld_getD 7 v j h)
  unfold warpKey at e
  omega

theorem Block.warpStored_other (v : BitVec 32) (x y z : Nat) (hy : y < 131072) (hz : z < 8)
    (h : ¬ (x = 1 - b.hoop.warp.bank ∧ y = b.rd HOOP_WARP_ADDR.INDEX)) : (b.warpStored v).warpWord x y z = b.warpWord x y z := by
  refine Tbl.get_foldl_put_other (fun _ => (0 : BitVec 32)) (warpKey (1 - b.hoop.warp.bank) (b.rd HOOP_WARP_ADDR.INDEX))
    (fun i => (b.warpHeld 7 v).getD i 0) _ _ 8 (fun i hi e => h ?_)
  obtain ⟨hx, hy, -⟩ := warpKey_inj hy hz (fget_lt _ HOOP_WARP_ADDR.INDEX) hi e
  exact ⟨hx, hy⟩

theorem warpDataStore_last_runs (s : State) (v : Word) : Runs (.warpDataStore 7 v) s (fun t =>
    let i := s.blk.rd HOOP_WARP_ADDR.INDEX
    t.rd HOOP_WARP_ADDR.INDEX = (i + if s.blk.bit HOOP_WARP_ADDR.AUTO_INC = true then 1 else 0) % 131072
    ∧ (s.blk.bit HOOP_WARP_ADDR.BANK_SEL = true ∨ s.blk.epochBusy = true →
        t.bit HOOP_EPOCH_ST.WR_IGN = true ∧ ∀ x y z, t.warpWord x y z = s.blk.warpWord x y z)
    ∧ (s.blk.bit HOOP_WARP_ADDR.BANK_SEL = false → s.blk.epochBusy = false →
        (∀ j, j < 8 → t.warpWord (1 - s.blk.hoop.warp.bank) i j = if j = 7 then v else s.blk.hoop.warp.wr.getD j 0)
        ∧ (∀ x y z, y < 131072 → z < 8 → ¬ (x = 1 - s.blk.hoop.warp.bank ∧ y = i) → t.warpWord x y z = s.blk.warpWord x y z)
        ∧ RegsKept s.blk t [HOOP_WARP_ADDR.all.base])) := by
  by_cases shut : s.blk.bit HOOP_WARP_ADDR.BANK_SEL = true ∨ s.blk.epochBusy = true
  · refine runs_of_effect (f := fun b => b.warpWrite 7 v) rfl (s.blk.start.warpWrite_ignored v shut) ⟨?_, fun _ => ⟨?_, fun x y z => ?_⟩, fun hb he => ?_⟩
    · rw [Block.canon_rd, Block.warpAdvance_index]
      unfold Block.bit
      rw [Block.rd_set_other _ _ _ _ _ (by decide), Block.rd_set_other _ _ _ _ _ (by decide)]
      rfl
    · rw [Block.canon_bit, Block.warpAdvance_bit_other _ _ (by decide), Block.bit_set_same _ _ _ (by decide) (by decide)]
    · rw [Block.canon_warpWord]
      exact Block.warpWord_congr (congrArg (·.warp.warp) (Block.warpAdvance_hoop _)) x y z
    · simp [hb, he] at shut
  · obtain ⟨hb, he⟩ := not_or.1 shut
    have stores := s.blk.start.warpWrite_stores v (Bool.not_eq_true _ ▸ hb) (Bool.not_eq_true _ ▸ he)
    have warp (x y z : Nat) : ((s.blk.start.warpStored v).warpAdvance).warpWord x y z = (s.blk.start.warpStored v).warpWord x y z :=
      Block.warpWord_congr (congrArg (·.warp.warp) (Block.warpAdvance_hoop _)) x y z
    refine runs_of_effect (f := fun b => b.warpWrite 7 v) rfl stores ⟨?_, fun h => absurd h shut, fun _ _ => ⟨fun j hj => ?_, fun x y z hy hz h => ?_, ?_⟩⟩
    · rw [Block.canon_rd, Block.warpAdvance_index]
      rfl
    · rw [Block.canon_warpWord, warp]
      exact s.blk.start.warpStored_word v j hj
    · rw [Block.canon_warpWord, warp]
      exact s.blk.start.warpStored_other v x y z hy hz h
    · exact RegsKept.canon (RegsKept.warpAdvance (.of_regs rfl))

/-- Settles O24, read by read and write by write. -/
theorem warpWindow : Obligations.WarpWindow :=
  ⟨warpDataLoad_first_runs, warpDataLoad_next_runs, warpDataStore_held_gives, warpDataStore_last_runs⟩

end Sys2Proof.Machine
end

section
/-! SUPPORT. The lock state (R49, R52, R56) and what changes with it. -/

namespace Sys2Proof.Machine

variable (b : Block)

/-- The state of LOCK is held in three bits. -/
theorem Block.lock_lt : b.lock < 8 := fget_lt _ HOOP_STATE.LOCK

theorem Block.lock_congr {b c : Block} (h : c.reg HOOP_STATE.all.base = b.reg HOOP_STATE.all.base) : c.lock = b.lock := by
  unfold Block.lock Block.rd
  exact congrArg (fget · HOOP_STATE.LOCK) h

/-- A bit is set by the hardware, whatever it was, and the others of its register stay. -/
theorem Block.bit_of_rd {b c : Block} {f : Fld} {n : Nat} (h : c.rd f n = b.rd f n) : c.bit f n = b.bit f n := by
  unfold Block.bit
  rw [h]

/-! ### LOCK takes another value -/

theorem Block.lockTo_same {new : Nat} (h : b.lock = new) : b.lockTo new = b := if_pos h

theorem Block.lockTo_regs {new : Nat} (h : b.lock ≠ new) : (b.lockTo new).regs = ((b.wr HOOP_STATE.LOCK new).set HOOP_EVT.LOCK_CHG).regs := by
  unfold Block.lockTo
  rw [if_neg h]

/-- Beside the registers and the record of LOCK nothing changes. -/
theorem Block.lockTo_parts (new : Nat) : (b.lockTo new).clk = b.clk ∧ (b.lockTo new).hoop.sync = b.hoop.sync
    ∧ (b.lockTo new).hoop.warp = b.hoop.warp ∧ (b.lockTo new).hoop.red = b.hoop.red ∧ (b.lockTo new).dram = b.dram := by
  unfold Block.lockTo
  split <;> exact ⟨rfl, rfl, rfl, rfl, rfl⟩

theorem Block.lockTo_lock (new : Nat) : (b.lockTo new).lock = new % 8 := by
  by_cases h : b.lock = new
  · rw [b.lockTo_same h, h, Nat.mod_eq_of_lt (h ▸ b.lock_lt)]
  · unfold Block.lock
    rw [Block.rd_congr (b.lockTo_regs h), Block.rd_set_other _ _ _ _ _ (by decide)]
    exact Block.rd_wr_same _ _ _ _ (by decide)

theorem Block.lockTo_kept (new : Nat) : RegsKept b (b.lockTo new) [HOOP_STATE.all.base, HOOP_EVT.all.base] := by
  by_cases h : b.lock = new
  · rw [b.lockTo_same h]
    exact .refl b _
  · exact (((RegsKept.refl b _).wr HOOP_STATE.LOCK _ 0 (by decide)).set HOOP_EVT.LOCK_CHG 0 (by decide)).trans (.of_regs (b.lockTo_regs h))

/-- The fields beside LOCK and LOCK_CHG stay, whatever their register. -/
theorem Block.lockTo_rd (new : Nat) (f : Fld) (n : Nat) (hl : 2 < f.lo) (he : f.off n ≠ HOOP_EVT.all.base) : (b.lockTo new).rd f n = b.rd f n := by
  by_cases h : b.lock = new
  · rw [b.lockTo_same h]
  · rw [Block.rd_congr (b.lockTo_regs h), Block.rd_set_other _ _ _ _ _ he, Block.rd_wr_disjoint _ _ _ _ _ _ (.inl hl)]

/-! ### LOCK changes -/

/-- The runs and what waits once LOCK has become `new` (R52, R53, R55). -/
def Block.syncAt (b : Block) (new : Nat) : HoopSync :=
  { b.hoop.sync with passRun := 0, failRun := 0, pendStep := if 2 ≤ new then none else b.hoop.sync.pendStep,
                     holdStart := if new = lkHOLDOVER then b.clk.htime else b.hoop.sync.holdStart }

/-- The block in which LOCK has become `new`, before TQ follows. -/
def Block.lockMoved (b : Block) (new : Nat) : Block :=
  (((b.lockTo new).setSync ((b.lockTo new).syncAt new)).when (new == lkHOLDOVER) (fun c => c.setRate (clampRate ppm10 (b.lockTo new).hoop.sync.integ))).when
    (new == lkLOCKED && ((b.lockTo new).bit CNP_CTL.EN) && (b.lockTo new).cnp.sealFrom.isNone) (fun c =>
      { c with cnp := { c.cnp with sealFrom := some (c.sf + 2) } })

theorem Block.setLock_same {new : Nat} (h : b.lock = new) : b.setLock new = b := if_pos h

theorem Block.setLock_moves {new : Nat} (h : b.lock ≠ new) : b.setLock new = (b.lockMoved new).tqShow := by
  unfold Block.setLock
  rw [if_neg h]
  unfold Block.lockMoved
  cases new == lkHOLDOVER <;> rfl

/-- Two blocks with the same registers have the same registers after a write of a field. -/
theorem Block.wr_regs_congr {b c : Block} (h : c.regs = b.regs) (f : Fld) (x n : Nat) : (c.wr f x n).regs = (b.wr f x n).regs := by
  unfold Block.wr Block.setReg Block.reg
  rw [h]

theorem Block.lockMoved_regs (new : Nat) : (b.lockMoved new).regs = (b.lockTo new).regs :=
  (Block.when_keeps (·.regs) rfl _).trans (Block.when_keeps (·.regs) rfl _)

theorem Block.setLock_regs {new : Nat} (h : b.lock ≠ new) : ∃ x, (b.setLock new).regs = ((b.lockTo new).wr HOOP_STATE.TQ x).regs := by
  rw [b.setLock_moves h]
  exact ⟨_, Block.wr_regs_congr (b.lockMoved_regs new) HOOP_STATE.TQ _ 0⟩

theorem Block.lockMoved_hoop (new : Nat) : (b.lockMoved new).hoop = { (b.lockTo new).hoop with sync := (b.lockTo new).syncAt new } :=
  (Block.when_keeps (·.hoop) rfl _).trans (Block.when_keeps (·.hoop) rfl _)

theorem Block.setLock_sync {new : Nat} (h : b.lock ≠ new) : (b.setLock new).hoop.sync = b.syncAt new := by
  obtain ⟨clk, sync, -⟩ := b.lockTo_parts new
  rw [b.setLock_moves h]
  refine (congrArg Hoop.sync (b.lockMoved_hoop new)).trans ?_
  unfold Block.syncAt
  rw [clk, sync]

theorem Block.setLock_clk {new : Nat} (h : b.lock ≠ new) : (b.setLock new).clk
    = if new = lkHOLDOVER then { b.clk with rate := clampRate ppm10 b.hoop.sync.integ } else b.clk := by
  obtain ⟨clk, sync, -⟩ := b.lockTo_parts new
  rw [b.setLock_moves h, ← clk, ← sync]
  refine (Block.when_keeps (·.clk) rfl _).trans ?_
  split
  · next hn => rw [hn]; rfl
  · next hn => rw [beq_eq_false_iff_ne.2 hn]; rfl

/-- What a change of LOCK leaves. -/
theorem Block.setLock_parts (new : Nat) : (b.setLock new).hoop.warp = b.hoop.warp ∧ (b.setLock new).hoop.red = b.hoop.red
    ∧ (b.setLock new).dram = b.dram ∧ (b.setLock new).clk.htime = b.clk.htime ∧ (b.setLock new).clk.beat = b.clk.beat
    ∧ (b.setLock new).clk.cell = b.clk.cell := by
  obtain ⟨-, -, warp, red, dram⟩ := b.lockTo_parts new
  by_cases h : b.lock = new
  · rw [b.setLock_same h]
    exact ⟨rfl, rfl, rfl, rfl, rfl, rfl⟩
  · rw [b.setLock_clk h, b.setLock_moves h]
    refine ⟨(congrArg Hoop.warp (b.lockMoved_hoop new)).trans warp, (congrArg Hoop.red (b.lockMoved_hoop new)).trans red,
      ((Block.when_keeps (·.dram) rfl _).trans (Block.when_keeps (·.dram) rfl _)).trans dram, ?_⟩
    split <;> exact ⟨rfl, rfl, rfl⟩

theorem Block.setLock_lock (new : Nat) : (b.setLock new).lock = new % 8 := by
  by_cases h : b.lock = new
  · rw [b.setLock_same h, h, Nat.mod_eq_of_lt (h ▸ b.lock_lt)]
  · obtain ⟨x, hx⟩ := b.setLock_regs h
    unfold Block.lock
    rw [Block.rd_congr hx, Block.rd_wr_disjoint _ _ _ _ _ _ (by decide)]
    exact b.lockTo_lock new

theorem Block.setLock_kept (new : Nat) : RegsKept b (b.setLock new) [HOOP_STATE.all.base, HOOP_EVT.all.base] := by
  by_cases h : b.lock = new
  · rw [b.setLock_same h]
    exact .refl b _
  · obtain ⟨x, hx⟩ := b.setLock_regs h
    exact ((b.lockTo_kept new).wr HOOP_STATE.TQ x 0 (by decide)).trans (.of_regs hx)

/-- The fields beside LOCK, TQ and LOCK_CHG stay, whatever their register. -/
theorem Block.setLock_rd (new : Nat) (f : Fld) (n : Nat) (hl : 2 < f.lo) (hh : f.hi < 26) (he : f.off n ≠ HOOP_EVT.all.base) :
    (b.setLock new).rd f n = b.rd f n := by
  by_cases h : b.lock = new
  · rw [b.setLock_same h]
  · obtain ⟨x, hx⟩ := b.setLock_regs h
    rw [Block.rd_congr hx, Block.rd_wr_disjoint _ _ _ _ _ _ (.inr hh), b.lockTo_rd new f n hl he]

/-- A change of LOCK sets LOCK_CHG (R56). -/
theorem Block.setLock_event {new : Nat} (h : b.lock ≠ new) : (b.setLock new).bit HOOP_EVT.LOCK_CHG = true := by
  obtain ⟨x, hx⟩ := b.setLock_regs h
  rw [Block.bit_of_rd (Block.rd_congr hx HOOP_EVT.LOCK_CHG 0), Block.bit_wr_other _ _ _ _ _ _ (.inl (by decide)),
    Block.bit_of_rd (Block.rd_congr (b.lockTo_regs h) HOOP_EVT.LOCK_CHG 0)]
  exact Block.bit_set_same _ _ _ (by decide) (by decide)

/-! ### A source is lost -/

theorem Block.srcLost_cases : let c := b.setSync { b.hoop.sync with passRun := 0 }
    (b.lock = lkLOCKED ∧ b.srcLost = c.setLock lkHOLDOVER) ∨ (b.lock = lkACQUIRING ∧ b.srcLost = c.setLock lkUNLOCKED)
    ∨ (b.lock ≠ lkLOCKED ∧ b.lock ≠ lkACQUIRING ∧ b.srcLost = c) := by
  unfold Block.srcLost
  dsimp only
  by_cases h2 : b.lock = lkLOCKED
  · exact .inl ⟨h2, if_pos h2⟩
  · by_cases h1 : b.lock = lkACQUIRING
    · exact .inr (.inl ⟨h1, (if_neg h2).trans (if_pos h1)⟩)
    · exact .inr (.inr ⟨h2, h1, (if_neg h2).trans (if_neg h1)⟩)

theorem Block.srcLost_lock : b.srcLost.lock = lockLost b.lock := by
  unfold lockLost
  rcases b.srcLost_cases with ⟨h, e⟩ | ⟨h, e⟩ | ⟨h, h', e⟩
  · rw [e, Block.setLock_lock, if_pos h]
    rfl
  · rw [e, Block.setLock_lock, h]
    rfl
  · rw [e, if_neg h, if_neg h']
    rfl

/-- The fields beside LOCK, TQ and LOCK_CHG stay, whatever their register. -/
theorem Block.srcLost_rd (f : Fld) (n : Nat) (hl : 2 < f.lo) (hh : f.hi < 26) (he : f.off n ≠ HOOP_EVT.all.base) : b.srcLost.rd f n = b.rd f n := by
  rcases b.srcLost_cases with ⟨-, e⟩ | ⟨-, e⟩ | ⟨-, -, e⟩
  · rw [e, Block.setLock_rd _ _ _ _ hl hh he]
    rfl
  · rw [e, Block.setLock_rd _ _ _ _ hl hh he]
    rfl
  · rw [e]
    rfl

theorem Block.srcLost_kept : RegsKept b b.srcLost [HOOP_STATE.all.base, HOOP_EVT.all.base] := by
  rcases b.srcLost_cases with ⟨-, e⟩ | ⟨-, e⟩ | ⟨-, -, e⟩
  · rw [e]
    exact Block.setLock_kept _ _
  · rw [e]
    exact Block.setLock_kept _ _
  · rw [e]
    exact .of_regs rfl

/-- A source lost when LOCKED leaves the integral term as the rate (R55). -/
theorem Block.srcLost_clk : b.srcLost.clk = if b.lock = lkLOCKED then { b.clk with rate := clampRate ppm10 b.hoop.sync.integ } else b.clk := by
  rcases b.srcLost_cases with ⟨h, e⟩ | ⟨h, e⟩ | ⟨h, -, e⟩
  · have changes : (b.setSync { b.hoop.sync with passRun := 0 }).lock ≠ lkHOLDOVER := fun k => absurd (h.symm.trans k) (by decide)
    rw [e, Block.setLock_clk _ changes, if_pos rfl, if_pos h]
    rfl
  · have changes : (b.setSync { b.hoop.sync with passRun := 0 }).lock ≠ lkUNLOCKED := fun k => absurd (h.symm.trans k) (by decide)
    rw [e, Block.setLock_clk _ changes, if_neg (by decide), h]
    rfl
  · rw [e, if_neg h]
    rfl

/-- What a lost source leaves of the Hoop. -/
theorem Block.srcLost_parts : b.srcLost.hoop.warp = b.hoop.warp ∧ b.srcLost.hoop.red = b.hoop.red
    ∧ b.srcLost.hoop.sync.ppsLast = b.hoop.sync.ppsLast ∧ b.srcLost.hoop.sync.ppsClosed = b.hoop.sync.ppsClosed
    ∧ b.srcLost.hoop.sync.ptpLast = b.hoop.sync.ptpLast := by
  have moved (new : Nat) (h : b.lock ≠ new) : let c := (b.setSync { b.hoop.sync with passRun := 0 }).setLock new
      c.hoop.warp = b.hoop.warp ∧ c.hoop.red = b.hoop.red ∧ c.hoop.sync.ppsLast = b.hoop.sync.ppsLast
      ∧ c.hoop.sync.ppsClosed = b.hoop.sync.ppsClosed ∧ c.hoop.sync.ptpLast = b.hoop.sync.ptpLast := by
    obtain ⟨warp, red, -⟩ := (b.setSync { b.hoop.sync with passRun := 0 }).setLock_parts new
    dsimp only
    rw [warp, red, Block.setLock_sync (b.setSync { b.hoop.sync with passRun := 0 }) h]
    exact ⟨rfl, rfl, rfl, rfl, rfl⟩
  rcases b.srcLost_cases with ⟨h, e⟩ | ⟨h, e⟩ | ⟨-, -, e⟩
  · rw [e]
    exact moved lkHOLDOVER (by rw [h]; decide)
  · rw [e]
    exact moved lkUNLOCKED (by rw [h]; decide)
  · rw [e]
    exact ⟨rfl, rfl, rfl, rfl, rfl⟩

end Sys2Proof.Machine
end

section
/-! SUPPORT. Measurements of the phase (R50–R56). -/

namespace Sys2Proof.Machine

variable (b : Block)

/-! ### What reads the Hoop's state alone -/

/-- The phase source in force depends on PSRC and on two Canopy registers. -/
theorem Block.phaseSource_congr {b c : Block} (hp : c.rd HOOP_CTL.PSRC = b.rd HOOP_CTL.PSRC) (hm : c.reg CNP_STAT.all.base = b.reg CNP_STAT.all.base)
    (hs : c.reg CNP_CTL.all.base = b.reg CNP_CTL.all.base) : c.phaseSource = b.phaseSource := by
  unfold Block.phaseSource
  rw [hp, show c.bit CNP_STAT.MASTER = b.bit CNP_STAT.MASTER from congrArg (fget · CNP_STAT.MASTER != 0) hm,
    show c.rd CNP_CTL.MSRC = b.rd CNP_CTL.MSRC from congrArg (fget · CNP_CTL.MSRC) hs]

theorem RegsKept.phaseSource {b c : Block} {l : List Nat} (h : RegsKept b c l) (hc : HOOP_CTL.all.base ∉ l) (hm : CNP_STAT.all.base ∉ l)
    (hs : CNP_CTL.all.base ∉ l) : c.phaseSource = b.phaseSource :=
  Block.phaseSource_congr (h.rd HOOP_CTL.PSRC 0 hc) (h _ hm) (h _ hs)

theorem Block.ifHoop_up (f : Block → Block) (h : b.hoopDown = false) : b.ifHoop f = f b := by
  unfold Block.ifHoop
  rw [h]
  rfl

theorem Block.ifHoop_down (f : Block → Block) (h : b.hoopDown = true) : b.ifHoop f = b := by
  unfold Block.ifHoop
  rw [h]
  rfl

/-- What only a driving copy of the Hoop does has no effect while none drives the outputs. -/
theorem noEffect_of_hoopDown {c : Instr} {s : State} {f : Block → Block} (hc : exec c s = runCmd s (fun b => b.ifHoop f)) (h : s.blk.hoopDown = true) :
    NoEffect c s :=
  gives_of_runCmd hc (s.blk.start.ifHoop_down f h)

/-- While a copy drives the outputs it runs as its effect says. -/
theorem gives_of_hoopUp {c : Instr} {s : State} {f : Block → Block} {d : Block} (hc : exec c s = runCmd s (fun b => b.ifHoop f))
    (h : s.blk.hoopDown = false) (hd : f s.blk.start = d) : Gives c s d :=
  gives_of_runCmd hc ((s.blk.start.ifHoop_up f h).trans hd)

theorem runs_of_hoopUp {c : Instr} {s : State} {f : Block → Block} {d : Block} {P : Block → Prop} (hc : exec c s = runCmd s (fun b => b.ifHoop f))
    (h : s.blk.hoopDown = false) (hd : f s.blk.start = d) (hP : P d.canon) : Runs c s P :=
  runs_of_effect hc ((s.blk.start.ifHoop_up f h).trans hd) hP

/-! ### The servo -/

theorem Block.servo_kept : RegsKept b b.servo [HOOP_FREQ_ERR.all.base] :=
  RegsKept.wr (.of_regs rfl) HOOP_FREQ_ERR.all _ 0 (by decide)

theorem Block.servo_sync : ∃ i, b.servo.hoop.sync = { b.hoop.sync with integ := i } := ⟨_, rfl⟩

theorem clampRate_natAbs (m : Nat) (r : Int) : (clampRate m r).natAbs ≤ m := by
  unfold clampRate
  omega

/-- When LOCKED the servo keeps the rate within 10 ppm (R52). -/
theorem Block.servo_rate (h : b.lock = lkLOCKED) : b.servo.clk.rate.natAbs ≤ 10 ^ 7 := by
  have bound : b.took.rateMax = ppm10 := if_pos (show lkLOCKED ≤ b.took.lock from Nat.le_of_eq h.symm)
  refine Nat.le_trans (clampRate_natAbs b.took.rateMax _) ?_
  rw [bound]
  exact Nat.le_refl _

/-! ### A measurement -/

/-- The block that shows the phase error `e`. -/
def Block.measShown (b : Block) (e : Int) : Block := b.wr HOOP_PHASE_ERR.all (unsigned 32 (satSym 32 e))

/-- The runs of passing and of failing measurements after one of error `e`, and the step that waits. -/
def Block.measRun (b : Block) (e : Int) (passes : Nat) : Nat := if b.lock = lkLOCKED then 0 else if b.errPasses e then passes + 1 else 0
def Block.measFails (b : Block) (e : Int) (fails : Nat) : Nat := if b.lock = lkLOCKED ∧ b.errBig e = true then fails + 1 else 0
def Block.measStep (b : Block) (e : Int) (waits : Option Int) : Option Int :=
  if b.lock ≤ lkACQUIRING ∧ b.bit HOOP_CTL.STEP_EN = true ∧ b.errBig e = true then some e else waits

/-- UNLOCKED, the first measurement makes the lock state ACQUIRING (R56). -/
def Block.measFirst (b : Block) : Block := b.when (b.lock == lkUNLOCKED) (fun b => b.setLock lkACQUIRING)

/-- The runs of `c` after a measurement of `b`. -/
def Block.measSync (b : Block) (e : Int) (c : Block) : Block :=
  c.setSync { c.hoop.sync with passRun := b.measRun e c.hoop.sync.passRun, failRun := b.measFails e c.hoop.sync.failRun,
                               pendStep := b.measStep e c.hoop.sync.pendStep }

/-- LOCK follows the runs. -/
def Block.measLock (b : Block) : Block :=
  if 8 ≤ b.hoop.sync.passRun then b.setLock lkLOCKED else if 3 ≤ b.hoop.sync.failRun then b.setLock lkACQUIRING else b

theorem Block.measFirst_lock : b.measFirst.lock = if b.lock = lkUNLOCKED then lkACQUIRING else b.lock := by
  unfold Block.measFirst
  split
  · next h => rw [h]; exact Block.setLock_lock _ _
  · next h => rw [beq_eq_false_iff_ne.2 h]; rfl

/-- A first measurement starts the runs anew, and leaves a step that waits. -/
theorem Block.measFirst_sync : b.measFirst.hoop.sync = if b.lock = lkUNLOCKED then { b.hoop.sync with passRun := 0, failRun := 0 } else b.hoop.sync := by
  unfold Block.measFirst
  split
  · next h =>
    rw [h]
    exact b.setLock_sync (by rw [h]; decide)
  · next h => rw [beq_eq_false_iff_ne.2 h]; rfl

theorem Block.measFirst_kept : RegsKept b b.measFirst [HOOP_STATE.all.base, HOOP_EVT.all.base] := (RegsKept.refl b _).when (b.setLock_kept _) _

theorem Block.measLock_kept : RegsKept b b.measLock [HOOP_STATE.all.base, HOOP_EVT.all.base] := by
  unfold Block.measLock
  split
  · exact b.setLock_kept _
  · split
    · exact b.setLock_kept _
    · exact .refl b _

theorem Block.measLock_lock : b.measLock.lock = if 8 ≤ b.hoop.sync.passRun then lkLOCKED else if 3 ≤ b.hoop.sync.failRun then lkACQUIRING else b.lock := by
  unfold Block.measLock
  split
  · exact Block.setLock_lock _ _
  · split
    · exact Block.setLock_lock _ _
    · rfl

/-- Where LOCK does not become LOCKED a step that waits stays. -/
theorem Block.measLock_step (h : ¬ 8 ≤ b.hoop.sync.passRun) : b.measLock.hoop.sync.pendStep = b.hoop.sync.pendStep := by
  unfold Block.measLock
  rw [if_neg h]
  split
  · by_cases hl : b.lock = lkACQUIRING
    · rw [b.setLock_same hl]
    · rw [b.setLock_sync hl]
      rfl
  · rfl

/-- The block that a measurement of error `e` leaves, but for the servo. -/
def Block.measured (b : Block) (e : Int) : Block := (b.measSync e (b.measShown e).measFirst).measLock

theorem Block.measure_unready (e : Int) (hd : b.hoopDown = false) (hr : b.bit HOOP_STATE.REF_OK = false) : b.measure e = b.measShown e := by
  have unready : (b.measShown e).bit HOOP_STATE.REF_OK = false := (b.bit_wr_other _ _ _ _ _ (.inl (by decide))).trans hr
  refine (b.ifHoop_up _ hd).trans (if_pos ?_)
  change (!(b.measShown e).bit HOOP_STATE.REF_OK) = true
  rw [unready]
  rfl

theorem Block.measure_ready (e : Int) (hd : b.hoopDown = false) (hr : b.bit HOOP_STATE.REF_OK = true) :
    b.measure e = if b.lock = lkHOLDOVER then b.measured e else (b.measured e).servo := by
  have shown : RegsKept b (b.measShown e) [HOOP_PHASE_ERR.all.base] := (RegsKept.refl b _).wr HOOP_PHASE_ERR.all _ 0 (by decide)
  have ready : (b.measShown e).bit HOOP_STATE.REF_OK = true := (shown.bit HOOP_STATE.REF_OK 0 (by decide)).trans hr
  have lock : (b.measShown e).lock = b.lock := Block.lock_congr (shown _ (by decide))
  have first := (b.measShown e).measFirst_kept
  have pass : (b.measShown e).errPasses e = b.errPasses e := by
    unfold Block.errPasses
    rw [shown.rd HOOP_SYNC_CFG.LOCK_THR 0 (by decide)]
  have big : (b.measShown e).measFirst.errBig e = b.errBig e := by
    unfold Block.errBig
    rw [first.rd HOOP_SYNC_CFG.STEP_THR 0 (by decide), shown.rd HOOP_SYNC_CFG.STEP_THR 0 (by decide)]
  have stepEn : (b.measShown e).measFirst.bit HOOP_CTL.STEP_EN = b.bit HOOP_CTL.STEP_EN := by
    rw [first.bit HOOP_CTL.STEP_EN 0 (by decide), shown.bit HOOP_CTL.STEP_EN 0 (by decide)]
  refine (b.ifHoop_up _ hd).trans ((if_neg ?_).trans ?_)
  · change ¬ (!(b.measShown e).bit HOOP_STATE.REF_OK) = true
    rw [ready]
    decide
  · unfold Block.measured Block.measSync Block.measRun Block.measFails Block.measStep Block.measLock
    rw [← pass, ← big, ← stepEn, ← lock]
    rfl

/-! ### What a measurement decides -/

theorem Block.measShown_lock (e : Int) : (b.measShown e).lock = b.lock :=
  Block.lock_congr (((RegsKept.refl b [HOOP_PHASE_ERR.all.base]).wr HOOP_PHASE_ERR.all _ 0 (by decide)) _ (by decide))

/-- The lock state that a measurement leaves (R56). -/
theorem Block.measured_lock (e : Int) : (b.measured e).lock = (if b.lock = lkUNLOCKED then lkACQUIRING
    else if b.lock = lkLOCKED then (if b.errBig e = true ∧ 3 ≤ b.hoop.sync.failRun + 1 then lkACQUIRING else lkLOCKED)
    else if b.errPasses e = true ∧ 8 ≤ b.hoop.sync.passRun + 1 then lkLOCKED else b.lock) := by
  have lock : (b.measSync e (b.measShown e).measFirst).lock = if b.lock = lkUNLOCKED then lkACQUIRING else b.lock := by
    rw [← b.measShown_lock e]
    exact (b.measShown e).measFirst_lock
  have sync := (b.measShown e).measFirst_sync
  rw [b.measShown_lock e] at sync
  unfold Block.measured
  rw [Block.measLock_lock, lock]
  simp only [Block.measSync, Block.setSync_sync, sync, Block.measRun, Block.measFails]
  by_cases h0 : b.lock = lkUNLOCKED
  · have h2 : ¬ b.lock = lkLOCKED := by rw [h0]; decide
    simp only [h0, show ¬ lkUNLOCKED = lkLOCKED by decide, if_true, if_false, false_and]
    cases b.errPasses e <;> rfl
  · by_cases h2 : b.lock = lkLOCKED
    · simp only [h2, show ¬ lkLOCKED = lkUNLOCKED by decide, if_true, if_false, true_and]
      cases b.errBig e <;> simp [Block.measShown]
    · simp only [h0, h2, if_false, false_and]
      cases b.errPasses e <;> simp [Block.measShown]

/-- A measurement above STEP_THR under STEP_EN leaves a step waiting, unless it makes LOCK LOCKED (R53). -/
theorem Block.measured_step (e : Int) (ha : (b.measured e).lock ≤ lkACQUIRING) (hb : b.lock ≤ lkACQUIRING) (hs : b.bit HOOP_CTL.STEP_EN = true)
    (hg : b.errBig e = true) : (b.measured e).hoop.sync.pendStep = some e := by
  unfold Block.measured at ha ⊢
  rw [Block.measLock_lock] at ha
  rw [Block.measLock_step _ (fun h => by rw [if_pos h] at ha; exact absurd ha (by decide))]
  exact if_pos ⟨hb, hs, hg⟩

theorem Block.measured_shown (e : Int) : (b.measured e).rd HOOP_PHASE_ERR.all = unsigned 32 (satSym 32 e) := by
  have small : unsigned 32 (satSym 32 e) < 2 ^ 32 := by
    unfold unsigned
    omega
  have kept : (b.measured e).rd HOOP_PHASE_ERR.all = (b.measShown e).rd HOOP_PHASE_ERR.all := by
    refine ((Block.measLock_kept _).rd _ 0 (by decide)).trans ?_
    exact (b.measShown e).measFirst_kept.rd _ 0 (by decide)
  exact kept.trans ((b.rd_wr_same _ _ _ (by decide)).trans (Nat.mod_eq_of_lt small))

/-- What a measurement leaves while REFCLK is there (R52, R53, R56). -/
theorem Block.measure_state (e : Int) (hd : b.hoopDown = false) (hr : b.bit HOOP_STATE.REF_OK = true) :
    (b.measure e).lock = (b.measured e).lock
    ∧ ((b.measure e).lock = lkLOCKED → b.lock ≠ lkHOLDOVER → (b.measure e).clk.rate.natAbs ≤ 10 ^ 7)
    ∧ (b.measure e).hoop.sync.pendStep = (b.measured e).hoop.sync.pendStep
    ∧ (b.measure e).rd HOOP_PHASE_ERR.all = (b.measured e).rd HOOP_PHASE_ERR.all := by
  rw [b.measure_ready e hd hr]
  have served := (b.measured e).servo_kept
  have lock : (b.measured e).servo.lock = (b.measured e).lock := Block.lock_congr (served _ (by decide))
  split
  · next h => exact ⟨rfl, fun _ hn => absurd h hn, rfl, rfl⟩
  · next h =>
    obtain ⟨i, hi⟩ := (b.measured e).servo_sync
    exact ⟨lock, fun hl _ => Block.servo_rate _ (lock.symm.trans hl), by rw [hi], served.rd _ 0 (by decide)⟩

end Sys2Proof.Machine
end

section
/-! SUPPORT. The phase sources, REFCLK, HOLD_MAX and HOOP_CTL (R49–R56, R80, R83, R138). -/

namespace Sys2Proof.Machine

variable (b : Block)

/-- A write of a pair's high register stores into the pair alone (R13). -/
theorem Block.hiWrite_kept (off : Nat) (v : BitVec 32) : RegsKept b (b.hiWrite off v) [off - 4, off] := by
  unfold Block.hiWrite
  dsimp only
  split
  · exact ((RegsKept.refl b _).regStore (by simp) _).trans ((RegsKept.of_regs rfl).regStore (by simp) _)
  · exact (RegsKept.of_regs rfl).regStore (by simp) _

theorem Block.hiWrite_parts (off : Nat) (v : BitVec 32) : (b.hiWrite off v).hoop = b.hoop ∧ (b.hiWrite off v).clk = b.clk
    ∧ (b.hiWrite off v).tmr = b.tmr := by
  unfold Block.hiWrite
  dsimp only
  split <;> exact ⟨rfl, rfl, rfl⟩

/-- The phase source in force does not depend on the HOOP_STATE flags. -/
theorem Block.phaseSource_set (f : Fld) (h : f.off 0 = HOOP_STATE.all.base) : (b.set f).phaseSource = b.phaseSource :=
  RegsKept.phaseSource (l := [HOOP_STATE.all.base]) ((RegsKept.refl b _).set f 0 (by rw [h]; decide)) (by decide) (by decide) (by decide)

/-! ### PPS and PTP -/

theorem ppsEdge_refused_gives (s : State) (t : BitVec 64) (h : s.blk.hoopDown = false) (ha : ppsAccepted s.blk.hoop.sync t = false) :
    Gives (.ppsEdge t) s (s.blk.start.toTime t) :=
  gives_of_hoopUp rfl h (if_pos (by
    change (!ppsAccepted s.blk.hoop.sync t) = true
    rw [ha]
    rfl))

theorem ppsEdge_accepted_gives (s : State) (t : BitVec 64) (h : s.blk.hoopDown = false) (ha : ppsAccepted s.blk.hoop.sync t = true) :
    let b := ((s.blk.start.toTime t).setSync { s.blk.hoop.sync with ppsLast := some t, ppsClosed := 0 }).set HOOP_STATE.PPS_OK
    Gives (.ppsEdge t) s (if s.blk.phaseSource = psPPS then
      b.measure ((t.toNat : Int) - ((t.toNat + 2 ^ 31) / 2 ^ 32 * 2 ^ 32 : Nat)) else b) := by
  have source : (((s.blk.start.toTime t).setSync { s.blk.hoop.sync with ppsLast := some t, ppsClosed := 0 }).set HOOP_STATE.PPS_OK).phaseSource
      = s.blk.phaseSource := Block.phaseSource_set _ _ rfl
  refine gives_of_hoopUp rfl h ((if_neg ?_).trans ?_)
  · change ¬ (!ppsAccepted s.blk.hoop.sync t) = true
    rw [ha]
    decide
  · rw [← source]
    unfold Block.when
    simp only [beq_iff_eq]
    rfl

theorem ppsWindowClose_idle (s : State) (h : s.blk.hoop.sync.ppsLast = none ∨ 4 ≤ s.blk.hoop.sync.ppsClosed) : NoEffect .ppsWindowClose s := by
  cases hd : s.blk.hoopDown
  · refine gives_of_hoopUp rfl hd ?_
    dsimp only [Block.start_hoop]
    split
    · rfl
    · next a ha => exact if_pos (h.resolve_left (by rw [ha]; exact Option.some_ne_none a))
  · exact noEffect_of_hoopDown rfl hd

/-- A HOOP_STATE flag of a source clears at an instant, and the source is lost where it is the one in force. -/
def Block.sourceOff (b : Block) (u : BitVec 64) (y : HoopSync) (f : Fld) (lost : Bool) : Block := (((b.toTime u).setSync y).clr f).when lost Block.srcLost

theorem Block.sourceOff_state (u : BitVec 64) (y : HoopSync) (f : Fld) (lost : Bool) (hf : f.off 0 = HOOP_STATE.all.base) (hl : 2 < f.lo)
    (hh : f.hi < 26) : let t := b.sourceOff u y f lost
    t.canon.bit f = false ∧ t.canon.lock = (if lost = true then lockLost b.lock else b.lock) ∧ t.canon.hoop.sync.ppsLast = y.ppsLast
    ∧ t.canon.hoop.sync.ppsClosed = y.ppsClosed ∧ t.canon.hoop.sync.ptpLast = y.ptpLast := by
  have clear : (((b.toTime u).setSync y).clr f).bit f = false := Block.bit_clr_same _ f 0 (by omega)
  have lock : (((b.toTime u).setSync y).clr f).lock = b.lock := Block.rd_wr_disjoint _ _ _ _ _ _ (.inr hl)
  dsimp only
  rw [Block.canon_bit, show (b.sourceOff u y f lost).canon.lock = (b.sourceOff u y f lost).lock from Block.canon_rd _ _ _]
  unfold Block.sourceOff
  cases lost
  · exact ⟨clear, lock, rfl, rfl, rfl⟩
  · obtain ⟨-, -, last, closed, ptp⟩ := (((b.toTime u).setSync y).clr f).srcLost_parts
    refine ⟨?_, (Block.srcLost_lock _).trans (congrArg lockLost lock), last, closed, ptp⟩
    exact (Block.bit_of_rd (Block.srcLost_rd _ f 0 hl hh (by rw [hf]; decide))).trans clear

/-- The source in force does not follow its flag. -/
theorem Block.sourceOff_source (u : BitVec 64) (y : HoopSync) (f : Fld) (hf : f.off 0 = HOOP_STATE.all.base) :
    (((b.toTime u).setSync y).clr f).phaseSource = b.phaseSource :=
  RegsKept.phaseSource (l := [HOOP_STATE.all.base]) ((RegsKept.of_regs rfl).clr f 0 (by rw [hf]; decide)) (by decide) (by decide) (by decide)

theorem ppsWindowClose_runs (s : State) (a : BitVec 64) (h : s.blk.hoopDown = false) (ha : s.blk.hoop.sync.ppsLast = some a)
    (hc : s.blk.hoop.sync.ppsClosed < 4) : Runs .ppsWindowClose s (fun t =>
      t.bit HOOP_STATE.PPS_OK = false ∧ t.hoop.sync.ppsClosed = s.blk.hoop.sync.ppsClosed + 1 ∧ t.hoop.sync.ppsLast = some a
      ∧ t.lock = (if s.blk.phaseSource = psPPS ∧ 1 ≤ s.blk.hoop.sync.ppsClosed then lockLost s.blk.lock else s.blk.lock)) := by
  have closes (u : BitVec 64) : let y : HoopSync := { s.blk.hoop.sync with ppsClosed := s.blk.hoop.sync.ppsClosed + 1 }
      let b := ((s.blk.start.toTime u).setSync y).clr HOOP_STATE.PPS_OK
      b.when (b.phaseSource == psPPS && decide (2 ≤ s.blk.hoop.sync.ppsClosed + 1)) Block.srcLost
        = s.blk.start.sourceOff u y HOOP_STATE.PPS_OK (s.blk.phaseSource == psPPS && decide (2 ≤ s.blk.hoop.sync.ppsClosed + 1)) := by
    dsimp only
    rw [Block.sourceOff_source _ _ _ _ rfl]
    rfl
  obtain ⟨ok, lock, last, closed, -⟩ := s.blk.start.sourceOff_state
    (BitVec.ofNat 64 (a.toNat + (s.blk.hoop.sync.ppsClosed + 1) * 2 ^ 32 + ceilDiv (2 ^ 32) (10 ^ 6)))
    { s.blk.hoop.sync with ppsClosed := s.blk.hoop.sync.ppsClosed + 1 }
    HOOP_STATE.PPS_OK (s.blk.phaseSource == psPPS && decide (2 ≤ s.blk.hoop.sync.ppsClosed + 1)) rfl (by decide) (by decide)
  refine runs_of_hoopUp rfl h ?_ ⟨ok, closed, last.trans ha, lock.trans ?_⟩
  · simp only [Block.start_hoop]
    split
    · next hn => exact absurd (ha.symm.trans hn) (Option.some_ne_none a)
    · next a' ha' =>
      obtain rfl : a = a' := Option.some.inj (ha.symm.trans ha')
      exact (if_neg (Nat.not_le.2 hc)).trans (closes _)
  · simp only [Bool.and_eq_true, beq_iff_eq, decide_eq_true_eq, Nat.succ_le_succ_iff]
    rfl

theorem ptpSourceLost_idle (s : State) (h : s.blk.hoop.sync.ptpLast = none) : NoEffect .ptpSourceLost s := by
  cases hd : s.blk.hoopDown
  · refine gives_of_hoopUp rfl hd ?_
    simp only [Block.start_hoop, h]
  · exact noEffect_of_hoopDown rfl hd

theorem ptpSourceLost_runs (s : State) (h : s.blk.hoopDown = false) (hp : s.blk.hoop.sync.ptpLast ≠ none) : Runs .ptpSourceLost s (fun t =>
    t.bit HOOP_STATE.PTP_OK = false ∧ t.hoop.sync.ptpLast = none
    ∧ t.lock = (if s.blk.phaseSource = psPTP then lockLost s.blk.lock else s.blk.lock)) := by
  obtain ⟨a, ha⟩ := Option.ne_none_iff_exists'.1 hp
  have ends (u : BitVec 64) : let c := (s.blk.start.toTime u).clr HOOP_STATE.PTP_OK
      let b := c.setSync { c.hoop.sync with ptpLast := none }
      b.when (b.phaseSource == psPTP) Block.srcLost
        = s.blk.start.sourceOff u { s.blk.hoop.sync with ptpLast := none } HOOP_STATE.PTP_OK (s.blk.phaseSource == psPTP) :=
    congrArg (fun p => Block.when _ (p == psPTP) Block.srcLost)
      (s.blk.start.sourceOff_source u { s.blk.hoop.sync with ptpLast := none } HOOP_STATE.PTP_OK rfl)
  obtain ⟨ok, lock, -, -, ptp⟩ := s.blk.start.sourceOff_state (a + BitVec.ofNat 64 (4 * 2 ^ 32)) { s.blk.hoop.sync with ptpLast := none }
    HOOP_STATE.PTP_OK (s.blk.phaseSource == psPTP) rfl (by decide) (by decide)
  refine runs_of_hoopUp rfl h ?_ ⟨ok, ptp, lock.trans ?_⟩
  · simp only [Block.start_hoop]
    split
    · next hn => exact absurd (ha.symm.trans hn) (Option.some_ne_none a)
    · next a' ha' =>
      obtain rfl : a = a' := Option.some.inj (ha.symm.trans ha')
      exact ends _
  · simp only [beq_iff_eq]
    rfl

/-- The stamp of a PTP submission as the write of its offset finds it (R51). -/
theorem Block.hiWrite_ptpStamp (v : BitVec 32) : (b.hiWrite HOOP_PTP_OFS_HI.all.base v).rd64 HOOP_PTP_STAMP_LO.all HOOP_PTP_STAMP_HI.all
    = b.rd64 HOOP_PTP_STAMP_LO.all HOOP_PTP_STAMP_HI.all := by
  have kept := b.hiWrite_kept HOOP_PTP_OFS_HI.all.base v
  unfold Block.rd64
  rw [kept _ (by decide), kept _ (by decide)]

theorem ptpSubmit_eq (s : State) (v : Word) (h : s.blk.hoopDown = false) : let b := s.blk.start.hiWrite HOOP_PTP_OFS_HI.all.base v
    s.blk.start.ptpSubmit v = if s.blk.rd64 HOOP_PTP_STAMP_LO.all HOOP_PTP_STAMP_HI.all + 2 ^ 32 < s.blk.clk.htime.toNat then b.set HOOP_EVT.PTP_STALE
      else let c := (b.setSync { s.blk.hoop.sync with ptpLast := some s.blk.clk.htime }).set HOOP_STATE.PTP_OK
        if s.blk.phaseSource = psPTP then c.measure (-(signed 64 (b.rd64 HOOP_PTP_OFS_LO.all HOOP_PTP_OFS_HI.all))) else c := by
  obtain ⟨hoop, clk, -⟩ := s.blk.start.hiWrite_parts HOOP_PTP_OFS_HI.all.base v
  have stamp := s.blk.start.hiWrite_ptpStamp v
  have source (y : HoopSync) : (((s.blk.start.hiWrite HOOP_PTP_OFS_HI.all.base v).setSync y).set HOOP_STATE.PTP_OK).phaseSource = s.blk.phaseSource :=
    (Block.phaseSource_set _ _ rfl).trans ((s.blk.start.hiWrite_kept HOOP_PTP_OFS_HI.all.base v).phaseSource (by decide) (by decide) (by decide))
  have up : (s.blk.start.hiWrite HOOP_PTP_OFS_HI.all.base v).hoopDown = false := by
    unfold Block.hoopDown
    rw [hoop]
    exact h
  unfold Block.rd64 at stamp
  unfold Block.ptpSubmit
  dsimp only
  rw [Block.ifHoop_up _ _ up]
  simp only [hoop, clk, source, Block.when, beq_iff_eq]
  rw [show ((s.blk.start.hiWrite HOOP_PTP_OFS_HI.all.base v).reg HOOP_PTP_STAMP_LO.all.base).toNat
    + ((s.blk.start.hiWrite HOOP_PTP_OFS_HI.all.base v).reg HOOP_PTP_STAMP_HI.all.base).toNat * 2 ^ 32 = _ from stamp]
  rfl

theorem ptpSubmit_down_gives (s : State) (v : Word) (h : s.blk.hoopDown = true) : Gives (.ptpSubmit v) s (s.blk.start.hiWrite HOOP_PTP_OFS_HI.all.base v) := by
  refine gives_of_runCmd (f := fun b => b.ptpSubmit v) rfl (Block.ifHoop_down _ _ ?_)
  unfold Block.hoopDown
  rw [(s.blk.start.hiWrite_parts HOOP_PTP_OFS_HI.all.base v).1]
  exact h

/-! ### REFCLK and HOLD_MAX -/

/-- REFCLK is shown lost (R54). -/
def Block.refLost (b : Block) : Block := (b.clr HOOP_STATE.REF_OK).clr RXA_STAT.REFCLK_OK

/-- The Hoop after the loss of REFCLK: the rate without its slew, and the lock state as if the source were lost. -/
def Block.refServed (b : Block) : Block := b.ifHoop (fun b => (b.setRate b.unslewed).srcLost)

theorem Block.refLost_kept : RegsKept b b.refLost [HOOP_STATE.all.base, RXA_STAT.all.base] :=
  ((RegsKept.refl b _).clr HOOP_STATE.REF_OK 0 (by decide)).clr RXA_STAT.REFCLK_OK 0 (by decide)

theorem Block.refLost_lock : b.refLost.lock = b.lock :=
  (Block.rd_wr_other _ _ _ _ _ _ (by decide)).trans (Block.rd_wr_disjoint _ _ _ _ _ _ (by decide))

theorem Block.refServed_down (h : b.hoopDown = true) : b.refServed = b := b.ifHoop_down _ h

theorem Block.refServed_runs (h : b.hoopDown = false) : b.refServed = (b.setRate b.unslewed).srcLost := b.ifHoop_up _ h

theorem Block.refServed_kept : RegsKept b b.refServed [HOOP_STATE.all.base, HOOP_EVT.all.base] := by
  cases h : b.hoopDown
  · rw [b.refServed_runs h]
    exact (RegsKept.of_regs (c := b.setRate b.unslewed) rfl).trans (Block.srcLost_kept _)
  · rw [b.refServed_down h]
    exact .refl b _

/-- The fields beside LOCK, TQ and LOCK_CHG stay, whatever their register. -/
theorem Block.refServed_rd (f : Fld) (n : Nat) (hl : 2 < f.lo) (hh : f.hi < 26) (he : f.off n ≠ HOOP_EVT.all.base) : b.refServed.rd f n = b.rd f n := by
  cases h : b.hoopDown
  · rw [b.refServed_runs h, Block.srcLost_rd _ f n hl hh he]
    exact Block.rd_congr rfl f n
  · rw [b.refServed_down h]

/-- The bounds within which the integral term is the rate (R52). -/
theorem Block.rateMax_cast : (b.rateMax : Int) = if lkLOCKED ≤ b.lock then 10 ^ 7 else 10 ^ 12 - 1 := by
  unfold Block.rateMax ppm10
  split <;> norm_num

theorem Block.refServed_up (h : b.hoopDown = false) : b.refServed.lock = lockLost b.lock ∧ b.refServed.clk.htime = b.clk.htime
    ∧ b.refServed.clk.rate = (let m : Int := if lkLOCKED ≤ b.lock then 10 ^ 7 else 10 ^ 12 - 1
        if b.lock = lkLOCKED ∨ b.phaseSource ≠ psNONE then max (-m) (min m b.hoop.sync.integ) else b.clk.rate) := by
  have lock : (b.setRate b.unslewed).lock = b.lock := Block.lock_congr (Block.reg_congr rfl _)
  rw [b.refServed_runs h, Block.srcLost_lock, Block.srcLost_clk, lock]
  refine ⟨rfl, by split <;> rfl, ?_⟩
  rw [← b.rateMax_cast]
  by_cases hl : b.lock = lkLOCKED
  · have locked : b.rateMax = ppm10 := if_pos (Nat.le_of_eq hl.symm)
    simp only [hl, if_true, true_or, locked]
    rfl
  · rw [if_neg hl]
    by_cases hp : b.phaseSource = psNONE
    · simp only [hl, hp, ne_eq, not_true_eq_false, or_self, if_false]
      exact if_pos hp
    · simp only [hp, ne_eq, not_false_eq_true, or_true, if_true]
      exact if_neg hp

/-- The loss of REFCLK as its command runs it, over what it leaves of the two flags. -/
theorem refclkLoss_runCmd (s : State) : exec .refclkLoss s = runCmd s (fun b => if !b.bit HOOP_STATE.REF_OK then b else
    b.refLost.refServed.when (b.refLost.refServed.bit PWR_PLL_ST.DSP_SRC) (fun b => b.set RXA_STAT.DSP_HOLD)) := rfl

theorem refclkLoss_idle (s : State) (h : s.blk.bit HOOP_STATE.REF_OK = false) : NoEffect .refclkLoss s := by
  refine gives_of_runCmd (refclkLoss_runCmd s) (if_pos ?_)
  rw [Block.start_bit, h]
  rfl

theorem refclkLoss_runs (s : State) (h : s.blk.bit HOOP_STATE.REF_OK = true) : Runs .refclkLoss s (fun t =>
    t.bit HOOP_STATE.REF_OK = false ∧ t.bit RXA_STAT.REFCLK_OK = false
    ∧ (s.blk.hoopDown = true → t.lock = s.blk.lock ∧ t.clk.rate = s.blk.clk.rate)
    ∧ (s.blk.hoopDown = false → t.lock = lockLost s.blk.lock
      ∧ t.clk.rate = (let m : Int := if lkLOCKED ≤ s.blk.lock then 10 ^ 7 else 10 ^ 12 - 1
          if s.blk.lock = lkLOCKED ∨ s.blk.phaseSource ≠ psNONE then max (-m) (min m s.blk.hoop.sync.integ) else s.blk.clk.rate))
    ∧ t.clk.htime = s.blk.clk.htime
    ∧ t.bit RXA_STAT.DSP_HOLD = (s.blk.bit RXA_STAT.DSP_HOLD || s.blk.bit PWR_PLL_ST.DSP_SRC)) := by
  have loses : (if !s.blk.start.bit HOOP_STATE.REF_OK then s.blk.start else
      s.blk.start.refLost.refServed.when (s.blk.start.refLost.refServed.bit PWR_PLL_ST.DSP_SRC) (fun b => b.set RXA_STAT.DSP_HOLD))
      = s.blk.start.refLost.refServed.when (s.blk.bit PWR_PLL_ST.DSP_SRC) (fun b => b.set RXA_STAT.DSP_HOLD) := by
    rw [Block.start_bit, h, s.blk.start.refLost.refServed_kept.bit PWR_PLL_ST.DSP_SRC 0 (by decide),
      s.blk.start.refLost_kept.bit PWR_PLL_ST.DSP_SRC 0 (by decide)]
    exact if_neg (by decide)
  have held (c : Bool) : RegsKept s.blk.start.refLost.refServed (s.blk.start.refLost.refServed.when c (fun b => b.set RXA_STAT.DSP_HOLD)) [RXA_STAT.all.base] :=
    (RegsKept.refl _ _).when_set RXA_STAT.DSP_HOLD 0 c (by decide)
  have lock (c : Bool) : (s.blk.start.refLost.refServed.when c (fun b => b.set RXA_STAT.DSP_HOLD)).canon.lock = s.blk.start.refLost.refServed.lock :=
    (Block.canon_rd _ _ _).trans (Block.lock_congr (held c _ (by decide)))
  have clk (c : Bool) : (s.blk.start.refLost.refServed.when c (fun b => b.set RXA_STAT.DSP_HOLD)).canon.clk = s.blk.start.refLost.refServed.clk :=
    Block.when_keeps (·.clk) rfl c
  have source : s.blk.start.refLost.phaseSource = s.blk.phaseSource := s.blk.start.refLost_kept.phaseSource (by decide) (by decide) (by decide)
  refine runs_of_effect (refclkLoss_runCmd s) loses ⟨?_, ?_, fun hd => ?_, fun hd => ?_, ?_, ?_⟩
  · rw [Block.canon_bit, (held _).bit HOOP_STATE.REF_OK 0 (by decide), Block.bit_of_rd (Block.refServed_rd _ HOOP_STATE.REF_OK 0 (by decide) (by decide) (by decide))]
    exact (Block.bit_wr_other _ _ _ _ _ _ (.inl (by decide))).trans (Block.bit_clr_same _ _ _ (by decide))
  · rw [Block.canon_bit, Block.bit_when_set_disjoint _ _ _ _ _ _ (by decide), Block.refServed_kept _ |>.bit RXA_STAT.REFCLK_OK 0 (by decide)]
    exact Block.bit_clr_same _ _ _ (by decide)
  · rw [lock, clk, Block.refServed_down s.blk.start.refLost hd, Block.refLost_lock]
    exact ⟨rfl, rfl⟩
  · obtain ⟨lost, -, rate⟩ := s.blk.start.refLost.refServed_up hd
    rw [lock, clk, lost, rate, Block.refLost_lock, source]
    exact ⟨rfl, rfl⟩
  · rw [clk]
    cases hd : s.blk.hoopDown
    · exact (s.blk.start.refLost.refServed_up hd).2.1
    · rw [Block.refServed_down s.blk.start.refLost hd]
      rfl
  · rw [Block.canon_bit, Block.bit_when_set_same _ _ _ _ (by decide) (by decide), (Block.refServed_kept _).bit RXA_STAT.DSP_HOLD 0 (by decide)]
    exact congrArg (· || _) ((Block.bit_wr_disjoint _ _ _ _ _ _ (by decide)).trans (Block.bit_wr_other _ _ _ _ _ _ (.inl (by decide))))

theorem refclkRestore_gives (s : State) : let b := (s.blk.start.set HOOP_STATE.REF_OK).set RXA_STAT.REFCLK_OK
    Gives .refclkRestore s (if s.blk.rd HOOP_CTL.PSRC = psNONE ∧ s.blk.hoopDown = false then b.setRate 0 else b) := by
  refine gives_of_runCmd (f := fun b => ((b.set HOOP_STATE.REF_OK).set RXA_STAT.REFCLK_OK).freeRun) rfl ?_
  have ready : ((s.blk.start.set HOOP_STATE.REF_OK).set RXA_STAT.REFCLK_OK).bit HOOP_STATE.REF_OK = true :=
    (Block.bit_of_rd (Block.rd_set_other _ _ _ _ _ (by decide))).trans (Block.bit_set_same _ _ _ (by decide) (by decide))
  have psrc : ((s.blk.start.set HOOP_STATE.REF_OK).set RXA_STAT.REFCLK_OK).rd HOOP_CTL.PSRC = s.blk.rd HOOP_CTL.PSRC :=
    (Block.rd_set_other _ _ _ _ _ (by decide)).trans (Block.rd_set_other _ _ _ _ _ (by decide))
  have down : ((s.blk.start.set HOOP_STATE.REF_OK).set RXA_STAT.REFCLK_OK).hoopDown = s.blk.hoopDown := rfl
  unfold Block.freeRun Block.when
  rw [ready, psrc, down]
  simp only [Bool.and_true, Bool.and_eq_true, beq_iff_eq, Bool.not_eq_true']

theorem dspRelock_idle (s : State) (h : ¬ (s.blk.bit RXA_STAT.DSP_HOLD = true ∧ s.blk.bit HOOP_STATE.REF_OK = true)) : NoEffect .dspRelock s :=
  gives_of_runCmd (f := fun b => if b.bit RXA_STAT.DSP_HOLD && b.bit HOOP_STATE.REF_OK then
    (b.clr RXA_STAT.DSP_HOLD).when (b.rd RXA_STAT.LINKS_UP != 0) (fun b => b.set RXA_EVT.LINK_UP) else b) rfl
    (if_neg (by rwa [Bool.and_eq_true]))

theorem dspRelock_runs (s : State) (h : s.blk.bit RXA_STAT.DSP_HOLD = true ∧ s.blk.bit HOOP_STATE.REF_OK = true) :
    Runs .dspRelock s (fun t => t.bit RXA_STAT.DSP_HOLD = false ∧ RegsKept s.blk t [RXA_STAT.all.base, RXA_EVT.all.base]
      ∧ t.bit RXA_EVT.LINK_UP = (s.blk.bit RXA_EVT.LINK_UP || s.blk.rd RXA_STAT.LINKS_UP != 0)) := by
  refine runs_of_effect (f := fun b => if b.bit RXA_STAT.DSP_HOLD && b.bit HOOP_STATE.REF_OK then
    (b.clr RXA_STAT.DSP_HOLD).when (b.rd RXA_STAT.LINKS_UP != 0) (fun b => b.set RXA_EVT.LINK_UP) else b) rfl
    (if_pos (by rw [Bool.and_eq_true]; exact h)) ⟨?_, RegsKept.canon ?_, ?_⟩
  · rw [Block.canon_bit, ((RegsKept.refl (s.blk.start.clr RXA_STAT.DSP_HOLD) [RXA_EVT.all.base]).when_set RXA_EVT.LINK_UP 0 _ (by decide)).bit
      RXA_STAT.DSP_HOLD 0 (by decide)]
    exact Block.bit_clr_same _ _ _ (by decide)
  · exact ((RegsKept.of_regs rfl).clr RXA_STAT.DSP_HOLD 0 (by decide)).when_set RXA_EVT.LINK_UP 0 _ (by decide)
  · rw [Block.canon_bit, Block.bit_when_set_same _ _ _ _ (by decide) (by decide)]
    exact congrArg (· || _) (Block.bit_wr_other _ _ _ _ _ _ (.inl (by decide)))

theorem holdMaxExpiry_idle (s : State) (h : s.blk.lock ≠ lkHOLDOVER ∨ s.blk.reg HOOP_HOLD_MAX.all.base = 0) : NoEffect .holdMaxExpiry s := by
  cases hd : s.blk.hoopDown
  · exact gives_of_hoopUp rfl hd (if_pos (h.imp id (fun e => congrArg BitVec.toNat e)))
  · exact noEffect_of_hoopDown rfl hd

/-- HOLDOVER ended at an instant (R56). -/
theorem Block.holdEnded_state (u : BitVec 64) (hl : b.lock = lkHOLDOVER) : let t := (b.toTime u).setLock lkUNLOCKED
    t.canon.lock = lkUNLOCKED ∧ t.canon.bit HOOP_EVT.LOCK_CHG = true ∧ RegsKept b t.canon [HOOP_STATE.all.base, HOOP_EVT.all.base]
    ∧ t.canon.clk = (b.toTime u).clk := by
  have changes : (b.toTime u).lock ≠ lkUNLOCKED := fun e => absurd (hl.symm.trans e) (by decide)
  refine ⟨?_, ?_, RegsKept.canon ?_, ?_⟩
  · exact (Block.canon_rd _ _ _).trans (Block.setLock_lock _ _)
  · exact (Block.canon_bit _ _ _).trans (Block.setLock_event _ changes)
  · exact (RegsKept.of_regs rfl).trans (Block.setLock_kept _ _)
  · exact (Block.setLock_clk _ changes).trans (if_neg (by decide))

theorem holdMaxExpiry_runs (s : State) (hd : s.blk.hoopDown = false) (hl : s.blk.lock = lkHOLDOVER) (hn : s.blk.reg HOOP_HOLD_MAX.all.base ≠ 0) :
    Runs .holdMaxExpiry s (fun t =>
      t.lock = lkUNLOCKED ∧ t.bit HOOP_EVT.LOCK_CHG = true ∧ RegsKept s.blk t [HOOP_STATE.all.base, HOOP_EVT.all.base]
      ∧ t.clk = (s.blk.toTime (s.blk.hoop.sync.holdStart + BitVec.ofNat 64 ((s.blk.reg HOOP_HOLD_MAX.all.base).toNat * 2 ^ 32))).clk) :=
  runs_of_hoopUp rfl hd (if_neg (not_or.2 ⟨not_not.2 hl, fun e => hn (BitVec.eq_of_toNat_eq e)⟩)) (s.blk.start.holdEnded_state _ hl)

end Sys2Proof.Machine
end

section
/-! SUPPORT. Writes of HOOP_CTL (R56, R80, R81, R83), and the obligation of the measurements. -/

namespace Sys2Proof.Machine

variable (b : Block)

/-- A field written twice holds the second value. -/
theorem fput_fput_same (v : BitVec 32) (f : Fld) (x y : Nat) : fput (fput v f x) f y = fput v f y := by
  refine BitVec.eq_of_getLsbD_eq fun i hi => ?_
  rw [fput_getLsbD, fput_getLsbD, fput_getLsbD]
  split
  · rfl
  · simp [hi]

/-! ### What each part of a write leaves -/

theorem Block.freeRun_keeps : b.freeRun.regs = b.regs ∧ b.freeRun.hoop = b.hoop :=
  ⟨Block.when_keeps (·.regs) rfl _, Block.when_keeps (·.hoop) rfl _⟩

/-- A change of PSRC unlocks, and keeps the redundancy (R56). -/
theorem Block.psrcChanged_state : RegsKept b b.psrcChanged [HOOP_STATE.all.base, HOOP_EVT.all.base] ∧ b.psrcChanged.lock = lkUNLOCKED
    ∧ b.psrcChanged.rd HOOP_STATE.STBY = b.rd HOOP_STATE.STBY ∧ b.psrcChanged.hoop.red = b.hoop.red := by
  have regs : b.psrcChanged.regs = (b.setLock lkUNLOCKED).regs := (Block.freeRun_keeps _).1
  refine ⟨(b.setLock_kept _).trans (.of_regs regs), ?_, ?_, ?_⟩
  · exact (Block.rd_congr regs HOOP_STATE.LOCK 0).trans (b.setLock_lock _)
  · exact (Block.rd_congr regs HOOP_STATE.STBY 0).trans (b.setLock_rd _ HOOP_STATE.STBY 0 (by decide) (by decide) (by decide))
  · exact (congrArg Hoop.red (Block.freeRun_keeps _).2).trans (b.setLock_parts _).2.1

theorem Block.proofNow_kept : RegsKept b b.proofNow [HOOP_CTL.all.base] :=
  RegsKept.trans ((RegsKept.refl b _).wr HOOP_CTL.PROOF_NOW 1 0 (by decide)) (.of_regs rfl)

/-- REARM moves no register, nor what FORCE_SW asks. -/
theorem Block.rearm_keeps : b.rearm.regs = b.regs ∧ b.rearm.hoop.red.dead = b.hoop.red.dead ∧ b.rearm.hoop.red.gap = b.hoop.red.gap := by
  unfold Block.rearm
  split <;> exact ⟨rfl, rfl, rfl⟩

theorem Block.rearm_rearms (hs : b.rd HOOP_STATE.STBY = 3) (hd : b.hoop.red.dead = false) : b.rearm.hoop.red.rearmed = true := by
  unfold Block.rearm
  rw [if_pos (by rw [hs, hd]; rfl)]
  rfl

/-! ### The start of a failover -/

theorem Block.failoverStart_idle (h : b.hoopDown = true) : b.failoverStart = b := if_pos h

theorem Block.failoverStart_gap (h : b.hoopDown = false) (hs : b.rd HOOP_STATE.STBY ≠ 3) :
    b.failoverStart = b.setRed { b.hoop.red with gap := true, gapEnd := b.clk.beat + 512, gapStrobes := [] } :=
  (if_neg (by rw [show (b.hoop.red.gap || b.hoop.red.dead) = false from h]; decide)).trans (if_neg hs)

theorem Block.failoverStart_dead (h : b.hoopDown = false) (hs : b.rd HOOP_STATE.STBY = 3) :
    b.failoverStart = ((b.setRed { b.hoop.red with dead := true }).set HOOP_EVT.STBY_FAILED).logHoop 6 :=
  (if_neg (by rw [show (b.hoop.red.gap || b.hoop.red.dead) = false from h]; decide)).trans (if_pos hs)

/-- FORCE_SW either does nothing or starts a gap: with STBY FAILED it is refused, so that no path is lost by it (R80). -/
theorem Block.forceSw_cases : b.forceSw = b
    ∨ b.forceSw = b.setRed { b.hoop.red with gap := true, gapEnd := b.clk.beat + 512, gapStrobes := [] } := by
  unfold Block.forceSw
  split
  · exact .inl rfl
  · next h =>
    cases hd : b.hoopDown
    · exact .inr (b.failoverStart_gap hd (not_or.1 h).1)
    · exact .inl (b.failoverStart_idle hd)

theorem Block.forceSw_keeps : b.forceSw.regs = b.regs ∧ b.forceSw.hoop.red.rearmed = b.hoop.red.rearmed := by
  rcases b.forceSw_cases with h | h <;> rw [h] <;> exact ⟨rfl, rfl⟩

theorem Block.forceSw_forces (hs : b.rd HOOP_STATE.STBY ≠ 3) (hd : b.hoop.red.dead = false) : b.forceSw.hoop.red.gap = true := by
  unfold Block.forceSw
  by_cases hg : b.hoop.red.gap = true
  · rw [if_pos (.inr hg)]
    exact hg
  · have up : b.hoopDown = false := by
      unfold Block.hoopDown
      rw [hd, Bool.eq_false_of_not_eq_true hg]
      rfl
    rw [if_neg (not_or.2 ⟨hs, hg⟩), b.failoverStart_gap up hs]
    rfl

/-! ### The write -/

/-- HOOP_CTL stored, and a proof run asked for. -/
def Block.ctlStored (b : Block) (v : BitVec 32) : Block :=
  (b.setReg HOOP_CTL.all.base (fput (v &&& 0x3F) HOOP_CTL.PROOF_NOW (b.rd HOOP_CTL.PROOF_NOW))).when (fget v HOOP_CTL.PROOF_NOW == 1) Block.proofNow

/-- The lock state after the write. -/
def Block.ctlUnlocked (b : Block) (v : BitVec 32) : Block :=
  (b.ctlStored v).when ((b.ctlStored v).rd HOOP_CTL.PSRC != b.rd HOOP_CTL.PSRC) Block.psrcChanged

/-- The redundancy after the write. -/
def Block.ctlActed (b : Block) (v : BitVec 32) : Block :=
  ((b.ctlUnlocked v).when (fget v HOOP_CTL.REARM == 1) Block.rearm).when (fget v HOOP_CTL.FORCE_SW == 1) Block.forceSw

theorem Block.hoopCtl_eq (v : BitVec 32) : b.hoopCtl v = (b.ctlActed v).tqShow := rfl

theorem Block.ctlStored_reg (v : BitVec 32) : (b.ctlStored v).reg HOOP_CTL.all.base
    = fput (v &&& 0x3F) HOOP_CTL.PROOF_NOW (max (b.rd HOOP_CTL.PROOF_NOW) (fget v HOOP_CTL.PROOF_NOW)) := by
  have was : b.rd HOOP_CTL.PROOF_NOW < 2 := fget_lt _ HOOP_CTL.PROOF_NOW
  have asked : fget v HOOP_CTL.PROOF_NOW < 2 := fget_lt _ HOOP_CTL.PROOF_NOW
  unfold Block.ctlStored
  by_cases h : fget v HOOP_CTL.PROOF_NOW = 1
  · rw [h, Nat.max_eq_right (by omega)]
    refine (Block.reg_setReg_same _ _ _).trans ((congrArg (fput · HOOP_CTL.PROOF_NOW 1) (b.reg_setReg_same _ _)).trans ?_)
    exact fput_fput_same _ _ _ _
  · rw [beq_eq_false_iff_ne.2 h, show fget v HOOP_CTL.PROOF_NOW = 0 by omega, Nat.max_zero]
    exact Block.reg_setReg_same _ _ _

theorem Block.ctlStored_keeps (v : BitVec 32) : RegsKept b (b.ctlStored v) [HOOP_CTL.all.base] ∧ (b.ctlStored v).hoop.red.dead = b.hoop.red.dead
    ∧ (b.ctlStored v).hoop.red.gap = b.hoop.red.gap := by
  have stored : RegsKept b (b.setReg HOOP_CTL.all.base (fput (v &&& 0x3F) HOOP_CTL.PROOF_NOW (b.rd HOOP_CTL.PROOF_NOW))) [HOOP_CTL.all.base] :=
    (RegsKept.refl b _).setReg (by decide) _
  exact ⟨stored.when (stored.trans (Block.proofNow_kept _)) _, Block.when_keeps (·.hoop.red.dead) rfl _,
    Block.when_keeps (·.hoop.red.gap) rfl _⟩

/-- The changes of PSRC reach HOOP_STATE and HOOP_EVT alone, and leave STBY. -/
theorem Block.ctlUnlocked_keeps (v : BitVec 32) : RegsKept (b.ctlStored v) (b.ctlUnlocked v) [HOOP_STATE.all.base, HOOP_EVT.all.base]
    ∧ (b.ctlUnlocked v).rd HOOP_STATE.STBY = b.rd HOOP_STATE.STBY ∧ (b.ctlUnlocked v).hoop.red.dead = b.hoop.red.dead
    ∧ (b.ctlUnlocked v).hoop.red.gap = b.hoop.red.gap := by
  obtain ⟨regs, -, stby, red⟩ := (b.ctlStored v).psrcChanged_state
  obtain ⟨stored, dead, gap⟩ := b.ctlStored_keeps v
  have same : (b.ctlUnlocked v).hoop.red = (b.ctlStored v).hoop.red := Block.when_keeps (·.hoop.red) red _
  exact ⟨(RegsKept.refl _ _).when regs _, (Block.when_keeps (·.rd HOOP_STATE.STBY) stby _).trans (stored.rd HOOP_STATE.STBY 0 (by decide)),
    (congrArg HoopRed.dead same).trans dead, (congrArg HoopRed.gap same).trans gap⟩

theorem Block.ctlUnlocked_lock (v : BitVec 32) : (b.ctlUnlocked v).lock
    = if (b.ctlUnlocked v).rd HOOP_CTL.PSRC = b.rd HOOP_CTL.PSRC then b.lock else lkUNLOCKED := by
  rw [(b.ctlUnlocked_keeps v).1.rd HOOP_CTL.PSRC 0 (by decide)]
  have was : (b.ctlStored v).lock = b.lock := Block.lock_congr ((b.ctlStored_keeps v).1 _ (by decide))
  unfold Block.ctlUnlocked
  split
  · next h => rw [h, bne_self_eq_false]; exact was
  · next h => rw [bne_iff_ne.2 h]; exact (b.ctlStored v).psrcChanged_state.2.1

theorem Block.ctlActed_regs (v : BitVec 32) : (b.ctlActed v).regs = (b.ctlUnlocked v).regs :=
  (Block.when_keeps (·.regs) (Block.forceSw_keeps _).1 _).trans (Block.when_keeps (·.regs) (Block.rearm_keeps _).1 _)

theorem Block.ctlActed_rearms (v : BitVec 32) (hv : fget v HOOP_CTL.REARM = 1) (hs : b.rd HOOP_STATE.STBY = 3) (hd : b.hoop.red.dead = false) :
    (b.ctlActed v).hoop.red.rearmed = true := by
  obtain ⟨-, stby, dead, -⟩ := b.ctlUnlocked_keeps v
  refine (Block.when_keeps (·.hoop.red.rearmed) (Block.forceSw_keeps _).2 _).trans ?_
  rw [hv]
  exact Block.rearm_rearms _ (stby.trans hs) (dead.trans hd)

theorem Block.ctlActed_forces (v : BitVec 32) (hv : fget v HOOP_CTL.FORCE_SW = 1) (hs : b.rd HOOP_STATE.STBY ≠ 3) (hd : b.hoop.red.dead = false) :
    (b.ctlActed v).hoop.red.gap = true := by
  obtain ⟨-, stby, dead, -⟩ := b.ctlUnlocked_keeps v
  unfold Block.ctlActed
  rw [hv]
  refine Block.forceSw_forces _ ?_ ?_
  · rw [Block.when_keeps (·.rd HOOP_STATE.STBY) (Block.rd_congr (Block.rearm_keeps _).1 _ _) _, stby]
    exact hs
  · rw [Block.when_keeps (·.hoop.red.dead) (Block.rearm_keeps _).2.1 _, dead]
    exact hd

theorem Block.ctlActed_gap (v : BitVec 32) (hv : fget v HOOP_CTL.FORCE_SW = 0) : (b.ctlActed v).hoop.red.gap = b.hoop.red.gap := by
  obtain ⟨-, -, -, gap⟩ := b.ctlUnlocked_keeps v
  unfold Block.ctlActed
  rw [hv]
  exact (Block.when_keeps (·.hoop.red.gap) (Block.rearm_keeps _).2.2 _).trans gap

theorem psrcWrite_runs (s : State) (v : Word) : Runs (.psrcWrite v) s (fun t =>
      t.reg HOOP_CTL.all.base = fput (v &&& 0x3F) HOOP_CTL.PROOF_NOW (max (s.blk.rd HOOP_CTL.PROOF_NOW) (fget v HOOP_CTL.PROOF_NOW))
      ∧ t.lock = (if t.rd HOOP_CTL.PSRC = s.blk.rd HOOP_CTL.PSRC then s.blk.lock else lkUNLOCKED)
      ∧ (fget v HOOP_CTL.REARM = 1 → s.blk.rd HOOP_STATE.STBY = 3 → s.blk.hoop.red.dead = false → t.hoop.red.rearmed = true)
      ∧ (fget v HOOP_CTL.FORCE_SW = 1 → s.blk.rd HOOP_STATE.STBY ≠ 3 → s.blk.hoop.red.dead = false → t.hoop.red.gap = true)
      ∧ (fget v HOOP_CTL.FORCE_SW = 0 → t.hoop.red.gap = s.blk.hoop.red.gap)) := by
  have shown : RegsKept (s.blk.start.ctlUnlocked v) (s.blk.start.ctlActed v).tqShow.canon [HOOP_STATE.all.base] :=
    ((RegsKept.of_regs (s.blk.start.ctlActed_regs v)).wr HOOP_STATE.TQ _ 0 (by decide)).canon
  have lock : (s.blk.start.ctlActed v).tqShow.canon.lock = (s.blk.start.ctlUnlocked v).lock :=
    ((Block.canon_rd _ _ _).trans (Block.rd_wr_disjoint _ _ _ _ _ _ (by decide))).trans (Block.rd_congr (s.blk.start.ctlActed_regs v) HOOP_STATE.LOCK 0)
  refine runs_of_runCmd (f := fun b => b.hoopCtl v) rfl ?_
  rw [Block.hoopCtl_eq]
  refine ⟨?_, ?_, s.blk.start.ctlActed_rearms v, s.blk.start.ctlActed_forces v, s.blk.start.ctlActed_gap v⟩
  · rw [shown _ (by decide), (s.blk.start.ctlUnlocked_keeps v).1 _ (by decide)]
    exact s.blk.start.ctlStored_reg v
  · rw [lock, shown.rd HOOP_CTL.PSRC 0 (by decide)]
    exact s.blk.start.ctlUnlocked_lock v

/-- Settles O22: each command of the measurements, of the sources, of REFCLK, of HOLD_MAX and of HOOP_CTL, by what it leaves of the lock state. -/
theorem hoopMeasurements : Obligations.HoopMeasurements := by
  unfold Obligations.HoopMeasurements
  refine ⟨fun s v h => ⟨fun t => noEffect_of_hoopDown rfl h, noEffect_of_hoopDown rfl h, noEffect_of_hoopDown rfl h, noEffect_of_hoopDown rfl h,
      ptpSubmit_down_gives s v h, fun e => s.blk.ifHoop_down _ h⟩,
    ppsEdge_refused_gives, ppsEdge_accepted_gives, ppsWindowClose_idle, ppsWindowClose_runs, fun s v h => ⟨fun old => ?_, fun fresh => ?_⟩,
    ptpSourceLost_idle, ptpSourceLost_runs, Block.measure_unready, fun b e hd hr => ?_, refclkLoss_idle, refclkLoss_runs, refclkRestore_gives,
    fun s => ?_, holdMaxExpiry_idle, holdMaxExpiry_runs, psrcWrite_runs⟩
  · exact gives_of_runCmd (f := fun b => b.ptpSubmit v) rfl ((ptpSubmit_eq s v h).trans (if_pos old))
  · exact gives_of_runCmd (f := fun b => b.ptpSubmit v) rfl ((ptpSubmit_eq s v h).trans (if_neg (Nat.not_lt.2 fresh)))
  · obtain ⟨lock, rate, step, shown⟩ := b.measure_state e hd hr
    exact ⟨lock.trans (b.measured_lock e), rate, fun ha hb hs hg => step.trans (b.measured_step e (lock ▸ ha) hb hs hg),
      shown.trans (b.measured_shown e)⟩
  · split
    · next h => exact dspRelock_runs s h
    · next h => exact dspRelock_idle s h

end Sys2Proof.Machine
end

section
/-! SUPPORT. The timers (R506–R512): their registers, what one operation does to one timer, and an operation on every timer of a mask. -/

namespace Sys2Proof.Machine

variable (b : Block)

/-! ### The registers of the timers -/

/-- Registers of two columns of the timers are different. -/
theorem Fld.off_ne_of_column (f g : Fld) (n m : Nat) (hf : f.stride = 32) (hg : g.stride = 32) (h : f.base % 32 ≠ g.base % 32) : f.off n ≠ g.off m := by
  unfold Fld.off
  rw [hf, hg]
  omega

/-- Registers of two timers are different. -/
theorem Fld.off_ne_of_row (f : Fld) (n m : Nat) (hf : f.stride = 32) (h : n ≠ m) : f.off n ≠ f.off m := by
  unfold Fld.off
  rw [hf]
  omega

/-- A timer's register is none of those before them. -/
theorem Fld.off_ne_of_lt (f : Fld) (n o : Nat) (h : o < f.base) : f.off n ≠ o := by
  unfold Fld.off
  omega

/-- The registers in which the counting of timer `n` shows. -/
def tmrRegs (n : Nat) : List Nat := [TMR_RUN.all.base, TMR_CNT.all.off n, TMR_FLAG.all.off n]

/-- The registers in which the counting of the timers shows. -/
def tmrAllRegs : List Nat := TMR_RUN.all.base :: (List.range 32).flatMap (fun n => [TMR_CNT.all.off n, TMR_FLAG.all.off n])

theorem tmrRegs_subset {n : Nat} (h : n < 32) : tmrRegs n ⊆ tmrAllRegs := by
  intro o ho
  simp only [tmrRegs, List.mem_cons, List.not_mem_nil, or_false] at ho
  rcases ho with rfl | rfl | rfl
  · exact List.mem_cons_self
  · exact List.mem_cons_of_mem _ (List.mem_flatMap.2 ⟨n, List.mem_range.2 h, List.mem_cons_self⟩)
  · exact List.mem_cons_of_mem _ (List.mem_flatMap.2 ⟨n, List.mem_range.2 h, List.mem_cons_of_mem _ List.mem_cons_self⟩)

/-- A register of another column is none of them. -/
theorem not_mem_tmrAllRegs {o : Nat} (h : o ≠ TMR_RUN.all.base) (hc : o % 32 ≠ 12) (hf : o % 32 ≠ 20) : o ∉ tmrAllRegs := by
  intro ho
  rcases List.mem_cons.1 ho with e | e
  · exact h e
  · obtain ⟨n, -, hn⟩ := List.mem_flatMap.1 e
    simp only [List.mem_cons, List.not_mem_nil, or_false, Fld.off] at hn
    omega

theorem not_mem_tmrRegs {o n : Nat} (h : o ≠ TMR_RUN.all.base) (hc : o ≠ TMR_CNT.all.off n) (hf : o ≠ TMR_FLAG.all.off n) : o ∉ tmrRegs n := by
  simp only [tmrRegs, List.mem_cons, List.not_mem_nil, or_false, not_or]
  exact ⟨h, hc, hf⟩

/-- A register of the timers' configuration is none of those in which their counting shows. -/
theorem tmrCfg_not_mem (f : Fld) (n : Nat) (hs : f.stride = 32) (hb : TMR_CFG.all.base ≤ f.base) (hc : f.base % 32 ≠ 12) (hf : f.base % 32 ≠ 20) :
    f.off n ∉ tmrAllRegs := by
  refine not_mem_tmrAllRegs (f.off_ne_of_lt n _ (Nat.lt_of_lt_of_le (by decide) hb)) ?_ ?_ <;>
  · unfold Fld.off
    rw [hs]
    omega

/-! ### What a timer reads -/

theorem Block.timer_setTimer_same (n : Nat) (x : TimerSt) : (b.setTimer n x).timer n = x := Tbl.get_put_same _ _ _ _

theorem Block.timer_setTimer_other (n m : Nat) (x : TimerSt) (h : m ≠ n) : (b.setTimer n x).timer m = b.timer m := Tbl.get_put_other _ _ _ _ _ h

theorem Block.tmrRuns_congr {b c : Block} (h : c.reg TMR_RUN.all.base = b.reg TMR_RUN.all.base) (n : Nat) : c.tmrRuns n = b.tmrRuns n := by
  unfold Block.tmrRuns
  rw [h]

theorem Block.timer_congr {b c : Block} (h : c.tmr.timers = b.tmr.timers) (n : Nat) : c.timer n = b.timer n := by
  unfold Block.timer
  rw [h]

theorem Block.linked_congr {b c : Block} {n : Nat} (h : c.reg (TMR_CFG.all.off n) = b.reg (TMR_CFG.all.off n)) : c.linked n = b.linked n := by
  unfold Block.linked
  rw [show c.bit TMR_CFG.LINK n = b.bit TMR_CFG.LINK n from congrArg (fget · TMR_CFG.LINK != 0) h]

/-- TMR_RUN shows each timer in its bit. -/
theorem Block.tmrRuns_tmrRun (n m : Nat) (v : Bool) (hm : m < 32) : (b.tmrRun n v).tmrRuns m = if m = n then v else b.tmrRuns m := by
  unfold Block.tmrRun Block.tmrRuns bitOf
  rw [Block.reg_setReg_same]
  cases v
  · change (b.reg TMR_RUN.all.base &&& ~~~((1 : BitVec 32) <<< n)).getLsbD m = if m = n then false else (b.reg TMR_RUN.all.base).getLsbD m
    rw [BitVec.getLsbD_and, BitVec.getLsbD_not, getLsbD_one_shiftLeft n m hm]
    by_cases h : m = n <;> simp [h, hm]
  · change (b.reg TMR_RUN.all.base ||| ((1 : BitVec 32) <<< n)).getLsbD m = if m = n then true else (b.reg TMR_RUN.all.base).getLsbD m
    rw [BitVec.getLsbD_or, getLsbD_one_shiftLeft n m hm]
    by_cases h : m = n <;> simp [h]

/-! ### The output of a timer -/

/-- The output that timer `n` takes at the count `c` (R511). -/
def Block.outAt (b : Block) (n c : Nat) (toggle : Bool) : Bool :=
  match b.rd TMR_CFG.OUTMODE n with
  | 1 => (b.timer n).out != toggle
  | 2 => decide (c < (b.timer n).mat)
  | 3 => decide ((b.timer n).mat ≤ c)
  | _ => false

theorem Block.tmrOut_eq (n c : Nat) (toggle : Bool) : b.tmrOut n c toggle = if b.outAt n c toggle = (b.timer n).out then b
    else (b.setTimer n { b.timer n with out := b.outAt n c toggle }).emit (.pin "TMR_OUT" n (b.outAt n c toggle)) := rfl

theorem Block.tmrOut_regs (n c : Nat) (toggle : Bool) : (b.tmrOut n c toggle).regs = b.regs := by
  rw [Block.tmrOut_eq]
  split <;> rfl

theorem Block.timer_tmrOut (n c : Nat) (toggle : Bool) : (b.tmrOut n c toggle).timer n = { b.timer n with out := b.outAt n c toggle } := by
  rw [Block.tmrOut_eq]
  split
  · next h => rw [h]
  · exact b.timer_setTimer_same n _

/-! ### An operation on one timer -/

/-- Between `b` and `t` nothing changed but timer `n`, its count, its flags and its bit of TMR_RUN. -/
structure OnTimer (n : Nat) (b t : Block) : Prop where
  clk : t.clk = b.clk
  timers : ∀ m, m ≠ n → t.timer m = b.timer m
  regs : RegsKept b t (tmrRegs n)
  runs : ∀ m, m < 32 → m ≠ n → t.tmrRuns m = b.tmrRuns m

namespace OnTimer

variable {b} {n : Nat} {t : Block}

theorem refl (n : Nat) (b : Block) : OnTimer n b b := ⟨rfl, fun _ _ => rfl, .refl b _, fun _ _ _ => rfl⟩

theorem trans {u : Block} (h : OnTimer n b t) (g : OnTimer n t u) : OnTimer n b u :=
  ⟨g.clk.trans h.clk, fun m hm => (g.timers m hm).trans (h.timers m hm), h.regs.trans g.regs, fun m hl hm => (g.runs m hl hm).trans (h.runs m hl hm)⟩

theorem setTimer (h : OnTimer n b t) (x : TimerSt) : OnTimer n b (t.setTimer n x) :=
  h.trans ⟨rfl, fun m hm => t.timer_setTimer_other n m x hm, .of_regs rfl, fun _ _ _ => rfl⟩

/-- A register of timer `n` that is not TMR_RUN. -/
theorem setReg (h : OnTimer n b t) {o : Nat} (ho : o ∈ tmrRegs n) (hr : o ≠ TMR_RUN.all.base) (v : BitVec 32) : OnTimer n b (t.setReg o v) :=
  h.trans ⟨rfl, fun _ _ => rfl, (RegsKept.refl t _).setReg ho v, fun m _ _ => Block.tmrRuns_congr (t.reg_setReg_other _ _ _ hr.symm) m⟩

theorem setCnt (h : OnTimer n b t) (v : BitVec 32) : OnTimer n b (t.setReg (TMR_CNT.all.off n) v) :=
  h.setReg (by simp [tmrRegs]) (Fld.off_ne_of_lt _ _ _ (by decide)) v

theorem wrFlag (h : OnTimer n b t) (f : Fld) (x : Nat) (hf : f.off n = TMR_FLAG.all.off n) : OnTimer n b (t.wr f x n) :=
  h.setReg (by simp [tmrRegs, hf]) (by rw [hf]; exact Fld.off_ne_of_lt _ _ _ (by decide)) _

theorem setFlag (h : OnTimer n b t) (f : Fld) (hf : f.off n = TMR_FLAG.all.off n) : OnTimer n b (t.set f n) :=
  h.trans ((show OnTimer n t (t.tieNote (f.off n) (fun v => fput v f 1)) from ⟨rfl, fun _ _ => rfl, .of_regs rfl, fun _ _ _ => rfl⟩).wrFlag f 1 hf)

theorem emit (h : OnTimer n b t) (o : Output) : OnTimer n b (t.emit o) := h.trans ⟨rfl, fun _ _ => rfl, .of_regs rfl, fun _ _ _ => rfl⟩

theorem tmrRun (h : OnTimer n b t) (v : Bool) : OnTimer n b (t.tmrRun n v) :=
  h.trans ⟨rfl, fun _ _ => rfl, (RegsKept.refl t _).setReg (by simp [tmrRegs]) _, fun m hl hm => by rw [t.tmrRuns_tmrRun n m v hl, if_neg hm]⟩

theorem when {f : Block → Block} (h : OnTimer n b t) (hf : OnTimer n b (f t)) (c : Bool) : OnTimer n b (t.when c f) := by
  cases c
  · exact h
  · exact hf

theorem tmrLoad (h : OnTimer n b t) : OnTimer n b (t.tmrLoad n) := h.setTimer _

theorem tmrOut (h : OnTimer n b t) (c : Nat) (toggle : Bool) : OnTimer n b (t.tmrOut n c toggle) := by
  rw [Block.tmrOut_eq]
  split
  · exact h
  · exact (h.setTimer _).emit _

theorem cnt_other (h : OnTimer n b t) (m : Nat) (hm : m ≠ n) : t.reg (TMR_CNT.all.off m) = b.reg (TMR_CNT.all.off m) :=
  h.regs _ (not_mem_tmrRegs (Fld.off_ne_of_lt _ m _ (by decide)) (Fld.off_ne_of_row _ m n rfl hm) (Fld.off_ne_of_column _ _ m n rfl rfl (by decide)))

theorem flag_other (h : OnTimer n b t) (m : Nat) (hm : m ≠ n) : t.reg (TMR_FLAG.all.off m) = b.reg (TMR_FLAG.all.off m) :=
  h.regs _ (not_mem_tmrRegs (Fld.off_ne_of_lt _ m _ (by decide)) (Fld.off_ne_of_column _ _ m n rfl rfl (by decide)) (Fld.off_ne_of_row _ m n rfl hm))

theorem tmrCnt_other (h : OnTimer n b t) (m : Nat) (hm : m ≠ n) : t.tmrCnt m = b.tmrCnt m := congrArg BitVec.toNat (h.cnt_other m hm)

/-- The configuration of every timer stays. -/
theorem reg_cfg (h : OnTimer n b t) (f : Fld) (m : Nat) (hs : f.stride = 32) (hb : TMR_CFG.all.base ≤ f.base) (hc : f.base % 32 ≠ 12)
    (hf : f.base % 32 ≠ 20) : t.reg (f.off m) = b.reg (f.off m) :=
  h.regs _ (not_mem_tmrRegs (f.off_ne_of_lt m _ (Nat.lt_of_lt_of_le (by decide) hb)) (f.off_ne_of_column TMR_CNT.all m n hs rfl hc)
    (f.off_ne_of_column TMR_FLAG.all m n hs rfl hf))

theorem linked (h : OnTimer n b t) (m : Nat) : t.linked m = b.linked m :=
  Block.linked_congr (h.reg_cfg TMR_CFG.all m rfl (by decide) (by decide) (by decide))

end OnTimer

/-! ### An operation on a timer and on the odd one linked to it -/

/-- The timer whose GO, STOP or capture timer `n` follows (R508). -/
def Block.home (b : Block) (n : Nat) : Nat := if b.linked n then n - 1 else n

/-- The operation `g` on timer `n`: a linked odd one follows its even one alone. -/
def Block.withMate (g : Block → Nat → Block) (t : Block) (n : Nat) : Block :=
  if t.linked n then t else (g t n).when (n % 2 == 0 && t.linked (n + 1)) (fun u => g u (n + 1))

theorem Block.linked_odd {n : Nat} (h : b.linked n = true) : n % 2 = 1 := by
  unfold Block.linked at h
  rw [Bool.and_eq_true, beq_iff_eq] at h
  exact h.1

/-- No timer follows a linked one. -/
theorem Block.home_ne_of_linked {m : Nat} (h : b.linked m = true) (n : Nat) : b.home n ≠ m := by
  have hm := b.linked_odd h
  unfold Block.home
  split
  · next hn =>
    have := b.linked_odd hn
    omega
  · next hn =>
    rintro rfl
    exact hn h

/-- Those that follow a timer which is not linked are itself and, linked to it, the next one. -/
theorem Block.home_eq_iff {m : Nat} (h : b.linked m = false) (n : Nat) :
    b.home n = m ↔ n = m ∨ (m % 2 = 0 ∧ b.linked (m + 1) = true ∧ n = m + 1) := by
  unfold Block.home
  split
  · next hn =>
    have odd := b.linked_odd hn
    constructor
    · intro e
      have next : n = m + 1 := by omega
      exact .inr ⟨by omega, next ▸ hn, next⟩
    · rintro (rfl | ⟨-, -, e⟩)
      · rw [h] at hn
        exact absurd hn (by decide)
      · omega
  · next hn =>
    constructor
    · exact .inl
    · rintro (e | ⟨-, hl, e⟩)
      · exact e
      · exact absurd (e ▸ hl) hn

theorem Block.home_lt {n : Nat} (h : n < 32) : b.home n < 32 := by
  unfold Block.home
  split <;> omega

section
variable {α : Type} {view : Block → Nat → α} {h : Nat → α → α} {g : Block → Nat → Block} {Q : Block → Prop}

/-- An operation that acts on one timer by `h`, as `view` shows it, acts so on every timer that follows one of a list, and on no other. -/
theorem Block.foldl_withMate (keeps : ∀ t n, n < 32 → Q t → Q (g t n)) (same : ∀ t n, n < 32 → Q t → view (g t n) n = h n (view t n))
    (other : ∀ t n m, n < 32 → m < 32 → m ≠ n → Q t → view (g t n) m = view t m) (link : ∀ t, Q t → ∀ n, t.linked n = b.linked n) (hb : Q b)
    (l : List Nat) (nodup : l.Nodup) (lt : ∀ m ∈ l, m < 32) :
    Q (l.foldl (Block.withMate g) b) ∧ ∀ n, n < 32 →
      view (l.foldl (Block.withMate g) b) n = if b.home n ∈ l then h n (view b n) else view b n := by
  induction l using List.reverseRecOn with
  | nil => exact ⟨hb, fun n _ => by simp⟩
  | append_singleton l m ih =>
    rw [List.nodup_append] at nodup
    obtain ⟨nodupL, -, apart⟩ := nodup
    obtain ⟨hQ, views⟩ := ih nodupL (fun i hi => lt i (List.mem_append_left _ hi))
    have hm : m < 32 := lt m (by simp)
    have fresh : m ∉ l := fun hi => apart m hi m (by simp) rfl
    rw [List.foldl_append]
    generalize l.foldl (Block.withMate g) b = t at hQ views
    change Q (t.withMate g m) ∧ ∀ n, n < 32 → view (t.withMate g m) n = _
    unfold Block.withMate
    rw [link t hQ m, link t hQ (m + 1)]
    simp only [List.mem_append, List.mem_singleton]
    cases hl : b.linked m
    · simp only [b.home_eq_iff hl]
      by_cases mate : m % 2 = 0 ∧ b.linked (m + 1) = true
      · have hm' : m + 1 < 32 := by omega
        have Q1 := keeps t m hm hQ
        rw [show (m % 2 == 0 && b.linked (m + 1)) = true by simp [mate]]
        refine ⟨keeps _ _ hm' Q1, fun n hn => ?_⟩
        change view (g (g t m) (m + 1)) n = _
        have notYet (hh : b.home n = m) : view t n = view b n := by rw [views n hn, if_neg (hh ▸ fresh)]
        by_cases h1 : n = m + 1
        · subst h1
          have hh : b.home (m + 1) = m := (b.home_eq_iff hl _).2 (.inr ⟨mate.1, mate.2, rfl⟩)
          rw [same _ _ hm' Q1, other t m (m + 1) hm hm' (by omega) hQ, notYet hh, if_pos (.inr (.inr ⟨mate.1, mate.2, rfl⟩))]
        · rw [other _ _ n hm' hn h1 Q1]
          by_cases h0 : n = m
          · subst h0
            rw [same t n hn hQ, notYet ((b.home_eq_iff hl _).2 (.inl rfl)), if_pos (.inr (.inl rfl))]
          · rw [other t m n hm hn h0 hQ, views n hn]
            simp only [h0, h1, and_false, or_false]
      · rw [show (m % 2 == 0 && b.linked (m + 1)) = false by simpa using mate]
        refine ⟨keeps t m hm hQ, fun n hn => ?_⟩
        change view (g t m) n = _
        by_cases h0 : n = m
        · subst h0
          have own : b.home n = n := (b.home_eq_iff hl n).2 (.inl rfl)
          rw [same t n hn hQ, views n hn, if_neg (by rwa [own]), if_pos (.inr (.inl rfl))]
        · rw [other t m n hm hn h0 hQ, views n hn]
          have : ¬ (m % 2 = 0 ∧ b.linked (m + 1) = true ∧ n = m + 1) := fun hh => mate ⟨hh.1, hh.2.1⟩
          simp only [h0, this, or_false]
    · refine ⟨hQ, fun n hn => (views n hn).trans ?_⟩
      simp only [b.home_ne_of_linked hl n, or_false]

end

theorem tmrList_nodup (p : Nat → Bool) : ((List.range 32).filter p).Nodup := List.nodup_range.filter p

theorem tmrList_lt (p : Nat → Bool) : ∀ m ∈ (List.range 32).filter p, m < 32 := fun _ h => List.mem_range.1 (List.mem_filter.1 h).1

theorem Block.home_mem_tmrList (p : Nat → Bool) {n : Nat} (h : n < 32) : b.home n ∈ (List.range 32).filter p ↔ p (b.home n) = true := by
  rw [List.mem_filter, List.mem_range]
  exact ⟨And.right, fun hp => ⟨b.home_lt h, hp⟩⟩

end Sys2Proof.Machine
end

section
/-! SUPPORT. The start and the stop of timers, and the armed start (R506, R508, R509, R511). -/

namespace Sys2Proof.Machine

variable (b : Block)

/-! ### One timer starts -/

theorem OnTimer.rd_cfg {b t : Block} {n : Nat} (h : OnTimer n b t) (f : Fld) (m : Nat) (hs : f.stride = 32) (hb : TMR_CFG.all.base ≤ f.base)
    (hc : f.base % 32 ≠ 12) (hf : f.base % 32 ≠ 20) : t.rd f m = b.rd f m := by
  unfold Block.rd
  rw [h.reg_cfg f m hs hb hc hf]

/-- Timer `n` as its start in the block `b` leaves it (R506, R511). -/
def Block.startedTimer (b : Block) (n : Nat) (x : TimerSt) : TimerSt :=
  let mat := (b.reg (TMR_MATCH.all.off n)).toNat
  { x with top := (b.reg (TMR_TOP.all.off n)).toNat, mat := mat, due := b.clk.beat + 2 ^ b.rd TMR_CFG.PSC n,
           out := match b.rd TMR_CFG.OUTMODE n with | 2 => decide (0 < mat) | 3 => mat == 0 | _ => false }

/-- Timer `n` loaded, running and at 0. -/
def Block.tmrZeroed (b : Block) (n : Nat) : Block := (((b.tmrLoad n).tmrRun n true).setReg (TMR_CNT.all.off n) 0).clr TMR_FLAG.DIR n

/-- The same, with its first tick due. -/
def Block.tmrTimed (b : Block) (n : Nat) : Block :=
  (b.tmrZeroed n).setTimer n { (b.tmrZeroed n).timer n with due := (b.tmrZeroed n).clk.beat + 2 ^ (b.tmrZeroed n).rd TMR_CFG.PSC n }

/-- The same, with the output of mode 1 low. -/
def Block.tmrLow (b : Block) (n : Nat) : Block :=
  (b.tmrTimed n).when ((b.tmrTimed n).rd TMR_CFG.OUTMODE n == 1 && ((b.tmrZeroed n).timer n).out) (fun t =>
    (t.setTimer n { t.timer n with out := false }).emit (.pin "TMR_OUT" n false))

theorem Block.tmrStart1_eq (n : Nat) : b.tmrStart1 n = (b.tmrLow n).tmrOut n 0 false := rfl

theorem Block.tmrZeroed_on (n : Nat) : OnTimer n b (b.tmrZeroed n) := (((OnTimer.refl n b).tmrLoad.tmrRun true).setCnt 0).wrFlag TMR_FLAG.DIR 0 rfl

theorem Block.tmrTimed_on (n : Nat) : OnTimer n b (b.tmrTimed n) := (b.tmrZeroed_on n).setTimer _

theorem Block.tmrLow_on (n : Nat) : OnTimer n b (b.tmrLow n) := (b.tmrTimed_on n).when (((b.tmrTimed_on n).setTimer _).emit _) _

theorem Block.tmrStart1_on (n : Nat) : OnTimer n b (b.tmrStart1 n) := (b.tmrLow_on n).tmrOut 0 false

theorem Block.tmrStart1_regs (n : Nat) : (b.tmrStart1 n).regs = (b.tmrZeroed n).regs := by
  rw [b.tmrStart1_eq, Block.tmrOut_regs]
  exact Block.when_keeps (·.regs) rfl _

theorem Block.tmrZeroed_timer (n : Nat) : (b.tmrZeroed n).timer n = { b.timer n with
    top := (b.reg (TMR_TOP.all.off n)).toNat, mat := (b.reg (TMR_MATCH.all.off n)).toNat } := b.timer_setTimer_same n _

theorem Block.tmrTimed_timer (n : Nat) : (b.tmrTimed n).timer n = { b.timer n with
    top := (b.reg (TMR_TOP.all.off n)).toNat, mat := (b.reg (TMR_MATCH.all.off n)).toNat, due := b.clk.beat + 2 ^ b.rd TMR_CFG.PSC n } := by
  refine (Block.timer_setTimer_same _ n _).trans ?_
  rw [b.tmrZeroed_timer, (b.tmrZeroed_on n).clk, (b.tmrZeroed_on n).rd_cfg TMR_CFG.PSC n rfl (by decide) (by decide) (by decide)]

theorem Block.tmrStart1_timer (n : Nat) : (b.tmrStart1 n).timer n = b.startedTimer n (b.timer n) := by
  have mode : (b.tmrLow n).rd TMR_CFG.OUTMODE n = b.rd TMR_CFG.OUTMODE n := (b.tmrLow_on n).rd_cfg TMR_CFG.OUTMODE n rfl (by decide) (by decide) (by decide)
  have low : (b.tmrLow n).timer n = { (b.tmrTimed n).timer n with out := !(b.rd TMR_CFG.OUTMODE n == 1) && (b.timer n).out } := by
    have was : ((b.tmrZeroed n).timer n).out = (b.timer n).out := by rw [b.tmrZeroed_timer]
    unfold Block.tmrLow
    rw [(b.tmrTimed_on n).rd_cfg TMR_CFG.OUTMODE n rfl (by decide) (by decide) (by decide), was]
    cases h1 : b.rd TMR_CFG.OUTMODE n == 1
    · change (b.tmrTimed n).timer n = _
      rw [b.tmrTimed_timer]
      rfl
    · cases ho : (b.timer n).out
      · change (b.tmrTimed n).timer n = _
        rw [b.tmrTimed_timer]
        dsimp only
        rw [ho]
        rfl
      · exact Block.timer_setTimer_same _ n _
  rw [b.tmrStart1_eq, Block.timer_tmrOut]
  unfold Block.outAt Block.startedTimer
  rw [mode, low, b.tmrTimed_timer]
  split
  · next h => simp [h]
  · next h => simp [h]
  · next h => simp [h, Bool.beq_eq_decide_eq]
  · simp

/-- A started timer runs from 0 upwards (R506). -/
theorem Block.tmrStart1_counts (n : Nat) (h : n < 32) : (b.tmrStart1 n).tmrRuns n = true ∧ (b.tmrStart1 n).tmrCnt n = 0
    ∧ (b.tmrStart1 n).bit TMR_FLAG.DIR n = false := by
  have cnt : (TMR_CNT.all.off n) ≠ TMR_FLAG.DIR.off n := Fld.off_ne_of_column _ _ n n rfl rfl (by decide)
  have runs : (b.tmrZeroed n).tmrRuns n = ((b.tmrLoad n).tmrRun n true).tmrRuns n := Block.tmrRuns_congr
    ((Block.reg_setReg_other _ _ _ _ (Fld.off_ne_of_lt TMR_FLAG.DIR n _ (by decide)).symm).trans
      (Block.reg_setReg_other _ _ _ _ (Fld.off_ne_of_lt TMR_CNT.all n _ (by decide)).symm)) n
  refine ⟨(Block.tmrRuns_congr (Block.reg_congr (b.tmrStart1_regs n) _) n).trans ?_, ?_, ?_⟩
  · rw [runs, Block.tmrRuns_tmrRun _ _ _ _ h, if_pos rfl]
  · unfold Block.tmrCnt
    rw [Block.reg_congr (b.tmrStart1_regs n) _]
    exact congrArg BitVec.toNat ((Block.reg_setReg_other _ _ _ _ cnt).trans (Block.reg_setReg_same _ _ _))
  · rw [Block.bit_of_rd (Block.rd_congr (b.tmrStart1_regs n) TMR_FLAG.DIR n)]
    exact Block.bit_clr_same _ TMR_FLAG.DIR n (by decide)

/-! ### Timers start together -/

/-- What TimersStart says of a timer that starts, and of one that does not. -/
def TimerStarted (b t : Block) (n : Nat) : Prop :=
  t.tmrRuns n = true ∧ t.tmrCnt n = 0 ∧ t.bit TMR_FLAG.DIR n = false ∧ t.timer n = b.startedTimer n (b.timer n)

def TimerHeld (b t : Block) (n : Nat) : Prop :=
  t.tmrRuns n = b.tmrRuns n ∧ t.tmrCnt n = b.tmrCnt n ∧ t.timer n = b.timer n ∧ t.reg (TMR_FLAG.all.off n) = b.reg (TMR_FLAG.all.off n)

theorem timersStart_of {b t : Block} {mask : Nat}
    (h : ∀ n, n < 32 → if bitOf mask (b.home n) then TimerStarted b t n else TimerHeld b t n) : TimersStart b t mask := by
  intro n hn
  have hs := h n hn
  change if bitOf mask (b.home n) then _ else _
  split at hs
  · next hm =>
    obtain ⟨runs, cnt, dir, timer⟩ := hs
    rw [if_pos hm, timer]
    exact ⟨runs, cnt, dir, rfl, rfl, rfl, rfl⟩
  · next hm =>
    rw [if_neg hm]
    exact hs

/-- What shows of timer `n` when it starts. -/
def Block.startView (b : Block) (n : Nat) : Bool × Nat × TimerSt × BitVec 32 := (b.tmrRuns n, b.tmrCnt n, b.timer n, b.reg (TMR_FLAG.all.off n))

/-- The beat and the configuration of the timers are those of `b`. -/
def TmrSame (b t : Block) : Prop := t.clk = b.clk ∧ RegsKept b t tmrAllRegs

theorem OnTimer.tmrSame {b t u : Block} {n : Nat} (h : OnTimer n t u) (hn : n < 32) (hb : TmrSame b t) : TmrSame b u :=
  ⟨h.clk.trans hb.1, hb.2.trans (h.regs.mono (tmrRegs_subset hn))⟩

theorem TmrSame.rd {b t : Block} (h : TmrSame b t) (f : Fld) (n : Nat) (hs : f.stride = 32) (hb : TMR_CFG.all.base ≤ f.base) (hc : f.base % 32 ≠ 12)
    (hf : f.base % 32 ≠ 20) : t.rd f n = b.rd f n := h.2.rd f n (tmrCfg_not_mem f n hs hb hc hf)

theorem TmrSame.linked {b t : Block} (h : TmrSame b t) (n : Nat) : t.linked n = b.linked n :=
  Block.linked_congr (h.2 _ (tmrCfg_not_mem TMR_CFG.all n rfl (by decide) (by decide) (by decide)))

theorem TmrSame.startedTimer {b t : Block} (h : TmrSame b t) (n : Nat) (x : TimerSt) : t.startedTimer n x = b.startedTimer n x := by
  unfold Block.startedTimer
  rw [h.1, h.2 _ (tmrCfg_not_mem TMR_TOP.all n rfl (by decide) (by decide) (by decide)),
    h.2 _ (tmrCfg_not_mem TMR_MATCH.all n rfl (by decide) (by decide) (by decide)),
    h.rd TMR_CFG.PSC n rfl (by decide) (by decide) (by decide), h.rd TMR_CFG.OUTMODE n rfl (by decide) (by decide) (by decide)]

theorem OnTimer.startView_other {t u : Block} {n m : Nat} (h : OnTimer n t u) (hl : m < 32) (hm : m ≠ n) : u.startView m = t.startView m := by
  unfold Block.startView
  rw [h.runs m hl hm, h.tmrCnt_other m hm, h.timers m hm, h.flag_other m hm]

theorem Block.tmrStart_eq : Block.tmrStart = Block.withMate Block.tmrStart1 := by
  funext t n
  unfold Block.tmrStart Block.withMate
  dsimp only
  rw [(t.tmrStart1_on n).linked (n + 1)]

/-- GO of the timers of a mask (R508, R509). -/
theorem Block.eachTimer_starts (mask : Nat) : TmrSame b (b.eachTimer mask Block.tmrStart) ∧ TimersStart b (b.eachTimer mask Block.tmrStart) mask := by
  unfold Block.eachTimer
  rw [Block.tmrStart_eq]
  obtain ⟨same, views⟩ := b.foldl_withMate (view := Block.startView) (g := Block.tmrStart1) (Q := TmrSame b)
    (h := fun n v => (true, 0, b.startedTimer n v.2.2.1, fput v.2.2.2 TMR_FLAG.DIR 0))
    (fun t n hn hQ => (t.tmrStart1_on n).tmrSame hn hQ)
    (fun t n hn hQ => by
      obtain ⟨runs, cnt, -⟩ := t.tmrStart1_counts n hn
      have flag : (t.tmrStart1 n).reg (TMR_FLAG.all.off n) = fput (t.reg (TMR_FLAG.all.off n)) TMR_FLAG.DIR 0 := by
        rw [Block.reg_congr (t.tmrStart1_regs n)]
        refine (Block.reg_setReg_same _ _ _).trans (congrArg (fput · TMR_FLAG.DIR 0) ?_)
        exact (Block.reg_setReg_other _ _ _ _ (Fld.off_ne_of_column TMR_FLAG.DIR TMR_CNT.all n n rfl rfl (by decide))).trans
          (Block.reg_setReg_other _ _ _ _ (Fld.off_ne_of_lt TMR_FLAG.DIR n _ (by decide)))
      unfold Block.startView
      rw [runs, cnt, t.tmrStart1_timer, hQ.startedTimer, flag])
    (fun t n m hn hm hne _ => (t.tmrStart1_on n).startView_other hm hne)
    (fun t hQ => hQ.linked) ⟨rfl, .refl b _⟩ _ (tmrList_nodup (bitOf mask)) (tmrList_lt _)
  refine ⟨same, timersStart_of fun n hn => ?_⟩
  have shown := views n hn
  simp only [b.home_mem_tmrList _ hn] at shown
  split
  · next hm =>
    rw [if_pos hm] at shown
    unfold Block.startView at shown
    simp only [Prod.mk.injEq] at shown
    obtain ⟨runs, cnt, timer, flag⟩ := shown
    refine ⟨runs, cnt, ?_, timer⟩
    unfold Block.bit Block.rd
    rw [show TMR_FLAG.DIR.off n = TMR_FLAG.all.off n from rfl, flag, fget_fput_same _ _ _ (by decide)]
    rfl
  · next hm =>
    rw [if_neg hm] at shown
    unfold Block.startView at shown
    simp only [Prod.mk.injEq] at shown
    exact shown

end Sys2Proof.Machine
end

section
/-! SUPPORT. The stop of timers, the armed start, ticks, captures and reads (R78, R507–R512), and the obligation of the timers. -/

namespace Sys2Proof.Machine

variable (b : Block)

/-! ### The canonical form -/

@[simp] theorem Block.canon_tmrRuns (n : Nat) : b.canon.tmrRuns n = b.tmrRuns n := Block.tmrRuns_congr (b.canon_reg _) n
@[simp] theorem Block.canon_tmrCnt (n : Nat) : b.canon.tmrCnt n = b.tmrCnt n := congrArg BitVec.toNat (b.canon_reg _)
@[simp] theorem Block.canon_timer (n : Nat) : b.canon.timer n = b.timer n := rfl

theorem TimersStart.canon {b t : Block} {mask : Nat} (h : TimersStart b t mask) : TimersStart b t.canon mask := by
  intro n hn
  have hs := h n hn
  rwa [← t.canon_tmrRuns, ← t.canon_tmrCnt, ← t.canon_timer, ← t.canon_bit, ← t.canon_reg] at hs

/-! ### STOP and GO -/

theorem tmrGo_runs (s : State) (v : Word) : Runs (.tmrGo v) s (fun t => TimersStart s.blk t v.toNat
      ∧ RegsKept s.blk t (TMR_RUN.all.base :: (List.range 32).flatMap (fun n => [TMR_CNT.all.off n, TMR_FLAG.all.off n]))) := by
  obtain ⟨same, starts⟩ := s.blk.start.eachTimer_starts v.toNat
  exact runs_of_runCmd (f := fun b => b.eachTimer v.toNat Block.tmrStart) rfl ⟨starts.canon, RegsKept.canon same.2⟩

theorem tmrStop_runs (s : State) (v : Word) : Runs (.tmrStop v) s (fun t => (∀ n, n < 32 → t.timer n = s.blk.timer n
        ∧ t.tmrRuns n = (s.blk.tmrRuns n && !bitOf v.toNat (if s.blk.linked n then n - 1 else n))) ∧ RegsKept s.blk t [TMR_RUN.all.base]) := by
  obtain ⟨⟨timers, regs⟩, views⟩ := s.blk.start.foldl_withMate (view := Block.tmrRuns) (g := fun t n => t.tmrRun n false)
    (Q := fun t => t.tmr.timers = s.blk.tmr.timers ∧ RegsKept s.blk t [TMR_RUN.all.base]) (h := fun _ _ => false)
    (fun t n _ hQ => ⟨hQ.1, hQ.2.setReg (by simp) _⟩)
    (fun t n hn _ => by rw [t.tmrRuns_tmrRun n n false hn, if_pos rfl])
    (fun t n m _ hm hne _ => by rw [t.tmrRuns_tmrRun n m false hm, if_neg hne])
    (fun t hQ n => Block.linked_congr (hQ.2 _ (by simpa using Fld.off_ne_of_lt TMR_CFG.all n _ (by decide))))
    ⟨rfl, .refl _ _⟩ _ (tmrList_nodup (bitOf v.toNat)) (tmrList_lt _)
  refine runs_of_runCmd (f := fun b => b.eachTimer v.toNat Block.tmrStop) rfl ⟨fun n hn => ⟨Block.timer_congr timers n, ?_⟩, regs.canon⟩
  refine (Block.tmrRuns_congr (Block.canon_reg _ _) n).trans ((views n hn).trans ?_)
  simp only [Block.home_mem_tmrList _ _ hn]
  change (if bitOf v.toNat (s.blk.home n) = true then _ else s.blk.tmrRuns n) = (s.blk.tmrRuns n && !bitOf v.toNat (s.blk.home n))
  cases bitOf v.toNat (s.blk.home n) <;> simp

/-! ### The armed start -/

/-- A register whose bits are all RW holds what is written (R11). -/
theorem Block.reg_regStore_all (o : Nat) (v : BitVec 32) (h : rowMasks o = (0xFFFFFFFF, 0, 0)) : (b.regStore o v).reg o = v := by
  unfold Block.regStore
  rw [Block.reg_setReg_same, h, accessStore_rw]
  change (b.reg o &&& 0#32 ||| v &&& BitVec.allOnes 32) ||| ((b.tieAt o).2 &&& 0#32) = v
  simp only [BitVec.and_zero, BitVec.and_allOnes, BitVec.zero_or, BitVec.or_zero]

/-- A write of a pair's high register finds the value held for the low one (R13). -/
theorem Block.hiWrite_regs (lo hi : Nat) (v : BitVec 32) (hh : rowMasks hi = (0xFFFFFFFF, 0, 0)) (hl : rowMasks lo = (0xFFFFFFFF, 0, 0))
    (hn : lo + 4 = hi) : (b.hiWrite hi v).reg hi = v ∧ (b.hiWrite hi v).reg lo = (Tbl.find b.loHeld lo).getD (b.reg lo) := by
  have low : hi - 4 = lo := by omega
  unfold Block.hiWrite
  dsimp only
  rw [low]
  refine ⟨Block.reg_regStore_all _ hi v hh, (Block.reg_setReg_other _ _ _ _ (by omega)).trans ?_⟩
  cases Tbl.find b.loHeld lo with
  | none => rfl
  | some x => exact b.reg_regStore_all _ x hl

/-- GO_AT with the instant that the registers hold. -/
def Block.goAtArmed (b : Block) (t : BitVec 64) : Block :=
  Block.when ({ b with tmr := { b.tmr with goAt := t, goDue := b.clk.beat + 1 } }.set TMR_GO_ST.ARMED) (decide (t.toNat < b.clk.htime.toNat))
    (fun b => b.set TMR_GO_ST.PAST)

theorem Block.goAtArmed_kept (t : BitVec 64) : RegsKept b (b.goAtArmed t) [TMR_GO_ST.all.base] :=
  RegsKept.when_set (RegsKept.set (.of_regs rfl) TMR_GO_ST.ARMED 0 (by decide)) TMR_GO_ST.PAST 0 _ (by decide)

theorem Block.goAtArmed_tmr (t : BitVec 64) : (b.goAtArmed t).tmr = { b.tmr with goAt := t, goDue := b.clk.beat + 1 } := Block.when_keeps (·.tmr) rfl _

theorem Block.goAtArmed_flags (t : BitVec 64) : (b.goAtArmed t).bit TMR_GO_ST.ARMED = true
    ∧ (b.goAtArmed t).bit TMR_GO_ST.PAST = (b.bit TMR_GO_ST.PAST || decide (t.toNat < b.clk.htime.toNat)) := by
  constructor
  · refine (Block.bit_when_set_disjoint _ _ _ _ _ _ (by decide)).trans ?_
    exact Block.bit_set_same _ _ _ (by decide) (by decide)
  · refine (Block.bit_when_set_same _ _ _ _ (by decide) (by decide)).trans (congrArg (· || _) ?_)
    exact Block.bit_set_disjoint _ TMR_GO_ST.ARMED TMR_GO_ST.PAST 0 0 (by decide)

theorem Block.goAtArm_eq (v : BitVec 32) : b.goAtArm v = (b.hiWrite TMR_GO_AT_HI.all.base v).goAtArmed
    (BitVec.ofNat 64 ((b.hiWrite TMR_GO_AT_HI.all.base v).rd64 TMR_GO_AT_LO.all TMR_GO_AT_HI.all)) := by
  unfold Block.goAtArm Block.goAtArmed
  rfl

theorem tmrGoAtArm_runs (s : State) (v : Word) : Runs (.tmrGoAtArm v) s (fun t => t.bit TMR_GO_ST.ARMED = true ∧ t.tmr.goDue = s.blk.clk.beat + 1
      ∧ t.reg TMR_GO_AT_HI.all.base = v ∧ t.reg TMR_GO_AT_LO.all.base = (Tbl.find s.blk.loHeld TMR_GO_AT_LO.all.base).getD (s.blk.reg TMR_GO_AT_LO.all.base)
      ∧ t.tmr.goAt = BitVec.ofNat 64 (t.rd64 TMR_GO_AT_LO.all TMR_GO_AT_HI.all) ∧ t.tmr.timers = s.blk.tmr.timers
      ∧ t.bit TMR_GO_ST.PAST = (s.blk.bit TMR_GO_ST.PAST || decide (t.tmr.goAt.toNat < s.blk.clk.htime.toNat))) := by
  obtain ⟨hi, lo⟩ := s.blk.start.hiWrite_regs TMR_GO_AT_LO.all.base TMR_GO_AT_HI.all.base v (by decide +kernel) (by decide +kernel) (by decide)
  obtain ⟨-, clk, tmr⟩ := s.blk.start.hiWrite_parts TMR_GO_AT_HI.all.base v
  have past := (s.blk.start.hiWrite_kept TMR_GO_AT_HI.all.base v).bit TMR_GO_ST.PAST 0 (by decide)
  refine runs_of_effect (f := fun b => b.goAtArm v) rfl (s.blk.start.goAtArm_eq v) ?_
  generalize s.blk.start.hiWrite TMR_GO_AT_HI.all.base v = c at hi lo clk tmr past
  have pair (u : BitVec 64) : (c.goAtArmed u).canon.rd64 TMR_GO_AT_LO.all TMR_GO_AT_HI.all = c.rd64 TMR_GO_AT_LO.all TMR_GO_AT_HI.all := by
    unfold Block.rd64
    rw [Block.canon_reg, Block.canon_reg, c.goAtArmed_kept u _ (by decide), c.goAtArmed_kept u _ (by decide)]
  rw [pair]
  generalize BitVec.ofNat 64 (c.rd64 TMR_GO_AT_LO.all TMR_GO_AT_HI.all) = u
  obtain ⟨armed, due⟩ := c.goAtArmed_flags u
  have goAt : (c.goAtArmed u).canon.tmr = { c.tmr with goAt := u, goDue := c.clk.beat + 1 } := (Block.canon_tmr _).trans (c.goAtArmed_tmr u)
  rw [goAt, Block.canon_bit, Block.canon_bit, Block.canon_reg, Block.canon_reg, armed, due, past, clk, tmr,
    c.goAtArmed_kept u _ (by decide), c.goAtArmed_kept u _ (by decide), Block.start_bit, Block.start_clk, Block.start_tmr]
  exact ⟨rfl, rfl, hi, lo, rfl, rfl, rfl⟩

/-- The beat at which the armed start is due, whether the switchover gap makes it late, and the beat at which it takes place (R78, R509). -/
def Block.goAtDue (b : Block) : Nat := max b.tmr.goDue (b.clk.beat + b.clk.beatsTo b.tmr.goAt)
def Block.goAtLate (b : Block) : Bool := b.hoop.red.gap && decide (b.goAtDue < b.hoop.red.gapEnd)
def Block.goAtBeat (b : Block) : Nat := if b.goAtLate then b.hoop.red.gapEnd else b.goAtDue

/-- The start that was armed, at the beat `q`, with LATE (R78). -/
def Block.goAtStarts (b : Block) (q : Nat) (late : Bool) : Block :=
  let t := ((b.toBeat q).clr TMR_GO_ST.ARMED).when late (fun b => b.set TMR_GO_ST.LATE)
  t.eachTimer (t.reg TMR_GO_MASK.all.base).toNat Block.tmrStart

theorem tmrGoAtStart_runCmd (s : State) : exec .tmrGoAtStart s = runCmd s (fun b =>
    if !b.bit TMR_GO_ST.ARMED || b.hoop.red.dead then b else b.goAtStarts b.goAtBeat b.goAtLate) := rfl

theorem tmrGoAtStart_idle (s : State) (h : s.blk.bit TMR_GO_ST.ARMED = false ∨ s.blk.hoop.red.dead = true) : NoEffect .tmrGoAtStart s :=
  gives_of_runCmd (tmrGoAtStart_runCmd s) (if_pos (by
    change (!s.blk.bit TMR_GO_ST.ARMED || s.blk.hoop.red.dead) = true
    rcases h with h | h <;> rw [h]
    · rfl
    · exact Bool.or_true _))

/-- What starts in one block starts so in another of the same time and the same timers. -/
theorem TimersStart.of_same {b c t : Block} {mask : Nat} (h : TimersStart c t mask) (clk : c.clk = b.clk) (tmr : c.tmr.timers = b.tmr.timers)
    (regs : RegsKept b c [TMR_GO_ST.all.base]) : TimersStart b t mask := by
  have apart (f : Fld) (n : Nat) (hf : TMR_CFG.all.base ≤ f.base) : c.reg (f.off n) = b.reg (f.off n) :=
    regs _ (by simpa using Fld.off_ne_of_lt f n _ (Nat.lt_of_lt_of_le (by decide) hf))
  have field (f : Fld) (n : Nat) (hf : TMR_CFG.all.base ≤ f.base) : c.rd f n = b.rd f n := congrArg (fget · f) (apart f n hf)
  intro n hn
  have hs := h n hn
  rwa [Block.linked_congr (apart TMR_CFG.all n (by decide)), apart TMR_TOP.all n (by decide), apart TMR_MATCH.all n (by decide), clk,
    field TMR_CFG.PSC n (by decide), field TMR_CFG.OUTMODE n (by decide), Block.tmrRuns_congr (regs _ (by decide)) n,
    show c.tmrCnt n = b.tmrCnt n from congrArg BitVec.toNat (apart TMR_CNT.all n (by decide)), Block.timer_congr tmr,
    apart TMR_FLAG.all n (by decide)] at hs

/-- The armed start takes place (R509). -/
theorem Block.goAtStarts_state (q : Nat) (late : Bool) : let t := (b.goAtStarts q late).canon
    t.clk = (b.toBeat q).clk ∧ t.bit TMR_GO_ST.ARMED = false ∧ t.bit TMR_GO_ST.LATE = (b.bit TMR_GO_ST.LATE || late)
      ∧ TimersStart (b.toBeat q) t (b.reg TMR_GO_MASK.all.base).toNat := by
  have kept : RegsKept b (((b.toBeat q).clr TMR_GO_ST.ARMED).when late (fun b => b.set TMR_GO_ST.LATE)) [TMR_GO_ST.all.base] :=
    ((RegsKept.of_regs rfl).clr TMR_GO_ST.ARMED 0 (by decide)).when_set TMR_GO_ST.LATE 0 late (by decide)
  have armed : (((b.toBeat q).clr TMR_GO_ST.ARMED).when late (fun b => b.set TMR_GO_ST.LATE)).bit TMR_GO_ST.ARMED = false :=
    (Block.bit_when_set_disjoint _ _ _ _ _ _ (by decide)).trans (Block.bit_clr_same _ _ _ (by decide))
  have wasLate : (((b.toBeat q).clr TMR_GO_ST.ARMED).when late (fun b => b.set TMR_GO_ST.LATE)).bit TMR_GO_ST.LATE = (b.bit TMR_GO_ST.LATE || late) :=
    (Block.bit_when_set_same _ _ _ _ (by decide) (by decide)).trans (congrArg (· || late) (Block.bit_wr_disjoint _ _ _ _ _ _ (by decide)))
  have clk : (((b.toBeat q).clr TMR_GO_ST.ARMED).when late (fun b => b.set TMR_GO_ST.LATE)).clk = (b.toBeat q).clk := Block.when_keeps (·.clk) rfl _
  have tmr : (((b.toBeat q).clr TMR_GO_ST.ARMED).when late (fun b => b.set TMR_GO_ST.LATE)).tmr.timers = b.tmr.timers :=
    Block.when_keeps (·.tmr.timers) rfl _
  unfold Block.goAtStarts
  dsimp only
  rw [kept TMR_GO_MASK.all.base (by decide)]
  generalize ((b.toBeat q).clr TMR_GO_ST.ARMED).when late (fun b => b.set TMR_GO_ST.LATE) = c at kept armed wasLate clk tmr
  obtain ⟨⟨same, regs⟩, starts⟩ := c.eachTimer_starts (b.reg TMR_GO_MASK.all.base).toNat
  have goSt : TMR_GO_ST.all.base ∉ tmrAllRegs := not_mem_tmrAllRegs (by decide) (by decide) (by decide)
  refine ⟨same.trans clk, ?_, ?_, (starts.of_same clk tmr (RegsKept.trans (.of_regs rfl) kept)).canon⟩
  · exact (Block.canon_bit _ _ _).trans ((regs.bit TMR_GO_ST.ARMED 0 goSt).trans armed)
  · exact (Block.canon_bit _ _ _).trans ((regs.bit TMR_GO_ST.LATE 0 goSt).trans wasLate)

theorem tmrGoAtStart_runs (s : State) (ha : s.blk.bit TMR_GO_ST.ARMED = true) (hd : s.blk.hoop.red.dead = false) :
    let due := max s.blk.tmr.goDue (s.blk.clk.beat + s.blk.clk.beatsTo s.blk.tmr.goAt)
    let late := s.blk.hoop.red.gap && decide (due < s.blk.hoop.red.gapEnd)
    let b := s.blk.toBeat (if late then s.blk.hoop.red.gapEnd else due)
    Runs .tmrGoAtStart s (fun t => t.clk = b.clk ∧ t.bit TMR_GO_ST.ARMED = false ∧ t.bit TMR_GO_ST.LATE = (s.blk.bit TMR_GO_ST.LATE || late)
      ∧ TimersStart b t (s.blk.reg TMR_GO_MASK.all.base).toNat) := by
  refine runs_of_effect (tmrGoAtStart_runCmd s) (if_neg ?_) (s.blk.start.goAtStarts_state s.blk.goAtBeat s.blk.goAtLate)
  change ¬ (!s.blk.bit TMR_GO_ST.ARMED || s.blk.hoop.red.dead) = true
  rw [ha, hd]
  decide

end Sys2Proof.Machine
end

section
/-! SUPPORT. Captures and reads of timers (R508, R510). -/

namespace Sys2Proof.Machine

variable (b : Block)

/-! ### Captures -/

/-- A capture that all timers of a mask which is read from the block make is one over the timers that the mask of the first block names. -/
theorem foldl_eq_filter {Q : Block → Prop} {F G : Block → Nat → Block} {p : Nat → Bool} : ∀ (l : List Nat) (b : Block), Q b →
    (∀ t n, n ∈ l → Q t → F t n = if p n then G t n else t) → (∀ t n, n ∈ l → Q t → Q (G t n)) → l.foldl F b = (l.filter p).foldl G b
  | [], _, _, _, _ => rfl
  | m :: l, b, hb, hF, hG => by
    have step := hF b m List.mem_cons_self hb
    have tail (t : Block) (ht : Q t) := foldl_eq_filter (G := G) (p := p) l t ht (fun t n hn => hF t n (List.mem_cons_of_mem _ hn))
      (fun t n hn => hG t n (List.mem_cons_of_mem _ hn))
    rw [List.foldl_cons, step]
    cases hp : p m
    · rw [List.filter_cons_of_neg (by simp [hp])]
      exact tail b hb
    · rw [List.filter_cons_of_pos hp, List.foldl_cons]
      exact tail _ (hG b m List.mem_cons_self hb)

/-- No register but captures and flags of timers changed. -/
def TmrCaught (b t : Block) : Prop := ∀ o, o % 32 ≠ 16 → o % 32 ≠ 20 → t.reg o = b.reg o

theorem TmrCaught.linked {b t : Block} (h : TmrCaught b t) (n : Nat) : t.linked n = b.linked n := by
  refine Block.linked_congr (h _ ?_ ?_) <;>
  · unfold Fld.off
    dsimp only
    omega

theorem TmrCaught.rd_cfg {b t : Block} (h : TmrCaught b t) (f : Fld) (n : Nat) (hs : f.stride = 32) (hf : f.base % 32 = 0) : t.rd f n = b.rd f n := by
  refine congrArg (fget · f) (h _ ?_ ?_) <;>
  · unfold Fld.off
    rw [hs]
    omega

theorem TmrCaught.cnt {b t : Block} (h : TmrCaught b t) (n : Nat) : t.reg (TMR_CNT.all.off n) = b.reg (TMR_CNT.all.off n) := by
  refine h _ ?_ ?_ <;>
  · unfold Fld.off
    dsimp only
    omega

/-- The flags of a timer that has captured (R510). -/
def caughtFlags (v : BitVec 32) : BitVec 32 := if fget v TMR_FLAG.CAPF != 0 then fput v TMR_FLAG.CAP_OVR 1 else fput v TMR_FLAG.CAPF 1

theorem caughtFlags_capf (v : BitVec 32) : (fget (caughtFlags v) TMR_FLAG.CAPF != 0) = true := by
  unfold caughtFlags
  split
  · next h => rwa [fget_fput_apart _ _ _ _ (by decide)]
  · rw [fget_fput_same _ _ _ (by decide)]
    rfl

theorem caughtFlags_ovr (v : BitVec 32) : (fget (caughtFlags v) TMR_FLAG.CAP_OVR != 0)
    = ((fget v TMR_FLAG.CAP_OVR != 0) || (fget v TMR_FLAG.CAPF != 0)) := by
  unfold caughtFlags
  split
  · next h => rw [fget_fput_same _ _ _ (by decide), h, Bool.or_true]; rfl
  · next h => rw [fget_fput_apart _ _ _ _ (by decide), Bool.eq_false_of_not_eq_true h, Bool.or_false]

/-- What shows of timer `n` when it captures. -/
def Block.caughtView (b : Block) (n : Nat) : BitVec 32 × BitVec 32 := (b.reg (TMR_CAP.all.off n), b.reg (TMR_FLAG.all.off n))

theorem Block.capture1_reg (n o : Nat) : (b.capture1 n).reg o = if o = TMR_CAP.all.off n then b.reg (TMR_CNT.all.off n)
    else if o = TMR_FLAG.all.off n then caughtFlags (b.reg (TMR_FLAG.all.off n)) else b.reg o := by
  have apart : TMR_FLAG.all.off n ≠ TMR_CAP.all.off n := Fld.off_ne_of_column _ _ n n rfl rfl (by decide)
  have same : ((b.tieNote (TMR_CAP.all.off n) (fun _ => b.reg (TMR_CNT.all.off n))).setReg (TMR_CAP.all.off n) (b.reg (TMR_CNT.all.off n))).reg
      (TMR_CAP.all.off n) = b.reg (TMR_CNT.all.off n) := Block.reg_setReg_same _ _ _
  have others (q : Nat) (hq : q ≠ TMR_CAP.all.off n) : ((b.tieNote (TMR_CAP.all.off n) (fun _ => b.reg (TMR_CNT.all.off n))).setReg (TMR_CAP.all.off n)
      (b.reg (TMR_CNT.all.off n))).reg q = b.reg q := Block.reg_setReg_other _ _ _ _ hq
  unfold Block.capture1
  dsimp only
  generalize (b.tieNote (TMR_CAP.all.off n) (fun _ => b.reg (TMR_CNT.all.off n))).setReg (TMR_CAP.all.off n) (b.reg (TMR_CNT.all.off n)) = c
    at same others
  have flagged : (if c.bit TMR_FLAG.CAPF n = true then c.set TMR_FLAG.CAP_OVR n else c.set TMR_FLAG.CAPF n).reg o
      = if o = TMR_FLAG.all.off n then caughtFlags (c.reg (TMR_FLAG.all.off n)) else c.reg o := by
    unfold caughtFlags
    rw [show (fget (c.reg (TMR_FLAG.all.off n)) TMR_FLAG.CAPF != 0) = c.bit TMR_FLAG.CAPF n from rfl]
    by_cases ho : o = TMR_FLAG.all.off n
    · rw [if_pos ho, ho]
      split <;> exact Block.reg_setReg_same _ _ _
    · rw [if_neg ho]
      split <;> exact Block.reg_setReg_other _ _ _ _ ho
  rw [flagged, others _ apart]
  by_cases hc : o = TMR_CAP.all.off n
  · rw [if_pos hc, hc, if_neg apart.symm, same]
  · rw [if_neg hc, others o hc]

/-- The captures at a trigger (R510). -/
def Block.captures (b : Block) (trig : Nat) : Block := (List.range 32).foldl (fun (b : Block) n =>
  if b.rd TMR_CFG.CAPSEL n = trig ∧ b.linked n = false then
    (b.capture1 n).when (n % 2 == 0 && b.linked (n + 1)) (fun b => b.capture1 (n + 1))
  else b) b

theorem TmrCaught.capture1 {b t : Block} (h : TmrCaught b t) (n : Nat) : TmrCaught b (t.capture1 n) := by
  intro o hc hf
  have cap : o ≠ TMR_CAP.all.off n := by
    unfold Fld.off
    dsimp only
    omega
  have flag : o ≠ TMR_FLAG.all.off n := by
    unfold Fld.off
    dsimp only
    omega
  rw [Block.capture1_reg, if_neg cap, if_neg flag]
  exact h o hc hf

theorem TmrCaught.withMate {b t : Block} (h : TmrCaught b t) (n : Nat) : TmrCaught b (t.withMate Block.capture1 n) := by
  unfold Block.withMate
  split
  · exact h
  · unfold Block.when
    split
    · exact (h.capture1 n).capture1 (n + 1)
    · exact h.capture1 n

theorem Block.captures_eq (trig : Nat) : b.captures trig
    = ((List.range 32).filter (fun n => b.rd TMR_CFG.CAPSEL n == trig)).foldl (Block.withMate Block.capture1) b := by
  refine foldl_eq_filter (Q := TmrCaught b) _ b (fun _ _ _ => rfl) (fun t n _ ht => ?_) (fun t n _ ht => ht.withMate n)
  unfold Block.withMate
  rw [ht.rd_cfg TMR_CFG.CAPSEL n rfl (by decide)]
  by_cases hc : b.rd TMR_CFG.CAPSEL n = trig
  · rw [beq_iff_eq.2 hc]
    cases hl : t.linked n
    · exact if_pos ⟨hc, rfl⟩
    · exact if_neg (fun h => absurd h.2 (by decide))
  · rw [beq_eq_false_iff_ne.2 hc]
    exact if_neg (fun h => hc h.1)

theorem Block.captures_view (trig n : Nat) (hn : n < 32) : TmrCaught b (b.captures trig) ∧ (b.captures trig).caughtView n
    = if b.rd TMR_CFG.CAPSEL (b.home n) = trig then (b.reg (TMR_CNT.all.off n), caughtFlags (b.reg (TMR_FLAG.all.off n))) else b.caughtView n := by
  have view (t : Block) (n m : Nat) : (t.capture1 n).caughtView m
      = if m = n then (t.reg (TMR_CNT.all.off n), caughtFlags (t.reg (TMR_FLAG.all.off n))) else t.caughtView m := by
    have column : TMR_FLAG.all.off m ≠ TMR_CAP.all.off n := Fld.off_ne_of_column _ _ m n rfl rfl (by decide)
    have column' : TMR_CAP.all.off m ≠ TMR_FLAG.all.off n := Fld.off_ne_of_column _ _ m n rfl rfl (by decide)
    unfold Block.caughtView
    rw [Block.capture1_reg, Block.capture1_reg, if_neg column, if_neg column']
    by_cases h : m = n
    · rw [h, if_pos rfl, if_pos rfl, if_pos rfl]
    · rw [if_neg (Fld.off_ne_of_row TMR_CAP.all m n rfl h), if_neg (Fld.off_ne_of_row TMR_FLAG.all m n rfl h), if_neg h]
  rw [b.captures_eq]
  obtain ⟨caught, views⟩ := b.foldl_withMate (view := Block.caughtView) (g := Block.capture1) (Q := TmrCaught b)
    (h := fun n v => (b.reg (TMR_CNT.all.off n), caughtFlags v.2)) (fun t n _ hQ => hQ.capture1 n)
    (fun t n _ hQ => by rw [view, if_pos rfl, hQ.cnt]; rfl) (fun t n m _ _ hm _ => by rw [view, if_neg hm]) (fun t hQ => hQ.linked)
    (fun _ _ _ => rfl) _ (tmrList_nodup _) (tmrList_lt _)
  refine ⟨caught, (views n hn).trans ?_⟩
  simp only [b.home_mem_tmrList _ hn, beq_iff_eq]
  rfl

theorem tmrCapture_idle (s : State) (trig : Nat) (h : trig = 0 ∨ 19 < trig) : NoEffect (.tmrCapture trig) s :=
  gives_of_runCmd (f := fun b => if trig = 0 ∨ 19 < trig then b else b.captures trig) rfl (if_pos h)

theorem tmrCapture_runs (s : State) (trig : Nat) (h0 : 0 < trig) (h19 : trig ≤ 19) : Runs (.tmrCapture trig) s (fun t => ∀ n, n < 32 →
      if s.blk.rd TMR_CFG.CAPSEL (if s.blk.linked n then n - 1 else n) = trig then
        t.reg (TMR_CAP.all.off n) = s.blk.reg (TMR_CNT.all.off n) ∧ t.bit TMR_FLAG.CAPF n = true
        ∧ t.bit TMR_FLAG.CAP_OVR n = (s.blk.bit TMR_FLAG.CAP_OVR n || s.blk.bit TMR_FLAG.CAPF n) ∧ t.reg (TMR_CNT.all.off n) = s.blk.reg (TMR_CNT.all.off n)
      else t.reg (TMR_CAP.all.off n) = s.blk.reg (TMR_CAP.all.off n) ∧ t.reg (TMR_FLAG.all.off n) = s.blk.reg (TMR_FLAG.all.off n)) := by
  refine runs_of_effect (f := fun b => if trig = 0 ∨ 19 < trig then b else b.captures trig) rfl (if_neg (by omega)) fun n hn => ?_
  obtain ⟨caught, view⟩ := s.blk.start.captures_view trig n hn
  rw [Block.canon_reg, Block.canon_reg, Block.canon_reg, Block.canon_bit, Block.canon_bit]
  change if s.blk.rd TMR_CFG.CAPSEL (s.blk.home n) = trig then _ else _
  change _ = if s.blk.rd TMR_CFG.CAPSEL (s.blk.home n) = trig then _ else _ at view
  unfold Block.caughtView at view
  split
  · next h =>
    rw [if_pos h, Prod.mk.injEq] at view
    obtain ⟨cap, flag⟩ := view
    refine ⟨cap, ?_, ?_, caught.cnt n⟩
    · exact (congrArg (fget · TMR_FLAG.CAPF != 0) flag).trans (caughtFlags_capf _)
    · exact (congrArg (fget · TMR_FLAG.CAP_OVR != 0) flag).trans (caughtFlags_ovr _)
  · next h =>
    rw [if_neg h, Prod.mk.injEq] at view
    exact view

/-! ### Reads of the count -/

theorem tmrCntRead_runs (s : State) (n : Nat) (hn : n < 32) : Runs (.tmrCntRead n) s (fun t => RegsKept s.blk t [] ∧ t.tmr = s.blk.tmr
      ∧ t.resp = .data (if s.blk.linked n then Tbl.get (fun _ => 0) s.blk.hiLatch (TMR_CNT.all.off n) else if n % 2 == 0 && s.blk.linked (n + 1) then s.blk.tmrSeen n else s.blk.reg (TMR_CNT.all.off n))
      ∧ (n % 2 = 0 → s.blk.linked (n + 1) = true → Tbl.get (fun _ => 0) t.hiLatch (TMR_CNT.all.off (n + 1)) = s.blk.tmrSeen (n + 1))) := by
  have runs {d : Block} {P : Block → Prop} (hd : s.blk.start.tmrCntRead n = d) (hP : P d.canon) : Runs (.tmrCntRead n) s P :=
    runs_of_effect (f := fun b => b.tmrCntRead (n % 32)) rfl (by rw [Nat.mod_eq_of_lt hn]; exact hd) hP
  by_cases hl : s.blk.linked n = true
  · rw [if_pos hl]
    exact runs (if_pos hl) ⟨(RegsKept.of_regs rfl).canon, rfl, rfl, fun even _ => absurd (s.blk.linked_odd hl) (by omega)⟩
  · rw [if_neg hl]
    by_cases hm : (n % 2 == 0 && s.blk.linked (n + 1)) = true
    · rw [if_pos hm]
      exact runs ((if_neg hl).trans (if_pos hm)) ⟨(RegsKept.of_regs rfl).canon, rfl, rfl, fun _ _ => Tbl.get_put_same _ _ _ _⟩
    · rw [if_neg hm]
      exact runs ((if_neg hl).trans (if_neg hm)) ⟨(RegsKept.of_regs rfl).canon, rfl, rfl, fun even hn => absurd (by simp [even, hn]) hm⟩

end Sys2Proof.Machine
end

section
/-! SUPPORT. Ticks of timers (R506–R508, R511), and the obligation of the timers. -/

namespace Sys2Proof.Machine

variable (b : Block)

/-! ### A count is reached -/

/-- MATCH that is in force once TOP and MATCH have taken effect, if `load` says so, and TOP. -/
def Block.matAt (b : Block) (n : Nat) (load : Bool) : Nat := if load then (b.reg (TMR_MATCH.all.off n)).toNat else (b.timer n).mat
def Block.topAt (b : Block) (n : Nat) (load : Bool) : Nat := if load then (b.reg (TMR_TOP.all.off n)).toNat else (b.timer n).top

/-- TOP and MATCH take effect with OVFF, if `load` says so. -/
def Block.tmrLoads (b : Block) (n : Nat) (load : Bool) : Block := b.when load (fun b => (b.tmrLoad n).set TMR_FLAG.OVFF n)

/-- The timer is at the count `c`: at 0 with `load`, at MATCH with MATCHF (R507). -/
def Block.tmrHits (b : Block) (n c : Nat) (load : Bool) : Block :=
  let b := b.tmrLoads n load
  let hit := c == (b.timer n).mat
  (b.when hit (fun b => b.set TMR_FLAG.MATCHF n)).tmrOut n c hit

theorem Block.tmrLoads_on (n : Nat) (load : Bool) : OnTimer n b (b.tmrLoads n load) :=
  (OnTimer.refl n b).when ((OnTimer.refl n b).tmrLoad.setFlag TMR_FLAG.OVFF rfl) load

theorem Block.tmrHits_on (n c : Nat) (load : Bool) : OnTimer n b (b.tmrHits n c load) :=
  ((b.tmrLoads_on n load).when ((b.tmrLoads_on n load).setFlag TMR_FLAG.MATCHF rfl) _).tmrOut _ _

theorem Block.tmrLoads_timer (n : Nat) (load : Bool) :
    (b.tmrLoads n load).timer n = { b.timer n with top := b.topAt n load, mat := b.matAt n load } := by
  cases load
  · rfl
  · exact b.timer_setTimer_same n _

theorem Block.tmrHits_regs (n c : Nat) (load : Bool) :
    (b.tmrHits n c load).regs = ((b.tmrLoads n load).when (c == b.matAt n load) (fun b => b.set TMR_FLAG.MATCHF n)).regs := by
  unfold Block.tmrHits
  dsimp only
  rw [Block.tmrOut_regs, b.tmrLoads_timer]

/-- What the count `c` leaves of timer `n` (R507). -/
theorem Block.tmrHits_timer (n c : Nat) (load : Bool) : ((b.tmrHits n c load).timer n).top = b.topAt n load
    ∧ ((b.tmrHits n c load).timer n).mat = b.matAt n load ∧ ((b.tmrHits n c load).timer n).due = (b.timer n).due := by
  unfold Block.tmrHits
  dsimp only
  rw [Block.timer_tmrOut, show (Block.when _ _ (fun b => b.set TMR_FLAG.MATCHF n)).timer n = (b.tmrLoads n load).timer n from
    Block.when_keeps (·.timer n) rfl _, b.tmrLoads_timer]
  exact ⟨rfl, rfl, rfl⟩

theorem Block.tmrHits_cnt (n c : Nat) (load : Bool) : (b.tmrHits n c load).tmrCnt n = b.tmrCnt n := by
  have kept : RegsKept b ((b.tmrLoads n load).when (c == b.matAt n load) (fun b => b.set TMR_FLAG.MATCHF n)) [TMR_FLAG.all.off n] :=
    ((RegsKept.refl b _).when (RegsKept.set (.of_regs rfl) TMR_FLAG.OVFF n (List.mem_singleton.2 rfl)) load).when_set TMR_FLAG.MATCHF n _ (List.mem_singleton.2 rfl)
  unfold Block.tmrCnt
  rw [Block.reg_congr (b.tmrHits_regs n c load),
    kept _ (by simpa using Fld.off_ne_of_column TMR_CNT.all TMR_FLAG.all n n rfl rfl (by decide))]

/-- The flags at the count `c` (R507). -/
theorem Block.tmrHits_flags (n c : Nat) (load : Bool) : (b.tmrHits n c load).bit TMR_FLAG.DIR n = b.bit TMR_FLAG.DIR n
    ∧ (b.tmrHits n c load).bit TMR_FLAG.OVFF n = (b.bit TMR_FLAG.OVFF n || load)
    ∧ (b.tmrHits n c load).bit TMR_FLAG.MATCHF n = (b.bit TMR_FLAG.MATCHF n || c == b.matAt n load) := by
  have loaded (f : Fld) (h : TMR_FLAG.OVFF.hi < f.lo ∨ f.hi < TMR_FLAG.OVFF.lo) : (b.tmrLoads n load).bit f n = b.bit f n := by
    cases load
    · rfl
    · exact ((b.tmrLoad n).bit_set_disjoint TMR_FLAG.OVFF f n n h).trans (Block.bit_of_rd (Block.rd_congr rfl f n))
  have overflowed : (b.tmrLoads n load).bit TMR_FLAG.OVFF n = (b.bit TMR_FLAG.OVFF n || load) := by
    cases load
    · exact (Bool.or_false _).symm
    · exact (Block.bit_set_same _ TMR_FLAG.OVFF n (by decide) (by decide)).trans (Bool.or_true _).symm
  have regs (f : Fld) := Block.bit_of_rd (Block.rd_congr (b.tmrHits_regs n c load) f n)
  refine ⟨(regs _).trans ?_, (regs _).trans ?_, (regs _).trans ?_⟩
  · rw [Block.bit_when_set_disjoint _ _ _ _ _ _ (by decide), loaded _ (by decide)]
  · rw [Block.bit_when_set_disjoint _ _ _ _ _ _ (by decide), overflowed]
  · rw [Block.bit_when_set_same _ _ _ _ (by decide) (by decide), loaded _ (by decide)]

/-! ### A tick -/

/-- The count that a tick brings, and whether it turns there (R506, R507). -/
def Block.tickTo (b : Block) (n : Nat) : Nat := if b.bit TMR_FLAG.DIR n then b.tmrCnt n - 1 else b.tmrCnt n + 1
def Block.tickWraps (b : Block) (n : Nat) : Bool := b.bit TMR_FLAG.DIR n && b.tickTo n == 0

/-- A flag holds the value it takes. -/
theorem Block.bit_flag_same (f : Fld) (v : Bool) (n : Nat) (h : f.hi < 32) (hw : f.lo ≤ f.hi) : (b.flag f v n).bit f n = v := by
  cases v
  · exact b.bit_clr_same f n h
  · exact b.bit_set_same f n h hw

/-- The next tick is due, and the count and its direction step. -/
def Block.tickCounted (b : Block) (n : Nat) : Block :=
  ((b.setTimer n { b.timer n with due := (b.timer n).due + 2 ^ b.rd TMR_CFG.PSC n }).setReg (TMR_CNT.all.off n) (BitVec.ofNat 32 (b.tickTo n))).flag
    TMR_FLAG.DIR (if b.bit TMR_FLAG.DIR n then !b.tickWraps n else decide ((b.timer n).top ≤ b.tickTo n)) n

/-- A tick of timer `n` in its beat, without the carry. -/
def Block.ticked (b : Block) (n : Nat) : Block := (b.tickCounted n).tmrHits n (b.tickTo n) (b.tickWraps n)

/-- A tick of timer `n`. -/
def Block.tick (b : Block) (n : Nat) : Block :=
  (b.ticked n).when (b.tickWraps n && n % 2 == 0 && (b.ticked n).linked (n + 1)) (fun t => (t.pairWas n (b.tmrCnt n)).tmrCarry (n + 1))

theorem timerTick_runCmd (n : Nat) (s : State) : exec (.timerTick n) s = runCmd s (fun b =>
    if !b.tmrRuns (n % 32) || b.linked (n % 32) then b else (b.toBeat (b.timer (n % 32)).due).tick (n % 32)) := rfl

theorem Block.tickCounted_on (n : Nat) : OnTimer n b (b.tickCounted n) := ((((OnTimer.refl n b).setTimer _).setCnt _).wrFlag TMR_FLAG.DIR _ rfl)

theorem Block.ticked_on (n : Nat) : OnTimer n b (b.ticked n) := (b.tickCounted_on n).trans (Block.tmrHits_on _ _ _ _)

/-- Timer `n` after its tick, but for the carry (R506, R507). -/
theorem Block.ticked_state (n : Nat) : let t := b.ticked n
    let mat := b.matAt n (b.tickWraps n)
    t.tmrCnt n = b.tickTo n % 2 ^ 32 ∧ t.bit TMR_FLAG.DIR n = (if b.bit TMR_FLAG.DIR n then !b.tickWraps n else decide ((b.timer n).top ≤ b.tickTo n))
    ∧ t.bit TMR_FLAG.OVFF n = (b.bit TMR_FLAG.OVFF n || b.tickWraps n) ∧ t.bit TMR_FLAG.MATCHF n = (b.bit TMR_FLAG.MATCHF n || b.tickTo n == mat)
    ∧ (t.timer n).mat = mat ∧ (t.timer n).top = b.topAt n (b.tickWraps n) ∧ (t.timer n).due = (b.timer n).due + 2 ^ b.rd TMR_CFG.PSC n := by
  have on := b.tickCounted_on n
  have timer : (b.tickCounted n).timer n = { b.timer n with due := (b.timer n).due + 2 ^ b.rd TMR_CFG.PSC n } := b.timer_setTimer_same n _
  have mat (load : Bool) : (b.tickCounted n).matAt n load = b.matAt n load := by
    unfold Block.matAt
    rw [on.reg_cfg TMR_MATCH.all n rfl (by decide) (by decide) (by decide), timer]
  have top (load : Bool) : (b.tickCounted n).topAt n load = b.topAt n load := by
    unfold Block.topAt
    rw [on.reg_cfg TMR_TOP.all n rfl (by decide) (by decide) (by decide), timer]
  have flags (f : Fld) (hb : f.off n = TMR_FLAG.all.off n) (h : TMR_FLAG.DIR.hi < f.lo ∨ f.hi < TMR_FLAG.DIR.lo) :
      (b.tickCounted n).bit f n = b.bit f n := by
    refine (Block.bit_wr_disjoint _ TMR_FLAG.DIR f _ n n h).trans (Block.bit_of_rd (congrArg (fget · f) ?_))
    rw [hb]
    exact Block.reg_setReg_other _ _ _ _ (Fld.off_ne_of_column TMR_FLAG.all TMR_CNT.all n n rfl rfl (by decide))
  obtain ⟨tops, mats, dues⟩ := (b.tickCounted n).tmrHits_timer n (b.tickTo n) (b.tickWraps n)
  obtain ⟨dir, ovff, matchf⟩ := (b.tickCounted n).tmrHits_flags n (b.tickTo n) (b.tickWraps n)
  refine ⟨?_, dir.trans ?_, ovff.trans ?_, matchf.trans ?_, mats.trans (mat _), tops.trans (top _), dues.trans (by rw [timer])⟩
  · refine (Block.tmrHits_cnt _ n _ _).trans ?_
    unfold Block.tmrCnt
    rw [show (b.tickCounted n).reg (TMR_CNT.all.off n) = BitVec.ofNat 32 (b.tickTo n) from
      (Block.reg_setReg_other _ _ _ _ (Fld.off_ne_of_column TMR_CNT.all TMR_FLAG.DIR n n rfl rfl (by decide))).trans (Block.reg_setReg_same _ _ _),
      BitVec.toNat_ofNat]
  · exact Block.bit_flag_same _ TMR_FLAG.DIR _ n (by decide) (by decide)
  · rw [flags TMR_FLAG.OVFF rfl (by decide)]
  · rw [flags TMR_FLAG.MATCHF rfl (by decide), mat]

/-! ### The carry -/

/-- The high half of a pair counts (R508). -/
def Block.carried (b : Block) (n : Nat) : Block :=
  (b.setReg (TMR_CNT.all.off n) (BitVec.ofNat 32 ((b.tmrCnt n + 1) % 2 ^ 32))).tmrHits n ((b.tmrCnt n + 1) % 2 ^ 32) ((b.tmrCnt n + 1) % 2 ^ 32 == 0)

theorem Block.tmrCarry_eq (n : Nat) : b.tmrCarry n = if b.linked n && b.tmrRuns n then b.carried n else b := rfl

theorem Block.tmrCarry_on (n : Nat) : OnTimer n b (b.tmrCarry n) := by
  rw [b.tmrCarry_eq]
  split
  · exact ((OnTimer.refl n b).setCnt _).trans (Block.tmrHits_on _ _ _ _)
  · exact .refl n b

theorem Block.tmrCarry_cnt (n : Nat) : (b.tmrCarry n).tmrCnt n = if b.linked n && b.tmrRuns n then (b.tmrCnt n + 1) % 2 ^ 32 else b.tmrCnt n := by
  rw [b.tmrCarry_eq]
  split
  · refine (Block.tmrHits_cnt _ n _ _).trans ?_
    unfold Block.tmrCnt
    rw [Block.reg_setReg_same, BitVec.toNat_ofNat, Nat.mod_mod]
  · rfl

/-- The counts before a period's end, kept for a read of the pair, are no part of the count (R508). -/
theorem Block.pairWas_timer (n c : Nat) : ∃ was, (b.pairWas n c).timer n = { b.timer n with was := was } := by
  refine ⟨some (b.clk.beat, c), ?_⟩
  unfold Block.pairWas
  dsimp only
  rw [Block.timer_setTimer_other _ _ _ _ (by omega)]
  exact b.timer_setTimer_same n _

theorem Block.pairWas_timer_other (n c m : Nat) (h0 : m ≠ n) (h1 : m ≠ n + 1) : (b.pairWas n c).timer m = b.timer m := by
  unfold Block.pairWas
  dsimp only
  rw [Block.timer_setTimer_other _ _ _ _ h1, Block.timer_setTimer_other _ _ _ _ h0]

/-- The carry of a tick leaves timer `n`, but for the counts kept of the pair, and every timer but its linked odd one. -/
theorem Block.tick_timer (n : Nat) : (b.tick n).clk = (b.ticked n).clk ∧ (b.tick n).tmrCnt n = (b.ticked n).tmrCnt n
    ∧ (∀ f : Fld, f.off n = TMR_FLAG.all.off n → (b.tick n).bit f n = (b.ticked n).bit f n)
    ∧ ((b.tick n).timer n).mat = ((b.ticked n).timer n).mat ∧ ((b.tick n).timer n).top = ((b.ticked n).timer n).top
    ∧ ((b.tick n).timer n).due = ((b.ticked n).timer n).due
    ∧ (∀ m, m ≠ n → m ≠ n + 1 → (b.tick n).timer m = (b.ticked n).timer m ∧ (b.tick n).tmrCnt m = (b.ticked n).tmrCnt m) := by
  unfold Block.tick Block.when
  generalize b.ticked n = t
  split
  · have on := Block.tmrCarry_on (t.pairWas n (b.tmrCnt n)) (n + 1)
    obtain ⟨was, hw⟩ := t.pairWas_timer n (b.tmrCnt n)
    have timer := on.timers n (by omega)
    refine ⟨on.clk, on.tmrCnt_other n (by omega), fun f hf => ?_, ?_, ?_, ?_, fun m h0 h1 => ⟨?_, on.tmrCnt_other m h1⟩⟩
    · refine Block.bit_of_rd (congrArg (fget · f) ?_)
      rw [hf]
      exact on.flag_other n (by omega)
    · rw [timer, hw]
    · rw [timer, hw]
    · rw [timer, hw]
    · rw [on.timers m h1, Block.pairWas_timer_other _ _ _ _ h0 h1]
  · exact ⟨rfl, rfl, fun _ _ => rfl, rfl, rfl, rfl, fun _ _ _ => ⟨rfl, rfl⟩⟩

/-- The carry of a tick (R508). -/
theorem Block.tick_carry (n : Nat) (hn : n < 32) (he : n % 2 = 0) : (b.tick n).tmrCnt (n + 1)
    = if b.tickWraps n && b.linked (n + 1) && b.tmrRuns (n + 1) then (b.tmrCnt (n + 1) + 1) % 2 ^ 32 else b.tmrCnt (n + 1) := by
  have on := b.ticked_on n
  unfold Block.tick Block.when
  generalize b.ticked n = t at on
  have runs : (t.pairWas n (b.tmrCnt n)).tmrRuns (n + 1) = b.tmrRuns (n + 1) := on.runs (n + 1) (by omega) (by omega)
  have linked : (t.pairWas n (b.tmrCnt n)).linked (n + 1) = b.linked (n + 1) := on.linked (n + 1)
  have cnt : (t.pairWas n (b.tmrCnt n)).tmrCnt (n + 1) = b.tmrCnt (n + 1) := on.tmrCnt_other (n + 1) (by omega)
  rw [on.linked (n + 1), show (n % 2 == 0) = true from beq_iff_eq.2 he, Bool.and_true]
  by_cases hw : (b.tickWraps n && b.linked (n + 1)) = true
  · rw [if_pos hw, Block.tmrCarry_cnt, linked, runs, cnt]
    rw [Bool.and_eq_true] at hw
    simp only [hw.1, hw.2, Bool.true_and]
  · rw [if_neg hw, Bool.eq_false_of_not_eq_true hw]
    exact on.tmrCnt_other (n + 1) (by omega)

theorem Block.toBeat_beat (q : Nat) : (b.toBeat q).clk.beat = max b.clk.beat q := by
  change b.clk.beat + (q - b.clk.beat) = _
  omega

theorem timerTick_idle (s : State) (n : Nat) (hn : n < 32) (h : s.blk.tmrRuns n = false ∨ s.blk.linked n = true) : NoEffect (.timerTick n) s := by
  refine gives_of_runCmd (timerTick_runCmd n s) (if_pos ?_)
  rw [Nat.mod_eq_of_lt hn]
  change (!s.blk.tmrRuns n || s.blk.linked n) = true
  rcases h with h | h <;> rw [h]
  · rfl
  · exact Bool.or_true _

theorem timerTick_runs (s : State) (n : Nat) (hn : n < 32) (hr : s.blk.tmrRuns n = true) (hl : s.blk.linked n = false) :
      let down := s.blk.bit TMR_FLAG.DIR n
      let c := if down then s.blk.tmrCnt n - 1 else s.blk.tmrCnt n + 1
      let wraps := down && c == 0
      let mat := if wraps then (s.blk.reg (TMR_MATCH.all.off n)).toNat else (s.blk.timer n).mat
      Runs (.timerTick n) s (fun t => t.clk.beat = max s.blk.clk.beat (s.blk.timer n).due ∧ t.tmrCnt n = c % 2 ^ 32
        ∧ t.bit TMR_FLAG.DIR n = (if down then !wraps else decide ((s.blk.timer n).top ≤ c))
        ∧ t.bit TMR_FLAG.OVFF n = (s.blk.bit TMR_FLAG.OVFF n || wraps) ∧ t.bit TMR_FLAG.MATCHF n = (s.blk.bit TMR_FLAG.MATCHF n || c == mat)
        ∧ (t.timer n).mat = mat ∧ (t.timer n).top = (if wraps then (s.blk.reg (TMR_TOP.all.off n)).toNat else (s.blk.timer n).top)
        ∧ (t.timer n).due = (s.blk.timer n).due + 2 ^ s.blk.rd TMR_CFG.PSC n
        ∧ (n % 2 = 0 → t.tmrCnt (n + 1) = if wraps && s.blk.linked (n + 1) && s.blk.tmrRuns (n + 1) then (s.blk.tmrCnt (n + 1) + 1) % 2 ^ 32
            else s.blk.tmrCnt (n + 1))
        ∧ (∀ m, m ≠ n → m ≠ n + 1 → m < 32 → t.timer m = s.blk.timer m ∧ t.tmrCnt m = s.blk.tmrCnt m)) := by
  dsimp only
  have beat := s.blk.start.toBeat_beat (s.blk.timer n).due
  have on := (s.blk.start.toBeat (s.blk.timer n).due).ticked_on n
  obtain ⟨cnt, dir, ovff, matchf, mat, top, due⟩ := (s.blk.start.toBeat (s.blk.timer n).due).ticked_state n
  obtain ⟨clk', cnt', flags', mat', top', due', others'⟩ := (s.blk.start.toBeat (s.blk.timer n).due).tick_timer n
  refine runs_of_effect (b := (s.blk.start.toBeat (s.blk.timer n).due).tick n) (timerTick_runCmd n s) ?_ ?_
  · rw [Nat.mod_eq_of_lt hn]
    refine if_neg ?_
    change ¬ (!s.blk.tmrRuns n || s.blk.linked n) = true
    rw [hr, hl]
    decide
  · simp only [Block.canon_tmrCnt, Block.canon_timer, Block.canon_bit, Block.canon_clk]
    rw [clk', cnt', flags' TMR_FLAG.DIR rfl, flags' TMR_FLAG.OVFF rfl, flags' TMR_FLAG.MATCHF rfl, mat', top', due', on.clk]
    refine ⟨beat, cnt, dir, ovff, matchf, mat, top, due, Block.tick_carry _ n hn, fun m h0 h1 _ => ?_⟩
    rw [(others' m h0 h1).1, (others' m h0 h1).2]
    exact ⟨on.timers m h0, on.tmrCnt_other m h0⟩

/-- Settles O50: each command of the timers, by what it does to one timer and to the odd one linked to it. -/
theorem timers : Obligations.Timers :=
  ⟨tmrGo_runs, tmrStop_runs, tmrGoAtArm_runs, fun _ => gives_of_runCmd (f := fun b => b.clr TMR_GO_ST.ARMED) rfl rfl, tmrGoAtStart_idle,
    tmrGoAtStart_runs, timerTick_idle, timerTick_runs, tmrCapture_idle, tmrCapture_runs, tmrCntRead_runs⟩

end Sys2Proof.Machine
end

section
/-! SUPPORT. What the effects of the other units leave of the clock, the Hoop, DRAM and the registers outside their own. -/

namespace Sys2Proof.Machine

/-- Between `b` and `c` the clock, the Hoop and DRAM stay, and every register of which `p` holds. -/
structure Keeps (p : Nat → Prop) (b c : Block) : Prop where
  clk : c.clk = b.clk
  hoop : c.hoop = b.hoop
  dram : c.dram = b.dram
  regs : ∀ o, p o → c.reg o = b.reg o

namespace Keeps

variable {p : Nat → Prop} {a b c : Block}

theorem refl (p : Nat → Prop) (b : Block) : Keeps p b b := ⟨rfl, rfl, rfl, fun _ _ => rfl⟩

theorem trans (h : Keeps p a b) (g : Keeps p b c) : Keeps p a c :=
  ⟨g.clk.trans h.clk, g.hoop.trans h.hoop, g.dram.trans h.dram, fun o ho => (g.regs o ho).trans (h.regs o ho)⟩

/-- A change of other parts alone. -/
theorem of_parts (clk : c.clk = b.clk) (hoop : c.hoop = b.hoop) (dram : c.dram = b.dram) (regs : c.regs = b.regs) : Keeps p b c :=
  ⟨clk, hoop, dram, fun o _ => Block.reg_congr regs o⟩

theorem mono {q : Nat → Prop} (h : Keeps p a b) (hq : ∀ o, q o → p o) : Keeps q a b := ⟨h.clk, h.hoop, h.dram, fun o ho => h.regs o (hq o ho)⟩

theorem setReg (h : Keeps p a b) {o : Nat} (ho : ¬ p o) (v : BitVec 32) : Keeps p a (b.setReg o v) :=
  h.trans ⟨rfl, rfl, rfl, fun q hq => b.reg_setReg_other o q v (fun e => ho (e ▸ hq))⟩

theorem wr (h : Keeps p a b) (f : Fld) (x n : Nat) (ho : ¬ p (f.off n)) : Keeps p a (b.wr f x n) := h.setReg ho _

theorem clr (h : Keeps p a b) (f : Fld) (n : Nat) (ho : ¬ p (f.off n)) : Keeps p a (b.clr f n) := h.setReg ho _

theorem tieNote (h : Keeps p a b) (o : Nat) (u : BitVec 32 → BitVec 32) : Keeps p a (b.tieNote o u) := h.trans (.of_parts rfl rfl rfl rfl)

theorem set (h : Keeps p a b) (f : Fld) (n : Nat) (ho : ¬ p (f.off n)) : Keeps p a (b.set f n) := (h.tieNote _ _).wr f _ n ho

theorem incBy (h : Keeps p a b) (f : Fld) (k n : Nat) (ho : ¬ p (f.off n)) : Keeps p a (b.incBy f k n) := (h.tieNote _ _).wr f _ n ho

theorem inc (h : Keeps p a b) (f : Fld) (n : Nat) (ho : ¬ p (f.off n)) : Keeps p a (b.inc f n) := h.incBy f 1 n ho

theorem maxTo (h : Keeps p a b) (f : Fld) (x n : Nat) (ho : ¬ p (f.off n)) : Keeps p a (b.maxTo f x n) := (h.tieNote _ _).wr f _ n ho

theorem emit (h : Keeps p a b) (o : Output) : Keeps p a (b.emit o) := h.trans (.of_parts rfl rfl rfl rfl)

theorem when {f : Block → Block} (h : Keeps p a b) (hf : Keeps p a (f b)) (c : Bool) : Keeps p a (b.when c f) := by
  cases c
  · exact h
  · exact hf

theorem foldl {α : Type} {f : Block → α → Block} : ∀ (l : List α) {b : Block}, Keeps p a b → (∀ (b : Block) (x : α), x ∈ l → Keeps p a b → Keeps p a (f b x)) →
    Keeps p a (l.foldl f b)
  | [], _, h, _ => h
  | x :: l, _, h, hf => foldl l (hf _ x List.mem_cons_self h) (fun c y hy => hf c y (List.mem_cons_of_mem _ hy))

theorem rd (h : Keeps p a b) (f : Fld) (n : Nat) (ho : p (f.off n)) : b.rd f n = a.rd f n := by
  unfold Block.rd
  rw [h.regs _ ho]

theorem bit (h : Keeps p a b) (f : Fld) (n : Nat) (ho : p (f.off n)) : b.bit f n = a.bit f n := Block.bit_of_rd (h.rd f n ho)

theorem lock (h : Keeps p a b) (ho : p HOOP_STATE.all.base) : b.lock = a.lock := h.rd HOOP_STATE.LOCK 0 ho

/-! ### The error log (R522, R523) -/

section
variable (hp : ∀ o, p o → o < RAS_CTL.all.base)
include hp

theorem ras_not {o : Nat} (ho : RAS_CTL.all.base ≤ o) : ¬ p o := fun h => absurd (hp o h) (Nat.not_lt.2 ho)

theorem logEvent (h : Keeps p a b) (kind : Nat) : Keeps p a (b.logEvent kind) := by
  unfold Block.logEvent
  split
  · exact h.set RAS_EVT.UE_LOG 0 (ras_not hp (by decide))
  · split
    · exact h.set RAS_EVT.ACCESS 0 (ras_not hp (by decide))
    · exact h

theorem logLost (h : Keeps p a b) : Keeps p a b.logLost :=
  (h.inc RAS_LOST_CNT.all 0 (ras_not hp (by decide))).set RAS_EVT.LOG_OVF 0 (ras_not hp (by decide))

theorem logCount (h : Keeps p a b) : Keeps p a b.logCount := by
  refine wr ?_ RAS_LOG_WR.SEQ _ 0 (ras_not hp (by decide))
  exact h.trans (.of_parts rfl rfl rfl rfl)

omit hp in
theorem logPut (h : Keeps p a b) (n : Nat) (e : LogEntry) : Keeps p a (b.logPut n e) := h.trans (.of_parts rfl rfl rfl rfl)

theorem logInsert (h : Keeps p a b) (e : LogEntry) (later : List LogEntry) (full : Bool) : Keeps p a (b.logInsert e later full) := by
  have put := foldl (f := fun (c : Block) (x : Nat × LogEntry) => c.logPut (b.rd RAS_LOG_WR.SEQ + 65536 - later.length + x.1) x.2)
    ((List.range (e :: (if full then later.dropLast else later)).length).zip (e :: (if full then later.dropLast else later))) h
    (fun c x _ hc => hc.logPut _ _)
  unfold Block.logInsert
  cases full
  · exact put.logCount hp
  · exact put.logLost hp

theorem log (h : Keeps p a b) (kind unit : Nat) (info : BitVec 32) (addr : Nat) (x y : BitVec 32) : Keeps p a (b.log kind unit info addr x y) := by
  unfold Block.log
  dsimp only
  split
  · split
    · exact h.logLost hp
    · exact ((h.logPut _ _).logCount hp).logEvent hp kind
  · exact (h.logInsert hp _ _ _).logEvent hp kind

theorem logHoop (h : Keeps p a b) (ev : Nat) : Keeps p a (b.logHoop ev) := h.log hp ..

end

/-! ### The Weft engines (R251–R254) -/

theorem onStrand (h : Keeps p a b) (k : Nat) (f : Strand → Strand) : Keeps p a (b.onStrand k f) := h.trans (.of_parts rfl rfl rfl rfl)

section
variable (hp : ∀ o, p o → o < WFT_CTL.all.base)
include hp

/-- The registers of the engines are kept by no predicate on those below them. -/
theorem wft_not (f : Fld) (n : Nat) (h : WFT_CTL.all.base ≤ f.base) : ¬ p (f.off n) :=
  fun ho => absurd (hp _ ho) (Nat.not_lt.2 (Nat.le_trans h (Nat.le_add_right _ _)))

theorem strobeDrop (h : Keeps p a b) (n i : Nat) : Keeps p a (b.strobeDrop n i) :=
  (((h.set WFT_EVT.OVERRUN n (wft_not hp _ _ (by decide))).inc WFT_CNT_OVR.all n (wft_not hp _ _ (by decide))).wr WFT_OVR.VALID 1 n
    (wft_not hp _ _ (by decide))).wr WFT_OVR.INDEX i n (wft_not hp _ _ (by decide))

theorem weaveStart (h : Keeps p a b) (k : Nat) (q : Queued) (first delay : Nat) : Keeps p a (b.weaveStart k q first delay) := by
  unfold Block.weaveStart
  dsimp only
  exact (h.onStrand k _).inc WFT_CNT_WEAVE.all _ (wft_not hp _ _ (by decide))

theorem dispatch (h : Keeps p a b) (st : Strobe) (bank arrive : Nat) : Keeps p a (b.dispatch st bank arrive) := by
  unfold Block.dispatch
  dsimp only
  split
  · exact h.strobeDrop hp _ _
  · split
    · exact h.weaveStart hp _ _ _ _
    · split
      · exact h.strobeDrop hp _ _
      · exact h.trans (.of_parts rfl rfl rfl rfl)

end

end Keeps

/-- The registers below the ones of the RAS block, and those below the ones of the Weft engines. -/
def belowRas (o : Nat) : Prop := o < RAS_CTL.all.base
def belowWft (o : Nat) : Prop := o < WFT_CTL.all.base

theorem Block.logHoop_keeps (b : Block) (ev : Nat) : Keeps belowRas b (b.logHoop ev) := (Keeps.refl _ b).logHoop (fun _ h => h) ev

end Sys2Proof.Machine
end

section
/-! SUPPORT. How a strobe issues (R65, R66, R75), and the flags of HOOP_EVT. -/

namespace Sys2Proof.Machine

variable (b : Block)

/-! ### The flags of HOOP_EVT -/

/-- Every bit of HOOP_EVT that is set in `b` is set in `c`. -/
def EvtGrows (b c : Block) : Prop := ∀ i, (b.reg HOOP_EVT.all.base).getLsbD i = true → (c.reg HOOP_EVT.all.base).getLsbD i = true

namespace EvtGrows

variable {a b c : Block}

theorem of_reg (h : c.reg HOOP_EVT.all.base = b.reg HOOP_EVT.all.base) : EvtGrows b c := fun i hi => by rwa [h]

theorem refl (b : Block) : EvtGrows b b := of_reg rfl

theorem trans (h : EvtGrows a b) (g : EvtGrows b c) : EvtGrows a c := fun i hi => g i (h i hi)

/-- A flag that sets lets the other bits stand. -/
theorem set (h : EvtGrows a b) (f : Fld) (n : Nat) (hw : f.hi = f.lo) : EvtGrows a (b.set f n) := by
  refine h.trans fun i hi => ?_
  by_cases ho : HOOP_EVT.all.base = f.off n
  · have small : i < 32 := BitVec.lt_of_getLsbD hi
    have shown : (b.set f n).reg HOOP_EVT.all.base = fput (b.reg HOOP_EVT.all.base) f 1 := by
      rw [ho]
      exact Block.reg_setReg_same _ _ _
    rw [shown, fput_getLsbD, decide_eq_true small, Bool.true_and]
    split
    · next hr =>
      have : i = f.lo := by
        unfold Fld.width at hr
        omega
      rw [this, Nat.sub_self]
      rfl
    · exact hi
  · rwa [show (b.set f n).reg HOOP_EVT.all.base = b.reg HOOP_EVT.all.base from Block.reg_setReg_other _ _ _ _ ho]

theorem setReg (h : EvtGrows a b) {o : Nat} (ho : o ≠ HOOP_EVT.all.base) (v : BitVec 32) : EvtGrows a (b.setReg o v) :=
  h.trans (of_reg (Block.reg_setReg_other _ _ _ _ ho.symm))

theorem wr (h : EvtGrows a b) (f : Fld) (x n : Nat) (ho : f.off n ≠ HOOP_EVT.all.base) : EvtGrows a (b.wr f x n) := h.setReg ho _

theorem when {f : Block → Block} (h : EvtGrows a b) (hf : EvtGrows a (f b)) (k : Bool) : EvtGrows a (b.when k f) := by
  cases k
  · exact h
  · exact hf

theorem logHoop (h : EvtGrows a b) (ev : Nat) : EvtGrows a (b.logHoop ev) :=
  h.trans (of_reg ((b.logHoop_keeps ev).regs _ (show HOOP_EVT.all.base < RAS_CTL.all.base by decide)))

theorem bit (h : EvtGrows b c) (f : Fld) (hf : f.off 0 = HOOP_EVT.all.base) (hw : f.hi = f.lo) (hb : b.bit f = true) : c.bit f = true := by
  have one (d : Block) : d.bit f = (d.reg HOOP_EVT.all.base).getLsbD f.lo := by
    have width : f.width = 1 := by
      unfold Fld.width
      omega
    unfold Block.bit Block.rd fget
    rw [hf, width, Nat.shiftRight_eq_div_pow]
    change _ = (d.reg HOOP_EVT.all.base).toNat.testBit f.lo
    rw [Nat.testBit_eq_decide_div_mod_eq]
    have : (d.reg HOOP_EVT.all.base).toNat / 2 ^ f.lo % 2 ^ 1 = 0 ∨ (d.reg HOOP_EVT.all.base).toNat / 2 ^ f.lo % 2 ^ 1 = 1 := by omega
    rcases this with e | e <;> rw [e] <;> simp at e <;> simp [e]
  rw [one] at hb ⊢
  exact h _ hb

end EvtGrows

/-- A change of LOCK sets a flag of HOOP_EVT and clears none. -/
theorem Block.lockTo_evt (new : Nat) : EvtGrows b (b.lockTo new) := by
  by_cases h : b.lock = new
  · rw [b.lockTo_same h]
    exact .refl b
  · exact (((EvtGrows.refl b).wr HOOP_STATE.LOCK _ 0 (by decide)).set HOOP_EVT.LOCK_CHG 0 rfl).trans (.of_reg (Block.reg_congr (b.lockTo_regs h) _))

theorem Block.setLock_evt (new : Nat) : EvtGrows b (b.setLock new) := by
  by_cases h : b.lock = new
  · rw [b.setLock_same h]
    exact .refl b
  · obtain ⟨x, hx⟩ := b.setLock_regs h
    exact ((b.lockTo_evt new).wr HOOP_STATE.TQ x 0 (by decide)).trans (.of_reg (Block.reg_congr hx _))

theorem Block.srcLost_evt : EvtGrows b b.srcLost := by
  have sync : EvtGrows b (b.setSync { b.hoop.sync with passRun := 0 }) := .of_reg (Block.reg_congr rfl _)
  rcases b.srcLost_cases with ⟨-, e⟩ | ⟨-, e⟩ | ⟨-, -, e⟩ <;> rw [e]
  · exact sync.trans (Block.setLock_evt _ _)
  · exact sync.trans (Block.setLock_evt _ _)
  · exact sync

/-! ### A strobe issues -/

/-- The HOOP cycle of a strobe is taken, and the strobe journalled. -/
def Block.strobeListed (b : Block) (st : Strobe) (cycle : Nat) : Block :=
  let b := b.setWarp { b.hoop.warp with nextCycle := cycle + 1 }
  b.setRed { b.hoop.red with journal := b.hoop.red.journal ++ [(st.idx, st.sf)] }

/-- Its slip shows, a group entry in error, and that it is late. -/
def Block.strobeSlips (b : Block) (st : Strobe) : Block := b.when (st.slip != 0) (fun b => (b.set HOOP_EVT.SLIP).maxTo HOOP_SLIP_MAX.all st.slip)
def Block.strobeErr (b : Block) (st : Strobe) : Block := b.when st.grperr (fun b => b.set HOOP_EVT.GROUP_ERR)
def Block.strobeLate (b : Block) (st : Strobe) : Block := b.when st.late (fun b => (b.inc HOOP_LATE_CNT.all).set HOOP_EVT.LATE)

/-- The strobe journalled and counted, before it is driven. -/
def Block.strobeNoted (b : Block) (st : Strobe) (cycle : Nat) : Block := (((b.strobeListed st cycle).strobeSlips st).strobeErr st).strobeLate st

theorem Block.strobeIssue_eq (st : Strobe) (cycle : Nat) :
    ∃ bank, b.strobeIssue st cycle = ((b.strobeNoted st cycle).emit (.strobe st)).dispatch st bank (cycle / 2) := ⟨_, rfl⟩

/-- The three registers in which a strobe is counted. -/
def strobeRegs : List Nat := [HOOP_EVT.all.base, HOOP_SLIP_MAX.all.base, HOOP_LATE_CNT.all.base]

/-- What counts a strobe changes those registers alone. -/
structure StrobeCounted (b c : Block) : Prop where
  clk : c.clk = b.clk
  hoop : c.hoop = b.hoop
  out : c.out = b.out
  regs : RegsKept b c strobeRegs
  evt : EvtGrows b c

theorem StrobeCounted.refl (b : Block) : StrobeCounted b b := ⟨rfl, rfl, rfl, .refl b _, .refl b⟩

theorem StrobeCounted.trans {a b c : Block} (h : StrobeCounted a b) (g : StrobeCounted b c) : StrobeCounted a c :=
  ⟨g.clk.trans h.clk, g.hoop.trans h.hoop, g.out.trans h.out, h.regs.trans g.regs, h.evt.trans g.evt⟩

theorem StrobeCounted.set {a b : Block} (h : StrobeCounted a b) (f : Fld) (hf : f.off 0 = HOOP_EVT.all.base) (hw : f.hi = f.lo) :
    StrobeCounted a (b.set f) :=
  h.trans ⟨rfl, rfl, rfl, (RegsKept.refl b _).set f 0 (by rw [hf]; decide), (EvtGrows.refl b).set f 0 hw⟩

/-- A counter beside HOOP_EVT. -/
theorem StrobeCounted.tieWr {a b : Block} (h : StrobeCounted a b) (f : Fld) (u : BitVec 32 → BitVec 32) (x : Nat) (hf : f.off 0 ∈ strobeRegs)
    (hn : f.off 0 ≠ HOOP_EVT.all.base) : StrobeCounted a ((b.tieNote (f.off 0) u).wr f x) := by
  have noted : RegsKept b (b.tieNote (f.off 0) u) strobeRegs := .of_regs rfl
  have grows : EvtGrows b (b.tieNote (f.off 0) u) := .of_reg (Block.reg_congr rfl _)
  exact h.trans ⟨rfl, rfl, rfl, noted.wr f x 0 hf, grows.wr f x 0 hn⟩

theorem StrobeCounted.slipMax {a b : Block} (h : StrobeCounted a b) (x : Nat) : StrobeCounted a (b.maxTo HOOP_SLIP_MAX.all x) :=
  h.tieWr HOOP_SLIP_MAX.all _ _ (by decide) (by decide)

theorem Block.strobeSlips_counts (st : Strobe) : StrobeCounted b (b.strobeSlips st) := by
  unfold Block.strobeSlips
  cases st.slip != 0
  · exact .refl b
  · exact ((StrobeCounted.refl b).set HOOP_EVT.SLIP rfl rfl).slipMax st.slip

theorem Block.strobeErr_counts (st : Strobe) : StrobeCounted b (b.strobeErr st) := by
  unfold Block.strobeErr
  cases st.grperr
  · exact .refl b
  · exact (StrobeCounted.refl b).set HOOP_EVT.GROUP_ERR rfl rfl

theorem Block.strobeLate_counts (st : Strobe) : StrobeCounted b (b.strobeLate st) := by
  unfold Block.strobeLate
  cases st.late
  · exact .refl b
  · exact ((StrobeCounted.refl b).tieWr HOOP_LATE_CNT.all _ _ (by decide) (by decide)).set HOOP_EVT.LATE rfl rfl

theorem Block.strobeNoted_counts (st : Strobe) (cycle : Nat) : StrobeCounted (b.strobeListed st cycle) (b.strobeNoted st cycle) :=
  ((Block.strobeSlips_counts _ st).trans (Block.strobeErr_counts _ st)).trans (Block.strobeLate_counts _ st)

/-- A strobe counts once in LATE_CNT where it is late (R65). -/
theorem Block.strobeNoted_late (st : Strobe) (cycle : Nat) : (b.strobeNoted st cycle).rd HOOP_LATE_CNT.all
    = if st.late then min (b.rd HOOP_LATE_CNT.all + 1) (2 ^ 32 - 1) else b.rd HOOP_LATE_CNT.all := by
  have before : (((b.strobeListed st cycle).strobeSlips st).strobeErr st).rd HOOP_LATE_CNT.all = b.rd HOOP_LATE_CNT.all := by
    have slipped : ((b.strobeListed st cycle).strobeSlips st).rd HOOP_LATE_CNT.all = (b.strobeListed st cycle).rd HOOP_LATE_CNT.all := by
      unfold Block.strobeSlips
      cases st.slip != 0
      · rfl
      · exact (Block.rd_wr_other _ _ _ _ _ _ (by decide)).trans (Block.rd_set_other _ _ _ _ _ (by decide))
    unfold Block.strobeErr
    cases st.grperr
    · exact slipped
    · exact (Block.rd_set_other _ _ _ _ _ (by decide)).trans slipped
  unfold Block.strobeNoted
  generalize ((b.strobeListed st cycle).strobeSlips st).strobeErr st = c at before
  unfold Block.strobeLate
  rw [← before]
  cases st.late
  · rfl
  · exact (Block.rd_set_other _ _ _ _ _ (by decide)).trans (Block.rd_inc_same _ _ _ (by decide))

theorem Block.strobeSlips_of_slip (st : Strobe) (h : st.slip ≠ 0) : b.strobeSlips st = (b.set HOOP_EVT.SLIP).maxTo HOOP_SLIP_MAX.all st.slip :=
  if_pos (bne_iff_ne.2 h)

theorem Block.strobeErr_of_err (st : Strobe) (h : st.grperr = true) : b.strobeErr st = b.set HOOP_EVT.GROUP_ERR := if_pos h

/-- A slip shows in SLIP, a group entry in error in GROUP_ERR (R65, R66). -/
theorem Block.strobeNoted_flags (st : Strobe) (cycle : Nat) : (st.slip ≠ 0 → (b.strobeNoted st cycle).bit HOOP_EVT.SLIP = true)
    ∧ (st.grperr = true → (b.strobeNoted st cycle).bit HOOP_EVT.GROUP_ERR = true) := by
  have late := ((((b.strobeListed st cycle).strobeSlips st).strobeErr st).strobeLate_counts st).evt
  have err := (((b.strobeListed st cycle).strobeSlips st).strobeErr_counts st).evt
  refine ⟨fun h => (err.trans late).bit HOOP_EVT.SLIP rfl rfl ?_, fun h => late.bit HOOP_EVT.GROUP_ERR rfl rfl ?_⟩
  · rw [Block.strobeSlips_of_slip _ st h]
    exact ((StrobeCounted.refl _).slipMax st.slip).evt.bit HOOP_EVT.SLIP rfl rfl (Block.bit_set_same _ _ _ (by decide) (by decide))
  · rw [Block.strobeErr_of_err _ st h]
    exact Block.bit_set_same _ _ _ (by decide) (by decide)

theorem Block.inc_out (f : Fld) (n : Nat) : (b.inc f n).out = b.out := rfl

theorem Block.strobeDrop_out (n i : Nat) : (b.strobeDrop n i).out = b.out := by
  unfold Block.strobeDrop
  rw [Block.wr_out, Block.wr_out, Block.inc_out, Block.set_out]

theorem Block.weaveStart_out (k : Nat) (q : Queued) (first delay : Nat) : (b.weaveStart k q first delay).out = b.out := by
  unfold Block.weaveStart
  dsimp only
  rw [Block.inc_out]
  rfl

theorem Block.dispatch_out (st : Strobe) (bank arrive : Nat) : (b.dispatch st bank arrive).out = b.out := by
  unfold Block.dispatch
  dsimp only
  split
  · exact b.strobeDrop_out _ _
  · split
    · exact b.weaveStart_out _ _ _ _
    · split
      · exact b.strobeDrop_out _ _
      · rfl

/-- A strobe that issues is driven, and leaves of this side of the Weft engines what its counting leaves. -/
theorem Block.strobeIssue_parts (st : Strobe) (cycle : Nat) : (b.strobeIssue st cycle).out = b.out ++ [.strobe st]
    ∧ (b.strobeIssue st cycle).clk = b.clk ∧ (b.strobeIssue st cycle).hoop = (b.strobeListed st cycle).hoop
    ∧ ∀ o, belowWft o → (b.strobeIssue st cycle).reg o = (b.strobeNoted st cycle).reg o := by
  obtain ⟨bank, e⟩ := b.strobeIssue_eq st cycle
  have counted := b.strobeNoted_counts st cycle
  have sent := (Keeps.refl belowWft ((b.strobeNoted st cycle).emit (.strobe st))).dispatch (fun _ h => h) st bank (cycle / 2)
  rw [e]
  refine ⟨?_, sent.clk.trans counted.clk, sent.hoop.trans counted.hoop, fun o ho => sent.regs o ho⟩
  rw [Block.dispatch_out, Block.emit_out, counted.out]
  rfl

end Sys2Proof.Machine
end

section
/-! SUPPORT. Proof runs, heartbeats and failover (R75–R83). -/

namespace Sys2Proof.Machine

variable (b : Block)

/-! ### The log beside the Hoop's registers -/

theorem Block.logHoop_rd (ev : Nat) (f : Fld) (n : Nat) (h : f.off n < RAS_CTL.all.base) : (b.logHoop ev).rd f n = b.rd f n := (b.logHoop_keeps ev).rd f n h

theorem Block.logHoop_bit (ev : Nat) (f : Fld) (n : Nat) (h : f.off n < RAS_CTL.all.base) : (b.logHoop ev).bit f n = b.bit f n :=
  (b.logHoop_keeps ev).bit f n h

/-! ### REARM, PROOF_NOW and faults -/

theorem rearm_gives (s : State) : if s.blk.rd HOOP_STATE.STBY = 3 ∧ s.blk.hoop.red.dead = false then
    Gives .rearm s (s.blk.start.setRed { s.blk.hoop.red with rearmed := true, proofMism := 0, proofFrom := none }) else NoEffect .rearm s := by
  have asked : (decide (s.blk.rd HOOP_STATE.STBY = 3) && !s.blk.hoop.red.dead) = true ↔ s.blk.rd HOOP_STATE.STBY = 3 ∧ s.blk.hoop.red.dead = false := by
    rw [Bool.and_eq_true, decide_eq_true_iff, Bool.not_eq_true']
  split
  · next h => exact gives_of_runCmd (f := Block.rearm) rfl (if_pos (asked.2 h))
  · next h => exact gives_of_runCmd (f := Block.rearm) rfl (if_neg (fun hn => h (asked.1 hn)))

/-! ### Failover -/

theorem Block.failoverDue_sent (h : b.hoop.red.hbStop = none) : b.failoverDue = (let m := min (b.hbRun false) (b.hbRun true)
    if 4 ≤ m then some ((b.hoop.red.hbFrom + (64 * ((2 * b.clk.beat - b.hoop.red.hbFrom) / 64 - m) + 264)) / 2) else none) := by
  unfold Block.failoverDue
  dsimp only
  rw [h]
  rfl

theorem failoverStart_idle (s : State) (h : s.blk.failoverDue = none) : NoEffect .failoverStart s := by
  cases hd : s.blk.hoopDown
  · refine gives_of_hoopUp rfl hd ?_
    rw [show s.blk.start.failoverDue = none from h]
  · exact noEffect_of_hoopDown rfl hd

/-- While a copy drives the outputs a failover that is due starts in its beat. -/
theorem failoverStart_due (s : State) (n : Nat) (hd : s.blk.hoopDown = false) (h : s.blk.failoverDue = some n) {d : Block} {P : Block → Prop}
    (e : (s.blk.start.toBeat n).failoverStart = d) (hP : P d.canon) : Runs .failoverStart s P := by
  refine runs_of_hoopUp rfl hd ?_ hP
  rw [show s.blk.start.failoverDue = some n from h]
  exact e

theorem failoverStart_lost (s : State) (n : Nat) (hd : s.blk.hoopDown = false) (hs : s.blk.rd HOOP_STATE.STBY = 3) (h : s.blk.failoverDue = some n) :
    Runs .failoverStart s (fun t => t.hoop.red.dead = true ∧ t.hoop.red.gap = false ∧ t.bit HOOP_EVT.STBY_FAILED = true
      ∧ t.clk = (s.blk.start.toBeat n).clk) := by
  have log := Block.logHoop_keeps (((s.blk.start.toBeat n).setRed { s.blk.hoop.red with dead := true }).set HOOP_EVT.STBY_FAILED) 6
  have gap : s.blk.hoop.red.gap = false := (Bool.or_eq_false_iff.1 hd).1
  refine failoverStart_due s n hd h (Block.failoverStart_dead _ hd hs) ⟨?_, ?_, ?_, log.clk⟩
  · exact congrArg (·.red.dead) log.hoop
  · exact (congrArg (·.red.gap) log.hoop).trans gap
  · exact (Block.canon_bit _ _ _).trans ((Block.logHoop_bit _ _ _ _ (by decide)).trans
      (Block.bit_set_same _ _ _ (by decide) (by decide)))

/-! ### Proof runs -/

/-- PROOF_NOW or a failed run has asked for a run by this cell. -/
def Block.proofAsked (b : Block) : Bool := match b.hoop.red.proofFrom with | some f => decide (f ≤ b.clk.cell) | none => false

/-- The proof run of this cell. -/
def Block.proofMarked (b : Block) : Block :=
  (b.wr HOOP_STATE.STBY 1).setRed { b.hoop.red with proofCell := some b.clk.cell, proofFrom := if b.proofAsked then none else b.hoop.red.proofFrom }
def Block.proofBegun (b : Block) : Block := b.proofMarked.when b.proofAsked (fun b => b.clr HOOP_CTL.PROOF_NOW)

theorem proofRun_runCmd (s : State) : exec .proofRun s = runCmd s (fun b => b.ifHoop fun b =>
    if b.proofDue = true ∧ (b.rd HOOP_STATE.STBY = 0 ∨ b.rd HOOP_STATE.STBY = 2) then b.proofBegun else b) := rfl

theorem Block.proofBegun_state : b.proofBegun.rd HOOP_STATE.STBY = 1 ∧ b.proofBegun.hoop.red.proofCell = some b.clk.cell
    ∧ RegsKept b b.proofBegun [HOOP_STATE.all.base, HOOP_CTL.all.base]
    ∧ (b.proofAsked = true → b.proofBegun.rd HOOP_CTL.PROOF_NOW = 0 ∧ b.proofBegun.hoop.red.proofFrom = none) := by
  have regs : b.proofMarked.regs = (b.wr HOOP_STATE.STBY 1).regs := rfl
  have shown : b.proofMarked.rd HOOP_STATE.STBY = 1 := (Block.rd_congr regs _ _).trans (b.rd_wr_same HOOP_STATE.STBY 1 0 (by decide))
  have kept : RegsKept b b.proofMarked [HOOP_STATE.all.base, HOOP_CTL.all.base] :=
    RegsKept.trans ((RegsKept.refl b _).wr HOOP_STATE.STBY 1 0 (by decide)) (.of_regs regs)
  have red : b.proofMarked.hoop.red.proofCell = some b.clk.cell
      ∧ b.proofMarked.hoop.red.proofFrom = if b.proofAsked then none else b.hoop.red.proofFrom := ⟨rfl, rfl⟩
  unfold Block.proofBegun
  generalize b.proofMarked = c at shown kept red
  cases ha : b.proofAsked
  · exact ⟨shown, red.1, kept, fun h => absurd h (by decide)⟩
  · exact ⟨(Block.rd_wr_other _ _ _ _ _ _ (by decide)).trans shown, red.1, kept.clr HOOP_CTL.PROOF_NOW 0 (by decide),
      fun _ => ⟨Block.rd_wr_same _ _ _ _ (by decide), red.2.trans (by rw [ha]; rfl)⟩⟩

theorem proofRun_runs (s : State) (hd : s.blk.hoopDown = false) :
    if s.blk.proofDue = true ∧ (s.blk.rd HOOP_STATE.STBY = 0 ∨ s.blk.rd HOOP_STATE.STBY = 2) then
      Runs .proofRun s (fun t => t.rd HOOP_STATE.STBY = 1 ∧ t.hoop.red.proofCell = some s.blk.clk.cell ∧ RegsKept s.blk t [HOOP_STATE.all.base, HOOP_CTL.all.base]
        ∧ (∀ f, s.blk.hoop.red.proofFrom = some f → f ≤ s.blk.clk.cell → t.rd HOOP_CTL.PROOF_NOW = 0 ∧ t.hoop.red.proofFrom = none)) else NoEffect .proofRun s := by
  split
  · next h =>
    obtain ⟨stby, cell, kept, asked⟩ := s.blk.start.proofBegun_state
    refine runs_of_hoopUp (proofRun_runCmd s) hd (if_pos h) ⟨(Block.canon_rd _ _ _).trans stby, cell, kept.canon, fun f hf hc => ?_⟩
    have due : s.blk.start.proofAsked = true := by
      unfold Block.proofAsked
      rw [Block.start_hoop, hf]
      exact decide_eq_true hc
    exact ⟨(Block.canon_rd _ _ _).trans (asked due).1, (asked due).2⟩
  · next h => exact gives_of_hoopUp (proofRun_runCmd s) hd (if_neg h)

/-- The mismatch counted (R81). -/
def Block.proofCounted (b : Block) : Block := ((b.set HOOP_EVT.PROOF_FAIL).inc HOOP_RED_ST.PROOF_FAILS).logHoop 5

/-- A first mismatch leaves the copy SUSPECT with another run in the next cell, a second in a row FAILED. -/
def Block.proofSuspect (b : Block) (r : HoopRed) (past : Nat) : Block :=
  (b.setRed { r with proofMism := r.proofMism + 1, proofFrom := some (min past (r.proofFrom.getD past)) }).wr HOOP_STATE.STBY 2
def Block.proofFailed (b : Block) (r : HoopRed) : Block :=
  (((b.setRed { r with proofMism := r.proofMism + 1, proofFrom := none }).wr HOOP_STATE.STBY 3).set HOOP_EVT.STBY_FAILED).logHoop 6

theorem proofRunEnd_runCmd (m : Bool) (s : State) : exec (.proofRunEnd m) s = runCmd s (fun b => b.ifHoop fun b =>
    let past := b.hoop.red.proofCell.getD b.clk.cell + 1
    if b.rd HOOP_STATE.STBY ≠ 1 then b
    else if !m then ((b.toTime (BitVec.ofNat 64 (past * 2 ^ 24))).wr HOOP_STATE.STBY 0).setRed { b.hoop.red with proofMism := 0 }
    else if b.hoop.red.proofMism + 1 < 2 then b.proofCounted.proofSuspect b.hoop.red past else b.proofCounted.proofFailed b.hoop.red) := rfl

theorem Block.proofCounted_state : b.proofCounted.bit HOOP_EVT.PROOF_FAIL = true
    ∧ b.proofCounted.rd HOOP_RED_ST.PROOF_FAILS = min (b.rd HOOP_RED_ST.PROOF_FAILS + 1) 255 := by
  refine ⟨(Block.logHoop_bit _ _ _ _ (by decide)).trans ?_, (Block.logHoop_rd _ _ _ _ (by decide)).trans ?_⟩
  · exact (Block.bit_wr_other _ _ _ _ _ _ (.inl (by decide))).trans (Block.bit_set_same _ _ _ (by decide) (by decide))
  · rw [Block.rd_inc_same _ _ _ (by decide), Block.rd_set_other _ _ _ _ _ (by decide)]
    rfl

theorem Block.proofSuspect_state (r : HoopRed) (past : Nat) : RegsKept b (b.proofSuspect r past) [HOOP_STATE.all.base]
    ∧ (b.proofSuspect r past).rd HOOP_STATE.STBY = 2 ∧ (b.proofSuspect r past).hoop.red.proofFrom = some (min past (r.proofFrom.getD past)) :=
  ⟨RegsKept.wr (.of_regs rfl) HOOP_STATE.STBY 2 0 (by decide), Block.rd_wr_same _ _ _ _ (by decide), rfl⟩

theorem Block.proofFailed_state (r : HoopRed) : (b.proofFailed r).rd HOOP_STATE.STBY = 3 ∧ (b.proofFailed r).bit HOOP_EVT.STBY_FAILED = true
    ∧ EvtGrows b (b.proofFailed r) ∧ (b.proofFailed r).rd HOOP_RED_ST.PROOF_FAILS = b.rd HOOP_RED_ST.PROOF_FAILS := by
  refine ⟨(Block.logHoop_rd _ _ _ _ (by decide)).trans ?_, (Block.logHoop_bit _ _ _ _ (by decide)).trans ?_, ?_,
    (Block.logHoop_rd _ _ _ _ (by decide)).trans ?_⟩
  · exact (Block.rd_set_other _ _ _ _ _ (by decide)).trans (Block.rd_wr_same _ _ _ _ (by decide))
  · exact Block.bit_set_same _ _ _ (by decide) (by decide)
  · have asked : EvtGrows b (b.setRed { r with proofMism := r.proofMism + 1, proofFrom := none }) := .of_reg (Block.reg_congr rfl _)
    exact ((asked.wr HOOP_STATE.STBY 3 0 (by decide)).set HOOP_EVT.STBY_FAILED 0 rfl).logHoop 6
  · exact (Block.rd_set_other _ _ _ _ _ (by decide)).trans (Block.rd_wr_other _ _ _ _ _ _ (by decide))

theorem proofRunEnd_idle (s : State) (m : Bool) (h : s.blk.rd HOOP_STATE.STBY ≠ 1) : NoEffect (.proofRunEnd m) s := by
  cases hd : s.blk.hoopDown
  · exact gives_of_hoopUp (proofRunEnd_runCmd m s) hd (if_pos h)
  · exact noEffect_of_hoopDown rfl hd

theorem proofRunEnd_passes (s : State) (hd : s.blk.hoopDown = false) (h : s.blk.rd HOOP_STATE.STBY = 1) :
    Gives (.proofRunEnd false) s (((s.blk.start.toTime (BitVec.ofNat 64 ((s.blk.hoop.red.proofCell.getD s.blk.clk.cell + 1) * 2 ^ 24))).wr
      HOOP_STATE.STBY 0).setRed { s.blk.hoop.red with proofMism := 0 }) :=
  gives_of_hoopUp (proofRunEnd_runCmd false s) hd ((if_neg (not_not.2 h)).trans (if_pos rfl))

theorem proofRunEnd_fails (s : State) (hd : s.blk.hoopDown = false) (h : s.blk.rd HOOP_STATE.STBY = 1) :
    let next := s.blk.hoop.red.proofCell.getD s.blk.clk.cell + 1
    Runs (.proofRunEnd true) s (fun t => t.bit HOOP_EVT.PROOF_FAIL = true
        ∧ t.rd HOOP_RED_ST.PROOF_FAILS = min (s.blk.rd HOOP_RED_ST.PROOF_FAILS + 1) 255
        ∧ t.rd HOOP_STATE.STBY = (if s.blk.hoop.red.proofMism = 0 then 2 else 3)
        ∧ (s.blk.hoop.red.proofMism ≠ 0 → t.bit HOOP_EVT.STBY_FAILED = true)
        ∧ (s.blk.hoop.red.proofMism = 0 → t.hoop.red.proofFrom = some (min next (s.blk.hoop.red.proofFrom.getD next)))) := by
  obtain ⟨fail, fails⟩ := s.blk.start.proofCounted_state
  refine runs_of_hoopUp (proofRunEnd_runCmd true s) hd ((if_neg (not_not.2 h)).trans (if_neg (by decide))) ?_
  by_cases hm : s.blk.hoop.red.proofMism = 0
  · obtain ⟨kept, stby, proofFrom⟩ := s.blk.start.proofCounted.proofSuspect_state s.blk.hoop.red (s.blk.hoop.red.proofCell.getD s.blk.clk.cell + 1)
    rw [if_pos (show s.blk.start.hoop.red.proofMism + 1 < 2 by rw [Block.start_hoop]; omega), if_pos hm]
    refine ⟨?_, ?_, (Block.canon_rd _ _ _).trans stby, fun hn => absurd hm hn, fun _ => proofFrom⟩
    · exact (Block.canon_bit _ _ _).trans ((kept.bit HOOP_EVT.PROOF_FAIL 0 (by decide)).trans fail)
    · exact (Block.canon_rd _ _ _).trans ((kept.rd HOOP_RED_ST.PROOF_FAILS 0 (by decide)).trans fails)
  · obtain ⟨stby, failed, grows, kept⟩ := s.blk.start.proofCounted.proofFailed_state s.blk.hoop.red
    rw [if_neg (show ¬ s.blk.start.hoop.red.proofMism + 1 < 2 by rw [Block.start_hoop]; omega), if_neg hm]
    refine ⟨?_, ?_, (Block.canon_rd _ _ _).trans stby, fun _ => (Block.canon_bit _ _ _).trans failed, fun he => absurd he hm⟩
    · exact (Block.canon_bit _ _ _).trans (grows.bit HOOP_EVT.PROOF_FAIL rfl rfl fail)
    · exact (Block.canon_rd _ _ _).trans (kept.trans fails)

end Sys2Proof.Machine
end

section
/-! SUPPORT. Heartbeats (R77, R83). -/

namespace Sys2Proof.Machine

variable (b : Block)

/-- The heartbeat that comes due on a path: the last one, where it is due in this beat and the path has not met it, else the next. -/
def Block.hbNext (b : Block) (y : Bool) : Nat :=
  if 1 ≤ b.hbIndex ∧ b.hbCycle (64 * b.hbIndex) = b.clk.beat ∧ (b.hoop.red.path y).last ≠ b.hbIndex then b.hbIndex else b.hbIndex + 1

/-- The active copy has sent none for heartbeat `k` since its fault. -/
def Block.hbStopped (b : Block) (k : Nat) : Bool := match b.hoop.red.hbStop with | some s => decide (s < k) | none => false

/-- A path with heartbeat `k` missed. -/
def Block.hbMarked (b : Block) (y : Bool) (k : Nat) : Block :=
  let h : HbPath := { last := k, run := (b.hoop.red.path y).runAt (k - 1) + 1 }
  b.setRed (if y then { b.hoop.red with hbY := h } else { b.hoop.red with hbX := h })

/-- The report of a miss on a path. -/
def Block.hbReport (b : Block) (y : Bool) : Block := if y then (b.set HOOP_EVT.HB_Y_MISS).logHoop 3 else (b.set HOOP_EVT.HB_X_MISS).logHoop 2

/-- Heartbeat `k` missed on a path, and reported while the other path is good. -/
def Block.hbMissed (b : Block) (y : Bool) (k : Nat) : Block := (b.hbMarked y k).when ((b.hbMarked y k).hbRun (!y) == 0) (fun b => b.hbReport y)

theorem heartbeatMiss_runCmd (y : Bool) (got : Option (Nat × Bool)) (s : State) : exec (.heartbeatMiss ⟨y, got⟩) s = runCmd s (fun b => b.ifHoop fun b =>
    let c := b.toBeat (b.hbCycle (64 * b.hbNext y))
    if c.hbStopped (b.hbNext y) || got == some (b.hbNext y % 64, true) then c else c.hbMissed y (b.hbNext y)) := rfl

theorem Block.hbStopped_iff (k : Nat) : b.hbStopped k = true ↔ ¬ ∀ x, b.hoop.red.hbStop = some x → k ≤ x := by
  unfold Block.hbStopped
  cases b.hoop.red.hbStop with
  | none => simp
  | some x => simp

/-- A miss on a path leaves the misses of the other. -/
theorem Block.hbMarked_other (y : Bool) (k : Nat) : (b.hbMarked y k).hbRun (!y) = b.hbRun (!y) := by
  cases y <;> rfl

theorem Block.hbMissed_state (y : Bool) (k : Nat) : (b.hbMissed y k).clk = b.clk
    ∧ (if y then (b.hbMissed y k).hoop.red.hbY else (b.hbMissed y k).hoop.red.hbX)
      = { last := k, run := (if (b.hoop.red.path y).last = k - 1 then (b.hoop.red.path y).run else 0) + 1 }
    ∧ (b.hbMissed y k).bit (if y then HOOP_EVT.HB_Y_MISS else HOOP_EVT.HB_X_MISS)
      = (b.bit (if y then HOOP_EVT.HB_Y_MISS else HOOP_EVT.HB_X_MISS) || b.hbRun (!y) == 0) := by
  have report : ((b.hbMarked y k).hbReport y).clk = b.clk ∧ ((b.hbMarked y k).hbReport y).hoop = (b.hbMarked y k).hoop
      ∧ ((b.hbMarked y k).hbReport y).bit (if y then HOOP_EVT.HB_Y_MISS else HOOP_EVT.HB_X_MISS) = true := by
    unfold Block.hbReport
    cases y
    · have log := Block.logHoop_keeps ((b.hbMarked false k).set HOOP_EVT.HB_X_MISS) 2
      exact ⟨log.clk, log.hoop, (Block.logHoop_bit _ _ _ _ (by decide)).trans (Block.bit_set_same _ _ _ (by decide) (by decide))⟩
    · have log := Block.logHoop_keeps ((b.hbMarked true k).set HOOP_EVT.HB_Y_MISS) 3
      exact ⟨log.clk, log.hoop, (Block.logHoop_bit _ _ _ _ (by decide)).trans (Block.bit_set_same _ _ _ (by decide) (by decide))⟩
  have marked : (if y then (b.hbMarked y k).hoop.red.hbY else (b.hbMarked y k).hoop.red.hbX)
      = { last := k, run := (if (b.hoop.red.path y).last = k - 1 then (b.hoop.red.path y).run else 0) + 1 } := by
    cases y <;> rfl
  have before (f : Fld) : (b.hbMarked y k).bit f = b.bit f := Block.bit_of_rd (Block.rd_congr rfl f 0)
  have clk : (b.hbMarked y k).clk = b.clk := rfl
  unfold Block.hbMissed
  rw [b.hbMarked_other y k, ← before]
  generalize b.hbMarked y k = c at report marked clk
  cases b.hbRun (!y) == 0
  · exact ⟨clk, marked, (Bool.or_false _).symm⟩
  · obtain ⟨clk', hoop, flag⟩ := report
    refine ⟨clk', ?_, flag.trans (Bool.or_true _).symm⟩
    change (if y = true then (c.hbReport y).hoop.red.hbY else (c.hbReport y).hoop.red.hbX) = _
    rw [hoop]
    exact marked

theorem heartbeatMiss_answers (s : State) (y : Bool) (got : Option (Nat × Bool)) (hd : s.blk.hoopDown = false) :
      let r := s.blk.hoop.red
      let p := if y then r.hbY else r.hbX
      let i := (2 * s.blk.clk.beat - r.hbFrom) / 64
      let k := if 1 ≤ i ∧ (r.hbFrom + 64 * i) / 2 = s.blk.clk.beat ∧ p.last ≠ i then i else i + 1
      let b := s.blk.start.toBeat ((r.hbFrom + 64 * k) / 2)
      let sent := ∀ x, r.hbStop = some x → k ≤ x
      (¬ sent ∨ got = some (k % 64, true) → Gives (.heartbeatMiss ⟨y, got⟩) s b)
      ∧ (sent → got ≠ some (k % 64, true) → Runs (.heartbeatMiss ⟨y, got⟩) s (fun t => t.clk = b.clk
        ∧ (if y then t.hoop.red.hbY else t.hoop.red.hbX) = { last := k, run := (if p.last = k - 1 then p.run else 0) + 1 }
        ∧ t.bit (if y then HOOP_EVT.HB_Y_MISS else HOOP_EVT.HB_X_MISS)
          = (s.blk.bit (if y then HOOP_EVT.HB_Y_MISS else HOOP_EVT.HB_X_MISS) || b.hbRun (!y) == 0))) := by
  change let k := s.blk.hbNext y
    let b := s.blk.start.toBeat (s.blk.hbCycle (64 * k))
    let sent := ∀ x, b.hoop.red.hbStop = some x → k ≤ x
    (¬ sent ∨ got = some (k % 64, true) → Gives (.heartbeatMiss ⟨y, got⟩) s b)
      ∧ (sent → got ≠ some (k % 64, true) → Runs (.heartbeatMiss ⟨y, got⟩) s (fun t => t.clk = b.clk
        ∧ (if y then t.hoop.red.hbY else t.hoop.red.hbX)
          = { last := k, run := (if (b.hoop.red.path y).last = k - 1 then (b.hoop.red.path y).run else 0) + 1 }
        ∧ t.bit (if y then HOOP_EVT.HB_Y_MISS else HOOP_EVT.HB_X_MISS)
          = (b.bit (if y then HOOP_EVT.HB_Y_MISS else HOOP_EVT.HB_X_MISS) || b.hbRun (!y) == 0)))
  intro k b sent
  have good : (b.hbStopped k || got == some (k % 64, true)) = true ↔ ¬ sent ∨ got = some (k % 64, true) := by
    rw [Bool.or_eq_true, b.hbStopped_iff, beq_iff_eq]
  refine ⟨fun h => gives_of_hoopUp (heartbeatMiss_runCmd y got s) hd (if_pos (good.2 h)), fun hs hg => ?_⟩
  obtain ⟨clk, path, flag⟩ := b.hbMissed_state y k
  exact runs_of_hoopUp (heartbeatMiss_runCmd y got s) hd (if_neg (fun h => (good.1 h).elim (fun n => n hs) hg))
    ⟨clk, path, (Block.canon_bit _ _ _).trans flag⟩

end Sys2Proof.Machine
end

section
/-! SUPPORT. The end of the switchover gap (R76, R78), and the obligation of the redundancy. -/

namespace Sys2Proof.Machine

variable (b : Block)

/-! ### The parts of the gap's end -/

/-- Time passes to the end of the gap, with CKPT_ERR where the latest checkpoint fails its check. -/
def Block.gapChecked (b : Block) (flaw : Bool) : Block := (b.toBeat b.hoop.red.gapEnd).when flaw (fun b => (b.set HOOP_EVT.CKPT_ERR).logHoop 14)

/-- The latest checkpoint that passes its check. -/
def HoopRed.latest (r : HoopRed) (flaw : Bool) : Option Ckpt := if r.ckptSel != flaw then r.ckptB else r.ckptA

/-- The checkpoint loaded, where there is one. -/
def Block.gapLoaded (b : Block) (flaw : Bool) : Block :=
  match b.hoop.red.latest flaw with | some c => (b.gapChecked flaw).ckptLoad c | none => b.gapChecked flaw

/-- The copies change roles, with no strobe of the gap left and good heartbeats from its end. -/
def Block.gapTurned (b : Block) (gapEnd : Nat) : Block :=
  b.setRed { b.hoop.red with gap := false, gapStrobes := [], hbX := ⟨0, 0⟩, hbY := ⟨0, 0⟩, hbFrom := 2 * gapEnd - 64, hbStop := none,
                             proofMism := 0, proofFrom := none }
def Block.gapCounted (b : Block) : Block := ((b.set HOOP_EVT.FAILOVER).inc HOOP_RED_ST.FAILOVERS).logHoop 4
def Block.gapRoles (b : Block) : Block :=
  (((b.wr HOOP_STATE.ACTIVE (1 - b.rd HOOP_STATE.ACTIVE)).wr HOOP_STATE.STBY 3).set HOOP_EVT.STBY_FAILED).logHoop 6

/-- Without REFCLK the lock state is that of a lost source. -/
def Block.gapServed (b : Block) : Block := b.when (!b.bit HOOP_STATE.REF_OK) (fun b => (b.setRate b.unslewed).srcLost)

/-- The HOOP cycle of the first strobe after the gap. -/
def Block.gapCycle (b : Block) (gapEnd : Nat) : Block := b.setWarp { b.hoop.warp with nextCycle := max b.hoop.warp.nextCycle (2 * gapEnd) }

/-! ### What each part leaves -/

theorem Block.gapChecked_state (flaw : Bool) : (b.gapChecked flaw).hoop = b.hoop ∧ EvtGrows b (b.gapChecked flaw)
    ∧ (∀ o, belowRas o → o ≠ HOOP_EVT.all.base → (b.gapChecked flaw).reg o = b.reg o)
    ∧ (flaw = true → (b.gapChecked flaw).bit HOOP_EVT.CKPT_ERR = true) := by
  have time : EvtGrows b (b.toBeat b.hoop.red.gapEnd) := .of_reg (Block.reg_congr rfl _)
  have same (o : Nat) : (b.toBeat b.hoop.red.gapEnd).reg o = b.reg o := Block.reg_congr rfl _
  have hoop : (b.toBeat b.hoop.red.gapEnd).hoop = b.hoop := rfl
  unfold Block.gapChecked
  generalize b.toBeat b.hoop.red.gapEnd = c at time same hoop
  cases flaw
  · exact ⟨hoop, time, fun o _ _ => same o, fun h => absurd h (by decide)⟩
  · have log := Block.logHoop_keeps (c.set HOOP_EVT.CKPT_ERR) 14
    refine ⟨log.hoop.trans hoop, (time.set HOOP_EVT.CKPT_ERR 0 rfl).logHoop 14, fun o ho hn => ?_, fun _ => ?_⟩
    · exact (log.regs o ho).trans ((Block.reg_setReg_other _ _ _ _ hn).trans (same o))
    · exact (Block.logHoop_bit _ _ _ _ (by decide)).trans (Block.bit_set_same _ _ _ (by decide) (by decide))

/-- A checkpoint reaches these registers. -/
def ckptRegs : List Nat := [HOOP_EVT.all.base, HOOP_FREQ_ERR.all.base, HOOP_EPOCH_ST.all.base, HOOP_EPOCH_ACT.all.base, HOOP_WARP_ACT_COUNT.all.base]

/-- HTIME as the checkpoint has it at this beat. -/
def Block.ckptTimed (b : Block) (c : Ckpt) : Block :=
  { b with clk := Clk.add { b.clk with beat := c.stamp, htime := c.htime, frac := c.frac, rate := c.rate } (b.clk.beat - c.stamp) }

/-- The registers of a checkpoint beside LOCK. -/
def Block.ckptStored (b : Block) (w : Nat) (x y z : BitVec 32) : Block :=
  (((b.wr HOOP_FREQ_ERR.all w).setReg HOOP_EPOCH_ST.all.base x).setReg HOOP_EPOCH_ACT.all.base y).setReg HOOP_WARP_ACT_COUNT.all.base z

/-- Beside LOCK a checkpoint reaches the registers of the servo and of the epochs. -/
theorem Block.ckptLoad_state (c : Ckpt) : (b.ckptLoad c).lock = c.lock % 8 ∧ (b.ckptLoad c).clk.rate = c.rate ∧ (b.ckptLoad c).hoop.red = b.hoop.red
    ∧ EvtGrows b (b.ckptLoad c) ∧ RegsKept ((b.ckptTimed c).lockTo c.lock) (b.ckptLoad c) ckptRegs := by
  have timed : EvtGrows b (b.ckptTimed c) := .of_reg (Block.reg_congr rfl _)
  have red : (b.ckptTimed c).hoop.red = b.hoop.red := rfl
  have rate : (b.ckptTimed c).clk.rate = c.rate := rfl
  obtain ⟨clk, -, -, red', -⟩ := (b.ckptTimed c).lockTo_parts c.lock
  have lock := (b.ckptTimed c).lockTo_lock c.lock
  have evt := timed.trans ((b.ckptTimed c).lockTo_evt c.lock)
  have load : (b.ckptLoad c).hoop.red = ((b.ckptTimed c).lockTo c.lock).hoop.red ∧ (b.ckptLoad c).clk = ((b.ckptTimed c).lockTo c.lock).clk
      ∧ ∃ w x y z, (b.ckptLoad c).regs = (((b.ckptTimed c).lockTo c.lock).ckptStored w x y z).regs := ⟨rfl, rfl, _, _, _, _, rfl⟩
  generalize (b.ckptTimed c).lockTo c.lock = d at clk red' lock evt load
  obtain ⟨hoop, clk', w, x, y, z, regs⟩ := load
  have kept : RegsKept d (b.ckptLoad c) ckptRegs :=
    RegsKept.trans (((((RegsKept.refl d ckptRegs).wr HOOP_FREQ_ERR.all w 0 (by decide)).setReg (by decide) x).setReg (by decide) y).setReg (by decide) z)
      (.of_regs regs)
  refine ⟨(Block.lock_congr (kept _ (by decide))).trans lock, ?_, hoop.trans (red'.trans red), evt.trans (.of_reg ?_), kept⟩
  · rw [clk', clk, rate]
  · unfold Block.ckptStored at regs
    rw [Block.reg_congr regs, Block.reg_setReg_other _ _ _ _ (by decide), Block.reg_setReg_other _ _ _ _ (by decide),
      Block.reg_setReg_other _ _ _ _ (by decide)]
    exact Block.reg_setReg_other _ _ _ _ (by decide)

theorem Block.ckptLoad_rd (c : Ckpt) (f : Fld) (n : Nat) (hl : 2 < f.lo) (ho : f.off n ∉ ckptRegs) : (b.ckptLoad c).rd f n = b.rd f n := by
  obtain ⟨-, -, -, -, kept⟩ := b.ckptLoad_state c
  have evt : f.off n ≠ HOOP_EVT.all.base := fun e => ho (by rw [e]; decide)
  exact (kept.rd f n ho).trans ((Block.lockTo_rd _ _ f n hl evt).trans (Block.rd_congr rfl f n))

/-- A register beside those of a checkpoint and HOOP_STATE. -/
theorem Block.ckptLoad_reg (c : Ckpt) (o : Nat) (hs : o ≠ HOOP_STATE.all.base) (ho : o ∉ ckptRegs) : (b.ckptLoad c).reg o = b.reg o := by
  obtain ⟨-, -, -, -, kept⟩ := b.ckptLoad_state c
  have evt : o ≠ HOOP_EVT.all.base := fun e => ho (by rw [e]; decide)
  have timed : (b.ckptTimed c).reg o = b.reg o := Block.reg_congr rfl o
  exact (kept o ho).trans (((Block.lockTo_kept _ _) o (by simp [hs, evt])).trans timed)

/-- What the latest checkpoint leaves (R76, R78). -/
theorem Block.gapLoaded_state (flaw : Bool) : (b.gapLoaded flaw).hoop.red = b.hoop.red ∧ EvtGrows b (b.gapLoaded flaw)
    ∧ (∀ o, belowRas o → o ≠ HOOP_STATE.all.base → o ∉ ckptRegs → (b.gapLoaded flaw).reg o = b.reg o)
    ∧ (∀ f : Fld, f.off 0 = HOOP_STATE.all.base → 2 < f.lo → (b.gapLoaded flaw).rd f = b.rd f)
    ∧ (flaw = true → (b.gapLoaded flaw).bit HOOP_EVT.CKPT_ERR = true)
    ∧ ∀ k, b.hoop.red.latest flaw = some k → (b.gapLoaded flaw).lock = k.lock % 8 ∧ (b.gapLoaded flaw).clk.rate = k.rate := by
  obtain ⟨hoop, evt, regs, err⟩ := b.gapChecked_state flaw
  have evtMem (o : Nat) (ho : o ∉ ckptRegs) : o ≠ HOOP_EVT.all.base := fun e => ho (by rw [e]; decide)
  have state : (b.gapChecked flaw).reg HOOP_STATE.all.base = b.reg HOOP_STATE.all.base :=
    regs _ (show HOOP_STATE.all.base < RAS_CTL.all.base by decide) (by decide)
  have field (f : Fld) (hf : f.off 0 = HOOP_STATE.all.base) : (b.gapChecked flaw).rd f = b.rd f := by
    unfold Block.rd
    rw [hf, state]
  unfold Block.gapLoaded
  generalize b.gapChecked flaw = c at hoop evt regs err field
  cases b.hoop.red.latest flaw with
  | none =>
    exact ⟨congrArg Hoop.red hoop, evt, fun o ho _ hn => regs o ho (evtMem o hn), fun f hf _ => field f hf, err, fun k hk => by cases hk⟩
  | some x =>
    obtain ⟨lock, rate, red, grows, -⟩ := c.ckptLoad_state x
    refine ⟨red.trans (congrArg Hoop.red hoop), evt.trans grows, fun o ho hs hn => ?_, fun f hf hl => ?_, fun h => ?_, fun k hk => ?_⟩
    · exact (c.ckptLoad_reg x o hs hn).trans (regs o ho (evtMem o hn))
    · exact (c.ckptLoad_rd x f 0 hl (by rw [hf]; decide)).trans (field f hf)
    · exact grows.bit HOOP_EVT.CKPT_ERR rfl rfl (err h)
    · cases hk
      exact ⟨lock, rate⟩

theorem Block.gapCounted_state : Keeps (fun o => belowRas o ∧ o ≠ HOOP_EVT.all.base ∧ o ≠ HOOP_RED_ST.all.base) b b.gapCounted ∧ EvtGrows b b.gapCounted
    ∧ b.gapCounted.bit HOOP_EVT.FAILOVER = true ∧ b.gapCounted.rd HOOP_RED_ST.FAILOVERS = min (b.rd HOOP_RED_ST.FAILOVERS + 1) 255 := by
  have counted : ((b.set HOOP_EVT.FAILOVER).inc HOOP_RED_ST.FAILOVERS).reg HOOP_EVT.all.base = (b.set HOOP_EVT.FAILOVER).reg HOOP_EVT.all.base :=
    Block.reg_setReg_other _ _ _ _ (by decide)
  refine ⟨?_, ?_, ?_, ?_⟩
  · exact (((Keeps.refl _ b).set HOOP_EVT.FAILOVER 0 (fun h => h.2.1 rfl)).inc HOOP_RED_ST.FAILOVERS 0 (fun h => h.2.2 rfl)).logHoop (fun _ h => h.1) 4
  · exact (((EvtGrows.refl b).set HOOP_EVT.FAILOVER 0 rfl).trans (.of_reg counted)).logHoop 4
  · refine (Block.logHoop_bit _ _ _ _ (by decide)).trans ?_
    exact (Block.bit_wr_other _ _ _ _ _ _ (.inl (by decide))).trans (Block.bit_set_same _ _ _ (by decide) (by decide))
  · refine (Block.logHoop_rd _ _ _ _ (by decide)).trans ((Block.rd_inc_same _ _ _ (by decide)).trans ?_)
    rw [Block.rd_set_other _ _ _ _ _ (by decide)]
    rfl

theorem Block.gapRoles_state : Keeps (fun o => belowRas o ∧ o ≠ HOOP_EVT.all.base ∧ o ≠ HOOP_STATE.all.base) b b.gapRoles ∧ EvtGrows b b.gapRoles
    ∧ b.gapRoles.rd HOOP_STATE.STBY = 3 ∧ b.gapRoles.rd HOOP_STATE.ACTIVE = 1 - b.rd HOOP_STATE.ACTIVE
    ∧ b.gapRoles.lock = b.lock ∧ b.gapRoles.bit HOOP_STATE.REF_OK = b.bit HOOP_STATE.REF_OK := by
  have was : b.rd HOOP_STATE.ACTIVE < 2 := fget_lt _ HOOP_STATE.ACTIVE
  have field (f : Fld) (hf : f.off 0 = HOOP_STATE.all.base) : b.gapRoles.rd f
      = ((b.wr HOOP_STATE.ACTIVE (1 - b.rd HOOP_STATE.ACTIVE)).wr HOOP_STATE.STBY 3).rd f := by
    refine (Block.logHoop_rd _ _ _ _ (by rw [hf]; decide)).trans (Block.rd_set_other _ _ _ _ _ (by rw [hf]; decide))
  refine ⟨?_, ?_, (field _ rfl).trans (Block.rd_wr_same _ _ _ _ (by decide)), (field _ rfl).trans ?_, (field HOOP_STATE.LOCK rfl).trans ?_,
    Block.bit_of_rd ((field _ rfl).trans ?_)⟩
  · exact ((((Keeps.refl _ b).wr HOOP_STATE.ACTIVE _ 0 (fun h => h.2.2 rfl)).wr HOOP_STATE.STBY 3 0 (fun h => h.2.2 rfl)).set HOOP_EVT.STBY_FAILED 0
      (fun h => h.2.1 rfl)).logHoop (fun _ h => h.1) 6
  · exact ((((EvtGrows.refl b).wr HOOP_STATE.ACTIVE _ 0 (by decide)).wr HOOP_STATE.STBY 3 0 (by decide)).set HOOP_EVT.STBY_FAILED 0 rfl).logHoop 6
  · rw [Block.rd_wr_disjoint _ _ _ _ _ _ (by decide), Block.rd_wr_same _ _ _ _ (by decide)]
    exact Nat.mod_eq_of_lt (by change 1 - b.rd HOOP_STATE.ACTIVE < 2; omega)
  · exact (Block.rd_wr_disjoint _ _ _ _ _ _ (by decide)).trans (Block.rd_wr_disjoint _ _ _ _ _ _ (by decide))
  · exact (Block.rd_wr_disjoint _ _ _ _ _ _ (by decide)).trans (Block.rd_wr_disjoint _ _ _ _ _ _ (by decide))

theorem Block.gapServed_ready (h : b.bit HOOP_STATE.REF_OK = true) : b.gapServed = b := by
  unfold Block.gapServed
  rw [h]
  rfl

theorem Block.gapServed_lost (h : b.bit HOOP_STATE.REF_OK = false) : b.gapServed = (b.setRate b.unslewed).srcLost := by
  unfold Block.gapServed
  rw [h]
  rfl

theorem Block.gapServed_state : b.gapServed.hoop.red = b.hoop.red ∧ EvtGrows b b.gapServed
    ∧ RegsKept b b.gapServed [HOOP_STATE.all.base, HOOP_EVT.all.base]
    ∧ b.gapServed.rd HOOP_STATE.STBY = b.rd HOOP_STATE.STBY ∧ b.gapServed.rd HOOP_STATE.ACTIVE = b.rd HOOP_STATE.ACTIVE
    ∧ (b.bit HOOP_STATE.REF_OK = true → b.gapServed = b) := by
  have rate : EvtGrows b (b.setRate b.unslewed) := .of_reg (Block.reg_congr rfl _)
  have kept : RegsKept b (b.setRate b.unslewed) [HOOP_STATE.all.base, HOOP_EVT.all.base] := .of_regs rfl
  have field (f : Fld) : (b.setRate b.unslewed).rd f = b.rd f := Block.rd_congr rfl f 0
  have red : (b.setRate b.unslewed).hoop.red = b.hoop.red := rfl
  cases h : b.bit HOOP_STATE.REF_OK
  · rw [b.gapServed_lost h]
    generalize b.setRate b.unslewed = c at rate kept field red
    obtain ⟨-, red', -⟩ := c.srcLost_parts
    exact ⟨red'.trans red, rate.trans c.srcLost_evt, kept.trans c.srcLost_kept,
      (c.srcLost_rd HOOP_STATE.STBY 0 (by decide) (by decide) (by decide)).trans (field _),
      (c.srcLost_rd HOOP_STATE.ACTIVE 0 (by decide) (by decide) (by decide)).trans (field _), fun h => absurd h (by decide)⟩
  · rw [b.gapServed_ready h]
    exact ⟨rfl, .refl b, .refl b _, rfl, rfl, fun _ => rfl⟩

/-! ### The strobes collected in the gap -/

/-- What late strobes leave. -/
structure LateOnly (b c : Block) : Prop where
  clk : c.clk = b.clk
  gap : c.hoop.red.gap = b.hoop.red.gap ∧ c.hoop.red.gapStrobes = b.hoop.red.gapStrobes
  evt : EvtGrows b c
  regs : ∀ o, belowWft o → o ∉ strobeRegs → c.reg o = b.reg o

theorem LateOnly.refl (b : Block) : LateOnly b b := ⟨rfl, ⟨rfl, rfl⟩, .refl b, fun _ _ _ => rfl⟩

theorem LateOnly.trans {a b c : Block} (h : LateOnly a b) (g : LateOnly b c) : LateOnly a c :=
  ⟨g.clk.trans h.clk, ⟨g.gap.1.trans h.gap.1, g.gap.2.trans h.gap.2⟩, h.evt.trans g.evt, fun o ho hn => (g.regs o ho hn).trans (h.regs o ho hn)⟩

/-- A strobe collected in the gap counts once in LATE_CNT (R78). -/
theorem Block.lateStrobe_state (x : Nat × Strobe) : LateOnly b (b.lateStrobe x)
    ∧ (b.lateStrobe x).rd HOOP_LATE_CNT.all = min (b.rd HOOP_LATE_CNT.all + 1) (2 ^ 32 - 1) := by
  have issue (st : Strobe) (cycle : Nat) (hl : st.late = true) : LateOnly b (b.strobeIssue st cycle)
      ∧ (b.strobeIssue st cycle).rd HOOP_LATE_CNT.all = min (b.rd HOOP_LATE_CNT.all + 1) (2 ^ 32 - 1) := by
    obtain ⟨-, clk, hoop, regs⟩ := b.strobeIssue_parts st cycle
    have counted := b.strobeNoted_counts st cycle
    have listed : EvtGrows b (b.strobeListed st cycle) := .of_reg (Block.reg_congr rfl _)
    refine ⟨⟨clk, by rw [hoop]; exact ⟨rfl, rfl⟩, (listed.trans counted.evt).trans (.of_reg (regs _ (show HOOP_EVT.all.base < WFT_CTL.all.base by decide))),
      fun o ho hn => (regs o ho).trans ((counted.regs o hn).trans (Block.reg_congr rfl o))⟩, ?_⟩
    have late := b.strobeNoted_late st cycle
    rw [hl, if_pos rfl] at late
    exact (congrArg (fget · HOOP_LATE_CNT.all) (regs HOOP_LATE_CNT.all.base (show HOOP_LATE_CNT.all.base < WFT_CTL.all.base by decide))).trans late
  exact issue _ _ rfl

theorem Block.lateStrobes_state : ∀ (l : List (Nat × Strobe)) (b : Block), LateOnly b (l.foldl Block.lateStrobe b)
    ∧ (l.foldl Block.lateStrobe b).rd HOOP_LATE_CNT.all = min (b.rd HOOP_LATE_CNT.all + l.length) (2 ^ 32 - 1)
  | [], b => by
    have small : b.rd HOOP_LATE_CNT.all < 2 ^ 32 := fget_lt _ HOOP_LATE_CNT.all
    exact ⟨.refl b, by rw [List.foldl_nil, List.length_nil]; omega⟩
  | x :: l, b => by
    obtain ⟨first, one⟩ := b.lateStrobe_state x
    obtain ⟨rest, others⟩ := lateStrobes_state l (b.lateStrobe x)
    refine ⟨first.trans rest, ?_⟩
    rw [List.foldl_cons, others, one, List.length_cons]
    omega

end Sys2Proof.Machine
end

section
/-! SUPPORT. The gap's end as a whole, and the obligation of the redundancy (R75–R83). -/

namespace Sys2Proof.Machine

variable (b : Block)

/-- The block at the end of the gap, before the strobes collected in it issue. -/
def Block.gapDriven (b : Block) (flaw : Bool) : Block :=
  (((b.gapLoaded flaw).gapTurned b.hoop.red.gapEnd).gapCounted.gapRoles.gapServed).gapCycle b.hoop.red.gapEnd

theorem Block.gapOver_issues (flaw : Bool) : b.gapOver flaw = (b.hoop.red.gapStrobes.foldl Block.lateStrobe (b.gapDriven flaw)).tqShow := rfl

/-- A register of the Hoop that no part of the gap's end writes but the late strobes. -/
theorem Block.gapDriven_reg (flaw : Bool) (o : Nat) (h : belowRas o) (hs : o ≠ HOOP_STATE.all.base) (hr : o ≠ HOOP_RED_ST.all.base) (ho : o ∉ ckptRegs) :
    (b.gapDriven flaw).reg o = b.reg o := by
  have evt : o ≠ HOOP_EVT.all.base := fun e => ho (by rw [e]; decide)
  obtain ⟨-, -, loaded, -⟩ := b.gapLoaded_state flaw
  obtain ⟨counted, -⟩ := ((b.gapLoaded flaw).gapTurned b.hoop.red.gapEnd).gapCounted_state
  obtain ⟨roles, -⟩ := ((b.gapLoaded flaw).gapTurned b.hoop.red.gapEnd).gapCounted.gapRoles_state
  obtain ⟨-, -, served, -⟩ := ((b.gapLoaded flaw).gapTurned b.hoop.red.gapEnd).gapCounted.gapRoles.gapServed_state
  have turned : ((b.gapLoaded flaw).gapTurned b.hoop.red.gapEnd).reg o = (b.gapLoaded flaw).reg o := Block.reg_congr rfl o
  exact (served o (by simp [hs, evt])).trans ((roles.regs o ⟨h, evt, hs⟩).trans ((counted.regs o ⟨h, evt, hr⟩).trans (turned.trans (loaded o h hs ho))))

/-- What drives the outputs at the end of the gap (R78). -/
theorem Block.gapDriven_state (flaw : Bool) : let t := b.gapDriven flaw
    t.hoop.red.gap = false ∧ t.hoop.red.gapStrobes = [] ∧ t.bit HOOP_EVT.FAILOVER = true
      ∧ t.rd HOOP_RED_ST.FAILOVERS = min (b.rd HOOP_RED_ST.FAILOVERS + 1) 255 ∧ t.rd HOOP_STATE.STBY = 3
      ∧ t.rd HOOP_STATE.ACTIVE = 1 - b.rd HOOP_STATE.ACTIVE ∧ (flaw = true → t.bit HOOP_EVT.CKPT_ERR = true)
      ∧ (∀ k, b.hoop.red.latest flaw = some k → b.bit HOOP_STATE.REF_OK = true → t.lock = k.lock % 8 ∧ t.clk.rate = k.rate)
      ∧ t.rd HOOP_LATE_CNT.all = b.rd HOOP_LATE_CNT.all := by
  have late : (b.gapDriven flaw).rd HOOP_LATE_CNT.all = b.rd HOOP_LATE_CNT.all :=
    congrArg (fget · HOOP_LATE_CNT.all) (b.gapDriven_reg flaw HOOP_LATE_CNT.all.base (show HOOP_LATE_CNT.all.base < RAS_CTL.all.base by decide)
      (by decide) (by decide) (by decide))
  obtain ⟨-, evtL, regL, fieldL, errL, ckptL⟩ := b.gapLoaded_state flaw
  have failovers : (b.gapLoaded flaw).rd HOOP_RED_ST.FAILOVERS = b.rd HOOP_RED_ST.FAILOVERS :=
    congrArg (fget · HOOP_RED_ST.FAILOVERS) (regL HOOP_RED_ST.all.base (show HOOP_RED_ST.all.base < RAS_CTL.all.base by decide) (by decide) (by decide))
  have turned : ((b.gapLoaded flaw).gapTurned b.hoop.red.gapEnd).hoop.red.gap = false
      ∧ ((b.gapLoaded flaw).gapTurned b.hoop.red.gapEnd).hoop.red.gapStrobes = [] := ⟨rfl, rfl⟩
  have sameRegs : ((b.gapLoaded flaw).gapTurned b.hoop.red.gapEnd).regs = (b.gapLoaded flaw).regs := rfl
  have sameClk : ((b.gapLoaded flaw).gapTurned b.hoop.red.gapEnd).clk = (b.gapLoaded flaw).clk := rfl
  unfold Block.gapDriven at late ⊢
  generalize (b.gapLoaded flaw).gapTurned b.hoop.red.gapEnd = c at late turned sameRegs sameClk
  have lockC : c.lock = (b.gapLoaded flaw).lock := Block.rd_congr sameRegs HOOP_STATE.LOCK 0
  have field (f : Fld) : c.rd f = (b.gapLoaded flaw).rd f := Block.rd_congr sameRegs f 0
  obtain ⟨counted, evtC, failover, fails⟩ := c.gapCounted_state
  have state (f : Fld) (hf : f.off 0 = HOOP_STATE.all.base) : c.gapCounted.rd f = c.rd f :=
    counted.rd f 0 ⟨by rw [hf]; exact (by decide : HOOP_STATE.all.base < RAS_CTL.all.base), by rw [hf]; decide, by rw [hf]; decide⟩
  obtain ⟨roles, evtR, stby, active, lock, ready⟩ := c.gapCounted.gapRoles_state
  obtain ⟨red, evtS, kept, stbyS, activeS, served⟩ := c.gapCounted.gapRoles.gapServed_state
  have redC : c.gapCounted.gapRoles.gapServed.hoop.red = c.hoop.red := red.trans ((congrArg Hoop.red roles.hoop).trans (congrArg Hoop.red counted.hoop))
  have shown (f : Fld) : (c.gapCounted.gapRoles.gapServed.gapCycle b.hoop.red.gapEnd).rd f = c.gapCounted.gapRoles.gapServed.rd f := Block.rd_congr rfl f 0
  have grows : EvtGrows c.gapCounted.gapRoles.gapServed (c.gapCounted.gapRoles.gapServed.gapCycle b.hoop.red.gapEnd) := .of_reg (Block.reg_congr rfl _)
  have grew : EvtGrows c (c.gapCounted.gapRoles.gapServed.gapCycle b.hoop.red.gapEnd) := ((evtC.trans evtR).trans evtS).trans grows
  refine ⟨(congrArg HoopRed.gap redC).trans turned.1, (congrArg HoopRed.gapStrobes redC).trans turned.2,
    ((evtR.trans evtS).trans grows).bit HOOP_EVT.FAILOVER rfl rfl failover, ?_, (shown _).trans (stbyS.trans stby), ?_, fun h => ?_, fun k hk hr => ?_, late⟩
  · rw [shown, kept.rd HOOP_RED_ST.FAILOVERS 0 (by decide),
      roles.rd HOOP_RED_ST.FAILOVERS 0 ⟨show HOOP_RED_ST.all.base < RAS_CTL.all.base by decide, by decide, by decide⟩, fails, field, failovers]
  · rw [shown, activeS, active, state _ rfl, field, fieldL _ rfl (by decide)]
  · exact grew.bit HOOP_EVT.CKPT_ERR rfl rfl ((Block.bit_of_rd (field _)).trans (errL h))
  · have refOk : c.gapCounted.gapRoles.bit HOOP_STATE.REF_OK = true :=
      ready.trans ((Block.bit_of_rd ((state _ rfl).trans ((field _).trans (fieldL _ rfl (by decide))))).trans hr)
    obtain ⟨lockL, rateL⟩ := ckptL k hk
    refine ⟨(shown HOOP_STATE.LOCK).trans ?_, ?_⟩
    · rw [served refOk]
      exact lock.trans ((state HOOP_STATE.LOCK rfl).trans (lockC.trans lockL))
    · change c.gapCounted.gapRoles.gapServed.clk.rate = k.rate
      rw [served refOk, roles.clk, counted.clk, sameClk]
      exact rateL

theorem Block.gapOver_state (f : Bool) : let t := b.gapOver f
      t.hoop.red.gap = false ∧ t.hoop.red.gapStrobes = [] ∧ t.bit HOOP_EVT.FAILOVER = true
      ∧ t.rd HOOP_RED_ST.FAILOVERS = min (b.rd HOOP_RED_ST.FAILOVERS + 1) 255 ∧ t.rd HOOP_STATE.STBY = 3
      ∧ t.rd HOOP_STATE.ACTIVE = 1 - b.rd HOOP_STATE.ACTIVE ∧ (f = true → t.bit HOOP_EVT.CKPT_ERR = true)
      ∧ (∀ k, b.hoop.red.latest f = some k → b.bit HOOP_STATE.REF_OK = true → t.lock = k.lock % 8 ∧ t.clk.rate = k.rate)
      ∧ t.rd HOOP_LATE_CNT.all = min (b.rd HOOP_LATE_CNT.all + b.hoop.red.gapStrobes.length) (2 ^ 32 - 1) := by
  obtain ⟨gap, strobes, failover, failovers, stby, active, err, ckpt, late⟩ := b.gapDriven_state f
  obtain ⟨only, count⟩ := Block.lateStrobes_state b.hoop.red.gapStrobes (b.gapDriven f)
  rw [b.gapOver_issues f]
  generalize b.hoop.red.gapStrobes.foldl Block.lateStrobe (b.gapDriven f) = c at only count
  have state (f' : Fld) (hf : f'.off 0 = HOOP_STATE.all.base) : c.rd f' = (b.gapDriven f).rd f' :=
    congrArg (fget · f') (by rw [hf]; exact only.regs _ (show HOOP_STATE.all.base < WFT_CTL.all.base by decide) (by decide))
  have red : c.rd HOOP_RED_ST.FAILOVERS = (b.gapDriven f).rd HOOP_RED_ST.FAILOVERS :=
    congrArg (fget · HOOP_RED_ST.FAILOVERS) (only.regs HOOP_RED_ST.all.base (show HOOP_RED_ST.all.base < WFT_CTL.all.base by decide) (by decide))
  have shown : EvtGrows (b.gapDriven f) c.tqShow := only.evt.wr HOOP_STATE.TQ _ 0 (by decide)
  refine ⟨only.gap.1.trans gap, only.gap.2.trans strobes, shown.bit _ rfl rfl failover,
    (Block.rd_wr_other _ _ _ _ _ _ (by decide)).trans (red.trans failovers),
    (Block.rd_wr_disjoint _ _ _ _ _ _ (by decide)).trans ((state _ rfl).trans stby),
    (Block.rd_wr_disjoint _ _ _ _ _ _ (by decide)).trans ((state _ rfl).trans active), fun h => shown.bit _ rfl rfl (err h), fun k hk hr => ?_,
    (Block.rd_wr_other _ _ _ _ _ _ (by decide)).trans (count.trans (by rw [late]))⟩
  obtain ⟨lock, rate⟩ := ckpt k hk hr
  exact ⟨(Block.rd_wr_disjoint _ _ _ _ _ _ (by decide)).trans ((state HOOP_STATE.LOCK rfl).trans lock), (congrArg Clk.rate only.clk).trans rate⟩

/-! ### While no copy drives the outputs -/

theorem hoopDown_of (s : State) (h : s.blk.hoop.red.gap = true ∨ s.blk.hoop.red.dead = true) : s.blk.hoopDown = true := by
  unfold Block.hoopDown
  rcases h with h | h <;> rw [h]
  · rfl
  · exact Bool.or_true _

theorem forceSw_idle (s : State) (h : s.blk.hoop.red.gap = true ∨ s.blk.hoop.red.dead = true) : NoEffect .forceSw s := by
  refine gives_of_runCmd (f := Block.forceSw) rfl ?_
  unfold Block.forceSw
  split
  · rfl
  · exact s.blk.start.failoverStart_idle (hoopDown_of s h)

theorem forceSw_gives (s : State) (hd : s.blk.hoopDown = false) (hs : s.blk.rd HOOP_STATE.STBY ≠ 3) :
    Gives .forceSw s (s.blk.start.setRed { s.blk.hoop.red with gap := true, gapEnd := s.blk.start.clk.beat + 512, gapStrobes := [] }) := by
  have gap : ¬ s.blk.hoop.red.gap = true := by rw [(Bool.or_eq_false_iff.1 hd).1]; decide
  exact gives_of_runCmd (f := Block.forceSw) rfl ((if_neg (not_or.2 ⟨hs, gap⟩)).trans (s.blk.start.failoverStart_gap hd hs))

theorem failoverStart_gives (s : State) (n : Nat) (hd : s.blk.hoopDown = false) (hs : s.blk.rd HOOP_STATE.STBY ≠ 3) (h : s.blk.failoverDue = some n) :
    Gives .failoverStart s ((s.blk.start.toBeat n).setRed
      { s.blk.hoop.red with gap := true, gapEnd := (s.blk.start.toBeat n).clk.beat + 512, gapStrobes := [] }) := by
  refine gives_of_hoopUp rfl hd ?_
  rw [show s.blk.start.failoverDue = some n from h]
  exact Block.failoverStart_gap _ hd hs

theorem failoverGapEnd_idle (s : State) (f : Bool) (h : s.blk.hoop.red.gap = false) : NoEffect (.failoverGapEnd f) s :=
  gives_of_runCmd (f := fun b => if !b.hoop.red.gap then b else
    (b.gapOver f).when (decide ((b.gapOver f).clk.cell < cellOf (b.gapOver f).clk.htime)) (fun b => b.cellStart (cellOf b.clk.htime) true)) rfl
    (if_pos (by rw [Block.start_hoop, h]; rfl))

theorem failoverGapEnd_gives (s : State) (f : Bool) (h : s.blk.hoop.red.gap = true) : let b := s.blk.start.gapOver f
    Gives (.failoverGapEnd f) s (if b.clk.cell < cellOf b.clk.htime then b.cellStart (cellOf b.clk.htime) true else b) := by
  refine gives_of_runCmd (f := fun b => if !b.hoop.red.gap then b else
    (b.gapOver f).when (decide ((b.gapOver f).clk.cell < cellOf (b.gapOver f).clk.htime)) (fun b => b.cellStart (cellOf b.clk.htime) true)) rfl
    ((if_neg (by rw [Block.start_hoop, h]; decide)).trans ?_)
  unfold Block.when
  simp only [decide_eq_true_eq]

/-- Settles O23: each command of the redundancy, by what it leaves of the copies and of their reports. -/
theorem hoopRedundancy : Obligations.HoopRedundancy := by
  unfold Obligations.HoopRedundancy
  refine ⟨fun s => ⟨rearm_gives s, gives_of_runCmd (f := Block.proofNow) rfl rfl, fun hd => gives_of_hoopUp rfl hd rfl⟩, fun s h => ?_,
    Block.failoverDue_sent, failoverStart_idle, fun s hs => gives_of_runCmd (f := Block.forceSw) rfl (if_pos (.inl hs)), fun s hg hdead hs => ?_,
    fun s n hg hdead hs hn => ?_, proofRun_runs, fun s m => proofRunEnd_idle s m, fun s hd h => ⟨proofRunEnd_passes s hd h, proofRunEnd_fails s hd h⟩,
    heartbeatMiss_answers, failoverGapEnd_idle, failoverGapEnd_gives, Block.gapOver_state⟩
  · have down := hoopDown_of s h
    exact ⟨noEffect_of_hoopDown rfl down, forceSw_idle s h, noEffect_of_hoopDown rfl down, noEffect_of_hoopDown rfl down,
      fun m => noEffect_of_hoopDown rfl down, fun y g => noEffect_of_hoopDown rfl down⟩
  · have up : s.blk.hoopDown = false := Bool.or_eq_false_iff.2 ⟨hg, hdead⟩
    exact ⟨forceSw_gives s up hs, fun n => failoverStart_gives s n up hs⟩
  · exact failoverStart_lost s n (Bool.or_eq_false_iff.2 ⟨hg, hdead⟩) hs hn

end Sys2Proof.Machine
end

section
/-! SUPPORT. Reads of DRAM by the Hoop (R62, R518): what a read leaves where no word has an error, and that it is the same at the start of a command. -/

namespace Sys2Proof.Machine

variable (b : Block)

/-! ### A memory with no error in its array -/

/-- Where no word of DRAM has an error in `b`, none has one in `c`, and each reads the same. -/
def CleanKept (b c : Block) : Prop := (∀ w, b.dramErr w = []) → (∀ w, c.dramErr w = []) ∧ DramKept b c

namespace CleanKept

variable {a b c : Block}

theorem of_dram (h : c.dram = b.dram) : CleanKept b c := fun hb => ⟨fun w => by unfold Block.dramErr; rw [h]; exact hb w, .of_dram h⟩

theorem refl (b : Block) : CleanKept b b := of_dram rfl

theorem trans (h : CleanKept a b) (g : CleanKept b c) : CleanKept a c := fun ha => by
  obtain ⟨eb, byte, poison⟩ := h ha
  obtain ⟨ec, byte', poison'⟩ := g eb
  exact ⟨ec, fun x => (byte' x).trans (byte x), fun w => (poison' w).trans (poison w)⟩

end CleanKept

/-- The bytes of a range written back as they were. -/
theorem Block.dramPut_same (w a : Nat) : Tbl.get dramDefault (dramPut b.dram.bytes (8 * w) (b.dramBytes (8 * w) 8)) a = b.dramByte a := by
  have length : (b.dramBytes (8 * w) 8).length = 8 := by simp [Block.dramBytes]
  by_cases h : a < 8 * w ∨ 8 * w + 8 ≤ a
  · exact get_dramPut_outside _ _ _ _ (by omega)
  · obtain ⟨i, hi, rfl⟩ : ∃ i, i < 8 ∧ a = 8 * w + i := ⟨a - 8 * w, by omega, by omega⟩
    rw [get_dramPut_inside _ _ _ _ (by omega)]
    simp [Block.dramBytes, List.getD_eq_getElem?_getD, hi]

/-- A read of a word with no error leaves DRAM as it reads. -/
theorem Block.dramFind_clean (w flags : Nat) : CleanKept b (b.dramFind w flags []) := by
  intro clean
  rw [b.dramFind_word w flags (clean w)]
  split
  · next poisoned =>
    refine ⟨fun v => ?_, fun x => b.dramPut_same w x, fun v => ?_⟩
    · change Tbl.get (fun _ => []) (Tbl.put (fun _ => []) b.dram.err w []) v = []
      by_cases hv : v = w
      · rw [hv]
        exact Tbl.get_put_same _ _ _ _
      · exact (Tbl.get_put_other _ _ _ _ _ hv).trans (clean v)
    · change Tbl.get (fun _ => false) (Tbl.put (fun _ => false) b.dram.poison w true) v = b.wordPoisoned v
      by_cases hv : v = w
      · rw [hv, poisoned]
        exact Tbl.get_put_same _ _ _ _
      · exact Tbl.get_put_other _ _ _ _ _ hv
  · exact ⟨clean, .of_dram rfl⟩

theorem CleanKept.foldl {α : Type} {f : Block → α → Block} (h : ∀ (b : Block) (x : α), CleanKept b (f b x)) : ∀ (l : List α) (b : Block),
    CleanKept b (l.foldl f b)
  | [], b => .refl b
  | x :: l, b => (h b x).trans (foldl h l (f b x))

theorem Block.dramTouch_clean (a n : Nat) : CleanKept b (b.dramTouch a n) := CleanKept.foldl (fun c w => c.dramFind_clean w 0) _ b

theorem Block.dramErr_of_nil (h : b.dram.err = []) (w : Nat) : b.dramErr w = [] := by
  unfold Block.dramErr
  rw [h]
  rfl

theorem DramKept.dramLe {b c : Block} (h : DramKept b c) (a n : Nat) : c.dramLe a n = b.dramLe a n := by
  unfold Block.dramLe Block.dramBytes
  simp only [h.1]

theorem DramKept.dramPoisoned {b c : Block} (h : DramKept b c) (a n : Nat) : c.dramPoisoned a n = b.dramPoisoned a n := by
  unfold Block.dramPoisoned
  simp only [h.2]

/-! ### Reads at the start of a command -/

theorem start_foldl {α : Type} {f : Block → α → Block} (h : ∀ (b : Block) (x : α), (f b x).start = f b.start x) : ∀ (l : List α) (b : Block),
    (l.foldl f b).start = l.foldl f b.start
  | [], _ => rfl
  | x :: l, b => by rw [List.foldl_cons, List.foldl_cons, start_foldl h l, h]

theorem Block.start_inc (f : Fld) (n : Nat) : (b.inc f n).start = b.start.inc f n := rfl

theorem Block.start_logEvent (kind : Nat) : (b.logEvent kind).start = b.start.logEvent kind := by
  unfold Block.logEvent
  split
  · rfl
  · split <;> rfl

theorem Block.start_logLost : b.logLost.start = b.start.logLost := rfl

theorem Block.start_logCount : b.logCount.start = b.start.logCount := rfl

theorem Block.start_logPut (n : Nat) (e : LogEntry) : (b.logPut n e).start = b.start.logPut n e := rfl

theorem Block.start_logInsert (e : LogEntry) (later : List LogEntry) (full : Bool) : (b.logInsert e later full).start = b.start.logInsert e later full := by
  unfold Block.logInsert
  dsimp only
  rw [Block.start_rd]
  have put := start_foldl (f := fun (c : Block) (x : Nat × LogEntry) => c.logPut (b.rd RAS_LOG_WR.SEQ + 65536 - later.length + x.1) x.2)
    (fun c x => c.start_logPut _ _)
  cases full
  · exact (Block.start_logCount _).trans (congrArg Block.logCount (put _ b))
  · exact (Block.start_logLost _).trans (congrArg Block.logLost (put _ b))

theorem Block.start_log (kind unit : Nat) (info : BitVec 32) (addr : Nat) (x y : BitVec 32) :
    (b.log kind unit info addr x y).start = b.start.log kind unit info addr x y := by
  unfold Block.log
  dsimp only
  rw [show b.start.logLater unit = b.logLater unit from rfl, show b.start.logUsed = b.logUsed from rfl, Block.start_rd, Block.start_clk]
  cases b.logLater unit with
  | nil =>
    dsimp only
    split
    · exact b.start_logLost
    · rw [Block.start_logEvent, Block.start_logCount, Block.start_logPut]
  | cons z l =>
    dsimp only
    rw [Block.start_logEvent, Block.start_logInsert]

theorem Block.start_ceReport (unit addr info : Nat) : (b.ceReport unit addr info).start = b.start.ceReport unit addr info := by
  have counted : ((b.inc RAS_CE_CNT.all).inc RAS_UNIT_CE.all unit).start = (b.start.inc RAS_CE_CNT.all).inc RAS_UNIT_CE.all unit := rfl
  have high (c : Block) (k : Bool) : (c.when k (fun b => b.set RAS_EVT.CE_HI)).start = c.start.when k (fun b => b.set RAS_EVT.CE_HI) := by
    cases k <;> rfl
  unfold Block.ceReport
  dsimp only
  rw [← counted]
  generalize (b.inc RAS_CE_CNT.all).inc RAS_UNIT_CE.all unit = c
  rw [Block.start_reg, Block.start_reg, ← high]
  generalize c.when _ (fun b => b.set RAS_EVT.CE_HI) = d
  rw [Block.start_bit, Block.start_ras, show d.start.logLater unit = d.logLater unit from rfl, show d.start.logUsed = d.logUsed from rfl]
  split
  · rfl
  · exact Block.start_log _ _ _ _ _ _ _

theorem Block.start_readWord (unit addr lane flags : Nat) (d : List Byte) (p : Bool) (e : List Nat) (store : Block → List Byte → Bool → List Nat → Block)
    (hs : ∀ c d p e, (store c d p e).start = store c.start d p e) :
    (b.readWord unit addr lane flags d p e store).start = b.start.readWord unit addr lane flags d p e store := by
  unfold Block.readWord
  dsimp only
  split
  · rfl
  · split
    · exact hs _ _ _ _
    · rw [hs, Block.start_ceReport]
    · rw [hs, Block.start_inc]
    · exact (Block.start_log _ _ _ _ _ _ _).trans (by rw [hs, Block.start_inc]; rfl)

theorem Block.start_dramFind (w flags : Nat) (extra : List Nat) : (b.dramFind w flags extra).start = b.start.dramFind w flags extra := by
  refine Block.start_readWord _ _ _ _ _ _ _ _ _ (fun c d p e => ?_)
  dsimp only
  split <;> rfl

theorem Block.start_dramTouch (a n : Nat) : (b.dramTouch a n).start = b.start.dramTouch a n := start_foldl (fun c w => c.start_dramFind w 0 []) _ b

end Sys2Proof.Machine
end

section
/-! SUPPORT. Group entries and strobes (R61–R66, R78), and their obligation. -/

namespace Sys2Proof.Machine

variable (b : Block)

/-! ### Group entries -/

/-- Where the entry of a group descriptor for superframe `sf` lies (R62). -/
def Block.groupAt (b : Block) (bank idx sf : Nat) : Nat := (b.warpWord bank idx 3).toNat * 64 + 4 * (sf % max 1 (b.dsc bank idx 4 24 0))

/-- The entry as DRAM reads. -/
def Block.groupRead (b : Block) (idx sf a : Nat) : GroupEntry :=
  if b.dramPoisoned a 4 then { idx := idx, sf := sf, word := 0, err := true }
  else { idx := idx, sf := sf, word := BitVec.ofNat 32 (b.dramLe a 4), err := false }

theorem Block.groupFetch_beyond (bank idx sf : Nat) (h : b.dramSize ≤ b.groupAt bank idx sf) :
    b.groupFetch bank idx sf = ({ idx := idx, sf := sf, word := 0, err := true }, b.accessErr reqHoop 3 (b.groupAt bank idx sf)) := if_pos h

theorem Block.groupFetch_within (bank idx sf : Nat) (h : ¬ b.dramSize ≤ b.groupAt bank idx sf) :
    b.groupFetch bank idx sf = ((b.dramTouch (b.groupAt bank idx sf) 4).groupRead idx sf (b.groupAt bank idx sf), b.dramTouch (b.groupAt bank idx sf) 4) := by
  refine (if_neg h).trans ?_
  unfold Block.groupRead
  change (if (b.dramTouch (b.groupAt bank idx sf) 4).dramPoisoned (b.groupAt bank idx sf) 4 = true then _ else _) = _
  split <;> rfl

/-- The entry read does not depend on the answer and the outputs of the last command. -/
theorem Block.start_groupFetch (bank idx sf : Nat) : (b.start.groupFetch bank idx sf).1 = (b.groupFetch bank idx sf).1 := by
  by_cases h : b.dramSize ≤ b.groupAt bank idx sf
  · rw [b.groupFetch_beyond _ _ _ h, Block.groupFetch_beyond b.start _ _ _ h]
  · rw [b.groupFetch_within _ _ _ h, Block.groupFetch_within b.start _ _ _ h, show b.start.groupAt bank idx sf = b.groupAt bank idx sf from rfl,
      ← Block.start_dramTouch]
    rfl

theorem Block.groupRead_key (idx sf a : Nat) : (b.groupRead idx sf a).idx = idx ∧ (b.groupRead idx sf a).sf = sf := by
  unfold Block.groupRead
  split <;> exact ⟨rfl, rfl⟩

theorem Block.groupFetch_key (bank idx sf : Nat) : (b.groupFetch bank idx sf).1.idx = idx ∧ (b.groupFetch bank idx sf).1.sf = sf := by
  by_cases h : b.dramSize ≤ b.groupAt bank idx sf
  · rw [b.groupFetch_beyond _ _ _ h]
    exact ⟨rfl, rfl⟩
  · rw [b.groupFetch_within _ _ _ h]
    exact Block.groupRead_key _ _ _ _

theorem Block.RasOnly.hoop {b c : Block} (h : b.RasOnly c) : c.hoop = b.hoop := by
  obtain ⟨⟨_, _, _, _, rfl⟩, -⟩ := h
  rfl

theorem Block.groupFetch_hoop (bank idx sf : Nat) : (b.groupFetch bank idx sf).2.hoop = b.hoop := by
  by_cases h : b.dramSize ≤ b.groupAt bank idx sf
  · rw [b.groupFetch_beyond _ _ _ h]
    exact ((Block.RasOnly.refl b).log ..).hoop
  · rw [b.groupFetch_within _ _ _ h]
    exact (Block.RasOnly.foldl (fun c w => (Block.RasOnly.refl c).dramFind w 0 []) _ b).hoop

/-- The entry read where no word of DRAM has an error (R62, R518). -/
theorem Block.groupFetch_clean (bank idx sf : Nat) (h : b.dram.err = []) : (b.groupFetch bank idx sf).1
    = if b.dramSize ≤ b.groupAt bank idx sf ∨ b.dramPoisoned (b.groupAt bank idx sf) 4 = true then { idx := idx, sf := sf, word := 0, err := true }
      else { idx := idx, sf := sf, word := BitVec.ofNat 32 (b.dramLe (b.groupAt bank idx sf) 4), err := false } := by
  by_cases hb : b.dramSize ≤ b.groupAt bank idx sf
  · rw [b.groupFetch_beyond _ _ _ hb, if_pos (.inl hb)]
  · obtain ⟨-, kept⟩ := b.dramTouch_clean (b.groupAt bank idx sf) 4 (b.dramErr_of_nil h)
    rw [b.groupFetch_within _ _ _ hb]
    unfold Block.groupRead
    rw [kept.dramPoisoned, kept.dramLe]
    simp only [hb, false_or]

/-- A group entry kept is found, and every other stays. -/
theorem Block.groupOf_groupKeep (g : GroupEntry) (idx sf : Nat) : (b.groupKeep g).groupOf idx sf
    = if g.idx = idx ∧ g.sf = sf then some g else b.groupOf idx sf := by
  change (b.hoop.warp.groups.filter (fun x => !(x.idx == g.idx && x.sf == g.sf)) ++ [g]).find? (fun x => x.idx == idx && x.sf == sf) = _
  rw [List.find?_append]
  by_cases h : g.idx = idx ∧ g.sf = sf
  · obtain ⟨rfl, rfl⟩ := h
    have none : (b.hoop.warp.groups.filter (fun x => !(x.idx == g.idx && x.sf == g.sf))).find? (fun x => x.idx == g.idx && x.sf == g.sf) = none :=
      List.find?_eq_none.2 (fun x hx => by simpa [imp_iff_not_or] using (List.mem_filter.1 hx).2)
    rw [if_pos ⟨rfl, rfl⟩, none]
    simp
  · have same : (b.hoop.warp.groups.filter (fun x => !(x.idx == g.idx && x.sf == g.sf))).find? (fun x => x.idx == idx && x.sf == sf)
        = b.groupOf idx sf := by
      rw [List.find?_filter]
      refine congrArg (fun p => b.hoop.warp.groups.find? p) (funext fun x => ?_)
      by_cases hx : x.idx = idx ∧ x.sf = sf
      · obtain ⟨rfl, rfl⟩ := hx
        have : ¬ (x.idx = g.idx ∧ x.sf = g.sf) := fun e => h ⟨e.1.symm, e.2.symm⟩
        simp [not_and_or.1 this]
      · have : (x.idx == idx && x.sf == sf) = false := by simpa using hx
        rw [this, decide_eq_false_iff_not]
        exact fun h => absurd h.2 (by decide)
    have last : [g].find? (fun x => x.idx == idx && x.sf == sf) = none := List.find?_eq_none.2 (fun x hx => by
      rw [List.mem_singleton.1 hx]
      simpa using h)
    rw [if_neg h, same, last, Option.or_none]

/-- The entry of descriptor `idx` for superframe `sf`, read and kept. -/
def Block.groupLoad (b : Block) (bank idx sf : Nat) : Block := (b.groupFetch bank idx sf).2.groupKeep (b.groupFetch bank idx sf).1

theorem Block.groupLoad_groupOf (bank idx sf j g : Nat) : (b.groupLoad bank idx sf).groupOf j g
    = if idx = j ∧ sf = g then some (b.groupFetch bank idx sf).1 else b.groupOf j g := by
  obtain ⟨hidx, hsf⟩ := b.groupFetch_key bank idx sf
  refine (Block.groupOf_groupKeep _ _ j g).trans ?_
  rw [hidx, hsf]
  unfold Block.groupOf
  rw [Block.groupFetch_hoop]

theorem Block.canon_groupOf (idx sf : Nat) : b.canon.groupOf idx sf = b.groupOf idx sf := rfl

theorem Block.start_groupOf (idx sf : Nat) : b.start.groupOf idx sf = b.groupOf idx sf := rfl

theorem groupListRead_runCmd (i : Nat) (s : State) : exec (.groupListRead i) s = runCmd s (fun b => b.ifHoop fun b =>
    if b.countFor (b.sf + 1) ≤ i ∨ b.occupied (b.bankFor (b.sf + 1)) i (b.sf + 1) = false ∨ b.dsc (b.bankFor (b.sf + 1)) i 2 11 11 = 0 then b
    else b.groupLoad (b.bankFor (b.sf + 1)) i (b.sf + 1)) := rfl

/-- A descriptor that is no group, not in use or beyond the count reads no entry, nor does a Hoop that drives nothing. -/
theorem groupListRead_idle (s : State) (i : Nat) (h : s.blk.countFor (s.blk.sf + 1) ≤ i
      ∨ s.blk.occupied (s.blk.bankFor (s.blk.sf + 1)) i (s.blk.sf + 1) = false ∨ s.blk.dsc (s.blk.bankFor (s.blk.sf + 1)) i 2 11 11 = 0
      ∨ s.blk.hoopDown = true) : NoEffect (.groupListRead i) s := by
  cases hd : s.blk.hoopDown
  · rw [hd] at h
    exact gives_of_hoopUp (groupListRead_runCmd i s) hd (if_pos (h.imp id (Or.imp id (fun e => e.resolve_right (by decide)))))
  · exact noEffect_of_hoopDown rfl hd

theorem groupListRead_reads (s : State) (i : Nat) (hd : s.blk.hoopDown = false) (hc : i < s.blk.countFor (s.blk.sf + 1))
    (ho : s.blk.occupied (s.blk.bankFor (s.blk.sf + 1)) i (s.blk.sf + 1) = true) (hg : s.blk.dsc (s.blk.bankFor (s.blk.sf + 1)) i 2 11 11 ≠ 0) :
    Gives (.groupListRead i) s (s.blk.start.groupLoad (s.blk.bankFor (s.blk.sf + 1)) i (s.blk.sf + 1)) := by
  refine gives_of_hoopUp (groupListRead_runCmd i s) hd (if_neg ?_)
  rintro (h | h | h)
  · exact absurd h (Nat.not_le.2 hc)
  · exact absurd (ho.symm.trans h) (by decide)
  · exact hg h

end Sys2Proof.Machine
end

section
/-! SUPPORT. Strobes of the descriptors (R61–R66, R78), and the obligation on them and on group entries. -/

namespace Sys2Proof.Machine

variable (b : Block)

/-- The entry of a group descriptor, read now where it was not read ahead. -/
def Block.slotEntry (b : Block) (bank idx sf : Nat) : Option GroupEntry × Block :=
  if b.dsc bank idx 2 11 11 = 1 then
    match b.groupOf idx sf with
    | some g => (some g, b)
    | none => (some (b.groupFetch bank idx sf).1, (b.groupFetch bank idx sf).2)
  else (none, b)

/-- The strobe of descriptor `idx`, of group entry or descriptor word `word`, due in HOOP cycle `due`. -/
def Block.slotDriven (b : Block) (bank idx sf due : Nat) (word : BitVec 32) (err : Bool) : Strobe :=
  { idx := idx, bank := bank, sf := sf, slotStart := BitVec.ofNat 64 (b.slotStart bank idx sf), node := word.toNat % 2 ^ 28,
    user := b.warpWord bank idx 7, slip := max due b.hoop.warp.nextCycle - due, late := false, unlocked := decide (b.lock ≤ 1), grperr := err,
    engine := (b.warpWord bank idx 5).toNat % 32, entry := (b.warpWord bank idx 5).toNat / 32 % 8192 }

/-- The latest strobe time moves on to `t`. -/
def Block.strobeReached (b : Block) (t : Nat) : Block :=
  b.setSync { b.hoop.sync with lastStrobe := BitVec.ofNat 64 (max t b.hoop.sync.lastStrobe.toNat) }

/-- A strobe of time `t` issues, or is collected in the gap. -/
def Block.slotGiven (b : Block) (t due : Nat) (st : Strobe) (cycle : Nat) : Block :=
  if (b.strobeReached t).hoop.red.gap then
    (b.strobeReached t).setRed { (b.strobeReached t).hoop.red with gapStrobes := (b.strobeReached t).hoop.red.gapStrobes ++ [(due, st)] }
  else (b.strobeReached t).strobeIssue st cycle

/-- What follows once the entry is known: a SKIP entry of a group gives no strobe. -/
def Block.slotWith (b : Block) (bank idx sf t due : Nat) (group : Bool) (word : BitVec 32) (err : Bool) : Block :=
  if group && word.getLsbD 31 then b
  else b.slotGiven t due (b.slotDriven bank idx sf due word err) (max due b.hoop.warp.nextCycle)

/-- The word of a strobe, from the group entry or else the descriptor, and its error. -/
def Block.slotWord (b : Block) (bank idx : Nat) (x : Option GroupEntry) : BitVec 32 := match x with | some g => g.word | none => b.warpWord bank idx 3
def entryErr (x : Option GroupEntry) : Bool := match x with | some g => g.err | none => false

/-- The strobe of descriptor `idx` of time `t`, due in cycle `due`, once `t` is reached. -/
def Block.slotDue (b : Block) (bank idx sf t due : Nat) : Block :=
  (b.slotEntry bank idx sf).2.slotWith bank idx sf t due (decide (b.dsc bank idx 2 11 11 = 1))
    ((b.slotEntry bank idx sf).2.slotWord bank idx (b.slotEntry bank idx sf).1) (entryErr (b.slotEntry bank idx sf).1)

theorem slotStrobe_runCmd (i f : Nat) (s : State) : exec (.slotStrobe i f) s = runCmd s (fun b =>
    if b.countFor f ≤ i ∨ b.occupied (b.bankFor f) i f = false ∨ b.strobeTime (b.bankFor f) i f < b.hoop.sync.strobeFloor.toNat
        ∨ b.strobeTime (b.bankFor f) i f < b.hoop.warp.scan ∨ b.hoop.red.dead = true ∨ b.hoop.red.journal.contains (i, f) = true then b
    else (b.toTime (BitVec.ofNat 64 (b.strobeTime (b.bankFor f) i f))).slotDue (b.bankFor f) i f (b.strobeTime (b.bankFor f) i f)
      (b.clk.cycleOf (b.strobeTime (b.bankFor f) i f))) := rfl

/-! ### What a due strobe leaves -/

/-- A descriptor that is no group gives its own word (R64). -/
theorem Block.slotDue_lone (bank idx sf t due : Nat) (h : b.dsc bank idx 2 11 11 ≠ 1) : b.slotDue bank idx sf t due
    = b.slotGiven t due (b.slotDriven bank idx sf due (b.warpWord bank idx 3) false) (max due b.hoop.warp.nextCycle) := by
  have entry : b.slotEntry bank idx sf = (none, b) := if_neg h
  unfold Block.slotDue
  rw [entry]
  refine if_neg ?_
  rw [decide_eq_false h]
  exact Bool.false_ne_true

/-- A group gives the word of its entry, and none where that says SKIP (R62). -/
theorem Block.slotDue_group (bank idx sf t due : Nat) (g : GroupEntry) (h : b.dsc bank idx 2 11 11 = 1) (hg : b.groupOf idx sf = some g) :
    b.slotDue bank idx sf t due = if g.word.getLsbD 31 = true then b
      else b.slotGiven t due (b.slotDriven bank idx sf due g.word g.err) (max due b.hoop.warp.nextCycle) := by
  have entry : b.slotEntry bank idx sf = (some g, b) := by
    refine (if_pos h).trans ?_
    rw [hg]
  unfold Block.slotDue
  rw [entry, decide_eq_true h]
  rfl

theorem hoopEvt_belowWft : belowWft HOOP_EVT.all.base := by
  unfold belowWft
  decide

/-- Outside a gap the strobe is driven, its cycle taken, and the strobe journalled (R65, R78). -/
theorem Block.slotGiven_issued (t due cycle : Nat) (st : Strobe) (h : b.hoop.red.gap = false) :
    (b.slotGiven t due st cycle).out = b.out ++ [.strobe st] ∧ (b.slotGiven t due st cycle).hoop.warp.nextCycle = cycle + 1
    ∧ (b.slotGiven t due st cycle).hoop.red.journal = b.hoop.red.journal ++ [(st.idx, st.sf)]
    ∧ (st.slip ≠ 0 → (b.slotGiven t due st cycle).bit HOOP_EVT.SLIP = true)
    ∧ (st.grperr = true → (b.slotGiven t due st cycle).bit HOOP_EVT.GROUP_ERR = true) := by
  have issued : b.slotGiven t due st cycle = (b.strobeReached t).strobeIssue st cycle := if_neg (by
    change ¬ b.hoop.red.gap = true
    rw [h]
    decide)
  obtain ⟨out, -, hoop, regs⟩ := (b.strobeReached t).strobeIssue_parts st cycle
  obtain ⟨slips, errs⟩ := (b.strobeReached t).strobeNoted_flags st cycle
  have flags (f : Fld) (hf : belowWft (f.off 0)) : ((b.strobeReached t).strobeIssue st cycle).bit f = ((b.strobeReached t).strobeNoted st cycle).bit f :=
    Block.bit_of_rd (congrArg (fget · f) (regs _ hf))
  rw [issued]
  refine ⟨out, ?_, ?_, fun hs => (flags HOOP_EVT.SLIP hoopEvt_belowWft).trans (slips hs), fun he => (flags HOOP_EVT.GROUP_ERR hoopEvt_belowWft).trans (errs he)⟩
  · rw [hoop]
    rfl
  · rw [hoop]
    rfl

/-- In a gap it is collected with the cycle it was due in (R78). -/
theorem Block.slotGiven_collected (t due cycle : Nat) (st : Strobe) (h : b.hoop.red.gap = true) :
    (b.slotGiven t due st cycle).out = b.out ∧ RegsKept b (b.slotGiven t due st cycle) []
    ∧ (b.slotGiven t due st cycle).hoop.red.gapStrobes = b.hoop.red.gapStrobes ++ [(due, st)] := by
  have collected : b.slotGiven t due st cycle
      = (b.strobeReached t).setRed { (b.strobeReached t).hoop.red with gapStrobes := (b.strobeReached t).hoop.red.gapStrobes ++ [(due, st)] } := if_pos h
  rw [collected]
  exact ⟨rfl, .of_regs rfl, rfl⟩

/-! ### The command -/

theorem runs_of_gives {c : Instr} {s : State} {d : Block} {P : Block → Prop} (h : Gives c s d) (hP : P d.canon) : Runs c s P := ⟨_, h, rfl, hP⟩

/-- A strobe the block gives is one of an occupied descriptor in use, not passed over and not issued yet. -/
def Block.StrobeOpen (b : Block) (i f : Nat) : Prop :=
  i < b.countFor f ∧ b.occupied (b.bankFor f) i f = true ∧ b.hoop.sync.strobeFloor.toNat ≤ b.strobeTime (b.bankFor f) i f
  ∧ b.hoop.warp.scan ≤ b.strobeTime (b.bankFor f) i f ∧ b.hoop.red.dead = false ∧ b.hoop.red.journal.contains (i, f) = false

theorem slotStrobe_due (s : State) (i f : Nat) (h : s.blk.StrobeOpen i f) {k t due : Nat} (hk : s.blk.bankFor f = k)
    (ht : s.blk.strobeTime k i f = t) (hdue : s.blk.clk.cycleOf t = due) :
    Gives (.slotStrobe i f) s ((s.blk.start.toTime (BitVec.ofNat 64 t)).slotDue k i f t due) := by
  obtain ⟨count, occupied, floor, scan, dead, journal⟩ := h
  subst hk ht hdue
  refine gives_of_runCmd (slotStrobe_runCmd i f s) (if_neg ?_)
  rintro (h | h | h | h | h | h)
  · exact absurd h (Nat.not_le.2 count)
  · exact absurd (occupied.symm.trans h) (by decide)
  · exact absurd h (Nat.not_lt.2 floor)
  · exact absurd h (Nat.not_lt.2 scan)
  · exact absurd (dead.symm.trans h) (by decide)
  · exact absurd (journal.symm.trans h) (by decide)

/-- Neither the time reached nor the start of a command changes what a descriptor says. -/
theorem Block.dsc_toTime (u : BitVec 64) (bank idx w hi lo : Nat) : (b.start.toTime u).dsc bank idx w hi lo = b.dsc bank idx w hi lo := rfl

theorem Block.slotDriven_toTime (u : BitVec 64) (bank idx sf due : Nat) (word : BitVec 32) (err : Bool) :
    (b.start.toTime u).slotDriven bank idx sf due word err = b.slotDriven bank idx sf due word err := rfl

/-- The strobe of a descriptor issues, or is collected (R64, R65, R78). -/
theorem slotStrobe_lone (s : State) (i f : Nat) (h : s.blk.StrobeOpen i f) {k t due : Nat} (hk : s.blk.bankFor f = k)
    (ht : s.blk.strobeTime k i f = t) (hdue : s.blk.clk.cycleOf t = due) (hg : s.blk.dsc k i 2 11 11 ≠ 1) :
    (s.blk.hoop.red.gap = false → Runs (.slotStrobe i f) s (fun t => t.out = [.strobe (s.blk.slotDriven k i f due (s.blk.warpWord k i 3) false)]
          ∧ t.hoop.warp.nextCycle = max due s.blk.hoop.warp.nextCycle + 1 ∧ t.hoop.red.journal = s.blk.hoop.red.journal ++ [(i, f)]
          ∧ ((s.blk.slotDriven k i f due (s.blk.warpWord k i 3) false).slip ≠ 0 → t.bit HOOP_EVT.SLIP = true)))
    ∧ (s.blk.hoop.red.gap = true → Runs (.slotStrobe i f) s (fun t => t.out = [] ∧ RegsKept s.blk t []
          ∧ t.hoop.red.gapStrobes = s.blk.hoop.red.gapStrobes ++ [(due, s.blk.slotDriven k i f due (s.blk.warpWord k i 3) false)])) := by
  have gives := slotStrobe_due s i f h hk ht hdue
  generalize BitVec.ofNat 64 t = u at gives
  rw [Block.slotDue_lone _ _ _ _ _ _ (by rw [Block.dsc_toTime]; exact hg), Block.slotDriven_toTime] at gives
  constructor
  · intro hgap
    obtain ⟨out, next, journal, slips, -⟩ := (s.blk.start.toTime u).slotGiven_issued t due (max due s.blk.hoop.warp.nextCycle)
      (s.blk.slotDriven k i f due (s.blk.warpWord k i 3) false) hgap
    exact runs_of_gives gives ⟨out, next, journal, fun hs => (Block.canon_bit _ _ _).trans (slips hs)⟩
  · intro hgap
    obtain ⟨out, regs, collected⟩ := (s.blk.start.toTime u).slotGiven_collected t due (max due s.blk.hoop.warp.nextCycle)
      (s.blk.slotDriven k i f due (s.blk.warpWord k i 3) false) hgap
    have before : RegsKept s.blk (s.blk.start.toTime u) [] := .of_regs rfl
    exact runs_of_gives gives ⟨out, (before.trans regs).canon, collected⟩

/-- The strobe of a group issues with the node of its entry, or not at all (R62, R65, R66). -/
theorem slotStrobe_group (s : State) (i f : Nat) (h : s.blk.StrobeOpen i f) {k t due : Nat} (hk : s.blk.bankFor f = k)
    (ht : s.blk.strobeTime k i f = t) (hdue : s.blk.clk.cycleOf t = due) (g : GroupEntry) (hg : s.blk.dsc k i 2 11 11 = 1) (hent : s.blk.groupOf i f = some g) :
    (g.word.getLsbD 31 = true → Gives (.slotStrobe i f) s (s.blk.start.toTime (BitVec.ofNat 64 t)))
    ∧ (g.word.getLsbD 31 = false → s.blk.hoop.red.gap = false → Runs (.slotStrobe i f) s (fun t =>
      t.out = [.strobe (s.blk.slotDriven k i f due g.word g.err)] ∧ (g.err = true → t.bit HOOP_EVT.GROUP_ERR = true))) := by
  have gives := slotStrobe_due s i f h hk ht hdue
  generalize BitVec.ofNat 64 t = u at gives ⊢
  rw [Block.slotDue_group _ _ _ _ _ _ g (by rw [Block.dsc_toTime]; exact hg) (by exact hent), Block.slotDriven_toTime] at gives
  constructor
  · intro skip
    rw [if_pos skip] at gives
    exact gives
  · intro skip hgap
    obtain ⟨out, -, -, -, errs⟩ := (s.blk.start.toTime u).slotGiven_issued t due (max due s.blk.hoop.warp.nextCycle)
      (s.blk.slotDriven k i f due g.word g.err) hgap
    rw [if_neg (by rw [skip]; decide)] at gives
    exact runs_of_gives gives ⟨out, fun he => (Block.canon_bit _ _ _).trans (errs he)⟩

/-- Settles O26, by what the read of a group entry keeps and what a due strobe leaves; the strobe's fields are those of `Block.slotDriven`. -/
theorem hoopGroupsAndStrobes : Obligations.HoopGroupsAndStrobes := by
  unfold Obligations.HoopGroupsAndStrobes
  refine ⟨fun s i => ⟨groupListRead_idle s i, fun hd hc ho hg => ?_⟩, fun b k i f h => b.groupFetch_clean k i f h,
    fun s i f h => gives_of_runCmd (slotStrobe_runCmd i f s) (if_pos h), fun s i f count occupied floor scan dead journal => ?_⟩
  · refine runs_of_gives (groupListRead_reads s i hd hc ho hg) ⟨?_, fun j g hn => ?_⟩
    · rw [Block.canon_groupOf, Block.groupLoad_groupOf, if_pos ⟨rfl, rfl⟩, Block.start_groupFetch]
    · rw [Block.canon_groupOf, Block.groupLoad_groupOf, if_neg (fun h => hn ⟨h.1.symm, h.2.symm⟩), Block.start_groupOf]
  · have opened : s.blk.StrobeOpen i f := ⟨count, occupied, floor, scan, dead, journal⟩
    exact ⟨slotStrobe_lone s i f opened rfl rfl rfl, fun g => slotStrobe_group s i f opened rfl rfl rfl g⟩

end Sys2Proof.Machine
end

section
/-! SUPPORT. What the tests of the feeds and the links, the end of a lane and the key slots leave of the Hoop, DRAM and the registers of other blocks. -/

namespace Sys2Proof.Machine

/-- `p` holds of no register from `lo` up to `hi`. -/
def Spares (p : Nat → Prop) (lo hi : Nat) : Prop := ∀ o, p o → o < lo ∨ hi ≤ o

/-- No register up to number `m` of a group that lies in the range is one of which `p` holds. -/
theorem Spares.fld {p : Nat → Prop} {lo hi : Nat} (h : Spares p lo hi) {f : Fld} (m : Nat) {n : Nat} (hn : n ≤ m) (hlo : lo ≤ f.base)
    (hhi : f.base + m * f.stride < hi) : ¬ p (f.off n) := by
  intro ho
  have range := h _ ho
  have le := Nat.mul_le_mul_right f.stride hn
  unfold Fld.off at range
  omega

namespace Keeps

variable {p : Nat → Prop} {a b : Block}

theorem flag (h : Keeps p a b) (f : Fld) (v : Bool) (n : Nat) (ho : ¬ p (f.off n)) : Keeps p a (b.flag f v n) := h.wr f _ n ho

/-! ### The receive array (R131, R132, R134) -/

section
variable (hp : Spares p 0x80000 0x100000)
include hp

theorem rxCounts (h : Keeps p a b) : Keeps p a b.rxCounts :=
  ((h.wr RXA_POOL_ST.BUSY _ 0 (hp.fld 0 (Nat.le_refl 0) (by decide) (by decide))).maxTo RXA_POOL_ST.PEAK _ 0
    (hp.fld 0 (Nat.le_refl 0) (by decide) (by decide))).wr RXA_WIN_ST.OPEN _ 0 (hp.fld 0 (Nat.le_refl 0) (by decide) (by decide))

omit hp in
theorem agcRelease (h : Keeps p a b) (s : Nat) : Keeps p a (b.agcRelease s) := by
  unfold Block.agcRelease
  dsimp only
  split
  · exact h
  · exact h.trans (.of_parts rfl rfl rfl rfl)

theorem laneIdle (h : Keeps p a b) (n : Nat) : Keeps p a (b.laneIdle n) := by
  have gone : Keeps p a { b with rxa := { b.rxa with lanes := Tbl.erase b.rxa.lanes n } } := h.trans (.of_parts rfl rfl rfl rfl)
  exact foldl _ (gone.rxCounts hp) (fun c m _ hc => hc.agcRelease m.stream)

theorem laneStop (h : Keeps p a b) (n res : Nat) : Keeps p a (b.laneStop n res) := by
  unfold Block.laneStop
  split
  · split
    · refine laneIdle hp ?_ n
      exact h.trans (.of_parts rfl rfl rfl rfl)
    · exact h.laneIdle hp n
  · exact h

theorem abortLanes (h : Keeps p a b) (c : Lane → Bool) : Keeps p a (b.abortLanes c) := foldl _ h (fun _ _ _ hc => hc.laneStop hp _ _)

theorem feedOutcome (h : Keeps p a b) {n : Nat} (hn : n ≤ 63) (f : Feed) (refused : Bool) : Keeps p a (b.feedOutcome n f refused) := by
  have fed : Keeps p a { b with rxa := { b.rxa with feeds := Tbl.insert b.rxa.feeds n { f with refused := refused } } } :=
    h.trans (.of_parts rfl rfl rfl rfl)
  have err := fed.flag RXA_FEED.ERR refused n (hp.fld 63 hn (by decide) (by decide))
  exact err.when (f := fun d => d.set RXA_EVT.FEED_ERR) (err.set RXA_EVT.FEED_ERR 0 (hp.fld 0 (Nat.le_refl 0) (by decide) (by decide))) refused

theorem testFeeds (h : Keeps p a b) (again : Bool) (c : Feed → Bool) : Keeps p a (b.testFeeds again c) := by
  refine foldl _ h (fun d n hn hd => ?_)
  have n63 : n ≤ 63 := Nat.le_of_lt_succ (List.mem_range.1 hn)
  split
  · split
    · exact hd.feedOutcome hp n63 _ _
    · split
      · exact hd.feedOutcome hp n63 _ _
      · exact hd
  · exact hd

theorem testLinks (h : Keeps p a b) : Keeps p a b.testLinks :=
  foldl _ h (fun _ _ hn hd => hd.flag RXA_LINK_ST.CFG_ERR _ _ (hp.fld 7 (Nat.le_of_lt_succ (List.mem_range.1 hn)) (by decide) (by decide)))

omit hp in
theorem cenBegin (h : Keeps p a b) : Keeps p a b.cenBegin := h.trans (.of_parts rfl rfl rfl rfl)

end

/-! ### The key slots (R343–R349) -/

section
variable (hp : Spares p 0x480000 0x500000)
include hp

theorem setSlot (h : Keeps p a b) {m : Nat} (hm : m ≤ 63) (s : KSlot) : Keeps p a (b.setSlot m s) := by
  have put : Keeps p a { b with hwd := { b.hwd with slots := Tbl.put (fun _ => KSlot.empty) b.hwd.slots m s } } := h.trans (.of_parts rfl rfl rfl rfl)
  exact (((put.setReg (hp.fld (f := HWD_SLOT.all) 63 hm (by decide) (by decide)) _).setReg
    (hp.fld (f := HWD_SLOT_GEN.all) 63 hm (by decide) (by decide)) _).setReg (hp.fld (f := HWD_SLOT_PGEN.all) 63 hm (by decide) (by decide)) _).setReg
    (hp.fld (f := HWD_SLOT_AT.all) 63 hm (by decide) (by decide)) _

omit hp in
theorem eachSlot {f : Block → Nat → KSlot → Block} (h : Keeps p a b)
    (hf : ∀ (c : Block) (m : Nat) (x : KSlot), m ≤ 63 → Keeps p a c → Keeps p a (f c m x)) : Keeps p a (b.eachSlot f) :=
  foldl _ h (fun c m hm hc => hf c m _ (Nat.le_of_lt_succ (List.mem_range.1 hm)) hc)

theorem slotRetire (h : Keeps p a b) : Keeps p a b.slotRetire := by
  refine h.eachSlot (fun c m x hm hc => ?_)
  split
  · exact hc.setSlot hp hm _
  · exact hc

theorem slotSwap (h : Keeps p a b) {m : Nat} (hm : m ≤ 63) (all : Bool) : Keeps p a (b.slotSwap m all) :=
  ((h.setSlot hp hm _).set HWD_EVT.SWAP 0 (hp.fld 0 (Nat.le_refl 0) (by decide) (by decide))).slotRetire hp

theorem slotDecideSf (h : Keeps p a b) (s : Nat) : Keeps p a (b.slotDecideSf s) := by
  refine h.eachSlot (fun c m x hm hc => ?_)
  split
  · exact hc.setSlot hp hm _
  · exact hc

theorem slotDecideEpoch (h : Keeps p a b) (epoch sf : Nat) : Keeps p a (b.slotDecideEpoch epoch sf) := by
  refine h.eachSlot (fun c m x hm hc => ?_)
  split
  · exact hc.setSlot hp hm _
  · exact hc

theorem slotSwapAt (h : Keeps p a b) (s : Nat) : Keeps p a (b.slotSwapAt s) := by
  refine h.eachSlot (fun c m x hm hc => ?_)
  split
  · exact hc.slotSwap hp hm false
  · exact hc

end

end Keeps

end Sys2Proof.Machine
end

section
/-! SUPPORT. What the start of a cell leaves in every block of the clock, the warp tables and DRAM (R46). -/

namespace Sys2Proof.Machine

/-- No register at all. -/
def noReg (_ : Nat) : Prop := False

theorem noReg_spares (lo hi : Nat) : Spares noReg lo hi := fun _ h => h.elim

/-! ### The units that read no DRAM -/

/-- Between `b` and `c` the clock, the Hoop and DRAM stay. -/
abbrev Aside (b c : Block) : Prop := Keeps noReg b c

namespace Aside

variable {a b : Block}

theorem refl (b : Block) : Aside b b := Keeps.refl noReg b

theorem of_parts {c : Block} (h : Aside a b) (clk : c.clk = b.clk) (hoop : c.hoop = b.hoop) (dram : c.dram = b.dram) : Aside a c :=
  h.trans ⟨clk, hoop, dram, fun _ ho => ho.elim⟩

theorem wr (h : Aside a b) (f : Fld) (x n : Nat) : Aside a (b.wr f x n) := h.of_parts rfl rfl rfl

theorem flag (h : Aside a b) (f : Fld) (v : Bool) (n : Nat) : Aside a (b.flag f v n) := h.of_parts rfl rfl rfl

theorem clr (h : Aside a b) (f : Fld) (n : Nat) : Aside a (b.clr f n) := h.of_parts rfl rfl rfl

theorem set (h : Aside a b) (f : Fld) (n : Nat) : Aside a (b.set f n) := h.of_parts rfl rfl rfl

theorem inc (h : Aside a b) (f : Fld) (n : Nat) : Aside a (b.inc f n) := h.of_parts rfl rfl rfl

theorem incBy (h : Aside a b) (f : Fld) (k n : Nat) : Aside a (b.incBy f k n) := h.of_parts rfl rfl rfl

theorem log (h : Aside a b) (kind unit : Nat) (info : BitVec 32) (addr : Nat) (x y : BitVec 32) : Aside a (b.log kind unit info addr x y) :=
  Keeps.log (fun _ ho => ho.elim) h kind unit info addr x y

theorem when {f : Block → Block} (h : Aside a b) (hf : Aside a (f b)) (c : Bool) : Aside a (b.when c f) := Keeps.when h hf c

theorem ite {c : Prop} [Decidable c] {x y : Block} (hx : Aside a x) (hy : Aside a y) : Aside a (if c then x else y) := by
  split
  · exact hx
  · exact hy

theorem foldl {α : Type} {f : Block → α → Block} (l : List α) (h : Aside a b) (hf : ∀ (c : Block) (x : α), Aside a c → Aside a (f c x)) :
    Aside a (l.foldl f b) := Keeps.foldl l h (fun c x _ hc => hf c x hc)

theorem onRxa (h : Aside a b) (r : Rxa) : Aside a { b with rxa := r } := h.of_parts rfl rfl rfl

/-! ### The receive array and the transmit chain (R132, R166, R187) -/

theorem censusAtCell (h : Aside a b) (c : Nat) : Aside a (b.censusAtCell c) := by
  unfold Block.censusAtCell
  exact (Aside.ite (h.onRxa _) h).onRxa _

theorem feedsAtCell (h : Aside a b) : Aside a b.feedsAtCell := by
  have rxa := noReg_spares 0x80000 0x100000
  unfold Block.feedsAtCell
  dsimp only
  refine Keeps.abortLanes rxa (Keeps.testLinks rxa (Keeps.testFeeds rxa (Aside.foldl _ h (fun d n hd => ?_)) _ _)) _
  split
  · split
    · exact hd
    · exact hd.of_parts rfl rfl rfl
  · split
    · exact hd.of_parts rfl rfl rfl
    · exact hd

theorem rxaAtCell (h : Aside a b) (c : Nat) : Aside a (b.rxaAtCell c) := by
  have pruned : Aside a ((b.censusAtCell c).gapsPrune c) := (h.censusAtCell c).of_parts rfl rfl rfl
  exact pruned.feedsAtCell.cenBegin

theorem txcAtCell (h : Aside a b) : Aside a b.txcAtCell := by
  refine Aside.foldl _ h (fun d band hd => ?_)
  dsimp only
  split
  · exact hd.of_parts rfl rfl rfl
  · exact hd.of_parts rfl rfl rfl

/-! ### The Plait queues (R380, R388–R391) -/

theorem fcDrive (h : Aside a b) : Aside a b.fcDrive := by
  refine Aside.foldl _ (h.wr PLQ_FC_ST.FCO _ 0) (fun d p hd => ?_)
  split
  · exact hd
  · exact hd.of_parts rfl rfl rfl

theorem wmDecide (h : Aside a b) (q : Nat) : Aside a (b.wmDecide q) := by
  have turned : Aside a (b.setReg (PLQ_WM_ST.all.off (q / 32)) (b.reg (PLQ_WM_ST.all.off (q / 32)) ^^^ BitVec.ofNat 32 (2 ^ (q % 32)))) :=
    h.of_parts rfl rfl rfl
  exact Aside.ite h (Aside.fcDrive (turned.when (f := fun d => d.set PLQ_EVT.WM_CHG) (turned.set PLQ_EVT.WM_CHG 0) _))

theorem setQueue (h : Aside a b) (q : Nat) (x : Queue) : Aside a (b.setQueue q x) := by
  refine Aside.wmDecide ?_ q
  exact h.of_parts rfl rfl rfl

theorem qReset (h : Aside a b) (q : Nat) (read : Bool) (x y : BitVec 18) : Aside a (b.qReset q read x y) := by
  refine Aside.set (Aside.log ?_ ..) PLQ_EVT.PTR_RESET 0
  exact (h.setQueue q Queue.fresh).of_parts rfl rfl rfl

theorem checkWrite (h : Aside a b) (q : Nat) : Aside a (b.checkWrite q) := by
  unfold Block.checkWrite
  dsimp only
  split
  · exact h
  · exact h.qReset ..

theorem qClear (h : Aside a b) (q : Nat) (x : BitVec 18) (n : Nat) : Aside a (b.qClear q x n) := by
  unfold Block.qClear
  split
  · exact h
  · exact Aside.foldl _ h (fun d k hd => hd.of_parts rfl rfl rfl)

theorem qPlace (h : Aside a b) (q : Nat) (d : List Byte) : Aside a (b.qPlace q d) := ((h.checkWrite q).qClear ..).setQueue ..

/-! ### The shaper (R394–R397) -/

theorem setCtx (h : Aside a b) (x : Nat) (c : ShpCtx) : Aside a (b.setCtx x c) := h.of_parts rfl rfl rfl

theorem shpDrop (h : Aside a b) (f : Fld) (n : Nat) : Aside a (b.shpDrop f n) := by
  unfold Block.shpDrop
  split
  · exact h
  · exact h.of_parts rfl rfl rfl

theorem shpRefill (h : Aside a b) (x : Nat) : Aside a (b.shpRefill x) := by
  unfold Block.shpRefill
  dsimp only
  split
  · split
    · exact ((h.setCtx _ _).setCtx _ _).shpDrop _ _
    · exact h.setCtx _ _
  · exact h.setCtx _ _

theorem shpPut (h : Aside a b) (x : Nat) (coarse : Bool) (due : Nat) : Aside a (b.shpPut x coarse due) := h.of_parts rfl rfl rfl

theorem shpSched (h : Aside a b) (x : Nat) : Aside a (b.shpSched x) := by
  unfold Block.shpSched
  dsimp only
  split
  · exact h.setCtx _ _
  · split
    · exact (((h.setCtx _ _).inc _ _).set _ _).shpPut _ _ _
    · split
      · exact h.setCtx _ _
      · split
        · exact (h.setCtx _ _).shpPut _ _ _
        · exact (h.setCtx _ _).shpPut _ _ _

/-! ### The Canopy (R442, R443, R447, R448, R451, R457) -/

theorem onCport (h : Aside a b) (west : Bool) (f : CnpPort → CnpPort) : Aside a (b.onCport west f) := h.of_parts rfl rfl rfl

theorem setWrap (h : Aside a b) (west v : Bool) : Aside a (b.setWrap west v) := by
  unfold Block.setWrap
  split
  · exact h
  · cases west <;> exact h.of_parts rfl rfl rfl

theorem setMaster (h : Aside a b) (pos : Nat) : Aside a (b.setMaster pos) := by
  unfold Block.setMaster
  split
  · exact h
  · exact h.of_parts rfl rfl rfl

theorem portCell (h : Aside a b) (west : Bool) (c : Nat) (inGap : Bool) : Aside a (b.portCell west c inGap) := by
  unfold Block.portCell
  dsimp only
  have wrapped := h.when (f := fun d => d.setWrap west true) (h.setWrap west true)
    (decide ((b.port west).nbCell + 3 ≤ c) || !b.portUp west || b.forced west)
  have gone := wrapped.when (f := fun d => if west then (d.clr CNP_PORT_W.NB_VALID).clr CNP_PORT_W.HELLO_OK
    else (d.clr CNP_PORT_E.NB_VALID).clr CNP_PORT_E.HELLO_OK) (by cases west <;> exact wrapped.of_parts rfl rfl rfl)
    (decide ((b.port west).nbCell + 3 ≤ c))
  exact Aside.ite (gone.of_parts rfl rfl rfl) (gone.of_parts rfl rfl rfl)

theorem cnpSend (h : Aside a b) (mtype dest : Nat) (body : List Byte) : Aside a (b.cnpSend mtype dest body) := by
  unfold Block.cnpSend
  split
  · exact h.of_parts rfl rfl rfl
  · exact h.of_parts rfl rfl rfl

theorem peersSend (h : Aside a b) (l : List Nat) (body : Block → List Byte) :
    Aside a (l.foldl (fun (b : Block) n => b.cnpSend 5 n (body b)) b) := h.foldl l (fun _ n hd => hd.cnpSend 5 n _)

end Aside

/-- The peers heard of late, as the Canopy keeps them at the start of cell `c` (R442). -/
def Block.cnpHeard (b : Block) (c : Nat) : List (Nat × CnpPeer) := b.cnp.peers.filter (fun e => decide (c < e.2.cell + 3))
def Block.cnpQuiet (b : Block) : Nat := if b.cnp.heard then 0 else b.cnp.silent + 1

/-- The members and the silence that the new cell begins with. -/
def Block.cnpOpened (b : Block) (c : Nat) : Block :=
  (b.onCnp (fun x => { x with peers := b.cnpHeard c, silent := b.cnpQuiet, heard := false, used := none,
                              sealHold := x.sealHold && decide (c ≤ x.sealCell) })).wr CNP_STAT.PRESENT
    ((b.cnpHeard c).foldl (fun m e => m + 2 ^ e.1) 0)

/-- The master followed, the ports and the digests sent (R442–R451, R460). -/
def Block.cnpRun (b : Block) (c : Nat) (inGap : Bool) (quiet : Nat) : Block :=
  let b := b.when (decide (3 ≤ quiet) && !b.bit CNP_STAT.MASTER) (fun b => b.setMaster b.cpos)
  let b := (b.portCell false c inGap).portCell true c inGap
  b.when (c % 256 == 128 && b.rd CNP_STAT.STATE == csMEMBER) (fun b => b.cnpPeers.foldl (fun (b : Block) n => b.cnpSend 5 n b.digestBody) b)

theorem Block.cnpCell_eq (b : Block) (c : Nat) (inGap : Bool) : b.cnpCell c inGap
    = if !b.bit CNP_CTL.EN then b else ((b.cnpOpened c).cnpRun c inGap b.cnpQuiet).when (c % 256 == 192) Block.digCheck := rfl

theorem Aside.cnpRun {a b : Block} (h : Aside a b) (c : Nat) (inGap : Bool) (quiet : Nat) : Aside a (b.cnpRun c inGap quiet) := by
  have led := h.when (f := fun d => d.setMaster d.cpos) (h.setMaster _) (decide (3 ≤ quiet) && !b.bit CNP_STAT.MASTER)
  have ports := (led.portCell false c inGap).portCell true c inGap
  exact ports.when (f := fun d => d.cnpPeers.foldl (fun (b : Block) n => b.cnpSend 5 n b.digestBody) d) (ports.peersSend _ Block.digestBody) _

end Sys2Proof.Machine
end

section
/-! SUPPORT. The start of a cell in the whole block (R46, R76), and a step of HTIME (R53). -/

namespace Sys2Proof.Machine

/-- Between `b` and `c` the clock and the warp tables stay, and DRAM as it reads where no word of it has an error. -/
structure CellKept (b c : Block) : Prop where
  clk : c.clk = b.clk
  warp : c.hoop.warp.warp = b.hoop.warp.warp
  dram : CleanKept b c

theorem Block.RasOnly.clk {b c : Block} (h : b.RasOnly c) : c.clk = b.clk := by
  obtain ⟨⟨_, _, _, _, rfl⟩, -⟩ := h
  rfl

theorem Block.dramTouch_ras (b : Block) (a n : Nat) : b.RasOnly (b.dramTouch a n) :=
  Block.RasOnly.foldl (fun c w => (Block.RasOnly.refl c).dramFind w 0 []) _ b

namespace CellKept

variable {a b c : Block}

theorem refl (b : Block) : CellKept b b := ⟨rfl, rfl, .refl b⟩

theorem trans (h : CellKept a b) (g : CellKept b c) : CellKept a c := ⟨g.clk.trans h.clk, g.warp.trans h.warp, h.dram.trans g.dram⟩

theorem of_aside (h : CellKept a b) (g : Aside b c) : CellKept a c :=
  h.trans ⟨g.clk, congrArg (fun x : Hoop => x.warp.warp) g.hoop, .of_dram g.dram⟩

theorem of_parts (h : CellKept a b) (clk : c.clk = b.clk) (warp : c.hoop.warp.warp = b.hoop.warp.warp) (dram : c.dram = b.dram) : CellKept a c :=
  h.trans ⟨clk, warp, .of_dram dram⟩

theorem onRas (h : CellKept a b) (r : Ras) : CellKept a { b with ras := r } := h.of_parts rfl rfl rfl

theorem ite {p : Prop} [Decidable p] {x y : Block} (hx : CellKept a x) (hy : CellKept a y) : CellKept a (if p then x else y) := by
  split
  · exact hx
  · exact hy

theorem when {f : Block → Block} (h : CellKept a b) (hf : CellKept a (f b)) (p : Bool) : CellKept a (b.when p f) := by
  cases p
  · exact h
  · exact hf

theorem foldl {α : Type} {f : Block → α → Block} (hf : ∀ (c : Block) (x : α), CellKept a c → CellKept a (f c x)) : ∀ (l : List α) {b : Block},
    CellKept a b → CellKept a (l.foldl f b)
  | [], _, h => h
  | x :: l, _, h => foldl hf l (hf _ x h)

/-! ### The shaper reads the packets it releases (R394) -/

theorem dramTouch (h : CellKept a b) (x n : Nat) : CellKept a (b.dramTouch x n) := by
  refine h.trans ⟨?_, ?_, b.dramTouch_clean x n⟩
  · exact (b.dramTouch_ras x n).clk
  · exact congrArg (fun x : Hoop => x.warp.warp) (b.dramTouch_ras x n).hoop

theorem shpRelease (x fuel : Nat) : ∀ {b : Block}, CellKept a b → CellKept a (b.shpRelease x fuel) := by
  induction fuel with
  | zero => exact fun h => h
  | succ fuel ih =>
    intro b h
    unfold Block.shpRelease
    dsimp only
    split
    · exact h
    · next p rest _ =>
      split
      · exact h
      · have read := h.dramTouch (b.poolAddr p.buf) (16 + p.payload.length)
        split
        · exact ih (read.of_aside (((Aside.refl _).setCtx _ _).shpDrop _ _))
        · exact ih (read.of_aside ((((Aside.refl _).setCtx _ _).qPlace _ _).inc _ _))

theorem shpTouch (h : CellKept a b) (x : Nat) : CellKept a (b.shpTouch x) := by
  have refilled : CellKept a (b.shpRefill x) := h.of_aside (Aside.shpRefill (.refl b) x)
  exact (refilled.shpRelease x _).of_aside (Aside.shpSched (.refl _) x)

theorem shpCell (h : CellKept a b) : CellKept a b.shpCell := by
  have counted : CellKept a { b with shp := { b.shp with cell := (b.shp.cell + 1) % 2 ^ 40 } } := h.of_parts rfl rfl rfl
  refine foldl (fun c x hc => hc.shpTouch x) _ (ite (foldl (fun c x hc => ?_) _ counted) counted)
  split
  · exact hc.of_aside (Aside.shpPut (.refl c) _ _ _)
  · exact hc

/-! ### The Hoop and the Canopy (R76, R442–R461) -/

theorem hoopCell (h : CellKept a b) : CellKept a b.hoopCell := by
  have shown : CellKept a (b.tqShow.setWarp { b.tqShow.hoop.warp with
      groups := b.tqShow.hoop.warp.groups.filter (fun g => decide (b.tqShow.sf ≤ g.sf)), scan := b.tqShow.clk.cell * 2 ^ 24 }) := h.of_parts rfl rfl rfl
  unfold Block.hoopCell
  dsimp only
  refine ite shown (when ?_ ?_ _)
  · exact shown.of_parts rfl rfl rfl
  · exact shown.of_parts rfl rfl rfl

theorem marked (h : CellKept a b) (f : Fld) (p : Bool) : CellKept a (b.when p (fun b => b.set f)) := h.when (h.of_parts rfl rfl rfl) p

theorem pendMarked (h : CellKept a b) (p : Bool) : CellKept a (b.when p (fun b => (b.set CNP_EVT.PEND_MISMATCH).setWarp
    { b.hoop.warp with pendMm := some b.sf })) := h.when (h.of_parts rfl rfl rfl) p

theorem digCheck (h : CellKept a b) : CellKept a b.digCheck := by
  unfold Block.digCheck
  dsimp only
  refine marked (marked (pendMarked ?_ _) CNP_EVT.ACT_MISMATCH _) HOOP_EVT.DIGEST_MISMATCH _
  exact h.of_parts rfl rfl rfl

theorem cnpCell (h : CellKept a b) (c : Nat) (inGap : Bool) : CellKept a (b.cnpCell c inGap) := by
  have opened : CellKept a (b.cnpOpened c) := h.of_parts rfl rfl rfl
  have run := opened.of_aside (Aside.cnpRun (.refl _) c inGap b.cnpQuiet)
  rw [b.cnpCell_eq]
  exact ite h (run.when run.digCheck _)

end CellKept

theorem Aside.slots {a b : Block} (h : Aside a b) (s : Nat) : Aside a (b.slotSwapAt s) := Keeps.slotSwapAt (noReg_spares _ _) h s

/-- A cell starts with its number; the clock, the warp tables and a DRAM with no error stand (R46). -/
theorem Block.cellStart_kept (b : Block) (n : Nat) (g : Bool) : CellKept { b with clk := { b.clk with cell := n } } (b.cellStart n g) := by
  have units := ((CellKept.refl { b with clk := { b.clk with cell := n } }).of_aside ((Aside.refl _).rxaAtCell b.clk.cell).txcAtCell).shpCell
  have hoop := units.hoopCell.cnpCell n g
  have decided := hoop.when (f := fun d => d.slotDecideSf (n / 256 + 1)) (hoop.of_aside (Keeps.slotDecideSf (noReg_spares _ _) (Aside.refl _) _)) (n % 256 == 255)
  have swapped := decided.of_aside ((Aside.refl _).slots (n / 256))
  exact swapped.when (f := fun d => { d with ras := { d.ras with tchkWait := false } }) (swapped.onRas _) (n % 256 == 0)

/-- The checkpoint of the instant goes into the buffer that was not the latest, and the journal is cleared (R76). -/
theorem Block.hoopCell_checkpoint (b : Block) (hg : b.hoop.red.gap = false) (hd : b.hoop.red.dead = false) (hs : b.hoop.red.hbStop = none) :
    b.hoopCell.hoop.red.journal = [] ∧ b.hoopCell.hoop.red.ckptSel = !b.hoop.red.ckptSel
    ∧ ∃ c, (if b.hoop.red.ckptSel = true then b.hoopCell.hoop.red.ckptA else b.hoopCell.hoop.red.ckptB) = some c ∧ c.stamp = b.clk.beat
      ∧ c.htime = b.clk.htime ∧ c.rate = b.clk.rate ∧ c.lock = b.lock := by
  have runs : ¬ (b.hoop.red.gap || b.hoop.red.dead || b.hoop.red.hbStop.isSome) = true := by simp [hg, hd, hs]
  have lock : b.tqShow.lock = b.lock := b.rd_wr_disjoint HOOP_STATE.TQ HOOP_STATE.LOCK _ 0 0 (by decide)
  unfold Block.hoopCell
  dsimp only
  rw [if_neg runs]
  generalize b.hoop.red.rearmed = rearmed
  refine ⟨?_, ?_, (b.tqShow.setWarp { b.tqShow.hoop.warp with
      groups := b.tqShow.hoop.warp.groups.filter (fun g => decide (b.tqShow.sf ≤ g.sf)), scan := b.tqShow.clk.cell * 2 ^ 24 }).ckptNow,
    ?_, rfl, rfl, rfl, lock⟩
  · cases rearmed <;> rfl
  · cases rearmed <;> rfl
  · cases rearmed <;> cases b.hoop.red.ckptSel <;> rfl

/-! ### A step of HTIME (R53, R213, R456) -/

/-- The strobes up to which none issues after the step to `new`. -/
def Block.stepFloor (b : Block) (e : Int) (new : BitVec 64) : Block :=
  if e < 0 then
    (b.setSync { b.hoop.sync with strobeFloor := if b.hoop.sync.strobeFloor.toNat < new.toNat then new else b.hoop.sync.strobeFloor }).when
      (b.strobesPassed b.clk.htime.toNat new.toNat != 0)
      (fun d => (d.incBy HOOP_LATE_CNT.all (b.strobesPassed b.clk.htime.toNat new.toNat)).set HOOP_EVT.LATE)
  else
    let b := b.setSync { b.hoop.sync with strobeFloor := b.hoop.sync.lastStrobe + 1 }
    { b with cnp := { b.cnp with sealHold := true } }

/-- HTIME reads `new`, and the step is told. -/
def Block.stepMoved (b : Block) (new : BitVec 64) : Block :=
  let b := (b.setSync { b.hoop.sync with pendStep := none }).setWarp { b.hoop.warp with scan := new.toNat }
  let b : Block := { b with clk := { b.clk with htime := new } }
  ((b.setReg MAS_SYNC_BASE.all.base (BitVec.ofNat 32 (b.sf + 1))).set MAS_EVT.SYNC_STEP).set HOOP_EVT.STEP

theorem Block.stepNow_eq (b : Block) (e : Int) : b.stepNow e = (b.stepFloor e (stepped b.clk.htime e)).stepMoved (stepped b.clk.htime e) := rfl

/-- The step changes HTIME alone of the clock, and its registers tell of it. -/
theorem Block.stepMoved_state (b : Block) (new : BitVec 64) : (b.stepMoved new).clk = { b.clk with htime := new }
    ∧ (b.stepMoved new).reg MAS_SYNC_BASE.all.base = BitVec.ofNat 32 ((b.stepMoved new).sf + 1) ∧ (b.stepMoved new).bit HOOP_EVT.STEP = true
    ∧ (b.stepMoved new).bit MAS_EVT.SYNC_STEP = true := by
  refine ⟨rfl, ?_, Block.bit_set_same _ _ _ (by decide) (by decide), ?_⟩
  · unfold Block.stepMoved Block.set Block.wr
    rw [Block.reg_setReg_other _ _ _ _ (by decide), show ∀ (d : Block) o u p, (d.tieNote o u).reg p = d.reg p from fun _ _ _ _ => rfl,
      Block.reg_setReg_other _ _ _ _ (by decide), show ∀ (d : Block) o u p, (d.tieNote o u).reg p = d.reg p from fun _ _ _ _ => rfl, Block.reg_setReg_same]
    rfl
  · exact (Block.bit_of_rd (Block.rd_set_other _ _ _ _ _ (by decide))).trans (Block.bit_set_same _ _ _ (by decide) (by decide))

theorem Block.stepFloor_backward (b : Block) (e : Int) (new : BitVec 64) (h : 0 ≤ e) : (b.stepFloor e new).clk = b.clk
    ∧ (b.stepFloor e new).cnp.sealHold = true ∧ (b.stepFloor e new).hoop.sync.strobeFloor = b.hoop.sync.lastStrobe + 1 := by
  unfold Block.stepFloor
  rw [if_neg (Int.not_lt.2 h)]
  exact ⟨rfl, rfl, rfl⟩

theorem Block.stepFloor_forward (b : Block) (e : Int) (new : BitVec 64) (h : e < 0) : (b.stepFloor e new).clk = b.clk
    ∧ (b.stepFloor e new).cnp.sealHold = b.cnp.sealHold
    ∧ (b.stepFloor e new).hoop.sync.strobeFloor.toNat = max b.hoop.sync.strobeFloor.toNat new.toNat := by
  have floor : (if b.hoop.sync.strobeFloor.toNat < new.toNat then new else b.hoop.sync.strobeFloor).toNat
      = max b.hoop.sync.strobeFloor.toNat new.toNat := by
    split <;> omega
  unfold Block.stepFloor
  rw [if_pos h, ← floor]
  generalize b.strobesPassed _ _ = n
  cases n != 0
  · exact ⟨rfl, rfl, rfl⟩
  · exact ⟨rfl, rfl, rfl⟩

end Sys2Proof.Machine
end

section
/-! SUPPORT. The command that brings HTIME to the next cell boundary (R46, R53), and its obligation. -/

namespace Sys2Proof.Machine

/-- HTIME reaches `t`, of which the step of error `e` takes place, and the cell of the stepped scale starts. -/
def Block.cellStepped (b : Block) (t : Nat) (e : Int) : Block :=
  let b := (b.toTime (BitVec.ofNat 64 t)).stepNow e
  b.cellStart (cellOf b.clk.htime) false

/-- What becomes of the cell boundary at `next` (R46, R53). -/
def Block.cellAt (b : Block) (next : Nat) : Block :=
  if b.hoop.red.dead then { b.toTime (BitVec.ofNat 64 next) with clk := { (b.toTime (BitVec.ofNat 64 next)).clk with cell := b.clk.cell + 1 } }
  else if b.hoop.red.gap then
    (if (b.toTime (BitVec.ofNat 64 next)).clk.beat ≤ b.hoop.red.gapEnd then b.toTime (BitVec.ofNat 64 next) else b)
  else
    match b.stepDue with
    | none => (b.toTime (BitVec.ofNat 64 next)).cellStart (b.clk.cell + 1) false
    | some e =>
      if next < stepInstant b.clk.htime e then (b.toTime (BitVec.ofNat 64 next)).cellStart (b.clk.cell + 1) false
      else b.cellStepped (stepInstant b.clk.htime e) e

theorem cellBoundary_runCmd (s : State) : exec .cellBoundary s = runCmd s (fun b => b.cellAt ((b.clk.cell + 1) * 2 ^ 24)) := rfl

theorem cellBoundary_gives (s : State) {next : Nat} {d : Block} (hn : (s.blk.clk.cell + 1) * 2 ^ 24 = next) (hd : s.blk.start.cellAt next = d) :
    Gives .cellBoundary s d := by
  subst hn
  exact gives_of_runCmd (cellBoundary_runCmd s) hd

variable (b : Block) (next : Nat)

theorem Block.cellAt_dead (h : b.hoop.red.dead = true) : b.cellAt next
    = { b.toTime (BitVec.ofNat 64 next) with clk := { (b.toTime (BitVec.ofNat 64 next)).clk with cell := b.clk.cell + 1 } } := if_pos h

theorem Block.cellAt_gap (hd : b.hoop.red.dead = false) (hg : b.hoop.red.gap = true) : b.cellAt next
    = if (b.toTime (BitVec.ofNat 64 next)).clk.beat ≤ b.hoop.red.gapEnd then b.toTime (BitVec.ofNat 64 next) else b := by
  unfold Block.cellAt
  rw [hd, hg]
  rfl

theorem Block.cellAt_plain (h : b.hoopDown = false) (hs : b.stepDue = none) :
    b.cellAt next = (b.toTime (BitVec.ofNat 64 next)).cellStart (b.clk.cell + 1) false := by
  obtain ⟨gap, dead⟩ := Bool.or_eq_false_iff.1 h
  unfold Block.cellAt
  rw [dead, gap, hs]
  rfl

theorem Block.cellAt_step (h : b.hoopDown = false) {e : Int} (hs : b.stepDue = some e) : b.cellAt next
    = if next < stepInstant b.clk.htime e then (b.toTime (BitVec.ofNat 64 next)).cellStart (b.clk.cell + 1) false
      else b.cellStepped (stepInstant b.clk.htime e) e := by
  obtain ⟨gap, dead⟩ := Bool.or_eq_false_iff.1 h
  unfold Block.cellAt
  rw [dead, gap, hs]
  rfl

theorem cellBoundary_boundary (s : State) : let b := s.blk.start.toTime (BitVec.ofNat 64 ((s.blk.clk.cell + 1) * 2 ^ 24))
    (s.blk.hoop.red.dead = true → Gives .cellBoundary s { b with clk := { b.clk with cell := s.blk.clk.cell + 1 } })
    ∧ (s.blk.hoop.red.dead = false → s.blk.hoop.red.gap = true → Gives .cellBoundary s (if b.clk.beat ≤ s.blk.hoop.red.gapEnd then b else s.blk.start))
    ∧ (s.blk.hoopDown = false → s.blk.stepDue = none → Gives .cellBoundary s (b.cellStart (s.blk.clk.cell + 1) false)) := by
  have gives {d : Block} := cellBoundary_gives s (d := d) rfl
  generalize (s.blk.clk.cell + 1) * 2 ^ 24 = next at gives ⊢
  exact ⟨fun hd => gives (s.blk.start.cellAt_dead next hd), fun hd hg => gives (s.blk.start.cellAt_gap next hd hg),
    fun hd hs => gives (s.blk.start.cellAt_plain next hd hs)⟩

theorem cellBoundary_stepped (s : State) (e : Int) (hd : s.blk.hoopDown = false) (hs : s.blk.stepDue = some e) :
    (((s.blk.clk.cell + 1) * 2 ^ 24 < stepInstant s.blk.clk.htime e) →
      Gives .cellBoundary s ((s.blk.start.toTime (BitVec.ofNat 64 ((s.blk.clk.cell + 1) * 2 ^ 24))).cellStart (s.blk.clk.cell + 1) false))
    ∧ (stepInstant s.blk.clk.htime e ≤ (s.blk.clk.cell + 1) * 2 ^ 24 →
      Gives .cellBoundary s (s.blk.start.cellStepped (stepInstant s.blk.clk.htime e) e)) := by
  have gives {d : Block} := cellBoundary_gives s (d := d) rfl
  generalize (s.blk.clk.cell + 1) * 2 ^ 24 = next at gives ⊢
  have cases := s.blk.start.cellAt_step next hd hs
  exact ⟨fun h => gives (cases.trans (if_pos h)), fun h => gives (cases.trans (if_neg (Nat.not_lt.2 h)))⟩

/-- A step removes the phase error from HTIME (R53, R213, R456). -/
theorem Block.stepNow_state (b : Block) (e : Int) : (b.stepNow e).clk.htime = BitVec.ofInt 64 ((b.clk.htime.toNat : Int) - e)
    ∧ (b.stepNow e).clk.beat = b.clk.beat ∧ (b.stepNow e).hoop.sync.pendStep = none
    ∧ (b.stepNow e).reg MAS_SYNC_BASE.all.base = BitVec.ofNat 32 ((b.stepNow e).sf + 1) ∧ (b.stepNow e).bit HOOP_EVT.STEP = true
    ∧ (b.stepNow e).bit MAS_EVT.SYNC_STEP = true
    ∧ (0 ≤ e → (b.stepNow e).cnp.sealHold = true ∧ (b.stepNow e).hoop.sync.strobeFloor = b.hoop.sync.lastStrobe + 1)
    ∧ (e < 0 → (b.stepNow e).cnp.sealHold = b.cnp.sealHold
      ∧ (b.stepNow e).hoop.sync.strobeFloor.toNat = max b.hoop.sync.strobeFloor.toNat (b.stepNow e).clk.htime.toNat)
    ∧ (b.stepNow e).hoop.warp.scan = (b.stepNow e).clk.htime.toNat := by
  rw [b.stepNow_eq, show BitVec.ofInt 64 ((b.clk.htime.toNat : Int) - e) = stepped b.clk.htime e from rfl]
  generalize stepped b.clk.htime e = new
  obtain ⟨clk, base, step, sync⟩ := (b.stepFloor e new).stepMoved_state new
  have beat : (b.stepFloor e new).clk.beat = b.clk.beat := by
    rcases Int.lt_or_le e 0 with h | h
    · rw [(b.stepFloor_forward e new h).1]
    · rw [(b.stepFloor_backward e new h).1]
  rw [clk]
  exact ⟨rfl, beat, rfl, base, step, sync, fun h => (b.stepFloor_backward e new h).2, fun h => (b.stepFloor_forward e new h).2, rfl⟩

theorem Block.cellStart_state (b : Block) (n : Nat) (g : Bool) : (b.cellStart n g).clk.cell = n ∧ (b.cellStart n g).clk.htime = b.clk.htime
    ∧ (b.cellStart n g).clk.beat = b.clk.beat ∧ (b.dram.err = [] → ∀ a, (b.cellStart n g).dramByte a = b.dramByte a)
    ∧ ∀ x y z, (b.cellStart n g).warpWord x y z = b.warpWord x y z := by
  obtain ⟨clk, warp, dram⟩ := b.cellStart_kept n g
  refine ⟨?_, ?_, ?_, fun h => ?_, fun x y z => Block.warpWord_congr warp x y z⟩
  · rw [clk]
  · rw [clk]
  · rw [clk]
  · obtain ⟨-, byte, -⟩ := dram (b.dramErr_of_nil h)
    exact byte

/-- Settles O27: the boundary by its cases, a step by its floor and its move, and the start of a cell by what every unit keeps in it. -/
theorem cellBoundaryAndSteps : Obligations.CellBoundaryAndSteps := by
  unfold Obligations.CellBoundaryAndSteps
  exact ⟨cellBoundary_boundary, cellBoundary_stepped, Block.stepNow_state, Block.cellStart_state, Block.hoopCell_checkpoint⟩

end Sys2Proof.Machine
end

section
/-! SUPPORT. What the transmit chain and the engines leave of the Hoop, DRAM and the registers of other blocks as an epoch freezes and activates
(R181, R268). -/

namespace Sys2Proof.Machine

namespace Keeps

variable {p : Nat → Prop} {a b : Block}

/-! ### The transmit chain (R181, R184, R198) -/

section
variable (hp : Spares p 0x100000 0x140000)
include hp

theorem paFall (h : Keeps p a b) {n : Nat} (hn : n ≤ 7) (q : Nat) : Keeps p a (b.paFall n q) := by
  have stopped : Keeps p a ({ b with txc := { b.txc with paOff := Tbl.put (fun _ => 0) b.txc.paOff n q } }.gapStop (8 + n) (q + b.blkPost)) :=
    h.trans (.of_parts rfl rfl rfl rfl)
  exact (((stopped.wr TXC_STAT.PA _ 0 (hp.fld 0 (Nat.le_refl 0) (by decide) (by decide))).clr TXC_PORT_ST.ACTIVE n
    (hp.fld 7 hn (by decide) (by decide))).emit _).emit _

/-- TXC_STAT shows no port beyond the eight, so none beyond them settles. -/
theorem paSettle (h : Keeps p a b) (n q : Nat) : Keeps p a (b.paSettle n q) := by
  unfold Block.paSettle
  split
  · exact h
  · next hn =>
    refine h.paFall hp ?_ q
    have shown : bitOf (b.rd TXC_STAT.PA) n = true := by
      simp only [Bool.or_eq_true, Bool.not_eq_true', not_or, Bool.not_eq_false] at hn
      exact hn.2
    have small : b.rd TXC_STAT.PA < 2 ^ 8 := fget_lt _ TXC_STAT.PA
    by_contra hge
    have : b.rd TXC_STAT.PA < 2 ^ n := Nat.lt_of_lt_of_le small (Nat.pow_le_pow_right (by decide) (by omega))
    exact absurd (shown.symm.trans (Nat.testBit_lt_two_pow this)) (by decide)

omit hp in
theorem setTx (h : Keeps p a b) (x : Nat) (t : Tx) : Keeps p a (b.setTx x t) := h.trans (.of_parts rfl rfl rfl rfl)

omit hp in
theorem portEnd (h : Keeps p a b) (x n : Nat) (e : PortEnd) : Keeps p a (b.portEnd x n e) := by
  unfold Block.portEnd
  split
  · exact h.setTx _ _
  · exact h

theorem txRecheck (h : Keeps p a b) : Keeps p a b.txRecheck := by
  refine foldl _ h (fun c x _ hc => ?_)
  split
  · have ended := foldl (f := fun b (q : TxPort) => (b.portEnd x.1 q.port (.stop b.nowQ)).paSettle q.port b.nowQ) x.2.ports hc
      (fun d q _ hd => (hd.portEnd _ _ _).paSettle hp _ _)
    dsimp only
    split
    · exact ended.setTx _ _
    · exact ended
  · exact hc

omit hp in
theorem swapRegs (h : Keeps p a b) (f g : Fld) (n : Nat) (hf : ∀ i, i < n → ¬ p (f.off i)) (hg : ∀ i, i < n → ¬ p (g.off i)) :
    Keeps p a (b.swapRegs f g n) :=
  foldl _ h (fun _ _ hi hc => (hc.setReg (hf _ (List.mem_range.1 hi)) _).setReg (hg _ (List.mem_range.1 hi)) _)

theorem txcSwapped (h : Keeps p a b) (dwell region : Bool) : Keeps p a ((b.when dwell (fun b => b.swapRegs TXC_DWELL_PEND.all TXC_DWELL_ACT.all 512)).when
    region (fun b => b.swapRegs TXC_REGION_PEND.all TXC_REGION_ACT.all 64)) := by
  have dwelt := h.when (f := fun b => b.swapRegs TXC_DWELL_PEND.all TXC_DWELL_ACT.all 512) (h.swapRegs _ _ _
    (fun i hi => hp.fld 511 (Nat.le_of_lt_succ hi) (by decide) (by decide)) (fun i hi => hp.fld 511 (Nat.le_of_lt_succ hi) (by decide) (by decide))) dwell
  exact dwelt.when (f := fun b => b.swapRegs TXC_REGION_PEND.all TXC_REGION_ACT.all 64) (dwelt.swapRegs _ _ _
    (fun i hi => hp.fld 63 (Nat.le_of_lt_succ hi) (by decide) (by decide)) (fun i hi => hp.fld 63 (Nat.le_of_lt_succ hi) (by decide) (by decide))) region

theorem portTests (h : Keeps p a b) : Keeps p a ((List.range 8).foldl (fun b n =>
    if b.bit TXC_PORT_CFG.EN n then b.flag TXC_PORT_CFG.ERR (b.portRefused n) n else b) b) := by
  refine foldl _ h (fun d n hn hd => ?_)
  split
  · exact hd.flag TXC_PORT_CFG.ERR _ n (hp.fld 7 (Nat.le_of_lt_succ (List.mem_range.1 hn)) (by decide) (by decide))
  · exact hd

omit hp in
theorem windowsReset (h : Keeps p a b) (old : List Nat) : Keeps p a ((List.range 8).foldl (fun b i =>
    if b.windowS i = old.getD i 0 then b else { b with txc := { b.txc with segCells := Tbl.put (fun _ => 0) b.txc.segCells i 0 } }) b) := by
  refine foldl _ h (fun d i _ hd => ?_)
  split
  · exact hd
  · exact hd.trans (.of_parts rfl rfl rfl rfl)

theorem txcActivate (h : Keeps p a b) (dwell region : Bool) : Keeps p a (b.txcActivate dwell region) := by
  unfold Block.txcActivate
  split
  · exact h
  · split
    · exact h.set TXC_EVT.LOCK_KEPT 0 (hp.fld 0 (Nat.le_refl 0) (by decide) (by decide))
    · have tested := (h.txcSwapped hp dwell region).windowsReset ((List.range 8).map b.windowS)
      exact txRecheck hp (tested.when (f := fun b => (List.range 8).foldl (fun b n =>
        if b.bit TXC_PORT_CFG.EN n then b.flag TXC_PORT_CFG.ERR (b.portRefused n) n else b) b) (tested.portTests hp) region)

end

/-! ### The engines (R268) -/

section
variable (hp : Spares p 0x200000 0x400000)
include hp

omit hp in
theorem onEngine (h : Keeps p a b) (n : Nat) (f : Engine → Engine) : Keeps p a (b.onEngine n f) := h.trans (.of_parts rfl rfl rfl rfl)

theorem hovrStart (h : Keeps p a b) {n : Nat} (hn : n ≤ 31) (k : Nat) (hk : k / 4 = n) (act : BitVec 64) (first : Nat) :
    Keeps p a (b.hovrStart k act first) := by
  unfold Block.hovrStart
  dsimp only
  exact (h.onStrand _ _).inc WFT_CNT_WEAVE.all (k / 4) (hp.fld 31 (hk ▸ hn) (by decide) (by decide))

theorem hovrCheck (h : Keeps p a b) {n : Nat} (hn : n ≤ 31) : Keeps p a (b.hovrCheck n) := by
  unfold Block.hovrCheck
  dsimp only
  split
  · exact (h.onEngine _ _).set WFT_EVT.HANDOVER_DONE n (hp.fld 31 hn (by decide) (by decide))
  · exact h

theorem handovers (h : Keeps p a b) (act : BitVec 64) : Keeps p a (b.handovers act) := by
  refine foldl _ h (fun c n hn hc => ?_)
  have n31 : n ≤ 31 := Nat.le_of_lt_succ (List.mem_range.1 hn)
  split
  · exact hc
  · refine hovrCheck hp (foldl _ (hc.onEngine _ _) (fun d i hi hd => ?_)) n31
    have four : (4 * n + i) / 4 = n := by
      have := List.mem_range.1 hi
      omega
    dsimp only
    split
    · exact hd
    · split
      · exact hd.hovrStart hp n31 _ four _ _
      · exact hd.onStrand _ _

end

/-- A region profile activates (R132). -/
theorem rxaRegion (h : Keeps p a b) (hp : Spares p 0x80000 0x100000) : Keeps p a b.rxaRegion := by
  have tested : Keeps p a (((b.testFeeds true (fun _ => true)).testLinks).abortLost b) :=
    abortLanes hp (testLinks hp (testFeeds hp h _ _)) _
  unfold Block.rxaRegion
  dsimp only
  split
  · exact tested.cenBegin
  · exact tested

end Keeps

end Sys2Proof.Machine
end

section
/-! SUPPORT. An epoch is committed, validated and frozen (R68–R72, R347). -/

namespace Sys2Proof.Machine

variable (b : Block)

/-! ### Commit and cancel -/

theorem Block.epochBusy_iff : b.epochBusy = true ↔ b.rd HOOP_EPOCH_ST.ST = epVALIDATING ∨ b.rd HOOP_EPOCH_ST.ST = epARMED := by
  unfold Block.epochBusy
  rw [Bool.or_eq_true, beq_iff_eq, beq_iff_eq]
  rfl

theorem epochCommit_gives (s : State) : if s.blk.epochBusy = true then Gives .epochCommit s (s.blk.start.set HOOP_EPOCH_ST.WR_IGN) else
    Gives .epochCommit s ((s.blk.start.epochState epVALIDATING 0 0).setWarp { s.blk.hoop.warp with commitSf := s.blk.sf, frozen := false }) := by
  split
  · next h => exact gives_of_runCmd (f := Block.epochCommit) rfl (if_pos (s.blk.epochBusy_iff.1 h))
  · next h => exact gives_of_runCmd (f := Block.epochCommit) rfl (if_neg (fun e => h (s.blk.epochBusy_iff.2 e)))

theorem epochCancel_gives (s : State) : if s.blk.rd HOOP_EPOCH_ST.ST = epIDLE ∨ (s.blk.rd HOOP_EPOCH_ST.ST = epARMED ∧ s.blk.hoop.warp.frozen = true)
    then NoEffect .epochCancel s else Gives .epochCancel s (s.blk.start.epochState epIDLE 0 0) := by
  split
  · next h => exact gives_of_runCmd (f := Block.epochCancel) rfl (if_pos h)
  · next h => exact gives_of_runCmd (f := Block.epochCancel) rfl (if_neg h)

/-! ### The epoch state -/

/-- The epoch state shows in HOOP_EPOCH_ST alone. -/
theorem Block.epochState_kept (st reason bad : Nat) : RegsKept b (b.epochState st reason bad) [HOOP_EPOCH_ST.all.base] :=
  ((((RegsKept.refl b _).wr HOOP_EPOCH_ST.ST st 0 (by decide)).wr HOOP_EPOCH_ST.REASON reason 0 (by decide)).wr HOOP_EPOCH_ST.BAD_INDEX bad 0 (by decide))

theorem Block.epochState_shown (st reason bad : Nat) : (b.epochState st reason bad).rd HOOP_EPOCH_ST.ST = st % 8
    ∧ (b.epochState st reason bad).rd HOOP_EPOCH_ST.REASON = reason % 16 := by
  unfold Block.epochState
  constructor
  · rw [Block.rd_wr_disjoint _ _ _ _ _ _ (by decide), Block.rd_wr_disjoint _ _ _ _ _ _ (by decide), Block.rd_wr_same _ _ _ _ (by decide)]
    rfl
  · rw [Block.rd_wr_disjoint _ _ _ _ _ _ (by decide), Block.rd_wr_same _ _ _ _ (by decide)]
    rfl

/-! ### Validation (R69) -/

/-- The bank that a pending epoch makes active, and its count. -/
def Block.pendBank (b : Block) : Nat := if bitOf (b.rd HOOP_EPOCH_PEND.SWAP) 0 then 1 - b.hoop.warp.bank else b.hoop.warp.bank
def Block.pendCount (b : Block) : Nat :=
  if bitOf (b.rd HOOP_EPOCH_PEND.SWAP) 0 then b.rd HOOP_WARP_COUNT.COUNT else b.rd HOOP_WARP_ACT_COUNT.COUNT
def Block.epochRefuse (b : Block) (r bad : Nat) : Block := (b.epochState epREFUSED r bad).set HOOP_EVT.EPOCH_REFUSED
def Block.epochArm (b : Block) : Block := (b.epochState epARMED 0 0).setWarp { b.hoop.warp with digPend := b.digestNext, frozen := false }

/-- The outcome of the test of a pending epoch. -/
def Block.epochTested (b : Block) : Block :=
  if bitOf (b.rd HOOP_EPOCH_PEND.SWAP) 0 && decide (131072 < b.pendCount) then b.epochRefuse 4 0
  else if 12 < b.rd HOOP_EPOCH_PEND.H then b.epochRefuse 6 0
  else if b.rd HOOP_EPOCH_PEND.EPOCH = b.rd HOOP_EPOCH_ACT.EPOCH then b.epochRefuse 3 0
  else if b.actSf < b.hoop.warp.commitSf + 2 then b.epochRefuse 2 0
  else
    match b.badDesc b.pendBank b.pendCount (b.rd HOOP_EPOCH_PEND.H) with
    | some i => b.epochRefuse 1 i
    | none => b.epochArm

theorem epochValidationDone_runCmd (s : State) : exec .epochValidationDone s = runCmd s (fun b => b.ifHoop fun b =>
    if b.rd HOOP_EPOCH_ST.ST ≠ epVALIDATING then b else b.epochTested) := rfl

/-- A validation that arms leaves the digest, and nothing else outside HOOP_EPOCH_ST. -/
theorem Block.epochArm_state : b.epochArm.rd HOOP_EPOCH_ST.ST = epARMED ∧ b.epochArm.rd HOOP_EPOCH_ST.REASON = 0
    ∧ b.epochArm.hoop.warp.digPend = b.digestNext ∧ b.epochArm.hoop.warp.frozen = false ∧ RegsKept b b.epochArm [HOOP_EPOCH_ST.all.base] := by
  obtain ⟨st, reason⟩ := b.epochState_shown epARMED 0 0
  exact ⟨st, reason, rfl, rfl, b.epochState_kept epARMED 0 0⟩

theorem Block.start_digestNext : b.start.digestNext = b.digestNext := rfl

theorem epochValidationDone_outcome (s : State) (hd : s.blk.hoopDown = false) (hv : s.blk.rd HOOP_EPOCH_ST.ST = epVALIDATING) :
    Gives .epochValidationDone s s.blk.start.epochTested := gives_of_hoopUp (epochValidationDone_runCmd s) hd (if_neg (not_not.2 hv))

/-- The first reason to refuse that applies decides the test, and with none it arms (R69). -/
theorem Block.epochTested_of {Q : Block → Prop} {R : Prop} (h : Q b.epochTested) (hR : Q b.epochArm → R) :
    if bitOf (b.rd HOOP_EPOCH_PEND.SWAP) 0 = true ∧ 131072 < b.pendCount then Q (b.epochRefuse 4 0)
    else if 12 < b.rd HOOP_EPOCH_PEND.H then Q (b.epochRefuse 6 0)
    else if b.rd HOOP_EPOCH_PEND.EPOCH = b.rd HOOP_EPOCH_ACT.EPOCH then Q (b.epochRefuse 3 0)
    else if b.actSf < b.hoop.warp.commitSf + 2 then Q (b.epochRefuse 2 0)
    else (∀ i, b.badDesc b.pendBank b.pendCount (b.rd HOOP_EPOCH_PEND.H) = some i → Q (b.epochRefuse 1 i))
      ∧ (b.badDesc b.pendBank b.pendCount (b.rd HOOP_EPOCH_PEND.H) = none → R) := by
  unfold Block.epochTested at h
  simp only [Bool.and_eq_true, decide_eq_true_eq] at h
  generalize b.badDesc b.pendBank b.pendCount (b.rd HOOP_EPOCH_PEND.H) = bad at h ⊢
  by_cases count : bitOf (b.rd HOOP_EPOCH_PEND.SWAP) 0 = true ∧ 131072 < b.pendCount
  · rwa [if_pos count] at h ⊢
  rw [if_neg count] at h ⊢
  by_cases hyper : 12 < b.rd HOOP_EPOCH_PEND.H
  · rwa [if_pos hyper] at h ⊢
  rw [if_neg hyper] at h ⊢
  by_cases same : b.rd HOOP_EPOCH_PEND.EPOCH = b.rd HOOP_EPOCH_ACT.EPOCH
  · rwa [if_pos same] at h ⊢
  rw [if_neg same] at h ⊢
  by_cases soon : b.actSf < b.hoop.warp.commitSf + 2
  · rwa [if_pos soon] at h ⊢
  rw [if_neg soon] at h ⊢
  constructor
  · rintro i rfl
    exact h
  · rintro rfl
    exact hR h

theorem epochValidationDone_arms (s : State) (h : Gives .epochValidationDone s s.blk.start.epochArm) : Runs .epochValidationDone s (fun t =>
    t.rd HOOP_EPOCH_ST.ST = epARMED ∧ t.rd HOOP_EPOCH_ST.REASON = 0 ∧ t.hoop.warp.digPend = s.blk.digestNext ∧ t.hoop.warp.frozen = false
    ∧ RegsKept s.blk t [HOOP_EPOCH_ST.all.base]) := by
  obtain ⟨st, reason, digest, frozen, kept⟩ := s.blk.start.epochArm_state
  have before : RegsKept s.blk s.blk.start [HOOP_EPOCH_ST.all.base] := .of_regs rfl
  exact runs_of_gives h ⟨(Block.canon_rd _ _ _).trans st, (Block.canon_rd _ _ _).trans reason, digest.trans s.blk.start_digestNext, frozen,
    (before.trans kept).canon⟩

theorem epochValidationDone_state (s : State) (hd : s.blk.hoopDown = false) (hv : s.blk.rd HOOP_EPOCH_ST.ST = epVALIDATING) :
    if bitOf (s.blk.rd HOOP_EPOCH_PEND.SWAP) 0 = true ∧ 131072 < s.blk.pendCount then Gives .epochValidationDone s (s.blk.start.epochRefuse 4 0)
    else if 12 < s.blk.rd HOOP_EPOCH_PEND.H then Gives .epochValidationDone s (s.blk.start.epochRefuse 6 0)
    else if s.blk.rd HOOP_EPOCH_PEND.EPOCH = s.blk.rd HOOP_EPOCH_ACT.EPOCH then Gives .epochValidationDone s (s.blk.start.epochRefuse 3 0)
    else if s.blk.actSf < s.blk.hoop.warp.commitSf + 2 then Gives .epochValidationDone s (s.blk.start.epochRefuse 2 0)
    else (∀ i, s.blk.badDesc s.blk.pendBank s.blk.pendCount (s.blk.rd HOOP_EPOCH_PEND.H) = some i →
        Gives .epochValidationDone s (s.blk.start.epochRefuse 1 i))
      ∧ (s.blk.badDesc s.blk.pendBank s.blk.pendCount (s.blk.rd HOOP_EPOCH_PEND.H) = none → Runs .epochValidationDone s (fun t =>
        t.rd HOOP_EPOCH_ST.ST = epARMED ∧ t.rd HOOP_EPOCH_ST.REASON = 0 ∧ t.hoop.warp.digPend = s.blk.digestNext ∧ t.hoop.warp.frozen = false
        ∧ RegsKept s.blk t [HOOP_EPOCH_ST.all.base])) :=
  s.blk.start.epochTested_of (Q := fun d => Gives .epochValidationDone s d) (epochValidationDone_outcome s hd hv) (epochValidationDone_arms s)

theorem epochValidationDone_idle (s : State) (h : s.blk.rd HOOP_EPOCH_ST.ST ≠ epVALIDATING) : NoEffect .epochValidationDone s := by
  cases hd : s.blk.hoopDown
  · exact gives_of_hoopUp (epochValidationDone_runCmd s) hd (if_pos h)
  · exact noEffect_of_hoopDown rfl hd

/-! ### The freeze point (R70, R71, R347) -/

/-- A pending mismatch of the superframe before or the one before that. -/
def Block.mismatchNear (b : Block) (act : Nat) : Bool := match b.hoop.warp.pendMm with | some s => decide (act ≤ s + 2) | none => false

theorem Block.mismatchNear_iff (act : Nat) : b.mismatchNear act = true ↔ ∃ x, b.hoop.warp.pendMm = some x ∧ act ≤ x + 2 := by
  unfold Block.mismatchNear
  cases h : b.hoop.warp.pendMm with
  | none => simp
  | some x => simp

def Block.freezeHold (b : Block) : Block := ((b.epochState epHELD 5 0).set HOOP_EVT.EPOCH_HELD).ckptEpoch

/-- The epoch frozen, its key swaps decided and the engines' handovers begun. -/
def Block.freezeMark (b : Block) : Block := (b.setWarp { b.hoop.warp with frozen := true }).ckptEpoch
def Block.freezeGo (b : Block) (act : Nat) (u : BitVec 64) : Block :=
  let b := b.freezeMark.slotDecideEpoch (b.freezeMark.rd HOOP_EPOCH_PEND.EPOCH) act
  b.when (bitOf (b.rd HOOP_EPOCH_PEND.SWAP) 1) (fun b => b.handovers u)

/-- The freeze point of an armed epoch that is not frozen, at the instant `t`, for an activation in superframe `act` at `u`. -/
def Block.freezeAt (b : Block) (act : Nat) (t u : BitVec 64) : Block :=
  if (b.toTime t).bit HOOP_CTL.HOLD_EN && (b.toTime t).mismatchNear act then (b.toTime t).freezeHold else (b.toTime t).freezeGo act u

theorem Block.freezePoint_eq : b.freezePoint = b.ifHoop fun b => if b.rd HOOP_EPOCH_ST.ST ≠ epARMED ∨ b.hoop.warp.frozen = true then b
    else b.freezeAt b.actSf (htAt (b.actSf - 1) 0xFF000000) (htAt b.actSf 0) := rfl

theorem Block.freezePoint_idle (h : b.rd HOOP_EPOCH_ST.ST ≠ epARMED ∨ b.hoop.warp.frozen = true) : b.freezePoint = b := by
  rw [b.freezePoint_eq]
  cases hd : b.hoopDown
  · rw [b.ifHoop_up _ hd, if_pos h]
  · rw [b.ifHoop_down _ hd]

theorem Block.freezePoint_armed (hd : b.hoopDown = false) (ha : b.rd HOOP_EPOCH_ST.ST = epARMED) (hf : b.hoop.warp.frozen = false) :
    ∃ t u, b.freezePoint = b.freezeAt b.actSf t u := by
  refine ⟨htAt (b.actSf - 1) 0xFF000000, htAt b.actSf 0, ?_⟩
  rw [b.freezePoint_eq, b.ifHoop_up _ hd, if_neg]
  rw [ha, hf]
  decide

/-- The registers of the Hoop, the Mast and the Canopy, which the other units that an epoch concerns leave as they are. -/
def epochRegs (o : Nat) : Prop := o < 0x80000 ∨ (0x140000 ≤ o ∧ o < 0x200000) ∨ (0x700000 ≤ o ∧ o < 0x780000)

theorem epochRegs_spares {lo hi : Nat} (h : (0x80000 ≤ lo ∧ hi ≤ 0x140000) ∨ (0x200000 ≤ lo ∧ hi ≤ 0x700000)) : Spares epochRegs lo hi := by
  intro o ho
  unfold epochRegs at ho
  omega

/-- A held epoch shows so (R71). -/
theorem Block.freezeHold_state : b.freezeHold.rd HOOP_EPOCH_ST.ST = epHELD ∧ b.freezeHold.rd HOOP_EPOCH_ST.REASON = 5
    ∧ b.freezeHold.bit HOOP_EVT.EPOCH_HELD = true ∧ b.freezeHold.rd HOOP_EPOCH_ACT.EPOCH = b.rd HOOP_EPOCH_ACT.EPOCH := by
  obtain ⟨st, reason⟩ := b.epochState_shown epHELD 5 0
  exact ⟨(Block.rd_set_other _ _ HOOP_EPOCH_ST.ST 0 0 (by decide)).trans st,
    (Block.rd_set_other _ _ HOOP_EPOCH_ST.REASON 0 0 (by decide)).trans reason, Block.bit_set_same _ HOOP_EVT.EPOCH_HELD 0 (by decide) (by decide),
    (Block.rd_set_other _ _ HOOP_EPOCH_ACT.EPOCH 0 0 (by decide)).trans ((b.epochState_kept epHELD 5 0).rd HOOP_EPOCH_ACT.EPOCH 0 (by decide))⟩

/-- A frozen epoch leaves the registers as they are, and of the Hoop but its checkpoints and the mark of the freeze (R70). -/
theorem Block.freezeGo_state (act : Nat) (u : BitVec 64) : Keeps epochRegs b.freezeMark (b.freezeGo act u) := by
  have decided : Keeps epochRegs b.freezeMark (b.freezeMark.slotDecideEpoch (b.freezeMark.rd HOOP_EPOCH_PEND.EPOCH) act) :=
    Keeps.slotDecideEpoch (epochRegs_spares (by decide)) (.refl _ _) _ _
  exact decided.when (f := fun d => d.handovers u) (decided.handovers (epochRegs_spares (by decide)) u) _

end Sys2Proof.Machine
end

section
/-! SUPPORT. An epoch activates (R73, R181, R241, R268, R347, R461), and the obligation on epochs. -/

namespace Sys2Proof.Machine

variable (b : Block)

/-! ### The stages of an activation -/

/-- The warp banks and their counts exchanged, the banks from the state `w`. -/
def banksSwap (w : HoopWarp) (b : Block) : Block :=
  ((b.wr HOOP_WARP_COUNT.COUNT (b.rd HOOP_WARP_ACT_COUNT.COUNT)).wr HOOP_WARP_ACT_COUNT.COUNT (b.rd HOOP_WARP_COUNT.COUNT)).setWarp
    { w with bank := 1 - w.bank }

/-- The engines that swap, the transmit chain and the receive array take their pending images. -/
def Block.epochUnits (b : Block) (act sw : Nat) : Block :=
  let b := b.when (bitOf sw 1) (fun b => (List.range 32).foldl (fun (b : Block) n =>
    if bitOf (b.reg WFT_SWAP_EN.all.base).toNat n then b.onEngine n (fun e => { e with bank := 1 - e.bank, swapSf := act }) else b) b)
  let b := b.txcActivate (bitOf sw 2) (bitOf sw 3)
  b.when (bitOf sw 3 && !b.bit TXC_CTL.DWELL_LOCK) Block.rxaRegion

/-- The pending EPOCH and H are the active ones. -/
def Block.epochTurned (b : Block) : Block :=
  (b.wr HOOP_EPOCH_ACT.H (b.rd HOOP_EPOCH_PEND.H)).wr HOOP_EPOCH_ACT.EPOCH (b.rd HOOP_EPOCH_PEND.EPOCH)

/-- The epoch is over, its digest the active one. -/
def Block.epochEnded (b : Block) : Block :=
  ((b.epochState epIDLE 0 0).setWarp { b.hoop.warp with digAct := some b.hoop.warp.digPend, frozen := false }).ckptEpoch

/-- The pending sequence offset is the active one. -/
def Block.offsetKept (b : Block) (act : Nat) : Block := { b with mas := { b.mas with ofsOld := b.rd MAS_BCN_CTL.SEQ_OFS, ofsSf := act } }
def Block.offsetTaken (b : Block) (act : Nat) : Block :=
  (b.offsetKept act).when (b.rd MAS_BCN_CTL.SEQ_OFS_PEND != (b.offsetKept act).rd MAS_BCN_CTL.SEQ_OFS)
    (fun d => (d.wr MAS_BCN_CTL.SEQ_OFS (b.rd MAS_BCN_CTL.SEQ_OFS_PEND)).set MAS_EVT.SEQ_OFS_CHG)

/-- The pending digest expectation of position `n` is the active one. -/
def Block.expectTake (b : Block) (n : Nat) : Block :=
  (b.setReg (CNP_EXPA_LO.all.off n) (b.reg (CNP_EXPP_LO.all.off n))).setReg (CNP_EXPA_HI.all.off n) (b.reg (CNP_EXPP_HI.all.off n))
def Block.expectsTake (b : Block) (k : Nat) : Block := (List.range k).foldl Block.expectTake b

/-- The key swaps of the superframe take place, and the activation is told. -/
def Block.actTold (b : Block) : Block := { b.set HOOP_EVT.EPOCH_ACT with ras := { b.ras with tchk := 0, tchkWait := true } }
def Block.epochTold (b : Block) (act : Nat) : Block := (b.slotSwapAt act).actTold

/-- The epoch goes into effect in superframe `act`, which begins now. -/
def Block.activateAt (b : Block) (act : Nat) : Block :=
  let sw := b.rd HOOP_EPOCH_PEND.SWAP
  ((((((b.when (bitOf sw 0) (banksSwap b.hoop.warp)).epochUnits act sw).epochTurned).epochEnded).offsetTaken act).expectsTake 8).epochTold act

theorem Block.activate_eq : b.activate = b.ifHoop fun b => if b.freezePoint.rd HOOP_EPOCH_ST.ST ≠ epARMED then b.freezePoint
    else (b.freezePoint.toTime (htAt b.freezePoint.actSf 0)).activateAt b.freezePoint.actSf := by
  refine congrArg b.ifHoop (funext fun c => ite_congr rfl (fun _ => rfl) (fun _ => ?_))
  exact congrArg (Block.epochTold · _) rfl

theorem Block.activate_armed (hd : b.hoopDown = false) (h : b.freezePoint.rd HOOP_EPOCH_ST.ST = epARMED) :
    ∃ act u, b.activate = (b.freezePoint.toTime u).activateAt act :=
  ⟨b.freezePoint.actSf, htAt b.freezePoint.actSf 0, by rw [b.activate_eq, b.ifHoop_up _ hd, if_neg (not_not.2 h)]⟩

theorem Block.activate_other (hd : b.hoopDown = false) (h : b.freezePoint.rd HOOP_EPOCH_ST.ST ≠ epARMED) : b.activate = b.freezePoint := by
  rw [b.activate_eq, b.ifHoop_up _ hd, if_pos h]

/-! ### What each stage leaves -/

/-- A field holds what is written from one as wide. -/
theorem Block.rd_wr_rd (f g : Fld) (c : Block) (h : f.hi < 32) (hw : g.width = f.width) : (b.wr f (c.rd g)).rd f = c.rd g := by
  have lt : c.rd g < 2 ^ f.width := hw ▸ fget_lt _ g
  rw [Block.rd_wr_same _ _ _ _ h, Nat.mod_eq_of_lt lt]

theorem banksSwap_state (w : HoopWarp) : (banksSwap w b).rd HOOP_WARP_ACT_COUNT.COUNT = b.rd HOOP_WARP_COUNT.COUNT
    ∧ (banksSwap w b).rd HOOP_WARP_COUNT.COUNT = b.rd HOOP_WARP_ACT_COUNT.COUNT
    ∧ RegsKept b (banksSwap w b) [HOOP_WARP_COUNT.all.base, HOOP_WARP_ACT_COUNT.all.base] := by
  have regs : (banksSwap w b).regs
      = ((b.wr HOOP_WARP_COUNT.COUNT (b.rd HOOP_WARP_ACT_COUNT.COUNT)).wr HOOP_WARP_ACT_COUNT.COUNT (b.rd HOOP_WARP_COUNT.COUNT)).regs := rfl
  refine ⟨(Block.rd_congr regs HOOP_WARP_ACT_COUNT.COUNT 0).trans ?_, (Block.rd_congr regs HOOP_WARP_COUNT.COUNT 0).trans ?_, ?_⟩
  · exact Block.rd_wr_rd _ HOOP_WARP_ACT_COUNT.COUNT HOOP_WARP_COUNT.COUNT b (by decide) rfl
  · exact (Block.rd_wr_other _ HOOP_WARP_ACT_COUNT.COUNT HOOP_WARP_COUNT.COUNT _ 0 0 (by decide)).trans
      (b.rd_wr_rd HOOP_WARP_COUNT.COUNT HOOP_WARP_ACT_COUNT.COUNT b (by decide) rfl)
  · exact (((RegsKept.refl b _).wr HOOP_WARP_COUNT.COUNT _ 0 (by decide)).wr HOOP_WARP_ACT_COUNT.COUNT _ 0 (by decide)).trans (.of_regs regs)

theorem Block.epochUnits_keeps (act sw : Nat) : Keeps epochRegs b (b.epochUnits act sw) := by
  have engines : Keeps epochRegs b ((List.range 32).foldl (fun (b : Block) n =>
      if bitOf (b.reg WFT_SWAP_EN.all.base).toNat n then b.onEngine n (fun e => { e with bank := 1 - e.bank, swapSf := act }) else b) b) := by
    refine Keeps.foldl _ (.refl _ b) (fun c n _ hc => ?_)
    split
    · exact hc.onEngine _ _
    · exact hc
  have swapped := (Keeps.refl epochRegs b).when (f := fun b => (List.range 32).foldl (fun (b : Block) n =>
    if bitOf (b.reg WFT_SWAP_EN.all.base).toNat n then b.onEngine n (fun e => { e with bank := 1 - e.bank, swapSf := act }) else b) b) engines (bitOf sw 1)
  have sent := swapped.txcActivate (epochRegs_spares (by decide)) (bitOf sw 2) (bitOf sw 3)
  exact sent.when (sent.rxaRegion (epochRegs_spares (by decide))) _

theorem Block.epochTurned_state : b.epochTurned.rd HOOP_EPOCH_ACT.EPOCH = b.rd HOOP_EPOCH_PEND.EPOCH
    ∧ b.epochTurned.rd HOOP_EPOCH_ACT.H = b.rd HOOP_EPOCH_PEND.H ∧ RegsKept b b.epochTurned [HOOP_EPOCH_ACT.all.base] := by
  refine ⟨?_, ?_, ((RegsKept.refl b _).wr HOOP_EPOCH_ACT.H _ 0 (by decide)).wr HOOP_EPOCH_ACT.EPOCH _ 0 (by decide)⟩
  · exact Block.rd_wr_rd _ _ _ b (by decide) rfl
  · exact (Block.rd_wr_disjoint _ _ HOOP_EPOCH_ACT.H _ 0 0 (by decide)).trans (b.rd_wr_rd _ _ b (by decide) rfl)

theorem Block.epochEnded_state : b.epochEnded.rd HOOP_EPOCH_ST.ST = epIDLE ∧ RegsKept b b.epochEnded [HOOP_EPOCH_ST.all.base] :=
  ⟨(b.epochState_shown epIDLE 0 0).1, b.epochState_kept epIDLE 0 0⟩

theorem Block.offsetTaken_state (act : Nat) : (b.offsetTaken act).rd MAS_BCN_CTL.SEQ_OFS = b.rd MAS_BCN_CTL.SEQ_OFS_PEND
    ∧ RegsKept b (b.offsetTaken act) [MAS_BCN_CTL.all.base, MAS_EVT.all.base] ∧ (b.offsetTaken act).hoop = b.hoop := by
  have kept : RegsKept b (b.offsetKept act) [MAS_BCN_CTL.all.base, MAS_EVT.all.base] := .of_regs rfl
  unfold Block.offsetTaken
  cases h : b.rd MAS_BCN_CTL.SEQ_OFS_PEND != (b.offsetKept act).rd MAS_BCN_CTL.SEQ_OFS
  · exact ⟨(bne_eq_false_iff_eq.1 h).symm, kept, rfl⟩
  · refine ⟨?_, (kept.wr MAS_BCN_CTL.SEQ_OFS _ 0 (by decide)).set MAS_EVT.SEQ_OFS_CHG 0 (by decide), rfl⟩
    exact (Block.rd_set_other _ _ MAS_BCN_CTL.SEQ_OFS 0 0 (by decide)).trans ((b.offsetKept act).rd_wr_rd _ _ b (by decide) rfl)

/-! ### The digest expectations (R461) -/

/-- The registers of the active digest expectations. -/
def expectReg (o : Nat) : Prop := 0x700140 ≤ o ∧ o < 0x700180

theorem expectReg_off {n : Nat} (h : n < 8) : expectReg (CNP_EXPA_LO.all.off n) ∧ expectReg (CNP_EXPA_HI.all.off n)
    ∧ ¬ expectReg (CNP_EXPP_LO.all.off n) ∧ ¬ expectReg (CNP_EXPP_HI.all.off n) := by
  unfold expectReg Fld.off
  dsimp only
  omega

theorem Block.expectTake_reg (n o : Nat) : (b.expectTake n).reg o = if o = CNP_EXPA_HI.all.off n then b.reg (CNP_EXPP_HI.all.off n)
    else if o = CNP_EXPA_LO.all.off n then b.reg (CNP_EXPP_LO.all.off n) else b.reg o := by
  unfold Block.expectTake
  rw [Block.reg_setReg, Block.reg_setReg]

theorem Block.expectsTake_succ (k : Nat) : b.expectsTake (k + 1) = (b.expectsTake k).expectTake k := by
  unfold Block.expectsTake
  rw [List.range_succ, List.foldl_append]
  rfl

/-- The expectations of the first `k` positions are taken, and no register else changes. -/
theorem Block.expectsTake_state (k : Nat) (hk : k ≤ 8) : (∀ o, ¬ expectReg o → (b.expectsTake k).reg o = b.reg o)
    ∧ (∀ i, i < k → (b.expectsTake k).reg (CNP_EXPA_LO.all.off i) = b.reg (CNP_EXPP_LO.all.off i)
      ∧ (b.expectsTake k).reg (CNP_EXPA_HI.all.off i) = b.reg (CNP_EXPP_HI.all.off i)) ∧ (b.expectsTake k).hoop = b.hoop := by
  induction k with
  | zero => exact ⟨fun _ _ => rfl, fun i hi => absurd hi (Nat.not_lt_zero i), rfl⟩
  | succ k ih =>
    obtain ⟨others, taken, hoop⟩ := ih (by omega)
    obtain ⟨lo, hi, plo, phi⟩ := expectReg_off (n := k) (by omega)
    rw [b.expectsTake_succ]
    refine ⟨fun o ho => ?_, fun i hik => ?_, hoop⟩
    · have high : o ≠ CNP_EXPA_HI.all.off k := fun e => ho (e.symm ▸ hi)
      have low : o ≠ CNP_EXPA_LO.all.off k := fun e => ho (e.symm ▸ lo)
      rw [Block.expectTake_reg, if_neg high, if_neg low]
      exact others o ho
    · have apart : CNP_EXPA_LO.all.off i ≠ CNP_EXPA_HI.all.off k := by unfold Fld.off; dsimp only; omega
      rw [Block.expectTake_reg, Block.expectTake_reg, if_neg apart]
      by_cases e : i = k
      · subst e
        rw [if_pos rfl, if_pos rfl, others _ plo, others _ phi]
        exact ⟨rfl, rfl⟩
      · have lows : CNP_EXPA_LO.all.off i ≠ CNP_EXPA_LO.all.off k := by unfold Fld.off; dsimp only; omega
        have highs : CNP_EXPA_HI.all.off i ≠ CNP_EXPA_HI.all.off k := by unfold Fld.off; dsimp only; omega
        have cross : CNP_EXPA_HI.all.off i ≠ CNP_EXPA_LO.all.off k := by unfold Fld.off; dsimp only; omega
        rw [if_neg lows, if_neg highs, if_neg cross]
        exact taken i (by omega)

theorem Block.actTold_state : b.actTold.bit HOOP_EVT.EPOCH_ACT = true ∧ b.actTold.hoop = b.hoop ∧ RegsKept b b.actTold [HOOP_EVT.all.base] :=
  ⟨b.bit_set_same HOOP_EVT.EPOCH_ACT 0 (by decide) (by decide), rfl,
    ((RegsKept.refl b _).set HOOP_EVT.EPOCH_ACT 0 (by decide)).trans (.of_regs rfl)⟩

/-- The activation is told in HOOP_EVT, and the key slots alone change beside it. -/
theorem Block.epochTold_state (act : Nat) : (b.epochTold act).bit HOOP_EVT.EPOCH_ACT = true ∧ (b.epochTold act).hoop = b.hoop
    ∧ ∀ o, epochRegs o → o ≠ HOOP_EVT.all.base → (b.epochTold act).reg o = b.reg o := by
  have slots : Keeps epochRegs b (b.slotSwapAt act) := Keeps.slotSwapAt (epochRegs_spares (by decide)) (.refl _ b) act
  obtain ⟨shown, hoop, told⟩ := (b.slotSwapAt act).actTold_state
  exact ⟨shown, hoop.trans slots.hoop, fun o ho hn => (told o (by simpa using hn)).trans (slots.regs o ho)⟩

end Sys2Proof.Machine
end

section
/-! SUPPORT. What an activation leaves (R73), and the obligation on epochs. -/

namespace Sys2Proof.Machine

variable (b : Block)

/-! ### The freeze point by its cases (R70, R71) -/

theorem Block.freezeAt_held (act : Nat) (t u : BitVec 64) (hh : b.bit HOOP_CTL.HOLD_EN = true) (hm : b.mismatchNear act = true) :
    b.freezeAt act t u = (b.toTime t).freezeHold := if_pos (Bool.and_eq_true_iff.2 ⟨hh, hm⟩)

theorem Block.freezeAt_free (act : Nat) (t u : BitVec 64) (h : ¬ (b.bit HOOP_CTL.HOLD_EN = true ∧ b.mismatchNear act = true)) :
    b.freezeAt act t u = (b.toTime t).freezeGo act u := if_neg (fun e => h (Bool.and_eq_true_iff.1 e))

/-- An epoch that freezes keeps its registers, its digest and its bank. -/
theorem Block.freezeAt_kept (act : Nat) (t u : BitVec 64) (h : ¬ (b.bit HOOP_CTL.HOLD_EN = true ∧ b.mismatchNear act = true)) :
    (∀ o, epochRegs o → (b.freezeAt act t u).reg o = b.reg o) ∧ (b.freezeAt act t u).hoop.warp = { b.hoop.warp with frozen := true } := by
  have kept := (b.toTime t).freezeGo_state act u
  rw [b.freezeAt_free act t u h]
  exact ⟨fun o ho => (kept.regs o ho).trans (Block.reg_congr rfl o), congrArg Hoop.warp kept.hoop⟩

/-- An armed epoch that is frozen or cannot be held is armed and frozen after its freeze point. -/
theorem Block.freezePoint_kept (hd : b.hoopDown = false) (ha : b.rd HOOP_EPOCH_ST.ST = epARMED)
    (h : b.hoop.warp.frozen = true ∨ b.bit HOOP_CTL.HOLD_EN = false) : (∀ o, epochRegs o → b.freezePoint.reg o = b.reg o)
    ∧ b.freezePoint.hoop.warp = { b.hoop.warp with frozen := true } := by
  by_cases hf : b.hoop.warp.frozen = true
  · rw [b.freezePoint_idle (.inr hf), ← hf]
    exact ⟨fun _ _ => rfl, rfl⟩
  · obtain ⟨t, u, e⟩ := b.freezePoint_armed hd ha (Bool.not_eq_true _ ▸ hf)
    rw [e]
    refine b.freezeAt_kept _ t u (fun held => ?_)
    rw [h.resolve_left hf] at held
    exact absurd held.1 (by decide)

/-! ### The activation in two parts -/

/-- The pending epoch is the active one. -/
def Block.epochActive (b : Block) (act : Nat) : Block :=
  ((b.when (bitOf (b.rd HOOP_EPOCH_PEND.SWAP) 0) (banksSwap b.hoop.warp)).epochUnits act (b.rd HOOP_EPOCH_PEND.SWAP)).epochTurned.epochEnded

/-- The Mast, the Canopy and the key slots follow it. -/
def Block.epochFollowed (b : Block) (act : Nat) : Block := ((b.offsetTaken act).expectsTake 8).epochTold act

theorem Block.activateAt_eq (act : Nat) : b.activateAt act = (b.epochActive act).epochFollowed act := rfl

/-- The registers that the epoch itself shows in, and those that follow it. -/
def activeRegs : List Nat := [HOOP_WARP_COUNT.all.base, HOOP_WARP_ACT_COUNT.all.base, HOOP_EPOCH_ACT.all.base, HOOP_EPOCH_ST.all.base]
def followRegs : List Nat := [MAS_BCN_CTL.all.base, MAS_EVT.all.base, HOOP_EVT.all.base]

/-- A register of the Canopy is not in a list of those below. -/
theorem notMem_of_canopy {o : Nat} {l : List Nat} (h : 0x700000 ≤ o) (hl : ∀ x ∈ l, x < 0x700000) : o ∉ l :=
  fun hm => absurd (hl o hm) (Nat.not_lt.2 h)

theorem canopy_off {n : Nat} (h : n < 8) : 0x700000 ≤ CNP_EXPP_LO.all.off n ∧ 0x700000 ≤ CNP_EXPP_HI.all.off n
    ∧ CNP_EXPP_LO.all.off n < 0x700140 ∧ CNP_EXPP_HI.all.off n < 0x700140 := by
  unfold Fld.off
  dsimp only
  omega

theorem epochRegs_of_expectReg {o : Nat} (h : expectReg o) : 0x700000 ≤ o ∧ epochRegs o := by
  unfold expectReg at h
  unfold epochRegs
  omega

theorem Block.epochFollowed_state (act : Nat) : (b.epochFollowed act).bit HOOP_EVT.EPOCH_ACT = true ∧ (b.epochFollowed act).hoop = b.hoop
    ∧ (b.epochFollowed act).rd MAS_BCN_CTL.SEQ_OFS = b.rd MAS_BCN_CTL.SEQ_OFS_PEND
    ∧ (∀ i, i < 8 → (b.epochFollowed act).reg (CNP_EXPA_LO.all.off i) = b.reg (CNP_EXPP_LO.all.off i)
      ∧ (b.epochFollowed act).reg (CNP_EXPA_HI.all.off i) = b.reg (CNP_EXPP_HI.all.off i))
    ∧ ∀ o, epochRegs o → ¬ expectReg o → o ∉ followRegs → (b.epochFollowed act).reg o = b.reg o := by
  obtain ⟨offset, kept, hoop⟩ := b.offsetTaken_state act
  obtain ⟨others, taken, same⟩ := (b.offsetTaken act).expectsTake_state 8 (Nat.le_refl 8)
  obtain ⟨shown, hoop', told⟩ := ((b.offsetTaken act).expectsTake 8).epochTold_state act
  refine ⟨shown, hoop'.trans (same.trans hoop), ?_, fun i hi => ?_, fun o ho he hn => ?_⟩
  · have seq : (b.epochFollowed act).reg MAS_BCN_CTL.all.base = (b.offsetTaken act).reg MAS_BCN_CTL.all.base :=
      (told _ (by unfold epochRegs; decide) (by decide)).trans (others _ (by unfold expectReg; decide))
    exact (congrArg (fget · MAS_BCN_CTL.SEQ_OFS) seq).trans offset
  · obtain ⟨lo, hi', -, -⟩ := expectReg_off hi
    obtain ⟨plo, phi, -, -⟩ := canopy_off hi
    obtain ⟨takenLo, takenHi⟩ := taken i hi
    obtain ⟨high, regs⟩ := epochRegs_of_expectReg lo
    obtain ⟨high', regs'⟩ := epochRegs_of_expectReg hi'
    exact ⟨(told _ regs (Nat.ne_of_gt (Nat.lt_of_lt_of_le (by decide) high))).trans (takenLo.trans (kept _ (notMem_of_canopy plo (by decide)))),
      (told _ regs' (Nat.ne_of_gt (Nat.lt_of_lt_of_le (by decide) high'))).trans (takenHi.trans (kept _ (notMem_of_canopy phi (by decide))))⟩
  · simp only [followRegs, List.mem_cons, not_or] at hn
    obtain ⟨ctl, evt, hoopEvt, -⟩ := hn
    exact (told o ho hoopEvt).trans ((others o he).trans (kept o (by simp [ctl, evt])))

/-- The warp banks exchange where the epoch says so, and nothing else of the Hoop. -/
theorem Block.banksTaken_state (c : Bool) : (b.when c (banksSwap b.hoop.warp)).hoop.warp
      = { b.hoop.warp with bank := if c then 1 - b.hoop.warp.bank else b.hoop.warp.bank }
    ∧ (b.when c (banksSwap b.hoop.warp)).rd HOOP_WARP_ACT_COUNT.COUNT
      = (if c then b.rd HOOP_WARP_COUNT.COUNT else b.rd HOOP_WARP_ACT_COUNT.COUNT)
    ∧ (c = true → (b.when c (banksSwap b.hoop.warp)).rd HOOP_WARP_COUNT.COUNT = b.rd HOOP_WARP_ACT_COUNT.COUNT)
    ∧ RegsKept b (b.when c (banksSwap b.hoop.warp)) [HOOP_WARP_COUNT.all.base, HOOP_WARP_ACT_COUNT.all.base] := by
  obtain ⟨act, pend, kept⟩ := banksSwap_state b b.hoop.warp
  cases c
  · exact ⟨rfl, rfl, fun h => absurd h (by decide), .refl b _⟩
  · exact ⟨rfl, act, fun _ => pend, kept⟩

theorem Block.epochActive_state (act : Nat) : (b.epochActive act).rd HOOP_EPOCH_ST.ST = epIDLE
    ∧ (b.epochActive act).rd HOOP_EPOCH_ACT.EPOCH = b.rd HOOP_EPOCH_PEND.EPOCH ∧ (b.epochActive act).rd HOOP_EPOCH_ACT.H = b.rd HOOP_EPOCH_PEND.H
    ∧ (b.epochActive act).hoop.warp.digAct = some b.hoop.warp.digPend ∧ (b.epochActive act).hoop.warp.frozen = false
    ∧ (if bitOf (b.rd HOOP_EPOCH_PEND.SWAP) 0 = true then (b.epochActive act).hoop.warp.bank = 1 - b.hoop.warp.bank
        ∧ (b.epochActive act).rd HOOP_WARP_ACT_COUNT.COUNT = b.rd HOOP_WARP_COUNT.COUNT
        ∧ (b.epochActive act).rd HOOP_WARP_COUNT.COUNT = b.rd HOOP_WARP_ACT_COUNT.COUNT
      else (b.epochActive act).hoop.warp.bank = b.hoop.warp.bank
        ∧ (b.epochActive act).rd HOOP_WARP_ACT_COUNT.COUNT = b.rd HOOP_WARP_ACT_COUNT.COUNT)
    ∧ ∀ o, epochRegs o → o ∉ activeRegs → (b.epochActive act).reg o = b.reg o := by
  obtain ⟨warp, actCount, count, banks⟩ := b.banksTaken_state (bitOf (b.rd HOOP_EPOCH_PEND.SWAP) 0)
  have units := (b.when (bitOf (b.rd HOOP_EPOCH_PEND.SWAP) 0) (banksSwap b.hoop.warp)).epochUnits_keeps act (b.rd HOOP_EPOCH_PEND.SWAP)
  unfold Block.epochActive
  generalize b.when (bitOf (b.rd HOOP_EPOCH_PEND.SWAP) 0) (banksSwap b.hoop.warp) = c at warp actCount count banks units ⊢
  generalize c.epochUnits act (b.rd HOOP_EPOCH_PEND.SWAP) = d at units ⊢
  obtain ⟨epoch, hyper, turned⟩ := d.epochTurned_state
  obtain ⟨st, ended⟩ := d.epochTurned.epochEnded_state
  have below {o : Nat} (ho : o < 0x80000) : epochRegs o := .inl ho
  have counts (f : Fld) (hf : f.off 0 < 0x80000) (hn : f.off 0 ∉ [HOOP_EPOCH_ACT.all.base]) (hm : f.off 0 ∉ [HOOP_EPOCH_ST.all.base]) :
      d.epochTurned.epochEnded.rd f = c.rd f :=
    (ended.rd f 0 hm).trans ((turned.rd f 0 hn).trans (units.rd f 0 (below hf)))
  have pend (f : Fld) (hf : f.off 0 = HOOP_EPOCH_PEND.all.base) : d.rd f = b.rd f :=
    (units.rd f 0 (below (by rw [hf]; decide))).trans (banks.rd f 0 (by rw [hf]; decide))
  have hoop : d.hoop.warp = { b.hoop.warp with bank := if bitOf (b.rd HOOP_EPOCH_PEND.SWAP) 0 then 1 - b.hoop.warp.bank else b.hoop.warp.bank } :=
    (congrArg Hoop.warp units.hoop).trans warp
  have digest : d.epochTurned.epochEnded.hoop.warp = { d.hoop.warp with digAct := some d.hoop.warp.digPend, frozen := false } := rfl
  refine ⟨st, ?_, ?_, ?_, ?_, ?_, fun o ho hn => ?_⟩
  · exact (ended.rd HOOP_EPOCH_ACT.EPOCH 0 (by decide)).trans (epoch.trans (pend HOOP_EPOCH_PEND.EPOCH rfl))
  · exact (ended.rd HOOP_EPOCH_ACT.H 0 (by decide)).trans (hyper.trans (pend HOOP_EPOCH_PEND.H rfl))
  · rw [digest, hoop]
  · rw [digest]
  · rw [digest, hoop, counts HOOP_WARP_ACT_COUNT.COUNT (by decide) (by decide) (by decide),
      counts HOOP_WARP_COUNT.COUNT (by decide) (by decide) (by decide), actCount]
    split
    · next h => exact ⟨rfl, rfl, count h⟩
    · exact ⟨rfl, rfl⟩
  · simp only [activeRegs, List.mem_cons, not_or] at hn
    obtain ⟨count, actCount, act, state, -⟩ := hn
    exact (ended o (by simp [state])).trans ((turned o (by simp [act])).trans ((units.regs o ho).trans (banks o (by simp [count, actCount]))))

/-- What an activation leaves (R73). -/
theorem Block.activateAt_state (act : Nat) : (b.activateAt act).rd HOOP_EPOCH_ST.ST = epIDLE ∧ (b.activateAt act).bit HOOP_EVT.EPOCH_ACT = true
    ∧ (b.activateAt act).rd HOOP_EPOCH_ACT.EPOCH = b.rd HOOP_EPOCH_PEND.EPOCH ∧ (b.activateAt act).rd HOOP_EPOCH_ACT.H = b.rd HOOP_EPOCH_PEND.H
    ∧ (b.activateAt act).hoop.warp.digAct = some b.hoop.warp.digPend ∧ (b.activateAt act).hoop.warp.frozen = false
    ∧ (b.activateAt act).rd MAS_BCN_CTL.SEQ_OFS = b.rd MAS_BCN_CTL.SEQ_OFS_PEND
    ∧ (∀ i, i < 8 → (b.activateAt act).reg (CNP_EXPA_LO.all.off i) = b.reg (CNP_EXPP_LO.all.off i)
      ∧ (b.activateAt act).reg (CNP_EXPA_HI.all.off i) = b.reg (CNP_EXPP_HI.all.off i))
    ∧ (if bitOf (b.rd HOOP_EPOCH_PEND.SWAP) 0 = true then (b.activateAt act).hoop.warp.bank = 1 - b.hoop.warp.bank
        ∧ (b.activateAt act).rd HOOP_WARP_ACT_COUNT.COUNT = b.rd HOOP_WARP_COUNT.COUNT
        ∧ (b.activateAt act).rd HOOP_WARP_COUNT.COUNT = b.rd HOOP_WARP_ACT_COUNT.COUNT
      else (b.activateAt act).hoop.warp.bank = b.hoop.warp.bank
        ∧ (b.activateAt act).rd HOOP_WARP_ACT_COUNT.COUNT = b.rd HOOP_WARP_ACT_COUNT.COUNT) := by
  obtain ⟨st, epoch, hyper, digest, frozen, banks, kept⟩ := b.epochActive_state act
  obtain ⟨shown, hoop, offset, expects, followed⟩ := (b.epochActive act).epochFollowed_state act
  rw [b.activateAt_eq]
  have rd (f : Fld) (hf : f.off 0 < 0x80000) (hn : f.off 0 ∉ followRegs) : ((b.epochActive act).epochFollowed act).rd f = (b.epochActive act).rd f :=
    congrArg (fget · f) (followed _ (.inl hf) (fun e => absurd e.1 (by omega)) hn)
  rw [rd HOOP_EPOCH_ST.ST (by decide) (by decide), rd HOOP_EPOCH_ACT.EPOCH (by decide) (by decide), rd HOOP_EPOCH_ACT.H (by decide) (by decide),
    rd HOOP_WARP_ACT_COUNT.COUNT (by decide) (by decide), rd HOOP_WARP_COUNT.COUNT (by decide) (by decide), hoop]
  refine ⟨st, shown, epoch, hyper, digest, frozen, ?_, fun i hi => ?_, banks⟩
  · exact offset.trans (congrArg (fget · MAS_BCN_CTL.SEQ_OFS_PEND) (kept MAS_BCN_CTL.all.base (by unfold epochRegs; decide) (by decide)))
  · obtain ⟨lo, hi'⟩ := expects i hi
    obtain ⟨plo, phi, plo', phi'⟩ := canopy_off hi
    exact ⟨lo.trans (kept _ (.inr (.inr ⟨plo, by omega⟩)) (notMem_of_canopy plo (by decide))),
      hi'.trans (kept _ (.inr (.inr ⟨phi, by omega⟩)) (notMem_of_canopy phi (by decide)))⟩

/-! ### The commands -/

/-- Without an armed epoch there is neither a freeze point nor an activation. -/
theorem Block.activate_idle (h : b.rd HOOP_EPOCH_ST.ST ≠ epARMED) : b.activate = b := by
  have still := b.freezePoint_idle (.inl h)
  cases hd : b.hoopDown
  · exact (b.activate_other hd (by rw [still]; exact h)).trans still
  · exact b.ifHoop_down _ hd

theorem epochActivation_idle (s : State) (h : s.blk.rd HOOP_EPOCH_ST.ST ≠ epARMED) : NoEffect .epochActivation s :=
  gives_of_runCmd (f := Block.activate) rfl (s.blk.start.activate_idle h)

theorem freezePoint_idle (s : State) (h : s.blk.rd HOOP_EPOCH_ST.ST ≠ epARMED ∨ s.blk.hoop.warp.frozen = true) : NoEffect .freezePoint s :=
  gives_of_runCmd (f := Block.freezePoint) rfl (s.blk.start.freezePoint_idle h)

/-- While no copy of the Hoop drives the outputs no epoch moves on. -/
theorem epochs_hoopDown (s : State) (h : s.blk.hoopDown = true) :
    NoEffect .epochValidationDone s ∧ NoEffect .epochActivation s ∧ NoEffect .freezePoint s :=
  ⟨noEffect_of_hoopDown rfl h, noEffect_of_hoopDown rfl h, noEffect_of_hoopDown rfl h⟩

/-- An epoch is held at its freeze point, or freezes (R71). -/
theorem freezePoint_outcome (s : State) (hd : s.blk.hoopDown = false) (ha : s.blk.rd HOOP_EPOCH_ST.ST = epARMED)
    (hf : s.blk.hoop.warp.frozen = false) :
    let held := s.blk.bit HOOP_CTL.HOLD_EN = true ∧ ∃ x, s.blk.hoop.warp.pendMm = some x ∧ s.blk.actSf ≤ x + 2
    (held → Runs .freezePoint s (fun t => t.rd HOOP_EPOCH_ST.ST = epHELD ∧ t.rd HOOP_EPOCH_ST.REASON = 5 ∧ t.bit HOOP_EVT.EPOCH_HELD = true)
      ∧ Runs .epochActivation s (fun t => t.rd HOOP_EPOCH_ST.ST = epHELD ∧ t.rd HOOP_EPOCH_ACT.EPOCH = s.blk.rd HOOP_EPOCH_ACT.EPOCH))
    ∧ (¬ held → Runs .freezePoint s (fun t => t.rd HOOP_EPOCH_ST.ST = epARMED ∧ t.hoop.warp.frozen = true)) := by
  obtain ⟨t, u, reached⟩ := s.blk.start.freezePoint_armed hd ha hf
  have near := s.blk.start.mismatchNear_iff s.blk.actSf
  constructor
  · rintro ⟨hh, hm⟩
    have held := reached.trans (s.blk.start.freezeAt_held _ t u hh (near.2 hm))
    obtain ⟨st, reason, shown, epoch⟩ := (s.blk.start.toTime t).freezeHold_state
    have held' : s.blk.start.activate = (s.blk.start.toTime t).freezeHold :=
      (s.blk.start.activate_other hd (by rw [held, st]; decide)).trans held
    exact ⟨runs_of_effect (f := Block.freezePoint) rfl held ⟨(Block.canon_rd _ _ _).trans st, (Block.canon_rd _ _ _).trans reason,
      (Block.canon_bit _ _ _).trans shown⟩,
      runs_of_effect (f := Block.activate) rfl held' ⟨(Block.canon_rd _ _ _).trans st, (Block.canon_rd _ _ _).trans epoch⟩⟩
  · intro hn
    have free : ¬ (s.blk.start.bit HOOP_CTL.HOLD_EN = true ∧ s.blk.start.mismatchNear s.blk.actSf = true) := fun h => hn ⟨h.1, near.1 h.2⟩
    obtain ⟨regs, warp⟩ := s.blk.start.freezeAt_kept _ t u free
    have st : (s.blk.start.freezeAt s.blk.actSf t u).rd HOOP_EPOCH_ST.ST = epARMED :=
      (congrArg (fget · HOOP_EPOCH_ST.ST) (regs HOOP_EPOCH_ST.all.base (.inl (by decide)))).trans ha
    exact runs_of_effect (f := Block.freezePoint) rfl reached ⟨(Block.canon_rd _ _ _).trans st, congrArg HoopWarp.frozen warp⟩

/-- An armed epoch that is frozen or cannot be held activates (R73). -/
theorem epochActivation_runs (s : State) (hd : s.blk.hoopDown = false) (ha : s.blk.rd HOOP_EPOCH_ST.ST = epARMED)
    (h : s.blk.hoop.warp.frozen = true ∨ s.blk.bit HOOP_CTL.HOLD_EN = false) :
    Runs .epochActivation s (fun t => t.rd HOOP_EPOCH_ST.ST = epIDLE ∧ t.bit HOOP_EVT.EPOCH_ACT = true
        ∧ t.rd HOOP_EPOCH_ACT.EPOCH = s.blk.rd HOOP_EPOCH_PEND.EPOCH ∧ t.rd HOOP_EPOCH_ACT.H = s.blk.rd HOOP_EPOCH_PEND.H
        ∧ t.hoop.warp.digAct = some s.blk.hoop.warp.digPend ∧ t.hoop.warp.frozen = false
        ∧ t.rd MAS_BCN_CTL.SEQ_OFS = s.blk.rd MAS_BCN_CTL.SEQ_OFS_PEND
        ∧ (∀ i, i < 8 → t.reg (CNP_EXPA_LO.all.off i) = s.blk.reg (CNP_EXPP_LO.all.off i) ∧ t.reg (CNP_EXPA_HI.all.off i) = s.blk.reg (CNP_EXPP_HI.all.off i))
        ∧ (if bitOf (s.blk.rd HOOP_EPOCH_PEND.SWAP) 0 = true then
            t.hoop.warp.bank = 1 - s.blk.hoop.warp.bank ∧ t.rd HOOP_WARP_ACT_COUNT.COUNT = s.blk.rd HOOP_WARP_COUNT.COUNT
            ∧ t.rd HOOP_WARP_COUNT.COUNT = s.blk.rd HOOP_WARP_ACT_COUNT.COUNT
          else t.hoop.warp.bank = s.blk.hoop.warp.bank ∧ t.rd HOOP_WARP_ACT_COUNT.COUNT = s.blk.rd HOOP_WARP_ACT_COUNT.COUNT)) := by
  obtain ⟨regs, warp⟩ := s.blk.start.freezePoint_kept hd ha h
  have rd (f : Fld) (hf : epochRegs (f.off 0)) : s.blk.start.freezePoint.rd f = s.blk.rd f := congrArg (fget · f) (regs _ hf)
  obtain ⟨act, u, active⟩ := s.blk.start.activate_armed hd ((rd HOOP_EPOCH_ST.ST (.inl (by decide))).trans ha)
  have bank : s.blk.start.freezePoint.hoop.warp.bank = s.blk.hoop.warp.bank := by rw [warp]; rfl
  have digest : s.blk.start.freezePoint.hoop.warp.digPend = s.blk.hoop.warp.digPend := by rw [warp]; rfl
  generalize s.blk.start.freezePoint = c at regs rd active bank digest
  obtain ⟨st, shown, epoch, hyper, digAct, frozen, offset, expects, banks⟩ := (c.toTime u).activateAt_state act
  have same (f : Fld) (hf : epochRegs (f.off 0)) : (c.toTime u).rd f = s.blk.rd f := rd f hf
  rw [same HOOP_EPOCH_PEND.SWAP (.inl (by decide)), same HOOP_WARP_COUNT.COUNT (.inl (by decide)), same HOOP_WARP_ACT_COUNT.COUNT (.inl (by decide)),
    show (c.toTime u).hoop.warp.bank = s.blk.hoop.warp.bank from bank] at banks
  generalize (c.toTime u).activateAt act = d at active st shown epoch hyper digAct frozen offset expects banks
  refine runs_of_effect (f := Block.activate) rfl active ⟨?_, ?_, ?_, ?_, ?_, frozen, ?_, fun i hi => ?_, ?_⟩
  · exact (Block.canon_rd _ _ _).trans st
  · exact (Block.canon_bit _ _ _).trans shown
  · exact (Block.canon_rd _ _ _).trans (epoch.trans (same HOOP_EPOCH_PEND.EPOCH (.inl (by decide))))
  · exact (Block.canon_rd _ _ _).trans (hyper.trans (same HOOP_EPOCH_PEND.H (.inl (by decide))))
  · exact digAct.trans (congrArg some digest)
  · exact (Block.canon_rd _ _ _).trans (offset.trans (same MAS_BCN_CTL.SEQ_OFS_PEND (.inr (.inl (by decide)))))
  · obtain ⟨lo, hi'⟩ := expects i hi
    obtain ⟨plo, phi, plo', phi'⟩ := canopy_off hi
    exact ⟨(Block.canon_reg _ _).trans (lo.trans (regs _ (.inr (.inr ⟨plo, by omega⟩)))),
      (Block.canon_reg _ _).trans (hi'.trans (regs _ (.inr (.inr ⟨phi, by omega⟩))))⟩
  · rw [Block.canon_rd, Block.canon_rd]
    exact banks

/-- Settles O25: the commands by their cases, a test by its first reason, the freeze point held or not, and an activation by its stages. -/
theorem hoopEpochs : Obligations.HoopEpochs := by
  unfold Obligations.HoopEpochs
  exact ⟨fun s => ⟨epochCommit_gives s, epochCancel_gives s,
      epochValidationDone_idle s, epochActivation_idle s, freezePoint_idle s, epochs_hoopDown s⟩,
    fun s hd hv => epochValidationDone_state s hd hv, freezePoint_outcome, epochActivation_runs⟩

end Sys2Proof.Machine
end

section
/-! SUPPORT. The announcements a beacon carries (R210): their length, and what the table's count leaves of the block. -/

namespace Sys2Proof.Machine

variable (b : Block)

/-- The eight bytes of entry `n` of the announcement table (R210). -/
def Block.annEntry (n : Nat) : List Byte :=
  leBytes 1 (b.rd MAS_ANN_CTL.KIND n) ++ leBytes 4 (b.reg (MAS_ANN_D0.all.off n)).toNat ++ leBytes 3 (b.reg (MAS_ANN_D1.all.off n)).toNat

theorem Block.annEntry_length (n : Nat) : (b.annEntry n).length = 8 := by simp [Block.annEntry, leBytes_length]

/-- Entry `n` has been carried once more (R210). -/
def Block.annCarried (n : Nat) : Block :=
  if b.rd MAS_ANN_CTL.REPEAT n = 0 then b
  else if b.rd MAS_ANN_CTL.REPEAT n = 1 then ((b.wr MAS_ANN_CTL.REPEAT 0 n).clr MAS_ANN_CTL.EN n).set MAS_EVT.ANN_DONE
  else b.wr MAS_ANN_CTL.REPEAT (b.rd MAS_ANN_CTL.REPEAT n - 1) n

/-- What has been collected, and the table with it, after entry `n`. -/
def annStep (x : List Byte × Block) (n : Nat) : List Byte × Block :=
  if !x.2.bit MAS_ANN_CTL.EN n then x else (x.1 ++ x.2.annEntry n, x.2.annCarried n)

theorem Block.announce_eq : b.announce = (List.range 8).foldl annStep ([], b) := rfl

/-! ### The length -/

/-- Each entry adds eight bytes or none. -/
theorem annStep_length (x : List Byte × Block) (n : Nat) : ∃ k ≤ 1, (annStep x n).1.length = x.1.length + 8 * k := by
  unfold annStep
  split
  · exact ⟨0, Nat.zero_le 1, rfl⟩
  · exact ⟨1, Nat.le_refl 1, by rw [List.length_append, Block.annEntry_length]⟩

theorem foldl_annStep_length : ∀ (l : List Nat) (x : List Byte × Block), ∃ k ≤ l.length, (l.foldl annStep x).1.length = x.1.length + 8 * k
  | [], _ => ⟨0, Nat.le_refl 0, rfl⟩
  | n :: l, x => by
    obtain ⟨i, hi, first⟩ := annStep_length x n
    obtain ⟨k, hk, rest⟩ := foldl_annStep_length l (annStep x n)
    exact ⟨i + k, by rw [List.length_cons]; omega, by rw [List.foldl_cons, rest, first]; omega⟩

theorem Block.announce_length : 8 ∣ b.announce.1.length ∧ b.announce.1.length ≤ 64 := by
  obtain ⟨k, hk, length⟩ := foldl_annStep_length (List.range 8) ([], b)
  rw [List.length_range] at hk
  rw [List.length_nil] at length
  rw [Block.announce_eq]
  omega

/-! ### What is kept -/

/-- The registers that announcements leave: all but the table's and MAS_EVT. -/
def annSpared (o : Nat) : Prop := o ≠ MAS_EVT.all.base ∧ (o < 0x140200 ∨ 0x140280 ≤ o)

theorem annSpared_table : Spares annSpared 0x140200 0x140280 := fun _ h => h.2

theorem annSpared_event : ¬ annSpared (MAS_EVT.ANN_DONE.off 0) := fun h => h.1 rfl

variable {b}

theorem Keeps.annCarried {a : Block} (h : Keeps annSpared a b) {n : Nat} (hn : n ≤ 7) : Keeps annSpared a (b.annCarried n) := by
  have table (f : Fld) (hb : f.base = 0x140200) (hs : f.stride = 16) : ¬ annSpared (f.off n) := annSpared_table.fld 7 hn (by omega) (by omega)
  unfold Block.annCarried
  split
  · exact h
  · split
    · exact ((h.wr MAS_ANN_CTL.REPEAT _ n (table _ rfl rfl)).clr MAS_ANN_CTL.EN n (table _ rfl rfl)).set MAS_EVT.ANN_DONE 0 annSpared_event
    · exact h.wr MAS_ANN_CTL.REPEAT _ n (table _ rfl rfl)

theorem Block.annCarried_hwd (n : Nat) : (b.annCarried n).hwd = b.hwd := by
  unfold Block.annCarried
  split
  · rfl
  · split <;> rfl

variable (b)

theorem Block.announce_keeps : Keeps annSpared b b.announce.2 ∧ b.announce.2.hwd = b.hwd := by
  rw [Block.announce_eq]
  refine List.foldlRecOn (motive := fun x : List Byte × Block => Keeps annSpared b x.2 ∧ x.2.hwd = b.hwd) (List.range 8) annStep
    ⟨Keeps.refl _ b, rfl⟩ (fun x kept n hn => ?_)
  obtain ⟨keeps, hwd⟩ := kept
  unfold annStep
  split
  · exact ⟨keeps, hwd⟩
  · exact ⟨keeps.annCarried (Nat.le_of_lt_succ (List.mem_range.1 hn)), (Block.annCarried_hwd n).trans hwd⟩

/-- The channels that carry a beacon are no matter of the announcements. -/
theorem Block.announce_beaconAll : b.announce.2.beaconAll = b.beaconAll := by
  obtain ⟨keeps, -⟩ := b.announce_keeps
  have bands (f : Fld) (n : Nat) (hn : n < 8) (hb : f.base = 0x140100 ∨ f.base = 0x140104) (hs : f.stride = 8) : b.announce.2.rd f n = b.rd f n := by
    refine keeps.rd f n ?_
    unfold annSpared Fld.off
    rw [hs, show MAS_EVT.all.base = 0x14000c from rfl]
    omega
  refine List.flatMap_congr (fun n hn => congrArg (List.map _) ?_)
  have hn := List.mem_range.1 hn
  unfold Block.beaconChannels Block.bit
  rw [bands MAS_BCN_BAND.SF_CODE n hn (.inl rfl) rfl, bands MAS_BCN_CH.EN0 n hn (.inr rfl) rfl, bands MAS_BCN_CH.EN1 n hn (.inr rfl) rfl,
    bands MAS_BCN_CH.CH0 n hn (.inr rfl) rfl, bands MAS_BCN_CH.CH1 n hn (.inr rfl) rfl]

end Sys2Proof.Machine
end

section
/-! SUPPORT. The preparation of a beacon by its cases (R207, R208). -/

namespace Sys2Proof.Machine

variable (b : Block)

/-- The half that seals the beacon of superframe `s` (R348). -/
def Block.bcnHalf (s : Nat) : Half := (b.slot (b.rd MAS_BCN_CTL.BKSLOT)).halfFor s b.clk.beat

/-- `n` beacons are lost with the result `res` and the event `f`. -/
def Block.bcnLost (n res : Nat) (f : Fld) : Block := ((b.wr MAS_BCN_ST.RESULT res).incBy MAS_CNT_BCN_LOST.all n).set f

/-- The body `body` of the beacon of superframe `s` with its tag, from the header `hdr` (R123, R208). -/
def Block.bcnSealed (k : Half) (body : List Byte) (hdr s : Nat) : List Byte :=
  body ++ ccmTag k.key (leBytes 4 (b.rd CNP_STAT.POS * 2 ^ 25) ++ leBytes 4 s ++ [3] ++ leBytes 4 (b.reg MAS_DOMAIN_ID.all.base).toNat)
    (leBytes 2 hdr ++ body) []

/-- `m` with its checksum is armed on every channel that carries a beacon, in ascending band. -/
def Block.bcnArmAll (m : List Byte) (s : Nat) (l : List (Nat × Nat)) : Block := l.foldl (fun c x => c.beaconArm (m ++ leBytes 4 (crc32 m)) s x) b

theorem Block.beaconPrepare_off (h : b.bit MAS_CTL.BCN_EN = false) (s : Nat) : b.beaconPrepare s = b := by
  unfold Block.beaconPrepare
  rw [h]
  rfl

/-- An enabled beacon: what is read after the announcements is read of the block they leave. -/
theorem Block.beaconPrepare_on (h : b.bit MAS_CTL.BCN_EN = true) (s : Nat) : b.beaconPrepare s =
    if (b.rd HOOP_STATE.TQ == 5 || b.rd HOOP_STATE.TQ == 7) && !b.announce.2.bit HOOP_CTL.BCN_OVR then
      b.announce.2.bcnLost b.beaconAll.length 1 MAS_EVT.BCN_WITHHELD
    else if !b.announce.2.hwdNormal || (b.announce.2.bcnHalf s).typ != 1 || !(b.announce.2.bcnHalf s).allows mkFC then
      b.announce.2.bcnLost b.beaconAll.length 3 MAS_EVT.BCN_KEY_FAIL
    else b.announce.2.bcnArmAll (b.announce.2.bcnSealed (b.announce.2.bcnHalf s)
      (b.announce.2.beaconHead s (b.announce.1.length / 8) ++ b.announce.1) (tyBEACON + (42 + 8 * (b.announce.1.length / 8)) * 4) s) s
      b.announce.2.beaconAll := by
  unfold Block.beaconPrepare
  rw [h]
  rfl

/-! ### What is read after the announcements -/

theorem Block.announce_rd (f : Fld) (ho : annSpared (f.off 0)) : b.announce.2.rd f = b.rd f := b.announce_keeps.1.rd f 0 ho

theorem Block.announce_override : b.announce.2.bit HOOP_CTL.BCN_OVR = b.bit HOOP_CTL.BCN_OVR :=
  b.announce_keeps.1.bit HOOP_CTL.BCN_OVR 0 ⟨by decide, by decide⟩

theorem Block.announce_hwdNormal : b.announce.2.hwdNormal = b.hwdNormal :=
  congrArg (· == hsNORMAL) (b.announce_rd HWD_STATE.ST ⟨by decide, by decide⟩)

theorem Block.announce_bcnHalf (s : Nat) : b.announce.2.bcnHalf s = b.bcnHalf s := by
  obtain ⟨keeps, hwd⟩ := b.announce_keeps
  unfold Block.bcnHalf Block.slot
  rw [hwd, keeps.clk, b.announce_rd MAS_BCN_CTL.BKSLOT ⟨by decide, by decide⟩]

theorem Block.announce_bcnSealed (k : Half) (body : List Byte) (hdr s : Nat) : b.announce.2.bcnSealed k body hdr s = b.bcnSealed k body hdr s := by
  have domain : b.announce.2.reg MAS_DOMAIN_ID.all.base = b.reg MAS_DOMAIN_ID.all.base := b.announce_keeps.1.regs _ ⟨by decide, by decide⟩
  unfold Block.bcnSealed
  rw [domain, b.announce_rd CNP_STAT.POS ⟨by decide, by decide⟩]

/-! ### The cases -/

variable {b}

theorem Block.beaconPrepare_withheld (h : b.bit MAS_CTL.BCN_EN = true) (ht : b.rd HOOP_STATE.TQ = 5 ∨ b.rd HOOP_STATE.TQ = 7)
    (ho : b.bit HOOP_CTL.BCN_OVR = false) (s : Nat) :
    b.beaconPrepare s = b.announce.2.bcnLost b.beaconAll.length 1 MAS_EVT.BCN_WITHHELD := by
  have withheld : ((b.rd HOOP_STATE.TQ == 5 || b.rd HOOP_STATE.TQ == 7) && !b.bit HOOP_CTL.BCN_OVR) = true := by simpa [ho] using ht
  rw [b.beaconPrepare_on h, b.announce_override, if_pos withheld]

/-- A beacon that is not withheld needs a half of a FC key slot that allows its use. -/
theorem Block.beaconPrepare_sent (h : b.bit MAS_CTL.BCN_EN = true)
    (ht : (b.rd HOOP_STATE.TQ ≠ 5 ∧ b.rd HOOP_STATE.TQ ≠ 7) ∨ b.bit HOOP_CTL.BCN_OVR = true) (s : Nat) : b.beaconPrepare s =
    if !b.hwdNormal || (b.bcnHalf s).typ != 1 || !(b.bcnHalf s).allows mkFC then b.announce.2.bcnLost b.beaconAll.length 3 MAS_EVT.BCN_KEY_FAIL
    else b.announce.2.bcnArmAll (b.bcnSealed (b.bcnHalf s) (b.announce.2.beaconHead s (b.announce.1.length / 8) ++ b.announce.1)
      (tyBEACON + (42 + b.announce.1.length) * 4) s) s b.beaconAll := by
  have sends : ¬ ((b.rd HOOP_STATE.TQ == 5 || b.rd HOOP_STATE.TQ == 7) && !b.bit HOOP_CTL.BCN_OVR) = true := by
    rcases ht with ⟨h5, h7⟩ | ho
    · simp [h5, h7]
    · simp [ho]
  rw [b.beaconPrepare_on h, b.announce_override, if_neg sends, b.announce_hwdNormal, b.announce_bcnHalf, b.announce_bcnSealed, b.announce_beaconAll,
    Nat.mul_div_cancel' b.announce_length.1]

end Sys2Proof.Machine
end

section
/-! SUPPORT. A transmission is armed or refused (R178), so is a beacon's (R209), and the obligation on the seen cache and the beacons. -/

namespace Sys2Proof.Machine

variable (b : Block)

/-! ### Arming -/

theorem Block.txArm_refused (a : TxAsk) (acc : BitVec 64) (h : b.txStatus a acc ≠ 0) :
    b.txArm a acc = (b.txStatus a acc, 0, b.txRefuse (b.txStatus a acc)) := by
  unfold Block.txArm
  split
  · next h0 => exact absurd h0 h
  · rfl

/-- A transmission put in the list is found there, whether or not its clamp is reported. -/
theorem Block.find_listed (h : Nat) (t : Tx) (clamp : Bool) :
    Tbl.find ((b.setTx h t).when clamp (fun b => b.set TXC_EVT.PWR_CLAMP)).txCount.txc.txs h = some t :=
  (congrArg (fun c => Tbl.find c.txs h) (Block.when_keeps (·.txc) rfl clamp)).trans (Tbl.find_insert_same b.txc.txs h t)

/-- An accepted transmission stands in the list as it was asked for. -/
theorem Block.txArm_accepted (a : TxAsk) (acc : BitVec 64) (h : b.txStatus a acc = 0) : (b.txArm a acc).1 = 0
    ∧ ∃ t, Tbl.find (b.txArm a acc).2.2.txc.txs (b.txArm a acc).2.1 = some t ∧ t.owner = a.owner ∧ t.t1 = a.t1 ∧ t.ch = a.ch ∧ t.frame = a.frame := by
  unfold Block.txArm
  split
  · exact ⟨rfl, _, Block.find_listed _ _ _ _, rfl, rfl, rfl, rfl⟩
  · next st hst => exact absurd h hst

/-! ### A beacon's channel -/

/-- What the beacon builder asks for on a channel of a band (R209). -/
def Block.beaconAsk (f : List Byte) (s : Nat) (x : Nat × Nat) : TxAsk :=
  ⟨.beacon, b.rd MAS_BCN_BAND.TX_PORTS x.1, x.1, x.2, b.rd MAS_BCN_BAND.SF_CODE x.1, 0, 0, .bytes tyBEACON f, htAt s 0, b.rd MAS_BCN_BAND.ATTEN x.1⟩

/-- A channel's beacon is lost, refused with the status `st` (R209). -/
def Block.beaconRefused (st : Nat) : Block :=
  (((b.wr MAS_BCN_ST.TXSTAT st).wr MAS_BCN_ST.RESULT 2).inc MAS_CNT_BCN_LOST.all).set MAS_EVT.BCN_REFUSED

theorem Block.beaconRefused_shown (st : Nat) : (b.beaconRefused st).rd MAS_BCN_ST.TXSTAT = st % 256 ∧ (b.beaconRefused st).rd MAS_BCN_ST.RESULT = 2
    ∧ (b.beaconRefused st).bit MAS_EVT.BCN_REFUSED = true := by
  have status (f : Fld) (ho : f.off 0 = MAS_BCN_ST.all.base) :
      (b.beaconRefused st).rd f = ((b.wr MAS_BCN_ST.TXSTAT st).wr MAS_BCN_ST.RESULT 2).rd f :=
    (Block.rd_set_other _ MAS_EVT.BCN_REFUSED f 0 0 (by rw [ho]; decide)).trans
      (Block.rd_wr_other (Block.tieNote _ _ _) MAS_CNT_BCN_LOST.all f _ 0 0 (by rw [ho]; decide))
  refine ⟨?_, ?_, Block.bit_set_same _ _ _ (by decide) (by decide)⟩
  · rw [status _ rfl, Block.rd_wr_disjoint _ _ _ _ _ _ (by decide), Block.rd_wr_same _ _ _ _ (by decide)]
    rfl
  · rw [status _ rfl, Block.rd_wr_same _ _ _ _ (by decide)]
    rfl

/-- What TXARM answers decides a channel's beacon. -/
theorem Block.beaconArm_eq (f : List Byte) (s : Nat) (x : Nat × Nat) :
    let r := b.txArm (b.beaconAsk f s x) b.clk.htime
    b.beaconArm f s x = if r.1 = 0 then r.2.2 else r.2.2.beaconRefused r.1 := by
  rcases hr : b.txArm (b.beaconAsk f s x) b.clk.htime with ⟨st, h, c⟩
  unfold Block.beaconAsk at hr
  unfold Block.beaconArm
  dsimp only
  rw [hr]
  cases st <;> rfl

theorem Block.beaconArm_refused (f : List Byte) (s : Nat) (x : Nat × Nat) (h : b.txStatus (b.beaconAsk f s x) b.clk.htime ≠ 0) :
    b.beaconArm f s x = (b.txRefuse (b.txStatus (b.beaconAsk f s x) b.clk.htime)).beaconRefused (b.txStatus (b.beaconAsk f s x) b.clk.htime) := by
  rw [b.beaconArm_eq f s x, b.txArm_refused _ _ h]
  exact if_neg h

theorem Block.beaconArm_armed (f : List Byte) (s : Nat) (x : Nat × Nat) (h : b.txStatus (b.beaconAsk f s x) b.clk.htime = 0) :
    b.beaconArm f s x = (b.txArm (b.beaconAsk f s x) b.clk.htime).2.2 :=
  (b.beaconArm_eq f s x).trans (if_pos (b.txArm_accepted _ _ h).1)

/-! ### What is read at the start of cell 255 -/

/-- The block at the start of cell 255, when the beacon of the next superframe is prepared (R208). -/
def Block.bcnTime : Block := b.start.toTime (htAt b.sf 0xFF000000)

variable {b}

theorem Block.bcnTime_regs : b.bcnTime.regs = b.regs := b.start.toTime_regs _
theorem Block.bcnTime_reg (o : Nat) : b.bcnTime.reg o = b.reg o := Block.reg_congr Block.bcnTime_regs o
theorem Block.bcnTime_rd (f : Fld) (n : Nat) : b.bcnTime.rd f n = b.rd f n := Block.rd_congr Block.bcnTime_regs f n
theorem Block.bcnTime_bit (f : Fld) (n : Nat) : b.bcnTime.bit f n = b.bit f n := Block.bit_of_rd (Block.bcnTime_rd f n)
theorem Block.bcnTime_hwdNormal : b.bcnTime.hwdNormal = b.hwdNormal := congrArg (· == hsNORMAL) (Block.bcnTime_rd HWD_STATE.ST 0)

theorem Block.bcnTime_beaconAll : b.bcnTime.beaconAll = b.beaconAll := by
  unfold Block.beaconAll Block.beaconChannels
  simp only [Block.bcnTime_rd, Block.bcnTime_bit]

theorem Block.bcnTime_bcnSealed (k : Half) (body : List Byte) (hdr s : Nat) : b.bcnTime.bcnSealed k body hdr s = b.bcnSealed k body hdr s := by
  unfold Block.bcnSealed
  rw [Block.bcnTime_rd, Block.bcnTime_reg]

/-! ### The command -/

/-- The command prepares the beacon of the next superframe at the start of cell 255. -/
theorem beaconPrepare_gives {s : State} {c : Block} (h : s.blk.bcnTime.beaconPrepare (s.blk.bcnTime.sf + 1) = c) : Gives .beaconPrepare s c :=
  gives_of_runCmd (f := fun b => (b.toTime (htAt b.sf 0xFF000000)).beaconPrepare ((b.toTime (htAt b.sf 0xFF000000)).sf + 1)) rfl h

theorem beaconPrepare_off_gives {s : State} (off : s.blk.bit MAS_CTL.BCN_EN = false) : Gives .beaconPrepare s s.blk.bcnTime :=
  beaconPrepare_gives (Block.beaconPrepare_off _ ((Block.bcnTime_bit _ 0).trans off) _)

section
variable {s : State} (on : s.blk.bit MAS_CTL.BCN_EN = true)
include on

theorem beaconPrepare_withheld_gives (tq : s.blk.rd HOOP_STATE.TQ = 5 ∨ s.blk.rd HOOP_STATE.TQ = 7) (ovr : s.blk.bit HOOP_CTL.BCN_OVR = false) :
    Gives .beaconPrepare s (s.blk.bcnTime.announce.2.bcnLost s.blk.beaconAll.length 1 MAS_EVT.BCN_WITHHELD) := by
  rw [← Block.bcnTime_rd] at tq
  rw [← Block.bcnTime_bit] at on ovr
  rw [← Block.bcnTime_beaconAll]
  exact beaconPrepare_gives (Block.beaconPrepare_withheld on tq ovr _)

variable (sends : (s.blk.rd HOOP_STATE.TQ ≠ 5 ∧ s.blk.rd HOOP_STATE.TQ ≠ 7) ∨ s.blk.bit HOOP_CTL.BCN_OVR = true)
include sends

theorem beaconPrepare_keyFail_gives (fails : s.blk.hwdNormal = false ∨ (s.blk.bcnTime.bcnHalf (s.blk.bcnTime.sf + 1)).typ ≠ 1
      ∨ (s.blk.bcnTime.bcnHalf (s.blk.bcnTime.sf + 1)).allows mkFC = false) :
    Gives .beaconPrepare s (s.blk.bcnTime.announce.2.bcnLost s.blk.beaconAll.length 3 MAS_EVT.BCN_KEY_FAIL) := by
  rw [← Block.bcnTime_rd, ← Block.bcnTime_bit] at sends
  rw [← Block.bcnTime_bit] at on
  rw [← Block.bcnTime_hwdNormal] at fails
  rw [← Block.bcnTime_beaconAll]
  exact beaconPrepare_gives ((Block.beaconPrepare_sent on sends _).trans (if_pos (by simpa [or_assoc] using fails)))

theorem beaconPrepare_armed_gives (normal : s.blk.hwdNormal = true) (fc : (s.blk.bcnTime.bcnHalf (s.blk.bcnTime.sf + 1)).typ = 1)
    (allows : (s.blk.bcnTime.bcnHalf (s.blk.bcnTime.sf + 1)).allows mkFC = true) :
    Gives .beaconPrepare s (s.blk.bcnTime.announce.2.bcnArmAll (s.blk.bcnSealed (s.blk.bcnTime.bcnHalf (s.blk.bcnTime.sf + 1))
      (s.blk.bcnTime.announce.2.beaconHead (s.blk.bcnTime.sf + 1) (s.blk.bcnTime.announce.1.length / 8) ++ s.blk.bcnTime.announce.1)
      (tyBEACON + (42 + s.blk.bcnTime.announce.1.length) * 4) (s.blk.bcnTime.sf + 1)) (s.blk.bcnTime.sf + 1) s.blk.beaconAll) := by
  rw [← Block.bcnTime_rd, ← Block.bcnTime_bit] at sends
  rw [← Block.bcnTime_bit] at on
  rw [← Block.bcnTime_hwdNormal] at normal
  rw [← Block.bcnTime_beaconAll, ← Block.bcnTime_bcnSealed]
  exact beaconPrepare_gives ((Block.beaconPrepare_sent on sends _).trans (if_neg (by simp [normal, fc, allows])))

end

/-- Settles O21: the announcements leave all that the decision reads, so the cases of the preparation are those of the block before them. -/
theorem seenCacheAndBeacons : Obligations.SeenCacheAndBeacons := by
  unfold Obligations.SeenCacheAndBeacons
  refine ⟨fun s => ⟨rfl, rfl, beaconPrepare_off_gives⟩,
    fun s on => ⟨beaconPrepare_withheld_gives on, fun sends => ⟨beaconPrepare_keyFail_gives on sends,
      fun normal fc allows _ => beaconPrepare_armed_gives on sends normal fc allows⟩⟩,
    Block.announce_length, fun b f s x => ⟨fun refused => ?_, fun accepted => ?_⟩⟩
  · rw [b.beaconArm_refused f s x refused]
    exact Block.beaconRefused_shown _ _
  · obtain ⟨-, t, found, asked⟩ := b.txArm_accepted (b.beaconAsk f s x) b.clk.htime accepted
    rw [b.beaconArm_armed f s x accepted]
    exact ⟨_, t, found, asked⟩

end Sys2Proof.Machine
end

section
/-! SUPPORT. What the shared operations leave of the receive array and the transmit chain, and what a flag reads after another is written. -/

namespace Sys2Proof.Machine

variable (b : Block)

@[simp] theorem Block.set_txc (f : Fld) (n : Nat) : (b.set f n).txc = b.txc := rfl
@[simp] theorem Block.clr_rxa (f : Fld) (n : Nat) : (b.clr f n).rxa = b.rxa := rfl
@[simp] theorem Block.clr_txc (f : Fld) (n : Nat) : (b.clr f n).txc = b.txc := rfl

/-! ### A flag after a write -/

theorem Block.bit_set_other (f g : Fld) (n m : Nat) (h : g.off m ≠ f.off n) : (b.set f n).bit g m = b.bit g m :=
  Block.bit_of_rd (b.rd_set_other f g n m h)

theorem Block.bit_incBy_other (f g : Fld) (k n m : Nat) (h : g.off m ≠ f.off n) : (b.incBy f k n).bit g m = b.bit g m :=
  Block.bit_wr_other (b.tieNote _ _) f g _ n m (.inl h)

/-- A counter reads what it has counted, up to its greatest value (R12). -/
theorem Block.rd_incBy_same (f : Fld) (k n : Nat) (h : f.hi < 32) : (b.incBy f k n).rd f n = min (b.rd f n + k) (2 ^ f.width - 1) := by
  refine (Block.rd_wr_same (b.tieNote _ _) f _ n h).trans (Nat.mod_eq_of_lt ?_)
  exact Nat.lt_of_le_of_lt (Nat.min_le_right _ _) (Nat.sub_lt (Nat.two_pow_pos _) (by decide))

/-- A field with a bit set is not zero, and one that is not zero has a bit set. -/
theorem Block.bit_iff (f : Fld) (n : Nat) : b.bit f n = true ↔ ∃ i, i < f.width ∧ (b.reg (f.off n)).getLsbD (f.lo + i) = true := by
  have shown (i : Nat) : (b.rd f n).testBit i = true ↔ i < f.width ∧ (b.reg (f.off n)).getLsbD (f.lo + i) = true := by
    rw [Block.rd, fget_testBit, Bool.and_eq_true, decide_eq_true_eq]
  rw [Block.bit, bne_iff_ne]
  refine ⟨fun h => ?_, fun ⟨i, hi⟩ h => ?_⟩
  · obtain ⟨i, hi⟩ := Nat.exists_testBit_of_ne_zero h
    exact ⟨i, (shown i).1 hi⟩
  · have := (shown i).2 hi
    rw [h, Nat.zero_testBit] at this
    exact absurd this (by decide)

/-- A flag that sets clears no other. -/
theorem Block.bit_set_mono (f g : Fld) (n m : Nat) (hw : f.hi = f.lo) (h : b.bit g m = true) : (b.set f n).bit g m = true := by
  by_cases ho : g.off m = f.off n
  · obtain ⟨i, hi, shown⟩ := (b.bit_iff g m).1 h
    refine (Block.bit_iff _ g m).2 ⟨i, hi, ?_⟩
    have stored : (b.set f n).reg (g.off m) = fput (b.reg (g.off m)) f 1 := by
      rw [ho]
      exact Block.reg_setReg_same _ _ _
    rw [stored, fput_getLsbD, decide_eq_true (BitVec.lt_of_getLsbD shown), Bool.true_and]
    split
    · next hr =>
      have : g.lo + i = f.lo := by
        unfold Fld.width at hr
        omega
      rw [this, Nat.sub_self]
      rfl
    · exact shown
  · rw [b.bit_set_other f g n m ho, h]

end Sys2Proof.Machine
end

section
/-! SUPPORT. The links of the receive array (R134, R135, R137, R171): SYSREF, the configuration of a link, its coming up and its going down. -/

namespace Sys2Proof.Machine

variable (b : Block)

/-! ### The link-status register -/

/-- The registers of a link's state: its own status, the links that are up, and the events. -/
def linkRegs (n : Nat) : List Nat := [RXA_LINK_ST.all.off n, RXA_STAT.all.base, RXA_EVT.all.base]

theorem Block.linkUpBit_kept (n : Nat) (up : Bool) : RegsKept b (b.linkUpBit n up) (linkRegs n) :=
  ((RegsKept.refl b _).wr RXA_LINK_ST.UP _ n List.mem_cons_self).wr RXA_STAT.LINKS_UP _ 0 (List.mem_cons_of_mem _ List.mem_cons_self)


/-- UP takes the value, and every other flag of the link's status stays. -/
theorem Block.linkUpBit_bit (n : Nat) (up : Bool) (f : Fld) (m : Nat) (hf : RXA_STAT.all.base < f.base) :
    (b.linkUpBit n up).bit f m = (b.flag RXA_LINK_ST.UP up n).bit f m :=
  Block.bit_wr_other _ RXA_STAT.LINKS_UP f _ 0 m (.inl (f.off_ne_of_lt m _ hf))

theorem Block.linkUpBit_up (n : Nat) (up : Bool) : (b.linkUpBit n up).bit RXA_LINK_ST.UP n = up :=
  (b.linkUpBit_bit n up _ n (by decide)).trans (b.bit_flag_same _ up n (by decide) (by decide))

theorem Block.linkUpBit_apart (n : Nat) (up : Bool) (f : Fld) (m : Nat) (hf : RXA_STAT.all.base < f.base) (hl : 0 < f.lo) :
    (b.linkUpBit n up).bit f m = b.bit f m :=
  (b.linkUpBit_bit n up f m hf).trans (b.bit_wr_disjoint RXA_LINK_ST.UP f _ n m (.inl hl))

/-! ### A link goes down (R137) -/

theorem Block.rxLinkDown_of_down {n : Nat} (h : b.bit RXA_LINK_ST.UP n = false) : b.rxLinkDown n = b := by
  unfold Block.rxLinkDown
  rw [h]
  rfl

theorem Block.rxLinkDown_of_up {n : Nat} (h : b.bit RXA_LINK_ST.UP n = true) :
    b.rxLinkDown n = ((b.gapStart n 0 b.nowQ).linkUpBit n false).set RXA_EVT.LINK_DOWN := by
  unfold Block.rxLinkDown
  rw [h]
  rfl

theorem Block.rxLinkDown_kept (n : Nat) : RegsKept b (b.rxLinkDown n) (linkRegs n) := by
  cases h : b.bit RXA_LINK_ST.UP n
  · rw [b.rxLinkDown_of_down h]
    exact .refl _ _
  · rw [b.rxLinkDown_of_up h]
    exact RegsKept.set ((b.gapStart n 0 b.nowQ).linkUpBit_kept n false) _ 0 (by simp [linkRegs, Fld.off])

theorem Block.rxLinkDown_up (n : Nat) : (b.rxLinkDown n).bit RXA_LINK_ST.UP n = false := by
  cases h : b.bit RXA_LINK_ST.UP n
  · rw [b.rxLinkDown_of_down h, h]
  · rw [b.rxLinkDown_of_up h, Block.bit_set_other _ _ _ _ _ (Fld.off_ne_of_lt _ _ _ (by decide)), Block.linkUpBit_up]

theorem Block.rxLinkDown_event {n : Nat} (h : b.bit RXA_LINK_ST.UP n = true) : (b.rxLinkDown n).bit RXA_EVT.LINK_DOWN = true := by
  rw [b.rxLinkDown_of_up h]
  exact Block.bit_set_same _ _ _ (by decide) (by decide)

theorem Block.rxLinkDown_rxa {n : Nat} (h : b.bit RXA_LINK_ST.UP n = true) :
    (b.rxLinkDown n).rxa = { b.rxa with gaps := b.rxa.gaps ++ [{ src := n, ports := 0, start := b.nowQ, stop := none }] } := by
  rw [b.rxLinkDown_of_up h]
  rfl

/-! ### The test of the links (R134) -/

/-- The test of a link reads the feeds, the lanes and configurations of the links, and the region profile. -/
theorem Block.linkValid_of_kept {b c : Block} {l : List Nat} (h : RegsKept b c l) (feeds : c.rxa.feeds = b.rxa.feeds)
    (lanes : ∀ j, RXA_LINK_LANES.all.off j ∉ l) (cfg : ∀ j, RXA_LINK_CFG.all.off j ∉ l) (region : ∀ j, TXC_REGION_ACT.all.off j ∉ l) (j : Nat) :
    c.linkValid j = b.linkValid j := by
  have mask (i : Nat) : c.reg (RXA_LINK_LANES.MASK.off i) = b.reg (RXA_LINK_LANES.MASK.off i) := h _ (lanes i)
  have conf (i : Nat) : c.reg (RXA_LINK_CFG.all.off i) = b.reg (RXA_LINK_CFG.all.off i) := h _ (cfg i)
  have profile (band : Nat) : c.bandProfile band = b.bandProfile band := by
    unfold Block.bandProfile Block.regionByte
    rw [h _ (region _)]
  have rate : c.rd RXA_LINK_CFG.RATE j = b.rd RXA_LINK_CFG.RATE j := congrArg (fget · RXA_LINK_CFG.RATE) (conf j)
  have count : c.rd RXA_LINK_CFG.L_M1 j = b.rd RXA_LINK_CFG.L_M1 j := congrArg (fget · RXA_LINK_CFG.L_M1) (conf j)
  unfold Block.linkValid Block.linkFeeds
  simp only [mask, profile, rate, count, feeds]

/-- The status registers of the links. -/
def linkStRegs : List Nat := (List.range 8).map RXA_LINK_ST.all.off

theorem mem_linkStRegs {o : Nat} : o ∈ linkStRegs ↔ ∃ i, i < 8 ∧ o = RXA_LINK_ST.all.off i := by
  simp [linkStRegs, eq_comm]

theorem linkStRegs_spare {o : Nat} (h : o < RXA_LINK_ST.all.base ∨ RXA_LINK_ST.all.off 7 < o ∨ o % 16 ≠ RXA_LINK_ST.all.base % 16) : o ∉ linkStRegs := by
  rw [mem_linkStRegs]
  rintro ⟨i, hi, rfl⟩
  simp only [Fld.off] at h
  omega

/-- Between `b` and `c` CFG_ERR of the links below `k` has been set as they test, and nothing else is changed. -/
structure LinksTested (b c : Block) (k : Nat) : Prop where
  kept : RegsKept b c linkStRegs
  rxa : c.rxa = b.rxa
  err : ∀ l, l < k → c.bit RXA_LINK_ST.CFG_ERR l = !b.linkValid l
  apart : ∀ (f : Fld) (m : Nat), f.hi < 1 ∨ 1 < f.lo → c.bit f m = b.bit f m

theorem LinksTested.linkValid {b c : Block} {k : Nat} (h : LinksTested b c k) (j : Nat) : c.linkValid j = b.linkValid j := by
  refine Block.linkValid_of_kept h.kept (congrArg Rxa.feeds h.rxa) ?_ ?_ ?_ j <;> intro i <;> refine linkStRegs_spare ?_ <;> simp only [Fld.off] <;> omega

theorem LinksTested.step {b c : Block} {k : Nat} (h : LinksTested b c k) (hk : k < 8) :
    LinksTested b (c.flag RXA_LINK_ST.CFG_ERR (!c.linkValid k) k) (k + 1) where
  kept := h.kept.wr _ _ k (mem_linkStRegs.2 ⟨k, hk, rfl⟩)
  rxa := h.rxa
  err l hl := by
    by_cases e : l = k
    · rw [e, Block.bit_flag_same _ _ _ _ (by decide) (by decide), h.linkValid k]
    · refine (Block.bit_wr_other _ _ _ _ _ _ (.inl ?_)).trans (h.err l (by omega))
      simp only [Fld.off]
      omega
  apart f m hf := (Block.bit_wr_disjoint _ _ _ _ _ _ hf.symm).trans (h.apart f m hf)

theorem Block.testLinks_tested : LinksTested b b.testLinks 8 := by
  have upTo : ∀ k, k ≤ 8 → LinksTested b ((List.range k).foldl (fun b l => b.flag RXA_LINK_ST.CFG_ERR (!b.linkValid l) l) b) k := by
    intro k
    induction k with
    | zero => exact fun _ => ⟨.refl _ _, rfl, fun l hl => absurd hl (Nat.not_lt_zero l), fun _ _ _ => rfl⟩
    | succ k ih =>
      intro hk
      rw [List.range_succ, List.foldl_append]
      exact (ih (by omega)).step (by omega)
  exact upTo 8 (Nat.le_refl 8)

end Sys2Proof.Machine
end

section
/-! SUPPORT. A link of the receive array is configured, comes up and goes down (R134, R135, R137, R171). -/

namespace Sys2Proof.Machine

variable (b : Block)

/-! ### Flags of one bit -/

/-- A flag of one bit is 0 or 1. -/
theorem Block.rd_flag (f : Fld) (n : Nat) (hw : f.hi = f.lo) : b.rd f n = (b.bit f n).toNat := by
  have small : b.rd f n < 2 ^ 1 := by
    have := fget_lt (b.reg (f.off n)) f
    rwa [show f.width = 1 by unfold Fld.width; omega] at this
  unfold Block.bit
  have : b.rd f n = 0 ∨ b.rd f n = 1 := by omega
  rcases this with e | e <;> rw [e] <;> rfl

/-- Two flags of one bit are equal where what they read is. -/
theorem Block.bit_beq_iff (c : Block) (f : Fld) (n : Nat) (hw : f.hi = f.lo) : (c.bit f n == b.bit f n) = true ↔ c.rd f n = b.rd f n := by
  rw [c.rd_flag f n hw, b.rd_flag f n hw, beq_iff_eq]
  refine ⟨congrArg Bool.toNat, fun h => ?_⟩
  cases hc : c.bit f n <;> cases hb : b.bit f n <;> simp_all

/-- A field of which a mask keeps every bit. -/
theorem fget_and (v m : BitVec 32) (f : Fld) (h : ∀ i, i < f.width → m.getLsbD (f.lo + i) = true) : fget (v &&& m) f = fget v f := by
  apply Nat.eq_of_testBit_eq
  intro i
  rw [fget_testBit, fget_testBit, BitVec.getLsbD_and]
  by_cases hi : i < f.width
  · rw [h i hi, Bool.and_true]
  · rw [decide_eq_false hi, Bool.false_and, Bool.false_and]

/-! ### A link is configured (R135) -/

/-- The bits of RXA_LINK_CFG_n are stored. -/
def Block.linkStored (n : Nat) (v : BitVec 32) : Block := b.setReg (RXA_LINK_CFG.all.off n) (v &&& 0xFFCF)

/-- A link whose EN has changed is down and waits for a SYSREF edge. -/
def Block.linkRestarted (n : Nat) : Block :=
  { (b.rxLinkDown n).clr RXA_LINK_ST.ALIGNED n with rxa := { (b.rxLinkDown n).rxa with lemc := Tbl.erase (b.rxLinkDown n).rxa.lemc n } }

theorem Block.linkStored_en (n : Nat) (v : BitVec 32) : (b.linkStored n v).rd RXA_LINK_CFG.EN n = fget v RXA_LINK_CFG.EN := by
  refine (congrArg (fget · RXA_LINK_CFG.EN) (Block.reg_setReg_same b _ _)).trans (fget_and v _ _ ?_)
  decide

theorem Block.linkStored_st (f : Fld) (n m : Nat) (v : BitVec 32) (h : f.off m ≠ RXA_LINK_CFG.all.off n) :
    (b.linkStored n v).bit f m = b.bit f m :=
  Block.bit_of_rd (congrArg (fget · f) (Block.reg_setReg_other _ _ _ _ h))

theorem Block.rxLinkEnable_eq (n : Nat) (v : BitVec 32) : b.rxLinkEnable n v =
    (if fget v RXA_LINK_CFG.EN = b.rd RXA_LINK_CFG.EN n then b.linkStored n v else (b.linkStored n v).linkRestarted n).testLinks := by
  have turned : ((b.linkStored n v).bit RXA_LINK_CFG.EN n == b.bit RXA_LINK_CFG.EN n) = true ↔ fget v RXA_LINK_CFG.EN = b.rd RXA_LINK_CFG.EN n := by
    rw [b.bit_beq_iff _ _ _ rfl, b.linkStored_en]
  simp only [← turned]
  rfl

theorem Block.linkRestarted_kept (n : Nat) : RegsKept b (b.linkRestarted n) (linkRegs n) :=
  (b.rxLinkDown_kept n).clr RXA_LINK_ST.ALIGNED n List.mem_cons_self

theorem Block.linkRestarted_up (n : Nat) : (b.linkRestarted n).bit RXA_LINK_ST.UP n = false :=
  ((b.rxLinkDown n).bit_wr_disjoint _ RXA_LINK_ST.UP _ n n (by decide)).trans (b.rxLinkDown_up n)

theorem Block.linkRestarted_aligned (n : Nat) : (b.linkRestarted n).bit RXA_LINK_ST.ALIGNED n = false :=
  (b.rxLinkDown n).bit_clr_same _ n (by decide)

theorem Block.linkRestarted_event {n : Nat} (h : b.bit RXA_LINK_ST.UP n = true) : (b.linkRestarted n).bit RXA_EVT.LINK_DOWN = true :=
  ((b.rxLinkDown n).bit_wr_other RXA_LINK_ST.ALIGNED _ _ n 0 (.inl (Fld.off_ne_of_lt _ n _ (by decide)).symm)).trans (b.rxLinkDown_event h)

/-- The registers that a write of RXA_LINK_CFG_n can change. -/
def linkCfgRegs (n : Nat) : List Nat := RXA_LINK_CFG.all.off n :: RXA_STAT.all.base :: RXA_EVT.all.base :: linkStRegs

theorem linkRegs_subset {n : Nat} (hn : n < 8) : linkRegs n ⊆ linkCfgRegs n := by
  have own : RXA_LINK_ST.all.off n ∈ linkStRegs := mem_linkStRegs.2 ⟨n, hn, rfl⟩
  simp [linkRegs, linkCfgRegs, own]

theorem linkStRegs_subset (n : Nat) : linkStRegs ⊆ linkCfgRegs n :=
  fun _ h => List.mem_cons_of_mem _ (List.mem_cons_of_mem _ (List.mem_cons_of_mem _ h))

theorem linkCfg_not_linkRegs (n m : Nat) : RXA_LINK_CFG.all.off m ∉ linkRegs n := by
  simp [linkRegs, Fld.off]
  omega

/-- The link's configuration is in effect before the links are tested. -/
theorem Block.linkSet_stored (n : Nat) (v : BitVec 32) (c : Block) (h : RegsKept (b.linkStored n v) c (linkRegs n)) (hn : n < 8) :
    c.testLinks.reg (RXA_LINK_CFG.all.off n) = v &&& 0xFFCF ∧ RegsKept b c.testLinks (linkCfgRegs n) := by
  have tested := c.testLinks_tested
  have spared : RXA_LINK_CFG.all.off n ∉ linkStRegs := linkStRegs_spare (by simp only [Fld.off]; omega)
  refine ⟨((tested.kept _ spared).trans (h _ (linkCfg_not_linkRegs n n))).trans (b.reg_setReg_same _ _), ?_⟩
  have stored : RegsKept b (b.linkStored n v) (linkCfgRegs n) := (RegsKept.refl b _).setReg List.mem_cons_self _
  exact (stored.trans (h.mono (linkRegs_subset hn))).trans (tested.kept.mono (linkStRegs_subset n))

/-- The links are as they test in the canonical form too. -/
theorem Block.testLinks_err {l : Nat} (hl : l < 8) : b.testLinks.canon.bit RXA_LINK_ST.CFG_ERR l = !b.testLinks.canon.linkValid l := by
  have same : b.testLinks.canon.linkValid l = b.testLinks.linkValid l :=
    Block.linkValid_of_kept (RegsKept.canon (.refl b.testLinks [])) (congrArg Rxa.feeds b.testLinks.canon_rxa) (fun _ => List.not_mem_nil) (fun _ => List.not_mem_nil) (fun _ => List.not_mem_nil) l
  rw [same, Block.canon_bit, b.testLinks_tested.err l hl, b.testLinks_tested.linkValid l]

theorem rxLinkEnable_runs (s : State) (n : Nat) (v : Word) (hn : n < 8) : Runs (.rxLinkEnable n v) s (fun t =>
    t.reg (RXA_LINK_CFG.all.off n) = v &&& 0xFFCF ∧ (∀ l, l < 8 → t.bit RXA_LINK_ST.CFG_ERR l = !t.linkValid l)
    ∧ (if fget v RXA_LINK_CFG.EN = s.blk.rd RXA_LINK_CFG.EN n then
        t.rxa = s.blk.rxa ∧ ∀ l, l < 8 → t.bit RXA_LINK_ST.UP l = s.blk.bit RXA_LINK_ST.UP l ∧ t.bit RXA_LINK_ST.ALIGNED l = s.blk.bit RXA_LINK_ST.ALIGNED l
      else t.bit RXA_LINK_ST.UP n = false ∧ t.bit RXA_LINK_ST.ALIGNED n = false ∧ (s.blk.bit RXA_LINK_ST.UP n = true → t.bit RXA_EVT.LINK_DOWN = true))
    ∧ RegsKept s.blk t (linkCfgRegs n)) := by
  have effect : exec (.rxLinkEnable n v) s = runCmd s (fun b => (if fget v RXA_LINK_CFG.EN = b.rd RXA_LINK_CFG.EN n
      then b.linkStored n v else (b.linkStored n v).linkRestarted n).testLinks) := by
    change execRxLinkEnable n v s = _
    unfold execRxLinkEnable
    simp only [Nat.mod_eq_of_lt hn, Block.rxLinkEnable_eq]
  refine runs_of_runCmd effect ?_
  rw [Block.start_rd]
  split
  · obtain ⟨stored, kept⟩ := s.blk.start.linkSet_stored n v _ (.refl _ _) hn
    have tested := (s.blk.start.linkStored n v).testLinks_tested
    refine ⟨(Block.canon_reg _ _).trans stored, fun l hl => Block.testLinks_err _ hl, ⟨(Block.canon_rxa _).trans tested.rxa, fun l _ => ⟨?_, ?_⟩⟩, kept.canon⟩
    · rw [Block.canon_bit, tested.apart _ l (by decide), Block.linkStored_st _ _ _ _ _ (by simp only [Fld.off]; omega)]
      rfl
    · rw [Block.canon_bit, tested.apart _ l (by decide), Block.linkStored_st _ _ _ _ _ (by simp only [Fld.off]; omega)]
      rfl
  · obtain ⟨stored, kept⟩ := s.blk.start.linkSet_stored n v _ ((s.blk.start.linkStored n v).linkRestarted_kept n) hn
    have tested := ((s.blk.start.linkStored n v).linkRestarted n).testLinks_tested
    refine ⟨(Block.canon_reg _ _).trans stored, fun l hl => Block.testLinks_err _ hl, ⟨?_, ?_, fun up => ?_⟩, kept.canon⟩
    · rw [Block.canon_bit, tested.apart _ n (by decide), Block.linkRestarted_up]
    · rw [Block.canon_bit, tested.apart _ n (by decide), Block.linkRestarted_aligned]
    · rw [Block.canon_bit, tested.kept.bit _ 0 (linkStRegs_spare (by decide))]
      refine Block.linkRestarted_event _ ?_
      rw [Block.linkStored_st _ _ _ _ _ (by simp only [Fld.off]; omega)]
      exact up

/-! ### A link comes up (R135, R137) -/

/-- Both locks of a link are held, and the CRC-12 errors its lanes have shown count (R171). -/
def Block.linkLocked (n crc : Nat) : Block := ((b.set RXA_LINK_ST.SH_LOCK n).set RXA_LINK_ST.EMB_LOCK n).incBy RXA_LINK_ERR.all crc n

/-- The registers that a report of a link's locks can change. -/
def linkSeenRegs (n : Nat) : List Nat := [RXA_LINK_ST.all.off n, RXA_LINK_ERR.all.off n, RXA_STAT.all.base, RXA_EVT.all.base]

theorem linkRegs_seen (n : Nat) : linkRegs n ⊆ linkSeenRegs n := by simp [linkRegs, linkSeenRegs]

theorem linkErr_not_linkRegs (n : Nat) : RXA_LINK_ERR.all.off n ∉ linkRegs n := by
  simp [linkRegs, Fld.off]
  omega

theorem linkErr_ne_linkSt (f : Fld) (n m : Nat) (hb : f.base = RXA_LINK_ST.all.base) (hs : f.stride = 16) : f.off m ≠ RXA_LINK_ERR.all.off n := by
  simp only [Fld.off, hb, hs]
  omega

theorem Block.linkLocked_kept (n crc : Nat) : RegsKept b (b.linkLocked n crc) (linkSeenRegs n) :=
  (((RegsKept.refl b _).set RXA_LINK_ST.SH_LOCK n List.mem_cons_self).set RXA_LINK_ST.EMB_LOCK n List.mem_cons_self).incBy RXA_LINK_ERR.all crc n
    (List.mem_cons_of_mem _ List.mem_cons_self)

theorem Block.linkLocked_sh (n crc : Nat) : (b.linkLocked n crc).bit RXA_LINK_ST.SH_LOCK n = true := by
  unfold Block.linkLocked
  rw [Block.bit_incBy_other _ _ _ _ _ _ (linkErr_ne_linkSt RXA_LINK_ST.SH_LOCK n n rfl rfl), Block.bit_set_disjoint _ _ _ _ _ (by decide),
    Block.bit_set_same _ _ _ (by decide) (by decide)]

theorem Block.linkLocked_emb (n crc : Nat) : (b.linkLocked n crc).bit RXA_LINK_ST.EMB_LOCK n = true := by
  unfold Block.linkLocked
  rw [Block.bit_incBy_other _ _ _ _ _ _ (linkErr_ne_linkSt RXA_LINK_ST.EMB_LOCK n n rfl rfl), Block.bit_set_same _ _ _ (by decide) (by decide)]

/-- A flag of the link's status beside the locks stays. -/
theorem Block.linkLocked_apart (n crc : Nat) (f : Fld) (hb : f.base = RXA_LINK_ST.all.base) (hs : f.stride = 16) (hl : f.hi < 2 ∨ 3 < f.lo) :
    (b.linkLocked n crc).bit f n = b.bit f n := by
  have emb : RXA_LINK_ST.EMB_LOCK.hi < f.lo ∨ f.hi < RXA_LINK_ST.EMB_LOCK.lo := hl.symm.imp id (fun h => Nat.lt_succ_of_lt h)
  have sh : RXA_LINK_ST.SH_LOCK.hi < f.lo ∨ f.hi < RXA_LINK_ST.SH_LOCK.lo := hl.symm.imp (fun h => Nat.lt_of_succ_lt h) id
  unfold Block.linkLocked
  rw [Block.bit_incBy_other _ _ _ _ _ _ (linkErr_ne_linkSt f n n hb hs), Block.bit_set_disjoint _ _ _ _ _ emb, Block.bit_set_disjoint _ _ _ _ _ sh]

theorem Block.linkLocked_err (n crc : Nat) :
    (b.linkLocked n crc).rd RXA_LINK_ERR.all n = min (b.rd RXA_LINK_ERR.all n + crc) (2 ^ RXA_LINK_ERR.all.width - 1) := by
  unfold Block.linkLocked
  rw [Block.rd_incBy_same _ _ _ _ (by decide), Block.rd_set_other _ _ _ _ _ (linkErr_ne_linkSt RXA_LINK_ST.EMB_LOCK n n rfl rfl).symm,
    Block.rd_set_other _ _ _ _ _ (linkErr_ne_linkSt RXA_LINK_ST.SH_LOCK n n rfl rfl).symm]

/-- The link may come up: it is enabled, aligned and valid, and is not up. -/
def Block.linkReady (n : Nat) : Bool :=
  b.bit RXA_LINK_CFG.EN n && b.bit RXA_LINK_ST.ALIGNED n && !b.bit RXA_LINK_ST.CFG_ERR n && !b.bit RXA_LINK_ST.UP n

theorem Block.linkReady_iff (n : Nat) : b.linkReady n = true ↔ b.bit RXA_LINK_CFG.EN n = true ∧ b.bit RXA_LINK_ST.ALIGNED n = true
    ∧ b.bit RXA_LINK_ST.CFG_ERR n = false ∧ b.bit RXA_LINK_ST.UP n = false := by
  simp only [Block.linkReady, Bool.and_eq_true, Bool.not_eq_true', and_assoc]

theorem Block.linkLocked_ready (n crc : Nat) : (b.linkLocked n crc).linkReady n = b.linkReady n := by
  unfold Block.linkReady
  rw [Block.linkLocked_apart _ _ _ RXA_LINK_ST.ALIGNED rfl rfl (by decide), Block.linkLocked_apart _ _ _ RXA_LINK_ST.CFG_ERR rfl rfl (by decide),
    Block.linkLocked_apart _ _ _ RXA_LINK_ST.UP rfl rfl (by decide), (b.linkLocked_kept n crc).bit RXA_LINK_CFG.EN n ?_]
  simp [linkSeenRegs, Fld.off]
  omega

/-- A link comes up; its times of erased samples end at `q`. -/
def Block.linkRisen (n q : Nat) : Block := ((b.gapStop n q).linkUpBit n true).set RXA_EVT.LINK_UP

theorem Block.linkRisen_kept (n q : Nat) : RegsKept b (b.linkRisen n q) (linkRegs n) :=
  RegsKept.set ((b.gapStop n q).linkUpBit_kept n true) _ 0 (by simp [linkRegs, Fld.off])

theorem Block.linkRisen_bit (n q : Nat) (f : Fld) (hf : RXA_EVT.all.base < f.base) :
    (b.linkRisen n q).bit f n = ((b.gapStop n q).linkUpBit n true).bit f n :=
  Block.bit_set_other _ _ _ _ _ (f.off_ne_of_lt n _ hf)

theorem Block.linkRisen_up (n q : Nat) : (b.linkRisen n q).bit RXA_LINK_ST.UP n = true :=
  (b.linkRisen_bit n q _ (by decide)).trans (Block.linkUpBit_up _ n true)

theorem Block.linkRisen_apart (n q : Nat) (f : Fld) (hf : RXA_EVT.all.base < f.base) (hl : 0 < f.lo) : (b.linkRisen n q).bit f n = b.bit f n :=
  (b.linkRisen_bit n q f hf).trans ((b.gapStop n q).linkUpBit_apart n true f n (Nat.lt_trans (by decide) hf) hl)

/-- A time of erased samples from `src` that lasts beyond `q`. -/
def Gap.outlasts (g : Gap) (src q : Nat) : Bool := g.src == src && (match g.stop with | some e => decide (q < e) | none => true)

/-- A time of erased samples as the end of those from `src` at `q` leaves it. -/
def Gap.endedAt (g : Gap) (src q : Nat) : Gap := if g.outlasts src q then { g with stop := some q } else g

theorem Block.gapStop_gaps (src q : Nat) : (b.gapStop src q).rxa.gaps = b.rxa.gaps.map (·.endedAt src q) := rfl

theorem Gap.endedAt_src (g : Gap) (src q : Nat) : (g.endedAt src q).src = g.src := by
  unfold Gap.endedAt
  split <;> rfl

/-- A time of erased samples that has ended covers nothing after its end. -/
theorem Gap.covers_of_stop {g : Gap} {e u : Nat} (h : g.stop = some e) (hu : e ≤ u) : g.covers u = false := by
  unfold Gap.covers
  rw [h]
  simp only [decide_eq_false (Nat.not_lt.2 hu), Bool.and_false]

theorem Gap.endedAt_covers (g : Gap) {src q u : Nat} (hs : g.src = src) (hu : q ≤ u) : (g.endedAt src q).covers u = false := by
  unfold Gap.endedAt
  split
  · exact Gap.covers_of_stop rfl hu
  · next late =>
    unfold Gap.outlasts at late
    cases h : g.stop with
    | none => simp [h, hs] at late
    | some e =>
      refine Gap.covers_of_stop h ?_
      simp [h, hs] at late
      omega

/-- After the end of the times of erased samples from a source, none covers an instant. -/
theorem Block.gapStop_covers (src q : Nat) {g : Gap} (hg : g ∈ (b.gapStop src q).rxa.gaps) (hs : g.src = src) {u : Nat} (hu : q ≤ u) :
    g.covers u = false := by
  obtain ⟨g0, -, rfl⟩ := List.mem_map.1 hg
  exact g0.endedAt_covers ((g0.endedAt_src src q).symm.trans hs) hu

/-- A time of erased samples that goes on ends there. -/
theorem Block.gapStop_ends (src q : Nat) {g : Gap} (hg : g ∈ b.rxa.gaps) (hs : g.src = src) (hn : g.stop = none) :
    { g with stop := some q } ∈ (b.gapStop src q).rxa.gaps := by
  rw [Block.gapStop_gaps]
  exact List.mem_map.2 ⟨g, hg, if_pos (by simp [Gap.outlasts, hs, hn])⟩

theorem jesdLinkUp_runs (s : State) (n crc : Nat) (hn : n < 8) : Runs (.jesdLinkUp ⟨n, crc⟩) s (fun t =>
    let u := (cellOf s.blk.clk.htime + 1) * 2 ^ 24 * qHt
    t.bit RXA_LINK_ST.SH_LOCK n = true ∧ t.bit RXA_LINK_ST.EMB_LOCK n = true
    ∧ t.rd RXA_LINK_ERR.all n = min (s.blk.rd RXA_LINK_ERR.all n + crc) (2 ^ RXA_LINK_ERR.all.width - 1)
    ∧ (if s.blk.bit RXA_LINK_CFG.EN n = true ∧ s.blk.bit RXA_LINK_ST.ALIGNED n = true ∧ s.blk.bit RXA_LINK_ST.CFG_ERR n = false
          ∧ s.blk.bit RXA_LINK_ST.UP n = false then
        t.bit RXA_LINK_ST.UP n = true ∧ t.bit RXA_EVT.LINK_UP = true
        ∧ (∀ g ∈ t.rxa.gaps, g.src = n → ∀ q, u ≤ q → g.covers q = false)
        ∧ (∀ g ∈ s.blk.rxa.gaps, g.src = n → g.stop = none → { g with stop := some u } ∈ t.rxa.gaps)
      else t.bit RXA_LINK_ST.UP n = s.blk.bit RXA_LINK_ST.UP n ∧ t.rxa = s.blk.rxa)
    ∧ RegsKept s.blk t (linkSeenRegs n)) := by
  let u := (cellOf s.blk.clk.htime + 1) * 2 ^ 24 * qHt
  let seen := s.blk.start.linkLocked n crc
  have effect : exec (.jesdLinkUp ⟨n, crc⟩) s = runCmd s (fun b => if (b.linkLocked n crc).linkReady n then
      (b.linkLocked n crc).linkRisen n ((cellOf b.clk.htime + 1) * 2 ^ 24 * qHt) else b.linkLocked n crc) := by
    change execJesdLinkUp _ s = _
    unfold execJesdLinkUp
    simp only [Nat.mod_eq_of_lt hn]
    rfl
  have kept : RegsKept s.blk seen (linkSeenRegs n) := s.blk.start.linkLocked_kept n crc
  refine runs_of_runCmd effect ?_
  simp only [← Block.linkReady_iff, Block.linkLocked_ready]
  cases ready : s.blk.linkReady n
  · rw [show s.blk.start.linkReady n = false from ready, if_neg (by decide), if_neg (by decide)]
    refine ⟨?_, ?_, ?_, ⟨?_, rfl⟩, kept.canon⟩
    · rw [Block.canon_bit, Block.linkLocked_sh]
    · rw [Block.canon_bit, Block.linkLocked_emb]
    · rw [Block.canon_rd, Block.linkLocked_err, Block.start_rd]
    · rw [Block.canon_bit, Block.linkLocked_apart _ _ _ RXA_LINK_ST.UP rfl rfl (by decide), Block.start_bit]
  · rw [show s.blk.start.linkReady n = true from ready, if_pos rfl, if_pos rfl]
    have risen := seen.linkRisen_kept n u
    refine ⟨?_, ?_, ?_, ⟨?_, ?_, fun g hg hs q hq => seen.gapStop_covers n u hg hs hq, fun g hg hs hn => seen.gapStop_ends n u hg hs hn⟩,
      (kept.trans (risen.mono (linkRegs_seen n))).canon⟩
    · rw [Block.canon_bit, Block.linkRisen_apart _ _ _ RXA_LINK_ST.SH_LOCK (by decide) (by decide), Block.linkLocked_sh]
    · rw [Block.canon_bit, Block.linkRisen_apart _ _ _ RXA_LINK_ST.EMB_LOCK (by decide) (by decide), Block.linkLocked_emb]
    · rw [Block.canon_rd]
      exact (risen.rd RXA_LINK_ERR.all n (linkErr_not_linkRegs n)).trans (s.blk.start.linkLocked_err n crc)
    · rw [Block.canon_bit, Block.linkRisen_up]
    · rw [Block.canon_bit]
      exact Block.bit_set_same _ _ _ (by decide) (by decide)

/-! ### A lock is lost (R137) -/

/-- The lock of a report: that of the extended multiblocks, or of the sync headers. -/
def lockFld (emb : Bool) : Fld := if emb then RXA_LINK_ST.EMB_LOCK else RXA_LINK_ST.SH_LOCK

theorem lockFld_facts (emb : Bool) : (lockFld emb).hi < 32 ∧ 0 < (lockFld emb).lo ∧ ∀ n, (lockFld emb).off n = RXA_LINK_ST.all.off n := by
  cases emb <;> exact ⟨by decide, by decide, fun _ => rfl⟩

theorem jesdLinkDown_runs (s : State) (n crc : Nat) (emb : Bool) (hn : n < 8) : Runs (.jesdLinkDown ⟨n, crc⟩ emb) s (fun t =>
    t.bit RXA_LINK_ST.UP n = false
    ∧ (s.blk.bit RXA_LINK_ST.UP n = true → t.bit RXA_EVT.LINK_DOWN = true
      ∧ t.rxa.gaps = s.blk.rxa.gaps ++ [{ src := n, ports := 0, start := s.blk.nowQ, stop := none }])
    ∧ (s.blk.bit RXA_LINK_ST.UP n = false → t.rxa = s.blk.rxa)
    ∧ t.bit (lockFld emb) n = false
    ∧ t.rd RXA_LINK_ERR.all n = min (s.blk.rd RXA_LINK_ERR.all n + crc) (2 ^ RXA_LINK_ERR.all.width - 1)
    ∧ RegsKept s.blk t (linkSeenRegs n)) := by
  obtain ⟨hi, lo, off⟩ := lockFld_facts emb
  have effect : exec (.jesdLinkDown ⟨n, crc⟩ emb) s = runCmd s (fun b => ((b.rxLinkDown n).incBy RXA_LINK_ERR.all crc n).clr (lockFld emb) n) := by
    change execJesdLinkDown _ emb s = _
    unfold execJesdLinkDown
    simp only [Nat.mod_eq_of_lt hn]
    rfl
  let down := s.blk.start.rxLinkDown n
  let counted := down.incBy RXA_LINK_ERR.all crc n
  have kept : RegsKept s.blk down (linkRegs n) := s.blk.start.rxLinkDown_kept n
  have cleared (f : Fld) (m : Nat) (h : f.off m ≠ RXA_LINK_ST.all.off n) : (counted.clr (lockFld emb) n).rd f m = counted.rd f m :=
    counted.rd_wr_other _ f _ n m (by rwa [off])
  have event : (counted.clr (lockFld emb) n).bit RXA_EVT.LINK_DOWN = down.bit RXA_EVT.LINK_DOWN :=
    (Block.bit_of_rd (cleared _ 0 (Fld.off_ne_of_lt _ n _ (by decide)).symm)).trans
      (Block.bit_incBy_other _ _ _ _ n 0 (Fld.off_ne_of_lt _ n _ (by decide)).symm)
  refine runs_of_runCmd effect ⟨?_, fun up => ⟨?_, ?_⟩, fun dn => ?_, ?_, ?_, ?_⟩
  · rw [Block.canon_bit]
    exact ((counted.bit_wr_disjoint (lockFld emb) RXA_LINK_ST.UP _ n n (.inr lo)).trans
      (Block.bit_incBy_other _ _ _ _ _ _ (linkErr_ne_linkSt _ n n rfl rfl))).trans (s.blk.start.rxLinkDown_up n)
  · rw [Block.canon_bit]
    exact event.trans (s.blk.start.rxLinkDown_event up)
  · exact congrArg Rxa.gaps (s.blk.start.rxLinkDown_rxa up)
  · exact congrArg (·.rxa) (s.blk.start.rxLinkDown_of_down dn)
  · rw [Block.canon_bit]
    exact counted.bit_clr_same _ n hi
  · rw [Block.canon_rd, cleared _ n (linkErr_ne_linkSt RXA_LINK_ST.all n n rfl rfl).symm, Block.rd_incBy_same _ _ _ _ (by decide),
      kept.rd RXA_LINK_ERR.all n (linkErr_not_linkRegs n)]
  · refine RegsKept.canon (RegsKept.clr (RegsKept.incBy (kept.mono (linkRegs_seen n)) _ _ _ ?_) _ _ ?_)
    · exact List.mem_cons_of_mem _ List.mem_cons_self
    · rw [off]
      exact List.mem_cons_self

end Sys2Proof.Machine
end

section
/-! SUPPORT. A SYSREF edge aligns the links (R135), and the obligation on the links of the receive array. -/

namespace Sys2Proof.Machine

/-! ### One link at the edge -/

/-- Link `i` of the sixteen is enabled: the receive links, then the transmit links (R135). -/
def Block.lemcOn (b : Block) (i : Nat) : Bool := if i < 8 then b.bit RXA_LINK_CFG.EN i else b.bit TXC_PORT_CFG.EN (i - 8)

/-- Link `i` of the sixteen is up. -/
def Block.lemcUp (b : Block) (i : Nat) : Bool := if i < 8 then b.bit RXA_LINK_ST.UP i else b.bit TXC_PORT_ST.LINK_UP (i - 8)

/-- A stored phase is off the edge's by more than one cycle (R135). -/
def phaseOff (x ph : Nat) : Bool := decide (1 < (x + 512 - ph) % 512 ∧ (x + 512 - ph) % 512 < 511)

/-- Link `i` is aligned to the phase. -/
def Block.lemcAlign (b : Block) (ph i : Nat) : Block :=
  if i < 8 then { b with rxa := { b.rxa with lemc := Tbl.insert b.rxa.lemc i ph } }.set RXA_LINK_ST.ALIGNED i
  else { b with rxa := { b.rxa with lemc := Tbl.insert b.rxa.lemc i ph } }.set TXC_PORT_ST.ALIGNED (i - 8)

/-- What the edge does to link `i`, with the links as `a` shows them. -/
def Block.lemcEdge (a : Block) (ph : Nat) (b : Block) (i : Nat) : Block :=
  match Tbl.find b.rxa.lemc i with
  | some x => if a.lemcUp i && b.bit RXA_SYSREF_CFG.CHECK && phaseOff x ph then b.set RXA_EVT.SYSREF_ERR else b
  | none => if a.lemcOn i then b.lemcAlign ph i else b

/-- The edge at the sixteen links. -/
def Block.lemcEdges (b : Block) (ph : Nat) : Block := (List.range 16).foldl (b.lemcEdge ph) b

theorem sysrefEdge_eq (s : State) (ph : Nat) : exec (.sysrefEdge ph) s = runCmd s (fun b => if !b.bit RXA_SYSREF_CFG.SYSREF_EN then b else
    (b.set RXA_STAT.SYSREF_SEEN).lemcEdges (ph % 512)) := rfl

/-- The phase a link has stored after the edge. -/
def Block.lemcAfter (b : Block) (ph i : Nat) : Option Nat :=
  match Tbl.find b.rxa.lemc i with
  | some x => some x
  | none => if b.lemcOn i then some ph else none

/-- The registers that the edge can change beside SYSREF_SEEN. -/
def lemcRegs : List Nat := RXA_EVT.all.base :: (linkStRegs ++ (List.range 8).map TXC_PORT_ST.all.off)

theorem lemcAlign_kept (b : Block) (ph : Nat) {i : Nat} (hi : i < 16) : RegsKept b (b.lemcAlign ph i) lemcRegs := by
  have aligned : RegsKept b { b with rxa := { b.rxa with lemc := Tbl.insert b.rxa.lemc i ph } } lemcRegs := .of_regs rfl
  unfold Block.lemcAlign
  split
  · next h => exact aligned.set _ _ (List.mem_cons_of_mem _ (List.mem_append_left _ (mem_linkStRegs.2 ⟨i, h, rfl⟩)))
  · exact aligned.set _ _ (List.mem_cons_of_mem _ (List.mem_append_right _ (List.mem_map.2 ⟨i - 8, List.mem_range.2 (by omega), rfl⟩)))

theorem lemcAlign_lemc (b : Block) (ph i : Nat) : (b.lemcAlign ph i).rxa.lemc = Tbl.insert b.rxa.lemc i ph := by
  unfold Block.lemcAlign
  split <;> rfl

theorem lemcAlign_mono (b : Block) (ph i : Nat) (f : Fld) (n : Nat) (h : b.bit f n = true) : (b.lemcAlign ph i).bit f n = true := by
  unfold Block.lemcAlign
  split <;> exact Block.bit_set_mono _ _ _ _ _ rfl h

theorem not_mem_lemcRegs {o : Nat} (h : o < RXA_EVT.all.base ∨ (RXA_EVT.all.base < o ∧ o < RXA_LINK_ST.all.base)) : o ∉ lemcRegs := by
  simp only [lemcRegs, List.mem_cons, List.mem_append, mem_linkStRegs, List.mem_map, not_or, not_exists, not_and, Fld.off] at h ⊢
  refine ⟨by omega, fun _ _ => by omega, fun _ _ => by omega⟩

/-- From `a` to `c` the edge of phase `ph` has been at the links below `k`. -/
structure LemcSeen (a : Block) (ph k : Nat) (c : Block) : Prop where
  kept : RegsKept a c lemcRegs
  seen : ∀ i, i < k → Tbl.find c.rxa.lemc i = a.lemcAfter ph i
  ahead : ∀ i, k ≤ i → Tbl.find c.rxa.lemc i = Tbl.find a.rxa.lemc i
  aligned : ∀ i, i < k → i < 8 → Tbl.find a.rxa.lemc i = none → a.lemcOn i = true → c.bit RXA_LINK_ST.ALIGNED i = true
  err : ∀ i x, i < k → Tbl.find a.rxa.lemc i = some x → a.lemcUp i = true → a.bit RXA_SYSREF_CFG.CHECK = true → phaseOff x ph = true →
    c.bit RXA_EVT.SYSREF_ERR = true

namespace LemcSeen

variable {a c : Block} {ph k : Nat}

theorem start (a : Block) (ph : Nat) : LemcSeen a ph 0 a where
  kept := .refl _ _
  seen i hi := absurd hi (Nat.not_lt_zero i)
  ahead _ _ := rfl
  aligned i hi := absurd hi (Nat.not_lt_zero i)
  err i _ hi := absurd hi (Nat.not_lt_zero i)

/-- A further link that stores nothing new: what it leaves is `d`, in which no flag is cleared. -/
theorem unmoved (h : LemcSeen a ph k c) {d : Block} (kept : RegsKept c d lemcRegs) (lemc : d.rxa.lemc = c.rxa.lemc)
    (mono : ∀ f n, c.bit f n = true → d.bit f n = true) (after : a.lemcAfter ph k = Tbl.find a.rxa.lemc k)
    (on : Tbl.find a.rxa.lemc k = none → a.lemcOn k = false)
    (err : ∀ x, Tbl.find a.rxa.lemc k = some x → a.lemcUp k = true → a.bit RXA_SYSREF_CFG.CHECK = true → phaseOff x ph = true →
      d.bit RXA_EVT.SYSREF_ERR = true) : LemcSeen a ph (k + 1) d where
  kept := h.kept.trans kept
  seen i hi := by
    rw [lemc]
    rcases Nat.lt_succ_iff_lt_or_eq.1 hi with lt | rfl
    · exact h.seen i lt
    · rw [h.ahead i (Nat.le_refl i), after]
  ahead i hi := by rw [lemc, h.ahead i (by omega)]
  aligned i hi h8 hn ho := by
    rcases Nat.lt_succ_iff_lt_or_eq.1 hi with lt | rfl
    · exact mono _ _ (h.aligned i lt h8 hn ho)
    · rw [on hn] at ho
      cases ho
  err i x hi hx hu hc hp := by
    rcases Nat.lt_succ_iff_lt_or_eq.1 hi with lt | rfl
    · exact mono _ _ (h.err i x lt hx hu hc hp)
    · exact err x hx hu hc hp

/-- A further link that is aligned. -/
theorem align (h : LemcSeen a ph k c) (hk : k < 16) (hn : Tbl.find a.rxa.lemc k = none) (ho : a.lemcOn k = true) :
    LemcSeen a ph (k + 1) (c.lemcAlign ph k) where
  kept := h.kept.trans (lemcAlign_kept c ph hk)
  seen i hi := by
    rw [lemcAlign_lemc]
    rcases Nat.lt_succ_iff_lt_or_eq.1 hi with lt | rfl
    · rw [Tbl.find_insert_other _ _ _ _ (Nat.ne_of_lt lt), h.seen i lt]
    · rw [Tbl.find_insert_same, Block.lemcAfter, hn]
      exact (if_pos ho).symm
  ahead i hi := by rw [lemcAlign_lemc, Tbl.find_insert_other _ _ _ _ (by omega), h.ahead i (by omega)]
  aligned i hi h8 hn' ho' := by
    rcases Nat.lt_succ_iff_lt_or_eq.1 hi with lt | rfl
    · exact lemcAlign_mono _ _ _ _ _ (h.aligned i lt h8 hn' ho')
    · unfold Block.lemcAlign
      rw [if_pos h8]
      exact Block.bit_set_same _ _ _ (by decide) (by decide)
  err i x hi hx hu hc hp := by
    rcases Nat.lt_succ_iff_lt_or_eq.1 hi with lt | rfl
    · exact lemcAlign_mono _ _ _ _ _ (h.err i x lt hx hu hc hp)
    · rw [hn] at hx
      cases hx

theorem step (h : LemcSeen a ph k c) (hk : k < 16) : LemcSeen a ph (k + 1) (Block.lemcEdge a ph c k) := by
  have check : c.bit RXA_SYSREF_CFG.CHECK = a.bit RXA_SYSREF_CFG.CHECK := h.kept.bit _ 0 (not_mem_lemcRegs (by decide))
  unfold Block.lemcEdge
  rw [h.ahead k (Nat.le_refl k), check]
  cases hx : Tbl.find a.rxa.lemc k with
  | some x =>
    have after : a.lemcAfter ph k = Tbl.find a.rxa.lemc k := by
      unfold Block.lemcAfter
      rw [hx]
    have on (hn : Tbl.find a.rxa.lemc k = none) : a.lemcOn k = false := by
      rw [hx] at hn
      cases hn
    dsimp only
    split
    · exact h.unmoved ((RegsKept.refl c _).set _ 0 List.mem_cons_self) rfl (fun f n hb => c.bit_set_mono _ _ _ _ rfl hb) after on
        (fun _ _ _ _ _ => Block.bit_set_same _ _ _ (by decide) (by decide))
    · next off =>
      refine h.unmoved (.refl _ _) rfl (fun _ _ hb => hb) after on (fun y hy hu hc hp => absurd ?_ off)
      rw [hx] at hy
      cases hy
      rw [hu, hc, hp]
      rfl
  | none =>
    dsimp only
    split
    · next ho => exact h.align hk hx ho
    · next off =>
      have after : a.lemcAfter ph k = Tbl.find a.rxa.lemc k := by
        unfold Block.lemcAfter
        rw [hx]
        exact if_neg off
      refine h.unmoved (.refl _ _) rfl (fun _ _ hb => hb) after (fun _ => Bool.eq_false_iff.2 off) (fun y hy => ?_)
      rw [hx] at hy
      cases hy

theorem all (a : Block) (ph : Nat) : LemcSeen a ph 16 (a.lemcEdges ph) := by
  have upTo : ∀ k, k ≤ 16 → LemcSeen a ph k ((List.range k).foldl (Block.lemcEdge a ph) a) := by
    intro k
    induction k with
    | zero => exact fun _ => start a ph
    | succ k ih =>
      intro hk
      rw [List.range_succ, List.foldl_append]
      exact (ih (by omega)).step (by omega)
  exact upTo 16 (Nat.le_refl 16)

end LemcSeen

/-! ### The commands -/

theorem sysrefEdge_off (s : State) (ph : Nat) (h : s.blk.bit RXA_SYSREF_CFG.SYSREF_EN = false) : NoEffect (.sysrefEdge ph) s := by
  refine gives_of_runCmd (sysrefEdge_eq s ph) ?_
  rw [Block.start_bit, h]
  rfl

theorem sysrefEdge_runs (s : State) (ph : Nat) (h : s.blk.bit RXA_SYSREF_CFG.SYSREF_EN = true) : Runs (.sysrefEdge ph) s (fun t =>
    t.bit RXA_STAT.SYSREF_SEEN = true
    ∧ ∀ i, i < 8 →
      (Tbl.find s.blk.rxa.lemc i = none → s.blk.bit RXA_LINK_CFG.EN i = true →
        Tbl.find t.rxa.lemc i = some (ph % 512) ∧ t.bit RXA_LINK_ST.ALIGNED i = true)
      ∧ (Tbl.find s.blk.rxa.lemc i = none → s.blk.bit RXA_LINK_CFG.EN i = false → Tbl.find t.rxa.lemc i = none)
      ∧ (∀ x, Tbl.find s.blk.rxa.lemc i = some x → Tbl.find t.rxa.lemc i = some x
        ∧ (s.blk.bit RXA_LINK_ST.UP i = true → s.blk.bit RXA_SYSREF_CFG.CHECK = true → 1 < (x + 512 - ph % 512) % 512 →
            (x + 512 - ph % 512) % 512 < 511 → t.bit RXA_EVT.SYSREF_ERR = true))) := by
  have effect : (fun b : Block => if !b.bit RXA_SYSREF_CFG.SYSREF_EN then b else (b.set RXA_STAT.SYSREF_SEEN).lemcEdges (ph % 512)) s.blk.start
      = (s.blk.start.set RXA_STAT.SYSREF_SEEN).lemcEdges (ph % 512) := by
    beta_reduce
    rw [Block.start_bit, h]
    rfl
  refine runs_of_effect (sysrefEdge_eq s ph) effect ?_
  have early (f : Fld) (n : Nat) (hf : RXA_STAT.all.base < f.base) : (s.blk.start.set RXA_STAT.SYSREF_SEEN).bit f n = s.blk.bit f n :=
    s.blk.start.bit_set_other _ _ _ _ (f.off_ne_of_lt n _ hf)
  have seen : (s.blk.start.set RXA_STAT.SYSREF_SEEN).bit RXA_STAT.SYSREF_SEEN = true := Block.bit_set_same _ _ _ (by decide) (by decide)
  have stored : (s.blk.start.set RXA_STAT.SYSREF_SEEN).rxa.lemc = s.blk.rxa.lemc := rfl
  have edge := LemcSeen.all (s.blk.start.set RXA_STAT.SYSREF_SEEN) (ph % 512)
  generalize (s.blk.start.set RXA_STAT.SYSREF_SEEN).lemcEdges (ph % 512) = t at edge ⊢
  generalize s.blk.start.set RXA_STAT.SYSREF_SEEN = a at early seen stored edge
  rw [← stored]
  simp only [Block.canon_bit, Block.canon_rxa]
  have on {i : Nat} (hi : i < 8) : a.lemcOn i = s.blk.bit RXA_LINK_CFG.EN i := (if_pos hi).trans (early _ i (by decide))
  have up {i : Nat} (hi : i < 8) : a.lemcUp i = s.blk.bit RXA_LINK_ST.UP i := (if_pos hi).trans (early _ i (by decide))
  have new {i : Nat} (hi : i < 8) (hn : Tbl.find a.rxa.lemc i = none) :
      Tbl.find t.rxa.lemc i = if s.blk.bit RXA_LINK_CFG.EN i then some (ph % 512) else none := by
    rw [edge.seen i (by omega), Block.lemcAfter, hn, on hi]
  refine ⟨?_, fun i hi => ⟨fun hn he => ⟨(new hi hn).trans (if_pos he), ?_⟩, fun hn he => (new hi hn).trans (if_neg (Bool.eq_false_iff.1 he)),
    fun x hx => ⟨?_, fun hu hc lo hi' => ?_⟩⟩⟩
  · rw [edge.kept.bit _ 0 (not_mem_lemcRegs (by decide)), seen]
  · exact edge.aligned i (by omega) hi hn ((on hi).trans he)
  · rw [edge.seen i (by omega), Block.lemcAfter, hx]
  · exact edge.err i x (by omega) hx ((up hi).trans hu) ((early _ 0 (by decide)).trans hc) (decide_eq_true ⟨lo, hi'⟩)

/-- Settles O16: each command's claim is shown from its own effect; an edge by what it has done to the links it has been at. -/
theorem receiveLinks : Obligations.ReceiveLinks :=
  ⟨sysrefEdge_off, sysrefEdge_runs, rxLinkEnable_runs, jesdLinkUp_runs, jesdLinkDown_runs⟩

end Sys2Proof.Machine
end

section
/-! SUPPORT. The ports of the transmit chain: their configuration, their links, and how a port ends what is live on it (R135, R172, R173, R184, R185). -/

namespace Sys2Proof.Machine

variable (b : Block)

@[simp] theorem Block.toQ_regs (q : Nat) : (b.toQ q).regs = b.regs := b.toTime_regs _
@[simp] theorem Block.toQ_rxa (q : Nat) : (b.toQ q).rxa = b.rxa := b.toTime_rxa _
@[simp] theorem Block.toQ_txc (q : Nat) : (b.toQ q).txc = b.txc := b.toTime_txc _
@[simp] theorem Block.toQ_out (q : Nat) : (b.toQ q).out = b.out := b.toTime_out _
@[simp] theorem Block.toQ_rd (q : Nat) (f : Fld) (n : Nat) : (b.toQ q).rd f n = b.rd f n := Block.rd_congr (b.toQ_regs q) f n
@[simp] theorem Block.toQ_bit (q : Nat) (f : Fld) (n : Nat) : (b.toQ q).bit f n = b.bit f n := Block.bit_of_rd (b.toQ_rd q f n)

@[simp] theorem Block.emit_rd (x : Output) (f : Fld) (n : Nat) : (b.emit x).rd f n = b.rd f n := Block.rd_congr (b.emit_regs x) f n
@[simp] theorem Block.emit_bit (x : Output) (f : Fld) (n : Nat) : (b.emit x).bit f n = b.bit f n := Block.bit_of_rd (b.emit_rd x f n)

theorem RegsKept.emit {a b : Block} {l : List Nat} (h : RegsKept a b l) (x : Output) : RegsKept a (b.emit x) l := h.trans (.of_regs (b.emit_regs x))

theorem Block.nowQ_congr {b c : Block} (h : c.clk = b.clk) : c.nowQ = b.nowQ := by
  unfold Block.nowQ
  rw [h]

/-- What a table shows at a key is listed. -/
theorem Tbl.mem_of_find {α : Type} {k : Nat} {v : α} : ∀ {t : Tbl α}, Tbl.find t k = some v → (k, v) ∈ t
  | (j, w) :: t, h => by
    rw [Tbl.find] at h
    split at h
    · next e =>
      cases h
      rw [e]
      exact List.mem_cons_self
    · split at h
      · cases h
      · exact List.mem_cons_of_mem _ (mem_of_find h)

/-! ### How a port ends a transmission (R183) -/

/-- The transmission with what is live of it on port `n` ended. -/
def Tx.endOn (t : Tx) (n : Nat) (e : PortEnd) : Tx :=
  { t with ports := t.ports.map (fun p => if p.port == n && p.ended == .live then { p with ended := e } else p) }

/-- Once ended there is nothing live on the port to end again. -/
theorem Tx.endOn_endOn (t : Tx) (n : Nat) {e : PortEnd} (he : e ≠ .live) (e' : PortEnd) : (t.endOn n e).endOn n e' = t.endOn n e := by
  unfold Tx.endOn
  rw [List.map_map]
  congr 1
  refine List.map_congr_left fun p _ => ?_
  by_cases hp : (p.port == n && p.ended == .live) = true
  · simp [Function.comp, hp, he]
  · simp [Function.comp, hp]

theorem Block.portEnd_of_find {h : Nat} {t : Tx} (ht : Tbl.find b.txc.txs h = some t) (n : Nat) (e : PortEnd) :
    b.portEnd h n e = b.setTx h (t.endOn n e) := by
  unfold Block.portEnd
  rw [ht]
  rfl

/-- Between `b` and `c` nothing but the transmissions changes. -/
def TxsOnly (b c : Block) : Prop := ∃ ts, c = { b with txc := { b.txc with txs := ts } }

theorem TxsOnly.refl (b : Block) : TxsOnly b b := ⟨b.txc.txs, rfl⟩

theorem TxsOnly.trans {a b c : Block} (h : TxsOnly a b) (g : TxsOnly b c) : TxsOnly a c := by
  obtain ⟨ts, rfl⟩ := h
  obtain ⟨us, rfl⟩ := g
  exact ⟨us, rfl⟩

theorem TxsOnly.regs {b c : Block} (h : TxsOnly b c) : c.regs = b.regs := by
  obtain ⟨ts, rfl⟩ := h
  rfl

theorem TxsOnly.clk {b c : Block} (h : TxsOnly b c) : c.clk = b.clk := by
  obtain ⟨ts, rfl⟩ := h
  rfl

theorem Block.portEnd_txsOnly (h n : Nat) (e : PortEnd) : TxsOnly b (b.portEnd h n e) := by
  unfold Block.portEnd
  split
  · exact ⟨_, rfl⟩
  · exact .refl b

theorem Block.portEnd_find_other {h k : Nat} (hk : k ≠ h) (n : Nat) (e : PortEnd) : Tbl.find (b.portEnd h n e).txc.txs k = Tbl.find b.txc.txs k := by
  unfold Block.portEnd
  split
  · exact Tbl.find_insert_other _ _ _ _ hk
  · rfl

/-! ### The link of a port goes down (R185) -/

/-- A listed transmission ends on port `n` as its link goes down, where its radiated interval has not ended. -/
def Block.downOne (n : Nat) (b : Block) (x : Nat × Tx) : Block := if b.nowQ < x.2.endQ then b.portEnd x.1 n (.down b.nowQ) else b

theorem Block.downOne_txsOnly (n : Nat) (x : Nat × Tx) : TxsOnly b (b.downOne n x) := by
  unfold Block.downOne
  split
  · exact b.portEnd_txsOnly _ _ _
  · exact .refl b

theorem Block.downOne_nowQ (n : Nat) (x : Nat × Tx) : (b.downOne n x).nowQ = b.nowQ := Block.nowQ_congr (b.downOne_txsOnly n x).clk

theorem Block.foldl_downOne_txsOnly (n : Nat) : ∀ (l : Tbl Tx) (b : Block), TxsOnly b (l.foldl (Block.downOne n) b)
  | [], b => .refl b
  | x :: l, b => (b.downOne_txsOnly n x).trans (foldl_downOne_txsOnly n l _)

/-- A transmission that has ended on the port stays as it is. -/
theorem Block.downOne_ended {h n : Nat} {t : Tx} (x : Nat × Tx) (ht : Tbl.find b.txc.txs h = some (t.endOn n (.down b.nowQ))) :
    Tbl.find (b.downOne n x).txc.txs h = some (t.endOn n (.down b.nowQ)) := by
  unfold Block.downOne
  split
  · by_cases e : h = x.1
    · rw [← e, b.portEnd_of_find ht, Tx.endOn_endOn _ _ (by simp)]
      exact Tbl.find_insert_same _ _ _
    · rw [b.portEnd_find_other e, ht]
  · exact ht

theorem Block.foldl_downOne_ended {h n : Nat} {t : Tx} : ∀ (l : Tbl Tx) (b : Block), Tbl.find b.txc.txs h = some (t.endOn n (.down b.nowQ)) →
    Tbl.find (l.foldl (Block.downOne n) b).txc.txs h = some (t.endOn n (.down b.nowQ))
  | [], _, ht => ht
  | x :: l, b, ht => by
    have later := foldl_downOne_ended (h := h) (n := n) (t := t) l (b.downOne n x)
    rw [b.downOne_nowQ n x] at later
    exact later (b.downOne_ended x ht)

/-- One whose radiated interval has not ended is ended as its entry is met. -/
theorem Block.downOne_met {h n : Nat} {t y : Tx} (ht : Tbl.find b.txc.txs h = some t) (hq : b.nowQ < y.endQ) :
    Tbl.find (b.downOne n (h, y)).txc.txs h = some (t.endOn n (.down b.nowQ)) := by
  unfold Block.downOne
  rw [if_pos hq, b.portEnd_of_find ht]
  exact Tbl.find_insert_same _ _ _

/-- An entry of another transmission, or of one whose radiated interval has ended, leaves it. -/
theorem Block.downOne_apart {h n : Nat} (x : Nat × Tx) (hx : ¬ (h = x.1 ∧ b.nowQ < x.2.endQ)) :
    Tbl.find (b.downOne n x).txc.txs h = Tbl.find b.txc.txs h := by
  unfold Block.downOne
  split
  · next live => exact b.portEnd_find_other (fun e => hx ⟨e, live⟩) n _
  · rfl

theorem Block.foldl_downOne_find {h n : Nat} {t : Tx} (l : Tbl Tx) (b : Block) (hm : (h, t) ∈ l) (ht : Tbl.find b.txc.txs h = some t)
    (hq : b.nowQ < t.endQ) : Tbl.find (l.foldl (Block.downOne n) b).txc.txs h = some (t.endOn n (.down b.nowQ)) := by
  induction l generalizing b with
  | nil => exact absurd hm List.not_mem_nil
  | cons x l ih =>
    rw [List.foldl_cons, ← b.downOne_nowQ n x]
    by_cases key : h = x.1 ∧ b.nowQ < x.2.endQ
    · refine Block.foldl_downOne_ended l _ ?_
      rw [b.downOne_nowQ n x]
      obtain ⟨k, y⟩ := x
      obtain ⟨rfl, live⟩ := key
      exact b.downOne_met ht live
    · have rest : (h, t) ∈ l := by
        rcases List.mem_cons.1 hm with rfl | hm
        · exact absurd ⟨rfl, hq⟩ key
        · exact hm
      refine ih _ rest ((b.downOne_apart x key).trans ht) ?_
      rw [b.downOne_nowQ n x]
      exact hq

/-- Every transmission still to radiate on port `n` ends there. -/
def Block.portsDown (n : Nat) : Block := b.txc.txs.foldl (Block.downOne n) b

theorem Block.portDown_eq (n : Nat) : b.portDown n =
    if b.paOn n then ((b.portsDown n).paFall n b.nowQ).emit (.pinAt "TR_SW" n true b.nowQ) else b.portsDown n := by
  unfold Block.portDown Block.portsDown Block.downOne
  rfl

/-! ### The pins of a port return (R184) -/

/-- The registers in which the pins of a port show. -/
def pinRegs (n : Nat) : List Nat := [TXC_STAT.all.base, TXC_PORT_ST.all.off n]

/-- The blanking of port `n` ends BLK_POST after `q`, where its PA enable ends (R186). -/
def Block.blankEnd (n q : Nat) : Block :=
  { b with txc := { b.txc with paOff := Tbl.put (fun _ => 0) b.txc.paOff n q } }.gapStop (8 + n) (q + b.blkPost)

theorem Block.gapStop_regs (src q : Nat) : (b.gapStop src q).regs = b.regs := rfl

theorem Block.gapStop_txc (src q : Nat) : (b.gapStop src q).txc = b.txc := rfl

theorem Block.gapStop_clk (src q : Nat) : (b.gapStop src q).clk = b.clk := rfl

theorem Block.gapStop_out (src q : Nat) : (b.gapStop src q).out = b.out := rfl

theorem Block.blankEnd_regs (n q : Nat) : (b.blankEnd n q).regs = b.regs := Block.gapStop_regs _ _ _

theorem Block.paFall_eq (n q : Nat) : b.paFall n q = (((((b.blankEnd n q).wr TXC_STAT.PA ((b.blankEnd n q).rd TXC_STAT.PA &&& (255 ^^^ 2 ^ n))).clr
    TXC_PORT_ST.ACTIVE n).emit (.pinAt "PA_EN" n true q)).emit (.pinAt "TR_SW" n true (q + (b.blankEnd n q).trLag n))) := rfl

theorem Block.paFall_txs (n q : Nat) : (b.paFall n q).txc.txs = b.txc.txs := by
  rw [b.paFall_eq, Block.emit_txc, Block.emit_txc, Block.clr_txc, Block.wr_txc]
  exact (congrArg Txc.txs (Block.gapStop_txc _ _ _)).trans rfl

theorem Block.paFall_clk (n q : Nat) : (b.paFall n q).clk = b.clk := by
  rw [b.paFall_eq, Block.emit_clk, Block.emit_clk, Block.clr_clk, Block.wr_clk]
  exact Block.gapStop_clk _ _ _

theorem Block.paFall_kept (n q : Nat) : RegsKept b (b.paFall n q) (pinRegs n) := by
  have ended : RegsKept b (b.blankEnd n q) (pinRegs n) := .of_regs (b.blankEnd_regs n q)
  rw [b.paFall_eq]
  exact (((ended.wr TXC_STAT.PA _ 0 List.mem_cons_self).clr TXC_PORT_ST.ACTIVE n (List.mem_cons_of_mem _ List.mem_cons_self)).emit _).emit _

/-- A field beside PA and ACTIVE stays. -/
theorem Block.paFall_rd (n q : Nat) (f : Fld) (m : Nat) (hs : f.off m ≠ TXC_STAT.all.base ∨ 7 < f.lo) (hl : 0 < f.lo) :
    (b.paFall n q).rd f m = b.rd f m := by
  rw [b.paFall_eq, ← Block.rd_congr (b.blankEnd_regs n q)]
  generalize b.blankEnd n q = c
  rw [Block.emit_rd, Block.emit_rd]
  refine (Block.rd_wr_disjoint _ TXC_PORT_ST.ACTIVE f _ n m (.inl hl)).trans ?_
  rcases hs with hs | hs
  · exact c.rd_wr_other TXC_STAT.PA f _ 0 m hs
  · exact c.rd_wr_disjoint TXC_STAT.PA f _ 0 m (.inl hs)

theorem Block.portDown_rd (n : Nat) (f : Fld) (m : Nat) (hs : f.off m ≠ TXC_STAT.all.base ∨ 7 < f.lo) (hl : 0 < f.lo) :
    (b.portDown n).rd f m = b.rd f m := by
  have ended : (b.portsDown n).rd f m = b.rd f m := Block.rd_congr (Block.foldl_downOne_txsOnly n _ b).regs f m
  rw [b.portDown_eq]
  split
  · rw [Block.emit_rd, Block.paFall_rd _ _ _ _ _ hs hl, ended]
  · exact ended

theorem Block.portDown_kept (n : Nat) : RegsKept b (b.portDown n) (pinRegs n) := by
  have ended : RegsKept b (b.portsDown n) (pinRegs n) := .of_regs (Block.foldl_downOne_txsOnly n _ b).regs
  rw [b.portDown_eq]
  split
  · exact (ended.trans ((b.portsDown n).paFall_kept n b.nowQ)).emit _
  · exact ended

theorem Block.portDown_find {h n : Nat} {t : Tx} (ht : Tbl.find b.txc.txs h = some t) (hq : b.nowQ < t.endQ) :
    Tbl.find (b.portDown n).txc.txs h = some (t.endOn n (.down b.nowQ)) := by
  have ended : Tbl.find (b.portsDown n).txc.txs h = some (t.endOn n (.down b.nowQ)) :=
    Block.foldl_downOne_find _ b (Tbl.mem_of_find ht) ht hq
  rw [b.portDown_eq]
  split
  · rw [Block.emit_txc, Block.paFall_txs, ended]
  · exact ended

end Sys2Proof.Machine
end

section
/-! SUPPORT. The commands on the ports of the transmit chain (R135, R172, R173, R185). -/

namespace Sys2Proof.Machine

variable (b : Block)

/-! ### The link of a port goes down -/

/-- A mask of eight bits with one of them cleared. -/
theorem bitOf_cleared (x : Nat) {n : Nat} (hn : n < 8) : bitOf ((x &&& (255 ^^^ 2 ^ n)) % 2 ^ 8) n = false := by
  have full : (255 : Nat).testBit n = true := by
    rw [show (255 : Nat) = 2 ^ 8 - 1 by decide, Nat.testBit_two_pow_sub_one, decide_eq_true hn]
  rw [bitOf, Nat.testBit_mod_two_pow, Nat.testBit_and, Nat.testBit_xor, Nat.testBit_two_pow_self, full, Bool.xor_self, Bool.and_false, Bool.and_false]

/-- The link of port `n` is no longer up, and LINKS shows it. -/
def Block.linkCut (n : Nat) : Block := (b.clr TXC_PORT_ST.LINK_UP n).wr TXC_STAT.LINKS (b.rd TXC_STAT.LINKS &&& (255 ^^^ 2 ^ n))

theorem Block.txLinkDown_of_down {n : Nat} (h : b.bit TXC_PORT_ST.LINK_UP n = false) : b.txLinkDown n = b := by
  unfold Block.txLinkDown
  rw [h]
  rfl

theorem Block.txLinkDown_of_up {n : Nat} (h : b.bit TXC_PORT_ST.LINK_UP n = true) :
    b.txLinkDown n = ((b.linkCut n).portDown n).set TXC_EVT.LINK_DOWN := by
  unfold Block.txLinkDown
  rw [h]
  rfl

/-- A field beside PA, ACTIVE and the events is as the cut of the link left it. -/
theorem Block.txLinkDown_rd {n : Nat} (h : b.bit TXC_PORT_ST.LINK_UP n = true) (f : Fld) (m : Nat) (he : f.off m ≠ TXC_EVT.all.base)
    (hs : f.off m ≠ TXC_STAT.all.base ∨ 7 < f.lo) (hl : 0 < f.lo) : (b.txLinkDown n).rd f m = (b.linkCut n).rd f m := by
  rw [b.txLinkDown_of_up h, Block.rd_set_other _ _ _ _ _ he, Block.portDown_rd _ _ _ _ hs hl]

theorem txcStat_ne_portSt (n : Nat) : TXC_STAT.all.base ≠ TXC_PORT_ST.all.off n := by
  simp only [Fld.off]
  omega

theorem txcEvt_ne_portSt (n : Nat) : TXC_EVT.all.base ≠ TXC_PORT_ST.all.off n := by
  simp only [Fld.off]
  omega

theorem Block.linkCut_up (n : Nat) : (b.linkCut n).bit TXC_PORT_ST.LINK_UP n = false := by
  unfold Block.linkCut
  rw [Block.bit_wr_other _ _ _ _ _ _ (.inl (txcStat_ne_portSt n).symm), Block.bit_clr_same _ _ _ (by decide)]

theorem Block.linkCut_links {n : Nat} (hn : n < 8) : bitOf ((b.linkCut n).rd TXC_STAT.LINKS) n = false := by
  unfold Block.linkCut
  rw [Block.rd_wr_same _ _ _ _ (by decide)]
  exact bitOf_cleared _ hn

theorem Block.txLinkDown_up (n : Nat) : (b.txLinkDown n).bit TXC_PORT_ST.LINK_UP n = false := by
  cases h : b.bit TXC_PORT_ST.LINK_UP n
  · rw [b.txLinkDown_of_down h, h]
  · rw [Block.bit_of_rd (b.txLinkDown_rd h TXC_PORT_ST.LINK_UP n (txcEvt_ne_portSt n).symm (.inl (txcStat_ne_portSt n).symm) (by decide)),
      Block.linkCut_up]

/-- The registers that the fall of a port's link can change. -/
def portRegs (n : Nat) : List Nat := TXC_EVT.all.base :: pinRegs n

theorem Block.txLinkDown_kept (n : Nat) : RegsKept b (b.txLinkDown n) (portRegs n) := by
  cases h : b.bit TXC_PORT_ST.LINK_UP n
  · rw [b.txLinkDown_of_down h]
    exact .refl _ _
  · have cut : RegsKept b (b.linkCut n) (portRegs n) :=
      ((RegsKept.refl b _).clr TXC_PORT_ST.LINK_UP n (by simp [portRegs, pinRegs, Fld.off])).wr TXC_STAT.LINKS _ 0 (by simp [portRegs, pinRegs, Fld.off])
    rw [b.txLinkDown_of_up h]
    exact (cut.trans (((b.linkCut n).portDown_kept n).mono (List.subset_cons_self _ _))).set _ 0 List.mem_cons_self

theorem txLinkDown_eq (s : State) {n : Nat} (hn : n < 8) : exec (.txLinkDown n) s = runCmd s (fun b => b.txLinkDown n) := by
  change execTxLinkDown n s = _
  unfold execTxLinkDown
  simp only [Nat.mod_eq_of_lt hn]

theorem txLinkDown_idle (s : State) (n : Nat) (hn : n < 8) (h : s.blk.bit TXC_PORT_ST.LINK_UP n = false) : NoEffect (.txLinkDown n) s :=
  gives_of_runCmd (txLinkDown_eq s hn) (s.blk.start.txLinkDown_of_down h)

theorem txLinkDown_runs (s : State) (n : Nat) (hn : n < 8) (h : s.blk.bit TXC_PORT_ST.LINK_UP n = true) : Runs (.txLinkDown n) s (fun t =>
    t.bit TXC_PORT_ST.LINK_UP n = false ∧ bitOf (t.rd TXC_STAT.LINKS) n = false ∧ t.bit TXC_EVT.LINK_DOWN = true
    ∧ ∀ h x, Tbl.find s.blk.txc.txs h = some x → s.blk.nowQ < x.endQ → Tbl.find t.txc.txs h = some { x with
        ports := x.ports.map (fun p => if p.port == n && p.ended == .live then { p with ended := .down s.blk.nowQ } else p) }) := by
  refine runs_of_effect (txLinkDown_eq s hn) rfl ⟨?_, ?_, ?_, fun k x hx hq => ?_⟩
  · rw [Block.canon_bit, Block.txLinkDown_up]
  · rw [Block.canon_rd, s.blk.start.txLinkDown_rd h TXC_STAT.LINKS 0 (by decide) (.inr (by decide)) (by decide), Block.linkCut_links _ hn]
  · rw [Block.canon_bit, s.blk.start.txLinkDown_of_up h]
    exact Block.bit_set_same _ _ _ (by decide) (by decide)
  · rw [Block.canon_txc, s.blk.start.txLinkDown_of_up h, Block.set_txc]
    exact (s.blk.start.linkCut n).portDown_find hx hq

/-! ### A port is configured (R173) -/

/-- The test of a port reads its band, rate and frequency and the region profile. -/
theorem Block.portRefused_congr {b c : Block} {n : Nat} (band : c.rd TXC_PORT_CFG.BAND n = b.rd TXC_PORT_CFG.BAND n)
    (rate : c.rd TXC_PORT_CFG.RATE n = b.rd TXC_PORT_CFG.RATE n) (nco : c.reg (TXC_PORT_NCO.all.off n) = b.reg (TXC_PORT_NCO.all.off n))
    (region : ∀ j, c.reg (TXC_REGION_ACT.all.off j) = b.reg (TXC_REGION_ACT.all.off j)) : c.portRefused n = b.portRefused n := by
  have byte (x i : Nat) : c.regionByte x i = b.regionByte x i := by
    unfold Block.regionByte
    rw [region]
  unfold Block.portRefused Block.bandUsed Block.offCentre Block.bandNch Block.bandProfile
  simp only [band, rate, nco, byte]

/-- The bits of TXC_PORT_CFG_n are stored, and ERR stays. -/
def Block.portStored (n : Nat) (v : BitVec 32) : Block := (b.setReg (TXC_PORT_CFG.all.off n) (v &&& 0xE71)).flag TXC_PORT_CFG.ERR (b.bit TXC_PORT_CFG.ERR n) n

/-- A port whose EN has changed is down and waits for a SYSREF edge. -/
def Block.portRestarted (n : Nat) : Block :=
  Block.clr { b.txLinkDown n with rxa := { (b.txLinkDown n).rxa with lemc := Tbl.erase (b.txLinkDown n).rxa.lemc (8 + n) } } TXC_PORT_ST.ALIGNED n

/-- ERR of a port as it now tests. -/
def Block.portTested (n : Nat) : Block := b.flag TXC_PORT_CFG.ERR (b.portRefused n) n

theorem Block.portStored_reg (n : Nat) (v : BitVec 32) :
    (b.portStored n v).reg (TXC_PORT_CFG.all.off n) = fput (v &&& 0xE71) TXC_PORT_CFG.ERR (b.rd TXC_PORT_CFG.ERR n) := by
  unfold Block.portStored
  rw [b.rd_flag TXC_PORT_CFG.ERR n rfl]
  refine (Block.reg_setReg_same _ _ _).trans ?_
  rw [show TXC_PORT_CFG.ERR.off n = TXC_PORT_CFG.all.off n from rfl, Block.reg_setReg_same]

theorem Block.portStored_kept (n : Nat) (v : BitVec 32) : RegsKept b (b.portStored n v) [TXC_PORT_CFG.all.off n] :=
  ((RegsKept.refl b _).setReg List.mem_cons_self _).wr TXC_PORT_CFG.ERR _ n List.mem_cons_self

theorem Block.portStored_en (n : Nat) (v : BitVec 32) : (b.portStored n v).rd TXC_PORT_CFG.EN n = fget v TXC_PORT_CFG.EN := by
  refine (congrArg (fget · TXC_PORT_CFG.EN) (b.portStored_reg n v)).trans ?_
  rw [fget_fput_apart _ _ _ _ (by decide)]
  exact fget_and v _ _ (by decide)

theorem Block.txPortCfg_eq (n : Nat) (v : BitVec 32) : b.txPortCfg n v =
    if fget v TXC_PORT_CFG.EN = b.rd TXC_PORT_CFG.EN n then b.portStored n v
    else if (b.portStored n v).bit TXC_PORT_CFG.EN n then ((b.portStored n v).portRestarted n).portTested n
    else (b.portStored n v).portRestarted n := by
  have turned : ((b.portStored n v).bit TXC_PORT_CFG.EN n == b.bit TXC_PORT_CFG.EN n) = true ↔ fget v TXC_PORT_CFG.EN = b.rd TXC_PORT_CFG.EN n := by
    rw [b.bit_beq_iff _ _ _ rfl, b.portStored_en]
  simp only [← turned]
  rfl

theorem Block.portRestarted_kept (n : Nat) : RegsKept b (b.portRestarted n) (portRegs n) := by
  have down : RegsKept b { b.txLinkDown n with rxa := { (b.txLinkDown n).rxa with lemc := Tbl.erase (b.txLinkDown n).rxa.lemc (8 + n) } } (portRegs n) :=
    (b.txLinkDown_kept n).trans (.of_regs rfl)
  exact down.clr TXC_PORT_ST.ALIGNED n (by simp [portRegs, pinRegs, Fld.off])

theorem Block.portRestarted_up (n : Nat) : (b.portRestarted n).bit TXC_PORT_ST.LINK_UP n = false := by
  unfold Block.portRestarted
  rw [Block.clr, Block.bit_wr_disjoint _ _ _ _ _ _ (by decide)]
  exact (Block.bit_of_rd (Block.rd_congr rfl _ n)).trans (b.txLinkDown_up n)

theorem Block.portRestarted_aligned (n : Nat) : (b.portRestarted n).bit TXC_PORT_ST.ALIGNED n = false := Block.bit_clr_same _ _ n (by decide)

theorem portCfg_not_portRegs (n m : Nat) : TXC_PORT_CFG.all.off m ∉ portRegs n := by
  simp [portRegs, pinRegs, Fld.off]
  omega

theorem Block.portTested_kept (n : Nat) : RegsKept b (b.portTested n) [TXC_PORT_CFG.all.off n] :=
  (RegsKept.refl b _).wr TXC_PORT_CFG.ERR _ n List.mem_cons_self

theorem Block.portTested_err {n : Nat} (hn : n < 8) : (b.portTested n).bit TXC_PORT_CFG.ERR n = (b.portTested n).portRefused n := by
  have refused : (b.portTested n).portRefused n = b.portRefused n :=
    Block.portRefused_congr (Block.rd_wr_disjoint _ TXC_PORT_CFG.ERR _ _ n n (by decide)) (Block.rd_wr_disjoint _ TXC_PORT_CFG.ERR _ _ n n (by decide))
      (b.portTested_kept n _ (by simp [Fld.off])) (fun j => b.portTested_kept n _ (by simp [Fld.off]; omega))
  rw [refused]
  exact Block.bit_flag_same _ _ _ _ (by decide) (by decide)

theorem txPortEnable_eq (s : State) {n : Nat} (hn : n < 8) (v : Word) : exec (.txPortEnable n v) s = runCmd s (fun b => b.txPortCfg n v) := by
  change execTxPortEnable n v s = _
  unfold execTxPortEnable
  simp only [Nat.mod_eq_of_lt hn]

theorem txPortEnable_same (s : State) (n : Nat) (v : Word) (hn : n < 8) (h : fget v TXC_PORT_CFG.EN = s.blk.rd TXC_PORT_CFG.EN n) :
    Runs (.txPortEnable n v) s (fun t => t.reg (TXC_PORT_CFG.all.off n) = fput (v &&& 0xE71) TXC_PORT_CFG.ERR (s.blk.rd TXC_PORT_CFG.ERR n)
      ∧ t.txc = s.blk.txc ∧ RegsKept s.blk t [TXC_PORT_CFG.all.off n]) := by
  have effect : s.blk.start.txPortCfg n v = s.blk.start.portStored n v := (s.blk.start.txPortCfg_eq n v).trans (if_pos h)
  exact runs_of_effect (txPortEnable_eq s hn v) effect ⟨(Block.canon_reg _ _).trans (s.blk.start.portStored_reg n v), rfl, (s.blk.start.portStored_kept n v).canon⟩

theorem txPortEnable_changed (s : State) (n : Nat) (v : Word) (hn : n < 8) (h : fget v TXC_PORT_CFG.EN ≠ s.blk.rd TXC_PORT_CFG.EN n) :
    Runs (.txPortEnable n v) s (fun t => t.rd TXC_PORT_CFG.EN n = fget v TXC_PORT_CFG.EN ∧ t.bit TXC_PORT_ST.LINK_UP n = false
      ∧ t.bit TXC_PORT_ST.ALIGNED n = false ∧ (fget v TXC_PORT_CFG.EN = 1 → t.bit TXC_PORT_CFG.ERR n = t.portRefused n)) := by
  let c := (s.blk.start.portStored n v).portRestarted n
  have en : c.rd TXC_PORT_CFG.EN n = fget v TXC_PORT_CFG.EN :=
    (((s.blk.start.portStored n v).portRestarted_kept n).rd TXC_PORT_CFG.EN n (portCfg_not_portRegs n n)).trans (s.blk.start.portStored_en n v)
  have st (f : Fld) (m : Nat) (hf : f.off m = TXC_PORT_ST.all.off m) : (c.portTested n).bit f m = c.bit f m :=
    (c.portTested_kept n).bit f m (by rw [hf]; simp [Fld.off]; omega)
  have on : (s.blk.start.portStored n v).bit TXC_PORT_CFG.EN n = (fget v TXC_PORT_CFG.EN != 0) := by
    unfold Block.bit
    rw [s.blk.start.portStored_en n v]
  have effect : s.blk.start.txPortCfg n v = if fget v TXC_PORT_CFG.EN != 0 then c.portTested n else c := by
    rw [Block.txPortCfg_eq, Block.start_rd, if_neg h, on]
  refine runs_of_effect (txPortEnable_eq s hn v) effect ?_
  split
  · refine ⟨?_, ?_, ?_, fun _ => ?_⟩
    · rw [Block.canon_rd, ← en]
      exact Block.rd_wr_disjoint _ TXC_PORT_CFG.ERR _ _ n n (by decide)
    · rw [Block.canon_bit, st TXC_PORT_ST.LINK_UP n rfl, Block.portRestarted_up]
    · rw [Block.canon_bit, st TXC_PORT_ST.ALIGNED n rfl, Block.portRestarted_aligned]
    · rw [Block.canon_bit, c.portTested_err hn]
      exact (Block.portRefused_congr (Block.canon_rd _ _ _) (Block.canon_rd _ _ _) (Block.canon_reg _ _) (fun _ => Block.canon_reg _ _)).symm
  · next off =>
    refine ⟨(Block.canon_rd _ _ _).trans en, ?_, ?_, fun one => absurd (by rw [one]; rfl) off⟩
    · rw [Block.canon_bit, Block.portRestarted_up]
    · rw [Block.canon_bit, Block.portRestarted_aligned]

/-! ### The link of a port comes up (R135, R172) -/

theorem txLinkUp_cases (s : State) (n : Nat) (hn : n < 8) :
    if s.blk.bit TXC_PORT_CFG.EN n = true ∧ s.blk.rd TXC_PORT_CFG.RATE n ≠ 3 ∧ s.blk.bit TXC_PORT_ST.ALIGNED n = true
        ∧ s.blk.bit TXC_PORT_ST.LINK_UP n = false then
      Gives (.txLinkUp n) s (((s.blk.start.set TXC_PORT_ST.LINK_UP n).wr TXC_STAT.LINKS (s.blk.rd TXC_STAT.LINKS ||| 2 ^ n)).set TXC_EVT.LINK_UP)
    else NoEffect (.txLinkUp n) s := by
  have effect : exec (.txLinkUp n) s = runCmd s (fun b => if b.bit TXC_PORT_CFG.EN n && b.rd TXC_PORT_CFG.RATE n != 3 && b.bit TXC_PORT_ST.ALIGNED n
      && !b.bit TXC_PORT_ST.LINK_UP n then ((b.set TXC_PORT_ST.LINK_UP n).wr TXC_STAT.LINKS (b.rd TXC_STAT.LINKS ||| 2 ^ n)).set TXC_EVT.LINK_UP else b) := by
    change execTxLinkUp n s = _
    unfold execTxLinkUp
    simp only [Nat.mod_eq_of_lt hn]
  have ready : (s.blk.start.bit TXC_PORT_CFG.EN n && s.blk.start.rd TXC_PORT_CFG.RATE n != 3 && s.blk.start.bit TXC_PORT_ST.ALIGNED n
      && !s.blk.start.bit TXC_PORT_ST.LINK_UP n) = true ↔ s.blk.bit TXC_PORT_CFG.EN n = true ∧ s.blk.rd TXC_PORT_CFG.RATE n ≠ 3
        ∧ s.blk.bit TXC_PORT_ST.ALIGNED n = true ∧ s.blk.bit TXC_PORT_ST.LINK_UP n = false := by
    simp only [Block.start_bit, Block.start_rd, Bool.and_eq_true, bne_iff_ne, Bool.not_eq_true', and_assoc]
  split
  · next h => exact gives_of_runCmd effect (if_pos (ready.2 h))
  · next h => exact gives_of_runCmd effect (if_neg (fun k => h (ready.1 k)))

end Sys2Proof.Machine
end

section
/-! SUPPORT. A port of a transmission starts and ends (R174, R184, R186, R197). -/

namespace Sys2Proof.Machine

variable (b : Block)

@[simp] theorem Block.setTx_txs (h : Nat) (t : Tx) : (b.setTx h t).txc.txs = Tbl.insert b.txc.txs h t := rfl

/-- An entry of a table whose values are each replaced. -/
theorem Tbl.find_map_snd {α β : Type} (f : α → β) : ∀ (t : Tbl α) (k : Nat), Tbl.find (t.map (fun e => (e.1, f e.2))) k = (Tbl.find t k).map f
  | [], _ => rfl
  | (j, v) :: t, k => by
    rw [List.map_cons, Tbl.find, Tbl.find]
    split
    · rfl
    · split
      · rfl
      · exact find_map_snd f t k

/-! ### The ports of a transmission -/

/-- Port `n` of the transmission is live and its PA enable has not come due. -/
def Tx.waits (t : Tx) (n : Nat) : Bool := t.ports.any (fun p => p.port == n && !p.started && p.ended == .live)

/-- Port `n` of the transmission is on the air: started and live. -/
def Tx.onAir (t : Tx) (n : Nat) : Bool := t.ports.any (fun p => p.port == n && p.started && p.ended == .live)

/-- The transmission with port `n` started. -/
def Tx.startOn (t : Tx) (n : Nat) : Tx := { t with ports := t.ports.map (fun p => if p.port == n then { p with started := true } else p) }

theorem Tx.waits_false {t : Tx} {n : Nat} (h : ∀ p ∈ t.ports, p.port = n → p.started = true ∨ p.ended ≠ .live) : t.waits n = false := by
  refine List.any_eq_false.2 fun p hp => ?_
  by_cases e : p.port = n
  · rcases h p hp e with k | k <;> simp [k]
  · simp [e]

theorem Tx.onAir_false {t : Tx} {n : Nat} (h : ∀ p ∈ t.ports, p.port = n → p.started = false ∨ p.ended ≠ .live) : t.onAir n = false := by
  refine List.any_eq_false.2 fun p hp => ?_
  by_cases e : p.port = n
  · rcases h p hp e with k | k <;> simp [k]
  · simp [e]

/-- A port that was waiting is on the air once started. -/
theorem Tx.startOn_onAir {t : Tx} {n : Nat} (h : t.waits n = true) : (t.startOn n).onAir n = true := by
  obtain ⟨p, hp, hw⟩ := List.any_eq_true.1 h
  simp only [Bool.and_eq_true, beq_iff_eq] at hw
  obtain ⟨⟨port, -⟩, live⟩ := hw
  refine List.any_eq_true.2 ⟨{ p with started := true }, List.mem_map.2 ⟨p, hp, by simp [port]⟩, ?_⟩
  simp [port, live]

/-- No port `n` of a transmission that has ended there is live. -/
theorem Tx.endOn_not_live (t : Tx) (n : Nat) {e : PortEnd} (he : e ≠ .live) : (t.endOn n e).ports.any (fun p => p.port == n && p.ended == .live) = false := by
  refine List.any_eq_false.2 fun p hp => ?_
  obtain ⟨p0, -, rfl⟩ := List.mem_map.1 hp
  split
  · simp [he]
  · next h => exact h

/-! ### What a transmission radiates (R174) -/

/-- What is radiated depends on the frame buffers and on the sequence index in force. -/
theorem Block.txRadiate_congr {b c : Block} (fbLen : c.rxa.fbLen = b.rxa.fbLen) (fb : c.rxa.fb = b.rxa.fb) (mas : c.mas = b.mas)
    (epoch : c.rd HOOP_EPOCH_ST.ST = b.rd HOOP_EPOCH_ST.ST) (act : c.reg HOOP_ACT_SF.all.base = b.reg HOOP_ACT_SF.all.base)
    (pend : c.rd MAS_BCN_CTL.SEQ_OFS_PEND = b.rd MAS_BCN_CTL.SEQ_OFS_PEND) (ofs : c.rd MAS_BCN_CTL.SEQ_OFS = b.rd MAS_BCN_CTL.SEQ_OFS)
    (t : Tx) (n : Nat) : c.txRadiate t n = b.txRadiate t n := by
  have seq (x : BitVec 64) : c.seqOfsAt x = b.seqOfsAt x := by
    unfold Block.seqOfsAt
    simp only [mas, epoch, act, pend, ofs]
  have frame (f : TxFrame) : c.askFrame f = b.askFrame f := by
    unfold Block.askFrame
    rw [fbLen]
  unfold Block.txRadiate Block.txSeq Block.txSymbols Block.fbBytes
  simp only [seq, frame, fbLen, fb]

/-! ### The PA enable of a port asserts (R184, R186) -/

/-- The blanking of the receive ports begins, and the pins of the port fall. -/
def Block.pinsFall (n q : Nat) : Block :=
  ((b.gapStart (8 + n) (b.reg (TXC_BLANK.all.off n)) (q - b.blkPre)).emit (.pinAt "TR_SW" n false (q - b.trLead n))).emit (.pinAt "PA_EN" n false q)

theorem Block.paRise_eq (n q : Nat) : b.paRise n q = if b.paOn n then b else b.pinsFall n q := rfl

theorem Block.pinsFall_out (n q : Nat) :
    (b.pinsFall n q).out = b.out ++ [.pinAt "TR_SW" n false (q - b.rd TXC_PORT_TRSW.LEAD n * qDsp), .pinAt "PA_EN" n false q] :=
  List.append_assoc _ _ _

theorem Block.pinsFall_gaps (n q : Nat) : (b.pinsFall n q).rxa.gaps = b.rxa.gaps
    ++ [{ src := 8 + n, ports := b.reg (TXC_BLANK.all.off n), start := q - b.rd TXC_BLK_MARG.PRE * qDsp, stop := none }] := rfl

/-- From `b` to `c` no register changes, nor the clock, the transmissions, the frame buffers or the beacon builder. -/
structure AirKept (b c : Block) : Prop where
  regs : c.regs = b.regs
  clk : c.clk = b.clk
  txs : c.txc.txs = b.txc.txs
  fbLen : c.rxa.fbLen = b.rxa.fbLen
  fb : c.rxa.fb = b.rxa.fb
  mas : c.mas = b.mas

theorem Block.paRise_air (n q : Nat) : AirKept b (b.paRise n q) := by
  rw [b.paRise_eq]
  split <;> exact ⟨rfl, rfl, rfl, rfl, rfl, rfl⟩

/-! ### A port of a transmission starts -/

/-- PA and ACTIVE show the port, and the samples that saturate count (R174). -/
def Block.paShown (n c : Nat) : Block := ((b.wr TXC_STAT.PA (b.rd TXC_STAT.PA ||| 2 ^ n)).set TXC_PORT_ST.ACTIVE n).incBy TXC_CNT_CLIP.all c

/-- With saturated samples every transmission on the air at the port carries CLIP. -/
def Block.clipShown (n c : Nat) : Block := b.when (decide (c ≠ 0)) (fun b => (b.portClip n).set TXC_EVT.CLIP)

/-- The transmission is on the air, before its samples are driven out. -/
def Block.txAired (h n c q : Nat) (t : Tx) : Block := (((b.paRise n q).setTx h (t.startOn n)).paShown n c).clipShown n c

/-- The effect of a start that no clearing suppresses. -/
def Block.txStarted (h n c q : Nat) (t : Tx) : Block := (b.txAired h n c q t).emit ((b.txAired h n c q t).txRadiate t n)

/-- CLIP of a transmission that is on the air at the port. -/
def Tx.clipOn (t : Tx) (n : Nat) : Tx := if t.onAir n then { t with clip := true } else t

theorem Tx.clipOn_of_onAir {t : Tx} {n : Nat} (h : t.onAir n = true) : t.clipOn n = { t with clip := true } := if_pos h

theorem Block.portClip_find (n k : Nat) : Tbl.find (b.portClip n).txc.txs k = (Tbl.find b.txc.txs k).map (·.clipOn n) :=
  Tbl.find_map_snd (fun t : Tx => t.clipOn n) b.txc.txs k

theorem Block.portClip_regs (n : Nat) : (b.portClip n).regs = b.regs := rfl

/-- The registers that a start can change. -/
def startRegs (n : Nat) : List Nat := [TXC_STAT.all.base, TXC_PORT_ST.all.off n, TXC_CNT_CLIP.all.base, TXC_EVT.all.base]

theorem Block.paShown_mas (n c : Nat) : (b.paShown n c).mas = b.mas := rfl

theorem Block.paShown_kept (n c : Nat) : RegsKept b (b.paShown n c) (startRegs n) :=
  (((RegsKept.refl b _).wr TXC_STAT.PA _ 0 (by simp [startRegs, Fld.off])).set TXC_PORT_ST.ACTIVE n (by simp [startRegs, Fld.off])).incBy
    TXC_CNT_CLIP.all c 0 (by simp [startRegs, Fld.off])

theorem Block.clipShown_kept (n c : Nat) : RegsKept b (b.clipShown n c) [TXC_EVT.all.base] :=
  (RegsKept.refl b _).when (RegsKept.set (b := b.portClip n) (.of_regs (b.portClip_regs n)) TXC_EVT.CLIP 0 List.mem_cons_self) _

theorem Block.clipShown_clk (n c : Nat) : (b.clipShown n c).clk = b.clk := Block.when_keeps (·.clk) rfl _
theorem Block.clipShown_rxa (n c : Nat) : (b.clipShown n c).rxa = b.rxa := Block.when_keeps (·.rxa) rfl _
theorem Block.clipShown_mas (n c : Nat) : (b.clipShown n c).mas = b.mas := Block.when_keeps (·.mas) rfl _
theorem Block.clipShown_out (n c : Nat) : (b.clipShown n c).out = b.out := Block.when_keeps (·.out) rfl _

theorem Block.clipShown_find (n c k : Nat) :
    Tbl.find (b.clipShown n c).txc.txs k = if c ≠ 0 then (Tbl.find b.txc.txs k).map (·.clipOn n) else Tbl.find b.txc.txs k := by
  unfold Block.clipShown
  by_cases hc : c ≠ 0
  · rw [decide_eq_true hc, if_pos hc, Block.when_true]
    exact b.portClip_find n k
  · rw [decide_eq_false hc, if_neg hc, Block.when_false]

section
variable (h n c q : Nat) (t : Tx)

theorem Block.txAired_kept : RegsKept b (b.txAired h n c q t) (startRegs n) := by
  have risen : RegsKept b ((b.paRise n q).setTx h (t.startOn n)) (startRegs n) := .of_regs (b.paRise_air n q).regs
  have shown := risen.trans (Block.paShown_kept _ n c)
  exact shown.trans ((Block.clipShown_kept _ n c).mono (by simp [startRegs]))

theorem Block.txAired_clk : (b.txAired h n c q t).clk = b.clk := (Block.clipShown_clk _ n c).trans (b.paRise_air n q).clk

theorem Block.txAired_rxa : (b.txAired h n c q t).rxa = (b.paRise n q).rxa := Block.clipShown_rxa _ n c

theorem Block.txAired_out : (b.txAired h n c q t).out = (b.paRise n q).out := Block.clipShown_out _ n c

theorem Block.txAired_mas : (b.txAired h n c q t).mas = b.mas :=
  (Block.clipShown_mas _ n c).trans ((Block.paShown_mas _ n c).trans (b.paRise_air n q).mas)

/-- The registers of the Hoop and of the beacon builder are none of those that a start can change. -/
theorem not_mem_startRegs {o n : Nat} (ho : o < TXC_STAT.all.base ∨ (o % 32 ≠ TXC_PORT_ST.all.base % 32 ∧ TXC_CNT_CLIP.all.base < o)) : o ∉ startRegs n := by
  simp only [startRegs, List.mem_cons, List.not_mem_nil, or_false, not_or, Fld.off] at ho ⊢
  omega

theorem Block.txAired_radiate : (b.txAired h n c q t).txRadiate t n = b.txRadiate t n := by
  have kept := b.txAired_kept h n c q t
  have air := b.paRise_air n q
  have rxa := b.txAired_rxa h n c q t
  exact Block.txRadiate_congr ((congrArg Rxa.fbLen rxa).trans air.fbLen) ((congrArg Rxa.fb rxa).trans air.fb) (b.txAired_mas h n c q t)
    (kept.rd HOOP_EPOCH_ST.ST 0 (not_mem_startRegs (by decide))) (kept HOOP_ACT_SF.all.base (not_mem_startRegs (by decide)))
    (kept.rd MAS_BCN_CTL.SEQ_OFS_PEND 0 (not_mem_startRegs (by decide))) (kept.rd MAS_BCN_CTL.SEQ_OFS 0 (not_mem_startRegs (by decide))) t n

theorem Block.txStarted_out : (b.txStarted h n c q t).out = (b.paRise n q).out ++ [b.txRadiate t n] := by
  unfold Block.txStarted
  rw [Block.emit_out, Block.txAired_out, Block.txAired_radiate]

theorem Block.paShown_pa (hn : n < 8) : (b.paShown n c).rd TXC_STAT.PA = b.rd TXC_STAT.PA ||| 2 ^ n := by
  have small : b.rd TXC_STAT.PA ||| 2 ^ n < 2 ^ 8 := Nat.or_lt_two_pow (fget_lt _ TXC_STAT.PA) (Nat.pow_lt_pow_right (by decide) hn)
  unfold Block.paShown Block.incBy
  rw [Block.rd_wr_other _ _ _ _ _ _ (by decide)]
  refine (Block.rd_set_other _ TXC_PORT_ST.ACTIVE TXC_STAT.PA n 0 (txcStat_ne_portSt n)).trans ?_
  rw [Block.rd_wr_same _ _ _ _ (by decide)]
  exact Nat.mod_eq_of_lt small

theorem Block.paShown_active : (b.paShown n c).bit TXC_PORT_ST.ACTIVE n = true := by
  unfold Block.paShown
  rw [Block.bit_incBy_other _ _ _ _ _ _ (by simp only [Fld.off]; omega), Block.bit_set_same _ _ _ (by decide) (by decide)]

theorem Block.paShown_clip : (b.paShown n c).rd TXC_CNT_CLIP.all = min (b.rd TXC_CNT_CLIP.all + c) (2 ^ 32 - 1) := by
  unfold Block.paShown
  rw [Block.rd_incBy_same _ _ _ _ (by decide), Block.rd_set_other _ _ _ _ _ (by simp only [Fld.off]; omega), Block.rd_wr_other _ _ _ _ _ _ (by decide)]
  rfl

/-- What a start shows in the registers. -/
theorem Block.txStarted_shown (hn : n < 8) : (b.txStarted h n c q t).rd TXC_STAT.PA = b.rd TXC_STAT.PA ||| 2 ^ n
    ∧ (b.txStarted h n c q t).bit TXC_PORT_ST.ACTIVE n = true
    ∧ (b.txStarted h n c q t).rd TXC_CNT_CLIP.all = min (b.rd TXC_CNT_CLIP.all + c) (2 ^ 32 - 1)
    ∧ (c ≠ 0 → (b.txStarted h n c q t).bit TXC_EVT.CLIP = true) := by
  have before (f : Fld) (m : Nat) : ((b.paRise n q).setTx h (t.startOn n)).rd f m = b.rd f m := Block.rd_congr (b.paRise_air n q).regs f m
  have clip := Block.clipShown_kept (((b.paRise n q).setTx h (t.startOn n)).paShown n c) n c
  unfold Block.txStarted
  rw [Block.emit_rd, Block.emit_bit, Block.emit_rd, Block.emit_bit]
  refine ⟨?_, ?_, ?_, fun hc => ?_⟩
  · exact (clip.rd TXC_STAT.PA 0 (by decide)).trans ((Block.paShown_pa _ n c hn).trans (by rw [before]))
  · exact (clip.bit TXC_PORT_ST.ACTIVE n (by simp [Fld.off]; omega)).trans (Block.paShown_active _ n c)
  · exact (clip.rd TXC_CNT_CLIP.all 0 (by decide)).trans ((Block.paShown_clip _ n c).trans (by rw [before]))
  · unfold Block.txAired Block.clipShown
    rw [decide_eq_true hc, Block.when_true]
    exact Block.bit_set_same _ _ _ (by decide) (by decide)

theorem Block.txStarted_find (k : Nat) : Tbl.find (b.txStarted h n c q t).txc.txs k =
    if c ≠ 0 then (Tbl.find (Tbl.insert b.txc.txs h (t.startOn n)) k).map (·.clipOn n) else Tbl.find (Tbl.insert b.txc.txs h (t.startOn n)) k := by
  have listed : (((b.paRise n q).setTx h (t.startOn n)).paShown n c).txc.txs = Tbl.insert b.txc.txs h (t.startOn n) :=
    congrArg (Tbl.insert · h (t.startOn n)) (b.paRise_air n q).txs
  unfold Block.txStarted Block.txAired
  rw [Block.emit_txc, Block.clipShown_find, listed]

/-- The transmission itself: its port has started, and it carries CLIP with saturated samples. -/
theorem Block.txStarted_own (hw : t.waits n = true) : ∃ y, Tbl.find (b.txStarted h n c q t).txc.txs h = some y
    ∧ y.ports = (t.startOn n).ports ∧ y.clip = (t.clip || decide (c ≠ 0)) := by
  rw [b.txStarted_find, Tbl.find_insert_same]
  by_cases hc : c ≠ 0
  · rw [if_pos hc, Option.map_some, Tx.clipOn_of_onAir (Tx.startOn_onAir hw), decide_eq_true hc, Bool.or_true]
    exact ⟨_, rfl, rfl, rfl⟩
  · rw [if_neg hc]
    refine ⟨_, rfl, rfl, ?_⟩
    rw [decide_eq_false hc, Bool.or_false]
    rfl

/-- Every transmission that was on the air at the port carries CLIP with saturated samples. -/
theorem Block.txStarted_clips (hw : t.waits n = true) (hc : c ≠ 0) {j : Nat} {u : Tx} (hu : Tbl.find b.txc.txs j = some u) (ha : u.onAir n = true) :
    ∃ u', Tbl.find (b.txStarted h n c q t).txc.txs j = some u' ∧ u'.clip = true := by
  have marked {v : Tx} (hv : v.onAir n = true) : (v.clipOn n).clip = true := by
    rw [Tx.clipOn_of_onAir hv]
  rw [b.txStarted_find, if_pos hc]
  by_cases e : j = h
  · rw [e, Tbl.find_insert_same]
    exact ⟨_, rfl, marked (Tx.startOn_onAir hw)⟩
  · rw [Tbl.find_insert_other _ _ _ _ e, hu]
    exact ⟨_, rfl, marked ha⟩

end

/-! ### The command -/

/-- The start of a port of transmission `t` that waits. -/
def Block.txStart (h n c : Nat) (t : Tx) : Block :=
  let d := b.toQ (t.startQ - b.paLead n)
  if d.bit CLR_STAT.ACTIVE && bitOf (d.rd CLR_CTL.PORTMASK) n then (d.portEnd h n .supp).paSettle n d.nowQ
  else d.txStarted h n c (t.startQ - b.paLead n) t

theorem transmissionStart_eq (s : State) (h n c : Nat) : exec (.transmissionStart h n c) s = runCmd s (fun b =>
    match Tbl.find b.txc.txs h with
    | some t => if !t.waits n then b else b.txStart h n c t
    | none => b) := rfl

theorem transmissionStart_idle (s : State) (h n c : Nat) (idle : ∀ x, Tbl.find s.blk.txc.txs h = some x → ∀ p ∈ x.ports, p.port = n → p.started = true ∨ p.ended ≠ .live) :
    NoEffect (.transmissionStart h n c) s := by
  refine gives_of_runCmd (transmissionStart_eq s h n c) ?_
  rw [Block.start_txc]
  cases hx : Tbl.find s.blk.txc.txs h with
  | none => rfl
  | some x =>
    dsimp only
    rw [Tx.waits_false (idle x hx)]
    rfl

theorem transmissionStart_effect {s : State} {h n : Nat} (c : Nat) {x : Tx} (hx : Tbl.find s.blk.txc.txs h = some x) (hw : x.waits n = true) :
    (match Tbl.find s.blk.start.txc.txs h with
    | some t => if !t.waits n then s.blk.start else s.blk.start.txStart h n c t
    | none => s.blk.start) = s.blk.start.txStart h n c x := by
  rw [Block.start_txc, hx]
  dsimp only
  rw [hw]
  rfl

theorem transmissionStart_cleared (s : State) (h n c : Nat) (x : Tx) (hx : Tbl.find s.blk.txc.txs h = some x) (hw : x.waits n = true)
    (active : s.blk.bit CLR_STAT.ACTIVE = true) (gated : bitOf (s.blk.rd CLR_CTL.PORTMASK) n = true) :
    Gives (.transmissionStart h n c) s (((s.blk.start.toQ (x.startQ - s.blk.paLead n)).setTx h (x.endOn n .supp)).paSettle n
      (s.blk.start.toQ (x.startQ - s.blk.paLead n)).nowQ) := by
  refine gives_of_runCmd (transmissionStart_eq s h n c) ((transmissionStart_effect c hx hw).trans ?_)
  have lead : s.blk.start.paLead n = s.blk.paLead n := rfl
  unfold Block.txStart
  rw [lead]
  dsimp only
  rw [Block.toQ_bit, Block.toQ_rd, Block.start_bit, Block.start_rd, active, gated, Block.portEnd_of_find _ (by rw [Block.toQ_txc]; exact hx)]
  exact if_pos rfl

theorem transmissionStart_runs (s : State) (h n c : Nat) (x : Tx) (hn : n < 8) (hx : Tbl.find s.blk.txc.txs h = some x) (hw : x.waits n = true)
    (free : s.blk.bit CLR_STAT.ACTIVE = false ∨ bitOf (s.blk.rd CLR_CTL.PORTMASK) n = false) :
    let b := s.blk.start.toQ (x.startQ - s.blk.paLead n)
    Runs (.transmissionStart h n c) s (fun t =>
      t.clk = b.clk ∧ t.rd TXC_STAT.PA = s.blk.rd TXC_STAT.PA ||| 2 ^ n ∧ t.bit TXC_PORT_ST.ACTIVE n = true
      ∧ t.rd TXC_CNT_CLIP.all = min (s.blk.rd TXC_CNT_CLIP.all + c) (2 ^ 32 - 1) ∧ (c ≠ 0 → t.bit TXC_EVT.CLIP = true)
      ∧ (let q := x.startQ - s.blk.paLead n
         let r : Output := s.blk.txRadiate x n
         if b.paOn n then t.out = [r] ∧ t.rxa = s.blk.rxa
         else t.out = [.pinAt "TR_SW" n false (q - s.blk.rd TXC_PORT_TRSW.LEAD n * qDsp), .pinAt "PA_EN" n false q, r]
           ∧ t.rxa.gaps = s.blk.rxa.gaps ++
              [{ src := 8 + n, ports := s.blk.reg (TXC_BLANK.all.off n), start := q - s.blk.rd TXC_BLK_MARG.PRE * qDsp, stop := none }])
      ∧ (c ≠ 0 → ∀ j u, Tbl.find s.blk.txc.txs j = some u → u.onAir n = true → ∃ u', Tbl.find t.txc.txs j = some u' ∧ u'.clip = true)
      ∧ ∃ y, Tbl.find t.txc.txs h = some y ∧ y.ports = (x.startOn n).ports ∧ y.clip = (x.clip || decide (c ≠ 0))) := by
  intro b
  have lead : s.blk.start.paLead n = s.blk.paLead n := rfl
  have notGated : (b.bit CLR_STAT.ACTIVE && bitOf (b.rd CLR_CTL.PORTMASK) n) = false := by
    rw [Block.toQ_bit, Block.toQ_rd, Block.start_bit, Block.start_rd]
    rcases free with e | e <;> rw [e]
    · rfl
    · exact Bool.and_false _
  have effect : s.blk.start.txStart h n c x = b.txStarted h n c (x.startQ - s.blk.paLead n) x := by
    unfold Block.txStart
    rw [lead]
    exact if_neg (Bool.eq_false_iff.1 notGated)
  have regs : b.regs = s.blk.regs := s.blk.start.toQ_regs _
  have out : b.out = [] := s.blk.start.toQ_out _
  have rxa : b.rxa = s.blk.rxa := s.blk.start.toQ_rxa _
  have txc : b.txc = s.blk.txc := s.blk.start.toQ_txc _
  have mas : b.mas = s.blk.mas := s.blk.start.toTime_mas _
  have radiate : b.txRadiate x n = s.blk.txRadiate x n :=
    Block.txRadiate_congr (congrArg Rxa.fbLen rxa) (congrArg Rxa.fb rxa) mas (Block.rd_congr regs _ 0) (Block.reg_congr regs _) (Block.rd_congr regs _ 0)
      (Block.rd_congr regs _ 0) x n
  refine runs_of_effect (transmissionStart_eq s h n c) ((transmissionStart_effect c hx hw).trans effect) ?_
  generalize x.startQ - s.blk.paLead n = q
  clear effect notGated
  clear_value b
  obtain ⟨pa, active, clip, event⟩ := b.txStarted_shown h n c q x hn
  simp only [Block.canon_clk, Block.canon_rd, Block.canon_bit, Block.canon_out, Block.canon_rxa, Block.canon_txc]
  refine ⟨b.txAired_clk h n c q x, ?_, active, ?_, event, ?_, fun hc j u hu ha => ?_, b.txStarted_own h n c q x hw⟩
  · rw [pa, Block.rd_congr regs]
  · rw [clip, Block.rd_congr regs]
  · rw [b.txStarted_out, radiate]
    have paRise := b.paRise_eq n q
    split
    · next on =>
      rw [if_pos on] at paRise
      exact ⟨by rw [paRise, out]; rfl, (b.txAired_rxa h n c q x).trans (by rw [paRise, rxa])⟩
    · next off =>
      rw [if_neg off] at paRise
      refine ⟨by rw [paRise, b.pinsFall_out, out, Block.rd_congr regs]; rfl, (congrArg Rxa.gaps (b.txAired_rxa h n c q x)).trans ?_⟩
      rw [paRise, b.pinsFall_gaps, rxa, Block.rd_congr regs, Block.reg_congr regs]
  · exact b.txStarted_clips h n c q x hw hc (by rw [txc]; exact hu) ha

end Sys2Proof.Machine
end

section
/-! SUPPORT. The end of a port's radiated interval (R184, R186), the records of the transmit chain (R182, R183, R188), and the obligation on its ports. -/

namespace Sys2Proof.Machine

variable (b : Block)

/-! ### The pins return -/

theorem Block.paFall_out (n q : Nat) :
    (b.paFall n q).out = b.out ++ [.pinAt "PA_EN" n true q, .pinAt "TR_SW" n true (q + b.rd TXC_PORT_TRSW.LAG n * qDsp)] := by
  have lag : (b.blankEnd n q).trLag n = b.rd TXC_PORT_TRSW.LAG n * qDsp := by
    unfold Block.trLag
    rw [Block.rd_congr (b.blankEnd_regs n q)]
  have out : (b.blankEnd n q).out = b.out := (Block.gapStop_out _ _ _).trans rfl
  rw [b.paFall_eq, lag, Block.emit_out, Block.emit_out, Block.clr, Block.wr_out, Block.wr_out, out, List.append_assoc]
  rfl

theorem Block.paFall_shown {n : Nat} (hn : n < 8) (q : Nat) :
    bitOf ((b.paFall n q).rd TXC_STAT.PA) n = false ∧ (b.paFall n q).bit TXC_PORT_ST.ACTIVE n = false := by
  rw [b.paFall_eq, Block.emit_rd, Block.emit_rd, Block.emit_bit, Block.emit_bit, Block.bit_clr_same _ _ _ (by decide)]
  refine ⟨?_, rfl⟩
  unfold Block.clr
  rw [Block.rd_wr_other _ TXC_PORT_ST.ACTIVE TXC_STAT.PA _ n 0 (txcStat_ne_portSt n), Block.rd_wr_same _ _ _ _ (by decide)]
  exact bitOf_cleared _ hn

/-- After the blanking has ended none covers an instant. -/
theorem Block.paFall_covers (n q : Nat) {g : Gap} (hg : g ∈ (b.paFall n q).rxa.gaps) (hs : g.src = 8 + n) {u : Nat}
    (hu : q + b.rd TXC_BLK_MARG.POST * qDsp ≤ u) : g.covers u = false := by
  rw [b.paFall_eq, Block.emit_rxa, Block.emit_rxa, Block.clr_rxa, Block.wr_rxa] at hg
  exact Block.gapStop_covers _ (8 + n) (q + b.blkPost) hg hs hu

theorem Block.paSettle_txs (n q : Nat) : (b.paSettle n q).txc.txs = b.txc.txs := by
  unfold Block.paSettle
  split
  · rfl
  · exact b.paFall_txs n q

theorem Block.paSettle_clk (n q : Nat) : (b.paSettle n q).clk = b.clk := by
  unfold Block.paSettle
  split
  · rfl
  · exact b.paFall_clk n q

/-! ### A port of a transmission ends (R184) -/

/-- The radiated interval of transmission `t` has ended on the port: another follows within the pin times, or the pins return. -/
def Block.txPins (n : Nat) (t : Tx) : Block :=
  if (b.onPort n).any (fun u => u.ports.any (fun p => p.port == n && p.ended == .live)
      && decide (u.startQ < t.endQ + (b.paLag n + b.paLead n + b.trLag n + b.trLead n))) then b
  else b.paSettle n (t.endQ + b.paLag n)

theorem Block.txPins_txs (n : Nat) (t : Tx) : (b.txPins n t).txc.txs = b.txc.txs := by
  unfold Block.txPins
  split
  · rfl
  · exact b.paSettle_txs _ _

theorem Block.txPins_clk (n : Nat) (t : Tx) : (b.txPins n t).clk = b.clk := by
  unfold Block.txPins
  split
  · rfl
  · exact b.paSettle_clk _ _

/-- The one transmission listed, which has ended on the port, is followed by none, so the pins return. -/
theorem Block.txPins_single {h n : Nat} {t y : Tx} (only : b.txc.txs = [(h, y)])
    (ended : y.ports.any (fun p => p.port == n && p.ended == .live) = false) (pa : bitOf (b.rd TXC_STAT.PA) n = true) :
    b.txPins n t = b.paFall n (t.endQ + b.paLag n) := by
  have mine (u : Tx) (hu : u ∈ b.onPort n) : u = y := by
    have := (List.mem_filter.1 hu).1
    rw [only] at this
    exact List.mem_singleton.1 this
  have next : ((b.onPort n).any fun u => u.ports.any (fun p => p.port == n && p.ended == .live)
      && decide (u.startQ < t.endQ + (b.paLag n + b.paLead n + b.trLag n + b.trLead n))) = false := by
    refine List.any_eq_false.2 fun u hu => ?_
    rw [mine u hu, ended]
    simp
  have onAir : ((b.onPort n).any fun u => u.onAir n) = false := by
    refine List.any_eq_false.2 fun u hu => ?_
    rw [mine u hu, Tx.onAir_false fun p hp e => .inr fun live => ?_]
    · exact Bool.false_ne_true
    · exact absurd (List.any_eq_false.1 ended p hp) (by simp [e, live])
  unfold Block.txPins
  rw [next, if_neg Bool.false_ne_true]
  unfold Block.paSettle
  refine if_neg ?_
  change ¬ ((b.onPort n).any (fun u => u.onAir n) || !bitOf (b.rd TXC_STAT.PA) n) = true
  rw [onAir, pa]
  exact Bool.false_ne_true

theorem transmissionEnd_eq (s : State) (h n : Nat) : exec (.transmissionEnd h n) s = runCmd s (fun b =>
    match Tbl.find b.txc.txs h with
    | some t => if !t.onAir n then b else ((b.toQ t.endQ).portEnd h n .full).txPins n t
    | none => b) := rfl

theorem transmissionEnd_idle (s : State) (h n : Nat)
    (idle : ∀ x, Tbl.find s.blk.txc.txs h = some x → ∀ p ∈ x.ports, p.port = n → p.started = false ∨ p.ended ≠ .live) :
    NoEffect (.transmissionEnd h n) s := by
  refine gives_of_runCmd (transmissionEnd_eq s h n) ?_
  rw [Block.start_txc]
  cases hx : Tbl.find s.blk.txc.txs h with
  | none => rfl
  | some x =>
    dsimp only
    rw [Tx.onAir_false (idle x hx)]
    rfl

theorem transmissionEnd_effect {s : State} {h n : Nat} {x : Tx} (hx : Tbl.find s.blk.txc.txs h = some x) (ha : x.onAir n = true) :
    (match Tbl.find s.blk.start.txc.txs h with
    | some t => if !t.onAir n then s.blk.start else ((s.blk.start.toQ t.endQ).portEnd h n .full).txPins n t
    | none => s.blk.start) = ((s.blk.start.toQ x.endQ).setTx h (x.endOn n .full)).txPins n x := by
  rw [Block.start_txc, hx]
  dsimp only
  rw [ha, Block.portEnd_of_find _ (by rw [Block.toQ_txc]; exact hx)]
  exact if_neg Bool.false_ne_true

theorem transmissionEnd_runs (s : State) (h n : Nat) (x : Tx) (hn : n < 8) (hx : Tbl.find s.blk.txc.txs h = some x) (ha : x.onAir n = true) :
    Runs (.transmissionEnd h n) s (fun t =>
      t.clk = (s.blk.start.toQ x.endQ).clk
      ∧ Tbl.find t.txc.txs h = some (x.endOn n .full)
      ∧ (s.blk.txc.txs = [(h, x)] → bitOf (s.blk.rd TXC_STAT.PA) n = true →
          let q := x.endQ + s.blk.rd TXC_PORT_PA.LAG n * qDsp
          bitOf (t.rd TXC_STAT.PA) n = false ∧ t.bit TXC_PORT_ST.ACTIVE n = false
          ∧ t.out = [.pinAt "PA_EN" n true q, .pinAt "TR_SW" n true (q + s.blk.rd TXC_PORT_TRSW.LAG n * qDsp)]
          ∧ ∀ g ∈ t.rxa.gaps, g.src = 8 + n → ∀ u, q + s.blk.rd TXC_BLK_MARG.POST * qDsp ≤ u → g.covers u = false)) := by
  have regs : (s.blk.start.toQ x.endQ).regs = s.blk.regs := s.blk.start.toQ_regs _
  have out : (s.blk.start.toQ x.endQ).out = [] := s.blk.start.toQ_out _
  have txc : (s.blk.start.toQ x.endQ).txc = s.blk.txc := s.blk.start.toQ_txc _
  refine runs_of_effect (transmissionEnd_eq s h n) (transmissionEnd_effect hx ha) ?_
  generalize s.blk.start.toQ x.endQ = d at regs out txc ⊢
  refine ⟨(d.setTx h (x.endOn n .full)).txPins_clk n x, ?_, fun only pa => ?_⟩
  · rw [Block.canon_txc, Block.txPins_txs]
    exact Tbl.find_insert_same _ _ _
  · have listed : (d.setTx h (x.endOn n .full)).txc.txs = [(h, x.endOn n .full)] := by
      rw [Block.setTx_txs, txc, only, Tbl.insert, if_pos rfl]
    have shown : (d.setTx h (x.endOn n .full)).regs = s.blk.regs := regs
    have driven : (d.setTx h (x.endOn n .full)).out = [] := out
    have falls := Block.txPins_single (t := x) _ listed (x.endOn_not_live n (by simp)) (by rw [Block.rd_congr shown]; exact pa)
    have lag : (d.setTx h (x.endOn n .full)).paLag n = s.blk.rd TXC_PORT_PA.LAG n * qDsp := by
      unfold Block.paLag
      rw [Block.rd_congr shown]
    rw [falls, lag]
    generalize d.setTx h (x.endOn n .full) = e at shown driven
    generalize x.endQ + s.blk.rd TXC_PORT_PA.LAG n * qDsp = q
    obtain ⟨low, idle⟩ := e.paFall_shown hn q
    refine ⟨?_, ?_, ?_, fun g hg hs u hu => ?_⟩
    · rw [Block.canon_rd, low]
    · rw [Block.canon_bit, idle]
    · rw [Block.canon_out, e.paFall_out, driven, Block.rd_congr shown]
      rfl
    · refine e.paFall_covers n q hg hs ?_
      rw [Block.rd_congr shown]
      exact hu

/-! ### A record posts (R182, R183, R188) -/

/-- A charge changes the airtime sums alone. -/
theorem Block.txCharge_only (t : Tx) : ∃ u, b.txCharge t = { b with txc := { b.txc with used := u } } := by
  have refund (c : Block) (band k seg x : Nat) (h : ∃ u, c = { b with txc := { b.txc with used := u } }) :
      ∃ u, c.airRefund band k seg x = { b with txc := { b.txc with used := u } } := by
    obtain ⟨u, rfl⟩ := h
    unfold Block.airRefund
    split
    · exact ⟨_, rfl⟩
    · exact ⟨_, rfl⟩
  have all : ∀ (l : List TxPort) (c : Block), (∃ u, c = { b with txc := { b.txc with used := u } }) →
      ∃ u, l.foldl (fun b p => b.airRefund t.band (64 * p.port + t.ch) p.seg (t.air - t.charge p)) c = { b with txc := { b.txc with used := u } } := by
    intro l
    induction l with
    | nil => exact fun _ h => h
    | cons p l ih => exact fun c h => ih _ (refund c _ _ _ _ h)
  exact all t.ports b ⟨b.txc.used, rfl⟩

/-- A counter of 32 bits that does not count reads as it did. -/
theorem Block.rd_word_min (f : Fld) (n : Nat) (hw : f.width = 32) : b.rd f n = min (b.rd f n + 0) (2 ^ 32 - 1) := by
  have := fget_lt (b.reg (f.off n)) f
  rw [hw] at this
  unfold Block.rd
  omega

/-- The outcome's counter counts, and the others do not. -/
theorem Block.txCountRes_rd (r : Nat) :
    (b.txCountRes r).rd TXC_CNT_SENT.all = min (b.rd TXC_CNT_SENT.all + if r = 0 then 1 else 0) (2 ^ 32 - 1)
    ∧ (b.txCountRes r).rd TXC_CNT_CLEARED.all = min (b.rd TXC_CNT_CLEARED.all + if r = 1 then 1 else 0) (2 ^ 32 - 1)
    ∧ (b.txCountRes r).rd TXC_CNT_SUPPR.all = min (b.rd TXC_CNT_SUPPR.all + if r = 2 then 1 else 0) (2 ^ 32 - 1) := by
  have other (f g : Fld) (h : g.off 0 ≠ f.off 0) (hw : g.width = 32) : (b.inc f).rd g = min (b.rd g + 0) (2 ^ 32 - 1) :=
    (Block.rd_wr_other (b.tieNote _ _) f g _ 0 0 h).trans (b.rd_word_min g 0 hw)
  have event (c : Block) (e f : Fld) (h : f.off 0 ≠ e.off 0) : (c.set e).rd f = c.rd f := c.rd_set_other e f 0 0 h
  unfold Block.txCountRes
  split
  · exact ⟨b.rd_inc_same TXC_CNT_SENT.all 0 (by decide), other TXC_CNT_SENT.all TXC_CNT_CLEARED.all (by decide) rfl,
      other TXC_CNT_SENT.all TXC_CNT_SUPPR.all (by decide) rfl⟩
  · rw [event _ _ TXC_CNT_SENT.all (by decide), event _ _ TXC_CNT_CLEARED.all (by decide), event _ _ TXC_CNT_SUPPR.all (by decide)]
    exact ⟨other TXC_CNT_CLEARED.all TXC_CNT_SENT.all (by decide) rfl, b.rd_inc_same TXC_CNT_CLEARED.all 0 (by decide),
      other TXC_CNT_CLEARED.all TXC_CNT_SUPPR.all (by decide) rfl⟩
  · rw [event _ _ TXC_CNT_SENT.all (by decide), event _ _ TXC_CNT_CLEARED.all (by decide), event _ _ TXC_CNT_SUPPR.all (by decide)]
    exact ⟨other TXC_CNT_SUPPR.all TXC_CNT_SENT.all (by decide) rfl, other TXC_CNT_SUPPR.all TXC_CNT_CLEARED.all (by decide) rfl,
      b.rd_inc_same TXC_CNT_SUPPR.all 0 (by decide)⟩
  · next h0 h1 h2 =>
    rw [if_neg h0, if_neg h1, if_neg h2]
    exact ⟨b.rd_word_min _ 0 rfl, b.rd_word_min _ 0 rfl, b.rd_word_min _ 0 rfl⟩

theorem Block.txCountRes_parts (r : Nat) : (b.txCountRes r).txc = b.txc ∧ (b.txCountRes r).clk = b.clk := by
  unfold Block.txCountRes
  split <;> exact ⟨rfl, rfl⟩

/-- The transmission has left the list, charged and counted. -/
def Block.txPosted (h : Nat) (t : Tx) : Block :=
  ((Block.txCharge { b with txc := { b.txc with txs := Tbl.erase b.txc.txs h } } t).txCountRes t.res).txCount

/-- The record goes to its strand, is an orphan, or goes to the beacon builder; `d` is the block whose beat tells when it is visible. -/
def Block.txDeliver (h : Nat) (t : Tx) (r : List Byte) : Block :=
  match t.owner with
  | .strand k =>
    { b.took with txc := { b.txc with recs := b.txc.recs ++ [{ strand := k, handle := h, record := { bytes := r, visible := b.visibleBeat } }] } }
  | .orphan k => b.inc WFT_CNT_ORPHAN.all (engOf k)
  | .beacon => b.beaconPosted t.res

theorem txRecordPost_eq (s : State) : exec .txRecordPost s = runCmd s (fun b =>
    match nextTx b.txc.txs with
    | some (h, t) => ((b.toQ t.due).txPosted h t).txDeliver h t ((b.toQ t.due).txRecord t)
    | none => b) := rfl

theorem Block.txPosted_parts (h : Nat) (t : Tx) : (b.txPosted h t).txc.txs = Tbl.erase b.txc.txs h ∧ (b.txPosted h t).txc.recs = b.txc.recs
    ∧ (b.txPosted h t).clk = b.clk := by
  obtain ⟨u, hu⟩ := Block.txCharge_only { b with txc := { b.txc with txs := Tbl.erase b.txc.txs h } } t
  unfold Block.txPosted
  rw [hu]
  unfold Block.txCount
  rw [Block.wr_txc, Block.wr_clk, (Block.txCountRes_parts _ _).1, (Block.txCountRes_parts _ _).2]
  exact ⟨rfl, rfl, rfl⟩

/-- The outcome counters of the transmit chain. -/
theorem Block.txPosted_rd (h : Nat) (t : Tx) :
    (b.txPosted h t).rd TXC_CNT_SENT.all = min (b.rd TXC_CNT_SENT.all + if t.res = 0 then 1 else 0) (2 ^ 32 - 1)
    ∧ (b.txPosted h t).rd TXC_CNT_CLEARED.all = min (b.rd TXC_CNT_CLEARED.all + if t.res = 1 then 1 else 0) (2 ^ 32 - 1)
    ∧ (b.txPosted h t).rd TXC_CNT_SUPPR.all = min (b.rd TXC_CNT_SUPPR.all + if t.res = 2 then 1 else 0) (2 ^ 32 - 1) := by
  obtain ⟨u, hu⟩ := Block.txCharge_only { b with txc := { b.txc with txs := Tbl.erase b.txc.txs h } } t
  unfold Block.txPosted
  rw [hu]
  unfold Block.txCount
  rw [Block.rd_wr_other _ TXC_ARM_ST.ARMED TXC_CNT_SENT.all _ 0 0 (by decide), Block.rd_wr_other _ TXC_ARM_ST.ARMED TXC_CNT_CLEARED.all _ 0 0 (by decide),
    Block.rd_wr_other _ TXC_ARM_ST.ARMED TXC_CNT_SUPPR.all _ 0 0 (by decide)]
  exact Block.txCountRes_rd _ t.res

theorem Block.beaconPosted_kept (r : Nat) : (b.beaconPosted r).txc = b.txc
    ∧ RegsKept b (b.beaconPosted r) [MAS_BCN_ST.all.base, MAS_CNT_BCN_SENT.all.base, MAS_CNT_BCN_LOST.all.base, MAS_EVT.all.base] := by
  have shown (x : Nat) : RegsKept b (b.wr MAS_BCN_ST.RESULT x) [MAS_BCN_ST.all.base, MAS_CNT_BCN_SENT.all.base, MAS_CNT_BCN_LOST.all.base, MAS_EVT.all.base] :=
    (RegsKept.refl b _).wr MAS_BCN_ST.RESULT x 0 (by decide)
  have cleared := ((shown 4).incBy MAS_CNT_BCN_LOST.all 1 0 (by decide)).set MAS_EVT.BCN_CLEARED 0 (by decide)
  unfold Block.beaconPosted
  split
  · exact ⟨rfl, (shown 0).incBy MAS_CNT_BCN_SENT.all 1 0 (by decide)⟩
  · exact ⟨rfl, cleared⟩
  · exact ⟨rfl, cleared⟩
  · exact ⟨rfl, .refl _ _⟩

/-- A delivery leaves the registers of the transmit chain. -/
theorem Block.txDeliver_reg (h : Nat) (t : Tx) (r : List Byte) (o : Nat) (ho : o < MAS_EVT.all.base) : (b.txDeliver h t r).reg o = b.reg o := by
  unfold Block.txDeliver
  split
  · rfl
  · next k _ =>
    have : o < WFT_CNT_ORPHAN.all.base := Nat.lt_trans ho (by decide)
    exact Block.reg_setReg_other (b.tieNote _ _) _ _ _ (Fld.off_ne_of_lt WFT_CNT_ORPHAN.all (engOf k) o this).symm
  · refine (b.beaconPosted_kept t.res).2 o ?_
    simp only [List.mem_cons, List.not_mem_nil, or_false] at ho ⊢
    omega

/-- The record waits for the ring of a running weave. -/
def Tx.record (t : Tx) (h : Nat) (r : List Byte) (beat : Nat) : List TxRec :=
  match t.owner with
  | .strand k => [⟨k, h, ⟨r, beat⟩⟩]
  | .orphan _ => []
  | .beacon => []

theorem Block.txDeliver_parts (h : Nat) (t : Tx) (r : List Byte) : (b.txDeliver h t r).txc.txs = b.txc.txs
    ∧ (b.txDeliver h t r).txc.recs = b.txc.recs ++ t.record h r b.visibleBeat := by
  unfold Block.txDeliver Tx.record
  split
  · exact ⟨rfl, rfl⟩
  · exact ⟨rfl, (List.append_nil _).symm⟩
  · rw [(b.beaconPosted_kept t.res).1]
    exact ⟨rfl, (List.append_nil _).symm⟩

theorem txRecordPost_idle (s : State) (h : s.blk.txc.txs = []) : NoEffect .txRecordPost s := by
  refine gives_of_runCmd (txRecordPost_eq s) ?_
  rw [Block.start_txc, h]
  rfl

theorem Block.visibleBeat_congr {b c : Block} (h : c.clk = b.clk) : c.visibleBeat = b.visibleBeat := by
  unfold Block.visibleBeat Block.freeNat
  rw [h]

theorem txRecordPost_runs (s : State) (h : Nat) (x : Tx) (hx : nextTx s.blk.txc.txs = some (h, x)) :
    let b := s.blk.start.toQ x.due
    Runs .txRecordPost s (fun t => t.txc.txs = Tbl.erase s.blk.txc.txs h
      ∧ t.rd TXC_CNT_SENT.all = min (s.blk.rd TXC_CNT_SENT.all + if x.res = 0 then 1 else 0) (2 ^ 32 - 1)
      ∧ t.rd TXC_CNT_CLEARED.all = min (s.blk.rd TXC_CNT_CLEARED.all + if x.res = 1 then 1 else 0) (2 ^ 32 - 1)
      ∧ t.rd TXC_CNT_SUPPR.all = min (s.blk.rd TXC_CNT_SUPPR.all + if x.res = 2 then 1 else 0) (2 ^ 32 - 1)
      ∧ t.txc.recs = s.blk.txc.recs ++ x.record h (b.txRecord x) b.visibleBeat) := by
  intro b
  have effect : (match nextTx s.blk.start.txc.txs with
      | some (h, t) => ((s.blk.start.toQ t.due).txPosted h t).txDeliver h t ((s.blk.start.toQ t.due).txRecord t)
      | none => s.blk.start) = (b.txPosted h x).txDeliver h x (b.txRecord x) := by
    rw [Block.start_txc, hx]
  have regs : b.regs = s.blk.regs := s.blk.start.toQ_regs _
  have txc : b.txc = s.blk.txc := s.blk.start.toQ_txc _
  refine runs_of_effect (txRecordPost_eq s) effect ?_
  clear effect
  clear_value b
  obtain ⟨txs, recs, clk⟩ := b.txPosted_parts h x
  obtain ⟨sent, cleared, suppressed⟩ := b.txPosted_rd h x
  obtain ⟨txs', recs'⟩ := (b.txPosted h x).txDeliver_parts h x (b.txRecord x)
  have kept (f : Fld) (ho : f.off 0 < MAS_EVT.all.base) : ((b.txPosted h x).txDeliver h x (b.txRecord x)).canon.rd f = (b.txPosted h x).rd f :=
    (Block.canon_rd _ _ _).trans (congrArg (fget · f) (Block.txDeliver_reg _ h x _ _ ho))
  refine ⟨?_, ?_, ?_, ?_, ?_⟩
  · rw [Block.canon_txc, txs', txs, txc]
  · rw [kept _ (by decide), sent, Block.rd_congr regs]
  · rw [kept _ (by decide), cleared, Block.rd_congr regs]
  · rw [kept _ (by decide), suppressed, Block.rd_congr regs]
  · rw [Block.canon_txc, recs', recs, txc, Block.visibleBeat_congr clk]

/-- Settles O19: each command's claim is shown from its own effect. -/
theorem transmitPorts : Obligations.TransmitPorts :=
  ⟨txPortEnable_same, txPortEnable_changed, txLinkUp_cases, txLinkDown_idle, txLinkDown_runs, transmissionStart_idle,
    fun s h n c x hn hx hw => ⟨transmissionStart_cleared s h n c x hx hw, transmissionStart_runs s h n c x hn hx hw⟩,
    transmissionEnd_idle, transmissionEnd_runs, txRecordPost_idle, txRecordPost_runs⟩

end Sys2Proof.Machine
end

section
/-! SUPPORT. The gain control of the receive array (R139–R142), and what the end of a lane leaves (R141, R152, R157). -/

namespace Sys2Proof.Machine

variable (b : Block)

/-! ### The gain control of a stream -/

theorem Block.agc_setAgc_same (x : Nat) (a : Agc) : (b.setAgc x a).agc x = a := Tbl.get_put_same _ _ _ _

theorem Block.agc_setAgc_other {x y : Nat} (h : y ≠ x) (a : Agc) : (b.setAgc x a).agc y = b.agc y := Tbl.get_put_other _ _ _ _ _ h

theorem gainClamp_cast (x : Int) : (gainClamp x : Int) = max 0 (min 255 x) := Int.toNat_of_nonneg (Int.le_max_left _ _)

/-- The gain control of a stream after an update that no lane holds up (R140): `e` is the error, `p` the power measured. -/
def Agc.moved (a : Agc) (e p : Int) : Agc :=
  let fast := a.mode == .fast
  let lim : Int := if fast then 48 else 1
  let run := if fast && decide (e.natAbs ≤ 4) then a.run + 1 else 0
  let mode' : AgcMode := if fast then (if 8 ≤ run then .slow else .fast) else if 24 < e.natAbs then .fast else .slow
  { mode := mode', gain := gainClamp (a.gain + max (-lim) (min lim e)), run := if mode' == .fast then run else 0, freeze := a.freeze, power := p }

theorem agcUpdate_eq (s : State) (x : Nat) (pw : Int) : exec (.agcUpdate x pw) s = runCmd s (fun b =>
    if b.streamErased x then b
    else if b.streamBusy x then b.setAgc x { b.agc x with power := pw }
    else b.setAgc x ((b.agc x).moved (b.agcTarget - pw) pw)) := rfl

theorem agcUpdate_erased (s : State) (x : Nat) (pw : Int) (h : s.blk.streamErased x = true) : NoEffect (.agcUpdate x pw) s :=
  gives_of_runCmd (agcUpdate_eq s x pw) (if_pos h)

/-- What an update that puts `a` leaves. -/
theorem agcUpdate_puts {s : State} {x : Nat} {pw : Int} (f : Block → Block) (h : exec (.agcUpdate x pw) s = runCmd s f) (a : Agc)
    (hf : f s.blk.start = s.blk.start.setAgc x a) : Runs (.agcUpdate x pw) s (fun t => t.agc x = a ∧ (∀ y, y ≠ x → t.agc y = s.blk.agc y)
      ∧ RegsKept s.blk t [] ∧ DramKept s.blk t) := by
  refine runs_of_effect h hf ⟨s.blk.start.agc_setAgc_same x a, fun y hy => s.blk.start.agc_setAgc_other hy a, ?_, ?_⟩
  · exact RegsKept.canon (.of_regs rfl)
  · exact DramKept.canon (.of_dram rfl)

theorem Runs.imp {c : Instr} {s : State} {P Q : Block → Prop} (h : Runs c s P) (hPQ : ∀ b, P b → Q b) : Runs c s Q := by
  obtain ⟨t, ht, hp, hP⟩ := h
  exact ⟨t, ht, hp, hPQ _ hP⟩

theorem agcUpdate_held (s : State) (x : Nat) (pw : Int) (h : s.blk.streamErased x = false) (busy : s.blk.streamBusy x = true) :
    Runs (.agcUpdate x pw) s (fun t => t.agc x = { s.blk.agc x with power := pw } ∧ (∀ y, y ≠ x → t.agc y = s.blk.agc y)
      ∧ RegsKept s.blk t [] ∧ DramKept s.blk t) := by
  refine agcUpdate_puts _ (agcUpdate_eq s x pw) _ ?_
  exact (if_neg (Bool.eq_false_iff.1 h)).trans (if_pos busy)

theorem agcUpdate_moves (s : State) (x : Nat) (pw : Int) (h : s.blk.streamErased x = false) (idle : s.blk.streamBusy x = false) :
    let e : Int := -(s.blk.rd RXA_AGC_CFG.TARGET : Int) - pw
    let fast : Bool := (s.blk.agc x).mode == .fast
    let lim : Int := if fast then 48 else 1
    Runs (.agcUpdate x pw) s (fun t => ((t.agc x).gain : Int) = max 0 (min 255 ((s.blk.agc x).gain + max (-lim) (min lim e))) ∧ (t.agc x).power = pw
      ∧ (t.agc x).mode = (if fast then (if 8 ≤ (if e.natAbs ≤ 4 then (s.blk.agc x).run + 1 else 0) then .slow else .fast)
          else if 24 < e.natAbs then .fast else .slow)
      ∧ (∀ y, y ≠ x → t.agc y = s.blk.agc y) ∧ RegsKept s.blk t [] ∧ DramKept s.blk t) := by
  intro e fast lim
  refine (agcUpdate_puts _ (agcUpdate_eq s x pw) ((s.blk.agc x).moved e pw) ?_).imp fun t ⟨moved, others, regs, dram⟩ => ?_
  · exact (if_neg (Bool.eq_false_iff.1 h)).trans (if_neg (Bool.eq_false_iff.1 idle))
  · rw [moved]
    refine ⟨gainClamp_cast _, rfl, ?_, others, regs, dram⟩
    unfold Agc.moved
    cases hf : fast
    · simp only [show ((s.blk.agc x).mode == AgcMode.fast) = false from hf, Bool.false_eq_true, if_false]
    · simp only [show ((s.blk.agc x).mode == AgcMode.fast) = true from hf, if_true, Bool.true_and, decide_eq_true_eq]

/-! ### A lane goes IDLE (R141) -/

/-- Between `b` and `c` the gain control of the streams alone changes. -/
def AgcOnly (b c : Block) : Prop := ∃ a, c = { b with rxa := { b.rxa with agc := a } }

theorem AgcOnly.trans {a b c : Block} (h : AgcOnly a b) (g : AgcOnly b c) : AgcOnly a c := by
  obtain ⟨x, rfl⟩ := h
  obtain ⟨y, rfl⟩ := g
  exact ⟨y, rfl⟩

theorem Block.agcRelease_only (x : Nat) : AgcOnly b (b.agcRelease x) := by
  unfold Block.agcRelease
  dsimp only
  split
  · exact ⟨b.rxa.agc, rfl⟩
  · exact ⟨_, rfl⟩

theorem Block.foldl_agcRelease_only : ∀ (l : List Member) (b : Block), AgcOnly b (l.foldl (fun b m => b.agcRelease m.stream) b)
  | [], b => ⟨b.rxa.agc, rfl⟩
  | m :: l, b => (b.agcRelease_only m.stream).trans (foldl_agcRelease_only l _)

/-- The registers that show how many lanes and windows there are. -/
def countRegs : List Nat := [RXA_POOL_ST.all.base, RXA_WIN_ST.all.base]

theorem RegsKept.maxTo {a b : Block} {l : List Nat} (h : RegsKept a b l) (f : Fld) (x n : Nat) (ho : f.off n ∈ l) : RegsKept a (b.maxTo f x n) l :=
  RegsKept.wr (b := b.tieNote (f.off n) _) h f _ n ho

theorem Block.rxCounts_kept : RegsKept b b.rxCounts countRegs :=
  (((RegsKept.refl b _).wr RXA_POOL_ST.BUSY _ 0 (by decide)).maxTo RXA_POOL_ST.PEAK _ 0 (by decide)).wr RXA_WIN_ST.OPEN _ 0 (by decide)


/-- From `b` to `c` lanes and the posts of lanes may be gone: the windows, the census and the clock stay, and no register but the counts of lanes
and windows changes. -/
structure LanesOnly (b c : Block) : Prop where
  kept : RegsKept b c countRegs
  clk : c.clk = b.clk
  wins : c.rxa.wins = b.rxa.wins
  cen : c.rxa.cenNow = b.rxa.cenNow

theorem LanesOnly.refl (b : Block) : LanesOnly b b := ⟨.refl _ _, rfl, rfl, rfl⟩

theorem LanesOnly.trans {a b c : Block} (h : LanesOnly a b) (g : LanesOnly b c) : LanesOnly a c :=
  ⟨h.kept.trans g.kept, g.clk.trans h.clk, g.wins.trans h.wins, g.cen.trans h.cen⟩

/-- Lane `n` is out of the list, and the counts show it. -/
def Block.laneGone (n : Nat) : Block := Block.rxCounts { b with rxa := { b.rxa with lanes := Tbl.erase b.rxa.lanes n } }

theorem Block.laneGone_only (n : Nat) : LanesOnly b (b.laneGone n) :=
  ⟨(RegsKept.of_regs (c := { b with rxa := { b.rxa with lanes := Tbl.erase b.rxa.lanes n } }) rfl).trans (Block.rxCounts_kept _), rfl, rfl, rfl⟩

theorem AgcOnly.lanesOnly {b c : Block} (h : AgcOnly b c) : LanesOnly b c ∧ c.rxa.lanes = b.rxa.lanes ∧ c.rxa.posts = b.rxa.posts := by
  obtain ⟨a, rfl⟩ := h
  exact ⟨⟨.of_regs rfl, rfl, rfl, rfl⟩, rfl, rfl⟩

theorem Block.laneIdle_parts (n : Nat) : LanesOnly b (b.laneIdle n) ∧ (b.laneIdle n).rxa.lanes = Tbl.erase b.rxa.lanes n
    ∧ (b.laneIdle n).rxa.posts = b.rxa.posts := by
  have released (ms : List Member) : AgcOnly (b.laneGone n) (ms.foldl (fun b m => b.agcRelease m.stream) (b.laneGone n)) :=
    Block.foldl_agcRelease_only ms _
  obtain ⟨only, lanes, posts⟩ := (released (match Tbl.find b.rxa.lanes n with | some l => l.members | none => [])).lanesOnly
  exact ⟨(b.laneGone_only n).trans only, lanes, posts⟩

/-! ### A lane stops at once (R132, R152, R157) -/

/-- The record of a lane that stops, 64 DSP_CLK cycles later. -/
def Block.stopPost (n res : Nat) (l : Lane) (w : Window) : RxPost :=
  { due := b.nowQ + 64 * qDsp, win := l.win, lane := none, res := some res, release := false, bytes := b.laneRecord n { l with echo := 0 } w res }

theorem Block.laneStop_eq {n : Nat} {l : Lane} (hl : Tbl.find b.rxa.lanes n = some l) (res : Nat) : b.laneStop n res =
    match Tbl.find b.rxa.wins l.win with
    | some w => ((b.dropPosts n).addPost (b.stopPost n res l w)).laneIdle n
    | none => b.laneIdle n := by
  unfold Block.laneStop
  rw [hl]
  rfl

theorem Block.laneStop_none {n : Nat} (hl : Tbl.find b.rxa.lanes n = none) (res : Nat) : b.laneStop n res = b := by
  unfold Block.laneStop
  rw [hl]

/-- The record of the lane is the last of those that will post. -/
theorem Block.stopPosted_only (n : Nat) (p : RxPost) : LanesOnly b ((b.dropPosts n).addPost p) ∧ ((b.dropPosts n).addPost p).rxa.lanes = b.rxa.lanes
    ∧ ((b.dropPosts n).addPost p).rxa.posts = b.rxa.posts.filter (fun q => q.lane != some n) ++ [p] :=
  ⟨⟨.of_regs rfl, rfl, rfl, rfl⟩, rfl, rfl⟩

theorem Block.laneStop_only (n res : Nat) : LanesOnly b (b.laneStop n res) := by
  cases hl : Tbl.find b.rxa.lanes n with
  | none =>
    rw [b.laneStop_none hl]
    exact .refl b
  | some l =>
    rw [b.laneStop_eq hl]
    split
    · exact (b.stopPosted_only n _).1.trans (Block.laneIdle_parts _ n).1
    · exact (b.laneIdle_parts n).1

theorem Block.laneStop_lanes {n : Nat} {l : Lane} (hl : Tbl.find b.rxa.lanes n = some l) (res : Nat) :
    (b.laneStop n res).rxa.lanes = Tbl.erase b.rxa.lanes n := by
  rw [b.laneStop_eq hl]
  split
  · next w _ =>
    obtain ⟨-, lanes, -⟩ := Block.laneIdle_parts ((b.dropPosts n).addPost (b.stopPost n res l w)) n
    exact lanes
  · exact (b.laneIdle_parts n).2.1

/-- A record that is no lane's still posts. -/
theorem Block.laneStop_post (n res : Nat) {p : RxPost} (hp : p ∈ b.rxa.posts) (hn : p.lane = none) : p ∈ (b.laneStop n res).rxa.posts := by
  cases hl : Tbl.find b.rxa.lanes n with
  | none =>
    rw [b.laneStop_none hl]
    exact hp
  | some l =>
    rw [b.laneStop_eq hl]
    split
    · next w _ =>
      rw [(Block.laneIdle_parts _ n).2.2, (b.stopPosted_only n (b.stopPost n res l w)).2.2]
      exact List.mem_append_left _ (List.mem_filter.2 ⟨hp, by simp [hn]⟩)
    · rw [(b.laneIdle_parts n).2.2]
      exact hp

/-- The record of the lane posts. -/
theorem Block.laneStop_posts {n : Nat} {l : Lane} {w : Window} (hl : Tbl.find b.rxa.lanes n = some l) (hw : Tbl.find b.rxa.wins l.win = some w) (res : Nat) :
    b.stopPost n res l w ∈ (b.laneStop n res).rxa.posts := by
  rw [b.laneStop_eq hl, hw]
  dsimp only
  rw [(Block.laneIdle_parts _ n).2.2, (b.stopPosted_only n _).2.2]
  exact List.mem_append_right _ List.mem_cons_self

/-! ### Every lane posts ABORTED (R171) -/

/-- ABORTED of a lane of the window posts 64 DSP_CLK cycles after `q`. -/
def AbortPosts (c : Block) (win q : Nat) : Prop := ∃ p ∈ c.rxa.posts, p.win = win ∧ p.lane = none ∧ p.res = some 12 ∧ p.due = q + 64 * qDsp

theorem AbortPosts.laneStop {c : Block} {win q : Nat} (h : AbortPosts c win q) (n res : Nat) : AbortPosts (c.laneStop n res) win q := by
  obtain ⟨p, hp, hwin, hlane, hres, hdue⟩ := h
  exact ⟨p, c.laneStop_post n res hp hlane, hwin, hlane, hres, hdue⟩

/-- The lanes of a list stop in its order. -/
def Block.stopAll (l : Tbl Lane) : Block := l.foldl (fun b e => b.laneStop e.1 rxABORTED) b

/-- The first lane of those left is always the one found under its number, so none is left in the end. -/
theorem Block.stopAll_posts (q : Nat) (W : Tbl Window) (l : Tbl Lane) (b : Block) (hl : b.rxa.lanes = l) (hq : b.nowQ = q) (hW : b.rxa.wins = W) :
    (b.stopAll l).rxa.lanes = [] ∧ LanesOnly b (b.stopAll l) ∧ (∀ win, AbortPosts b win q → AbortPosts (b.stopAll l) win q)
    ∧ ∀ e ∈ l, ∀ w, Tbl.find W e.2.win = some w → AbortPosts (b.stopAll l) e.2.win q := by
  induction l generalizing b with
  | nil => exact ⟨hl, .refl b, fun _ h => h, fun _ he => absurd he List.not_mem_nil⟩
  | cons e l ih =>
    obtain ⟨n, x⟩ := e
    have found : Tbl.find b.rxa.lanes n = some x := by rw [hl, Tbl.find, if_pos rfl]
    have rest : (b.laneStop n rxABORTED).rxa.lanes = l := by rw [b.laneStop_lanes found, hl, Tbl.erase, if_pos rfl]
    have only := b.laneStop_only n rxABORTED
    obtain ⟨empty, later, keep, post⟩ := ih _ rest ((Block.nowQ_congr only.clk).trans hq) (only.wins.trans hW)
    refine ⟨empty, only.trans later, fun win h => keep win (h.laneStop n _), fun e he w hw => ?_⟩
    rcases List.mem_cons.1 he with rfl | he
    · exact keep _ ⟨_, b.laneStop_posts found (hW ▸ hw) _, rfl, rfl, rfl, congrArg (· + 64 * qDsp) hq⟩
    · exact post e he w hw

theorem Block.abortLanes_all : (b.abortLanes (fun _ => true)).rxa.lanes = [] ∧ LanesOnly b (b.abortLanes (fun _ => true))
    ∧ ∀ (n : Nat) (l : Lane) (w : Window), Tbl.find b.rxa.lanes n = some l → Tbl.find b.rxa.wins l.win = some w →
      AbortPosts (b.abortLanes (fun _ => true)) l.win b.nowQ := by
  have whole : b.abortLanes (fun _ => true) = b.stopAll b.rxa.lanes := congrArg (List.foldl _ b) (List.filter_eq_self.2 fun _ _ => rfl)
  obtain ⟨empty, only, -, post⟩ := Block.stopAll_posts b.nowQ b.rxa.wins b.rxa.lanes b rfl rfl rfl
  rw [whole]
  exact ⟨empty, only, fun n l w hl hw => post (n, l) (Tbl.mem_of_find hl) w hw⟩

/-! ### EN and FLUSH (R140, R170, R171) -/

theorem rxaEnable_off (s : State) (h : s.blk.bit RXA_CTL.EN = false) :
    Gives (.rxaEnable true) s ({ s.blk.start with rxa := { s.blk.rxa with agc := [] } }.set RXA_CTL.EN) ∧ NoEffect (.rxaEnable false) s := by
  refine ⟨gives_of_runCmd (f := fun b => b.rxaEnable true) rfl ?_, gives_of_runCmd (f := fun b => b.rxaEnable false) rfl ?_⟩ <;>
  · unfold Block.rxaEnable
    rw [Block.start_bit, h]
    rfl

theorem rxaEnable_on (s : State) (h : s.blk.bit RXA_CTL.EN = true) : NoEffect (.rxaEnable true) s
    ∧ Runs (.rxaEnable false) s (fun t => t.bit RXA_CTL.EN = false ∧ t.rxa.lanes = []
      ∧ ∀ (n : Nat) (l : Lane) (w : Window), Tbl.find s.blk.rxa.lanes n = some l → Tbl.find s.blk.rxa.wins l.win = some w →
        AbortPosts t l.win (htQ s.blk.clk.htime)) := by
  have off : s.blk.start.rxaEnable false = (s.blk.start.clr RXA_CTL.EN).abortLanes (fun _ => true) := by
    unfold Block.rxaEnable
    rw [Block.start_bit, h]
    rfl
  obtain ⟨empty, only, post⟩ := (s.blk.start.clr RXA_CTL.EN).abortLanes_all
  refine ⟨gives_of_runCmd (f := fun b => b.rxaEnable true) rfl ?_, runs_of_effect (f := fun b => b.rxaEnable false) rfl off ⟨?_, empty, post⟩⟩
  · unfold Block.rxaEnable
    rw [Block.start_bit, h]
    rfl
  · rw [Block.canon_bit, only.kept.bit _ 0 (by decide)]
    exact Block.bit_clr_same _ _ _ (by decide)

theorem rxaFlush_runs (s : State) : Runs .rxaFlush s (fun t => t.bit RXA_CTL.EN = s.blk.bit RXA_CTL.EN ∧ t.rxa.lanes = []
    ∧ ∀ (n : Nat) (l : Lane) (w : Window), Tbl.find s.blk.rxa.lanes n = some l → Tbl.find s.blk.rxa.wins l.win = some w →
      AbortPosts t l.win (htQ s.blk.clk.htime)) := by
  obtain ⟨empty, only, post⟩ := s.blk.start.abortLanes_all
  refine runs_of_runCmd (f := fun b => b.abortLanes (fun _ => true)) rfl ⟨?_, empty, post⟩
  rw [Block.canon_bit, only.kept.bit _ 0 (by decide)]
  rfl

end Sys2Proof.Machine
end

section
/-! SUPPORT. A lane reaches the end of its SFD and of its header (R149, R153, R154, R156, R157, R159). -/

namespace Sys2Proof.Machine

variable (b : Block)

@[simp] theorem Block.setLane_lanes (n : Nat) (l : Lane) : (b.setLane n l).rxa.lanes = Tbl.insert b.rxa.lanes n l := rfl

theorem Block.toTime_freeNat (t : BitVec 64) : (b.toTime t).freeNat = b.freeNat := rfl
theorem Block.toQ_freeNat (q : Nat) : (b.toQ q).freeNat = b.freeNat := b.toTime_freeNat _
theorem Block.toTime_fbufsFree (t : BitVec 64) : (b.toTime t).fbufsFree = b.fbufsFree := rfl
theorem Block.toQ_fbufsFree (q : Nat) : (b.toQ q).fbufsFree = b.fbufsFree := b.toTime_fbufsFree _

theorem Block.setLane_find (n : Nat) (l : Lane) : Tbl.find (b.setLane n l).rxa.lanes n = some l := Tbl.find_insert_same _ _ _

/-- The instants of a lane depend on the region profile and the delays of the ports. -/
theorem Block.laneAt_congr {b c : Block} (h : c.regs = b.regs) (l : Lane) (w : Window) (sym : Nat) : c.laneAt l w sym = b.laneAt l w sym := by
  have profile : c.bandProfile w.band = b.bandProfile w.band := by
    unfold Block.bandProfile Block.regionByte
    rw [Block.reg_congr h]
  have delay (port p : Nat) : c.rxDelay port p = b.rxDelay port p := by
    unfold Block.rxDelay
    rw [Block.rd_congr h]
  unfold Block.laneAt
  simp only [profile, delay]

/-! ### A record of a lane will post -/

/-- The record of a lane that will post with a result (R157). -/
def lanePostOf (n win res q : Nat) (release : Bool) : RxPost :=
  { due := q, win := win, lane := some n, res := some res, release := release, bytes := [] }

theorem Block.lanePost_of_find {n : Nat} {l : Lane} (h : Tbl.find b.rxa.lanes n = some l) (res q : Nat) (release : Bool) :
    b.lanePost n res q release = b.addPost (lanePostOf n l.win res q release) := by
  unfold Block.lanePost
  rw [h]
  rfl

theorem Block.lanePost_lanes (n res q : Nat) (release : Bool) : (b.lanePost n res q release).rxa.lanes = b.rxa.lanes := by
  unfold Block.lanePost
  split <;> rfl

/-! ### The end of the SFD (R153) -/

/-- The lane as its header begins. -/
def Lane.toHdr (l : Lane) (snr cfo : Nat) : Lane := { l with st := .hdr, snr := snr % 65536, cfo := cfo % 65536 }

/-- The lane goes on to the header, or posts SFD_FAIL; the SFD ends at `q`. -/
def Block.sfdEnd (n : Nat) (ok : Bool) (q : Nat) (l : Lane) : Block :=
  if ok then b.setLane n l else (b.setLane n l).lanePost n rxSFD_FAIL (q + 64 * qDsp) true

theorem Block.sfdEnd_passes (n q : Nat) (l : Lane) : b.sfdEnd n true q l = b.setLane n l := rfl

theorem Block.sfdEnd_fails (n q : Nat) (l : Lane) : b.sfdEnd n false q l = (b.setLane n l).addPost (lanePostOf n l.win rxSFD_FAIL (q + 64 * qDsp) true) :=
  (b.setLane n l).lanePost_of_find (b.setLane_find n l) _ _ _

/-- The lane goes on to its header, and with a failure its record joins those that will post. -/
theorem Block.sfdEnd_parts (n : Nat) (ok : Bool) (q : Nat) (l : Lane) : Tbl.find (b.sfdEnd n ok q l).rxa.lanes n = some l
    ∧ (b.sfdEnd n ok q l).rxa.posts = b.rxa.posts ++ (if ok then [] else [lanePostOf n l.win rxSFD_FAIL (q + 64 * qDsp) true])
    ∧ (b.sfdEnd n ok q l).regs = b.regs := by
  cases ok
  · rw [b.sfdEnd_fails]
    exact ⟨b.setLane_find _ _, rfl, rfl⟩
  · rw [b.sfdEnd_passes]
    exact ⟨b.setLane_find _ _, (List.append_nil _).symm, rfl⟩

theorem laneSfdEnd_eq (s : State) (n : Nat) (ok : Bool) (snr cfo : Nat) : exec (.laneSfdEnd n ok snr cfo) s = runCmd s (fun b =>
    match Tbl.find b.rxa.lanes n with
    | some l => match Tbl.find b.rxa.wins l.win with
      | some w => if l.st != .acq then b else (b.toQ (b.laneAt l w 12)).sfdEnd n ok (b.laneAt l w 12) (l.toHdr snr cfo)
      | none => b
    | none => b) := rfl

theorem laneSfdEnd_runs (s : State) (n : Nat) (ok : Bool) (snr cfo : Nat) (l : Lane) (w : Window) (hl : Tbl.find s.blk.rxa.lanes n = some l)
    (hw : Tbl.find s.blk.rxa.wins l.win = some w) (acq : l.st = .acq) : Runs (.laneSfdEnd n ok snr cfo) s (fun t =>
      Tbl.find t.rxa.lanes n = some (l.toHdr snr cfo)
      ∧ (if ok then t.rxa.posts = s.blk.rxa.posts else ∃ p, t.rxa.posts = s.blk.rxa.posts ++ [p] ∧ p.lane = some n ∧ p.res = some 4 ∧ p.release = true
          ∧ p.due = s.blk.laneAt l w 12 + 64 * qDsp)
      ∧ RegsKept s.blk t []) := by
  refine runs_of_runCmd (laneSfdEnd_eq s n ok snr cfo) ?_
  rw [Block.start_rxa, hl]
  dsimp only
  rw [hw]
  dsimp only
  rw [acq, if_neg (by decide), Block.laneAt_congr s.blk.start_regs]
  obtain ⟨found, posts, regs⟩ := (s.blk.start.toQ (s.blk.laneAt l w 12)).sfdEnd_parts n ok (s.blk.laneAt l w 12) (l.toHdr snr cfo)
  rw [Block.toQ_rxa, Block.start_rxa] at posts
  rw [Block.toQ_regs, Block.start_regs] at regs
  rw [Block.canon_rxa]
  refine ⟨found, ?_, RegsKept.canon (.of_regs regs)⟩
  rw [posts]
  cases ok
  · exact ⟨_, rfl, rfl, rfl, rfl, rfl⟩
  · exact List.append_nil _

/-! ### The frame buffers -/

/-- A table in which the value at a key is replaced by one of which the same holds. -/
theorem Tbl.any_insert {α : Type} (p : α → Bool) {k : Nat} {v v' : α} (h : p v' = p v) : ∀ {t : Tbl α}, Tbl.find t k = some v →
    (Tbl.insert t k v').any (fun e => p e.2) = t.any (fun e => p e.2)
  | (j, w) :: t, hf => by
    rw [Tbl.find] at hf
    rw [Tbl.insert]
    split at hf
    · next e =>
      cases hf
      rw [if_pos e, List.any_cons, List.any_cons, h]
    · next e =>
      split at hf
      · cases hf
      · next lt => rw [if_neg e, if_neg lt, List.any_cons, List.any_cons, any_insert p h hf]

/-- A lane that holds the same buffer leaves the others as they are. -/
theorem Block.fbufsFree_setLane {n : Nat} {l l' : Lane} (hl : Tbl.find b.rxa.lanes n = some l) (h : l'.fbuf = l.fbuf) :
    (b.setLane n l').fbufsFree = b.fbufsFree := by
  have busy (x : Nat) : (b.setLane n l').fbufBusy x = b.fbufBusy x := by
    have lanes := Tbl.any_insert (fun l : Lane => l.fbuf == some x) (v' := l') (congrArg (· == some x) h) hl
    unfold Block.fbufBusy
    rw [Block.setLane_lanes, lanes]
    rfl
  unfold Block.fbufsFree
  simp only [busy]

/-! ### The end of the header (R153, R154, R156, R157, R159) -/

theorem Block.cnpSend_rxa (mtype dest : Nat) (body : List Byte) : (b.cnpSend mtype dest body).rxa = b.rxa := by
  unfold Block.cnpSend
  split <;> rfl

/-- Of the header of a frame: HDR_OK posts, and the lane goes on, where it ships or has a buffer; else NO_BUF posts and releases it. -/
theorem Block.headerFrame_posts {n : Nat} {l : Lane} (w : Window) (q : Nat) (hl : Tbl.find b.rxa.lanes n = some l) :
    (∃ l', Tbl.find (b.headerFrame n l w q).rxa.lanes n = some l' ∧ l'.hdr = l.hdr)
    ∧ ((w.mode = 2 ∨ b.fbufsFree ≠ []) → lanePostOf n l.win rxHDR_OK (q + 212 * qDsp) false ∈ (b.headerFrame n l w q).rxa.posts)
    ∧ (w.mode ≠ 2 → b.fbufsFree = [] → lanePostOf n l.win rxNO_BUF (q + 212 * qDsp) true ∈ (b.headerFrame n l w q).rxa.posts) := by
  generalize due : q + 212 * qDsp = u
  unfold Block.headerFrame
  dsimp only
  rw [due]
  split
  · next ships =>
    rw [Block.cnpSend_rxa, Block.lanePost_lanes, Block.lanePost_lanes]
    refine ⟨⟨_, Block.setLane_find _ _ _, rfl⟩, fun _ => ?_, fun no => absurd ships no⟩
    rw [Block.lanePost_of_find _ (Block.setLane_find _ n _)]
    rw [Block.lanePost_of_find _ (show Tbl.find (Block.addPost (Block.setLane _ n _) _).rxa.lanes n = some _ from Block.setLane_find _ n _)]
    exact List.mem_append_left _ (List.mem_append_right _ List.mem_cons_self)
  · next stays =>
    split
    · next none =>
      rw [Block.lanePost_of_find _ hl]
      exact ⟨⟨l, hl, rfl⟩, fun h => absurd none (h.resolve_left stays), fun _ _ => List.mem_append_right _ List.mem_cons_self⟩
    · next free =>
      rw [Block.lanePost_of_find _ (Block.setLane_find _ n _)]
      refine ⟨⟨_, Block.setLane_find _ _ _, rfl⟩, fun _ => ?_, fun _ no => absurd no free⟩
      exact List.mem_append_left _ (List.mem_append_right _ List.mem_cons_self)

/-- The header of a lane is read as `h`, its echo block as `e`; the header ends at `q`, the echo block at `qe`. -/
def Block.headerRead (n h e snr cfo q qe : Nat) (l : Lane) (w : Window) : Block :=
  let l := { l with hdr := h, snr := snr % 65536, cfo := cfo % 65536, echo := if w.ack && (hType h == tyACK || !hdrOk h) then e else 0 }
  let d := b.took.setLane n l
  if !hdrOk h then d.lanePost n rxHDR_FAIL ((if w.ack then qe else q) + 212 * qDsp) true
  else if (hType h == tyACK) != w.ack then d.lanePost n rxTYPE_MISMATCH (q + 212 * qDsp) true
  else if w.ack then d.lanePost n (if echoOk e then rxACK_OK else rxECHO_FAIL) (qe + 212 * qDsp) true
  else d.headerFrame n l w q

theorem laneHeaderEnd_eq (s : State) (n r0 r1 e0 e1 snr cfo : Nat) : exec (.laneHeaderEnd n r0 r1 e0 e1 snr cfo) s = runCmd s (fun b =>
    match Tbl.find b.rxa.lanes n with
    | some l => match Tbl.find b.rxa.wins l.win with
      | some w => if l.st != .hdr || l.hdr != 0 || b.rxa.posts.any (fun p => p.lane == some n) then b
        else (b.toQ (b.laneAt l w 60)).headerRead n (golayBlockDecode r0 r1 (b.toQ (b.laneAt l w 60)).freeNat)
          (golayBlockDecode e0 e1 ((b.toQ (b.laneAt l w 60)).freeNat / 2 ^ 24)) snr cfo (b.laneAt l w 60) (b.laneAt l w 108) l w
      | none => b
    | none => b) := rfl

/-- What a header's outcome leaves, by the result it posts. -/
theorem Block.headerRead_posts {n : Nat} (h e snr cfo q qe : Nat) {l : Lane} (w : Window) (hl : Tbl.find b.rxa.lanes n = some l) :
    let t := b.headerRead n h e snr cfo q qe l w
    (∃ l', Tbl.find t.rxa.lanes n = some l' ∧ l'.hdr = h)
    ∧ (hdrOk h = false → ∃ p ∈ t.rxa.posts, p.lane = some n ∧ p.res = some 5 ∧ p.release = true)
    ∧ (hdrOk h = true → (hType h == tyACK) ≠ w.ack → ∃ p ∈ t.rxa.posts, p.lane = some n ∧ p.res = some 6 ∧ p.release = true)
    ∧ (hdrOk h = true → w.ack = true → hType h = tyACK → ∃ p ∈ t.rxa.posts, p.lane = some n ∧ p.res = some (if echoOk e then 1 else 13))
    ∧ (hdrOk h = true → w.ack = false → hType h ≠ tyACK → (w.mode = 2 ∨ b.fbufsFree ≠ []) →
        ∃ p ∈ t.rxa.posts, p.lane = some n ∧ p.res = some 2 ∧ p.release = false)
    ∧ (hdrOk h = true → w.ack = false → hType h ≠ tyACK → w.mode ≠ 2 → b.fbufsFree = [] →
        ∃ p ∈ t.rxa.posts, p.lane = some n ∧ p.res = some 9 ∧ p.release = true) := by
  let l' : Lane := { l with hdr := h, snr := snr % 65536, cfo := cfo % 65536, echo := if w.ack && (hType h == tyACK || !hdrOk h) then e else 0 }
  have found : Tbl.find (b.took.setLane n l').rxa.lanes n = some l' := Block.setLane_find _ n l'
  have free : (b.took.setLane n l').fbufsFree = b.fbufsFree := b.took.fbufsFree_setLane hl rfl
  have posted (d : Block) (res u : Nat) (rel : Bool) (hd : Tbl.find d.rxa.lanes n = some l') :
      Tbl.find (d.lanePost n res u rel).rxa.lanes n = some l' ∧ lanePostOf n l.win res u rel ∈ (d.lanePost n res u rel).rxa.posts := by
    rw [d.lanePost_of_find hd]
    exact ⟨hd, List.mem_append_right _ List.mem_cons_self⟩
  intro t
  cases ok : hdrOk h
  case false =>
    have read : t = (b.took.setLane n l').lanePost n rxHDR_FAIL ((if w.ack then qe else q) + 212 * qDsp) true := if_pos (by rw [ok]; rfl)
    obtain ⟨listed, post⟩ := posted _ rxHDR_FAIL ((if w.ack then qe else q) + 212 * qDsp) true found
    rw [← read] at listed post
    refine ⟨⟨l', listed, rfl⟩, fun _ => ⟨_, post, rfl, rfl, rfl⟩, ?_, ?_, ?_, ?_⟩ <;> exact fun no => absurd no Bool.false_ne_true
  case true =>
    have good : ¬ (!hdrOk h) = true := by rw [ok]; exact Bool.false_ne_true
    by_cases kind : (hType h == tyACK) = w.ack
    · cases ack : w.ack
      · have isFrame : hType h ≠ tyACK := by
          rw [ack] at kind
          exact beq_eq_false_iff_ne.1 kind
        have read : t = (b.took.setLane n l').headerFrame n l' w q :=
          ((if_neg good).trans (if_neg (by rw [kind]; simp))).trans (if_neg (by rw [ack]; exact Bool.false_ne_true))
        obtain ⟨listed, taken, full⟩ := (b.took.setLane n l').headerFrame_posts w q found
        rw [← read, free] at taken full
        rw [← read] at listed
        exact ⟨listed, fun no => absurd no.symm Bool.false_ne_true, fun _ no => absurd (kind.trans ack) no, fun _ no => absurd no Bool.false_ne_true,
          fun _ _ _ room => ⟨_, taken room, rfl, rfl, rfl⟩, fun _ _ _ stays none => ⟨_, full stays none, rfl, rfl, rfl⟩⟩
      · have read : t = (b.took.setLane n l').lanePost n (if echoOk e then rxACK_OK else rxECHO_FAIL) (qe + 212 * qDsp) true :=
          ((if_neg good).trans (if_neg (by rw [kind]; simp))).trans (if_pos ack)
        obtain ⟨listed, post⟩ := posted _ (if echoOk e then rxACK_OK else rxECHO_FAIL) (qe + 212 * qDsp) true found
        rw [← read] at listed post
        exact ⟨⟨l', listed, rfl⟩, fun no => absurd no.symm Bool.false_ne_true, fun _ no => absurd (kind.trans ack) no, fun _ _ _ => ⟨_, post, rfl, rfl⟩,
          fun _ no => absurd no.symm Bool.false_ne_true, fun _ no => absurd no.symm Bool.false_ne_true⟩
    · have read : t = (b.took.setLane n l').lanePost n rxTYPE_MISMATCH (q + 212 * qDsp) true :=
        (if_neg good).trans (if_pos (bne_iff_ne.2 kind))
      obtain ⟨listed, post⟩ := posted _ rxTYPE_MISMATCH (q + 212 * qDsp) true found
      rw [← read] at listed post
      refine ⟨⟨l', listed, rfl⟩, fun no => absurd no.symm Bool.false_ne_true, fun _ _ => ⟨_, post, rfl, rfl, rfl⟩, fun _ ack type => absurd ?_ kind,
        fun _ ack type => absurd ?_ kind, fun _ ack type => absurd ?_ kind⟩
      · rw [ack, type, beq_self_eq_true]
      · rw [ack, beq_eq_false_iff_ne.2 type]
      · rw [ack, beq_eq_false_iff_ne.2 type]

theorem laneHeaderEnd_runs (s : State) (n r0 r1 e0 e1 snr cfo : Nat) (l : Lane) (w : Window) (hl : Tbl.find s.blk.rxa.lanes n = some l)
    (hw : Tbl.find s.blk.rxa.wins l.win = some w) (st : l.st = .hdr) (hdr : l.hdr = 0) (posts : ∀ p ∈ s.blk.rxa.posts, p.lane ≠ some n) :
    let hd := golayBlockDecode r0 r1 s.blk.freeNat
    let ec := golayBlockDecode e0 e1 (s.blk.freeNat / 2 ^ 24)
    Runs (.laneHeaderEnd n r0 r1 e0 e1 snr cfo) s (fun t =>
      (∃ l', Tbl.find t.rxa.lanes n = some l' ∧ l'.hdr = hd)
      ∧ (hdrOk hd = false → ∃ p ∈ t.rxa.posts, p.lane = some n ∧ p.res = some 5 ∧ p.release = true)
      ∧ (hdrOk hd = true → (hType hd == tyACK) ≠ w.ack → ∃ p ∈ t.rxa.posts, p.lane = some n ∧ p.res = some 6 ∧ p.release = true)
      ∧ (hdrOk hd = true → w.ack = true → hType hd = tyACK → ∃ p ∈ t.rxa.posts, p.lane = some n ∧ p.res = some (if echoOk ec then 1 else 13))
      ∧ (hdrOk hd = true → w.ack = false → hType hd ≠ tyACK → (w.mode = 2 ∨ s.blk.fbufsFree ≠ []) →
          ∃ p ∈ t.rxa.posts, p.lane = some n ∧ p.res = some 2 ∧ p.release = false)
      ∧ (hdrOk hd = true → w.ack = false → hType hd ≠ tyACK → w.mode ≠ 2 → s.blk.fbufsFree = [] →
          ∃ p ∈ t.rxa.posts, p.lane = some n ∧ p.res = some 9 ∧ p.release = true)) := by
  intro hd ec
  have none : s.blk.rxa.posts.any (fun p => p.lane == some n) = false := List.any_eq_false.2 fun p hp => by simpa using posts p hp
  refine runs_of_runCmd (laneHeaderEnd_eq s n r0 r1 e0 e1 snr cfo) ?_
  rw [Block.start_rxa, hl]
  dsimp only
  rw [hw]
  dsimp only
  rw [st, hdr, none, if_neg (by decide)]
  have rxa : (s.blk.start.toQ (s.blk.start.laneAt l w 60)).rxa = s.blk.rxa := s.blk.start.toQ_rxa _
  have drawn : (s.blk.start.toQ (s.blk.start.laneAt l w 60)).freeNat = s.blk.freeNat := s.blk.start.toQ_freeNat _
  have free : (s.blk.start.toQ (s.blk.start.laneAt l w 60)).fbufsFree = s.blk.fbufsFree := s.blk.start.toQ_fbufsFree _
  rw [drawn]
  generalize s.blk.start.toQ (s.blk.start.laneAt l w 60) = d at rxa free ⊢
  generalize s.blk.start.laneAt l w 60 = q
  generalize s.blk.start.laneAt l w 108 = qe
  rw [← free]
  exact d.headerRead_posts hd ec snr cfo q qe w (by rw [rxa]; exact hl)

end Sys2Proof.Machine
end

section
/-! SUPPORT. A codeword of a lane starts on a decoder, is sent, and is done (R154–R156, R161, R457). -/

namespace Sys2Proof.Machine

variable (b : Block)

theorem Block.cwReady_congr {b c : Block} (h : c.regs = b.regs) (l : Lane) (w : Window) (r : Nat) : c.cwReady l w r = b.cwReady l w r := by
  unfold Block.cwReady
  rw [Block.laneAt_congr h, Block.rd_congr h]

/-! ### A codeword starts -/

/-- The lane with codeword `r` replaced; `cut` where iterations were left out. -/
def Lane.putCw (l : Lane) (r : Nat) (c : Codeword) (cut : Bool) : Lane := { l with cws := l.cws.set r c, iterCut := l.iterCut || cut }

/-- The soft values of codeword `r` go to the home of the window. -/
def Block.cwSent (n r : Nat) (l : Lane) (w : Window) (c : Codeword) : Block :=
  (b.took.setLane n (l.putCw r { c with started := true } false)).cnpSend 2 w.home
    (leBytes 2 l.shipId ++ leBytes 1 r ++ leBytes 1 0 ++ leBytes 2 (cwLen (hCode l.hdr) (hLen l.hdr) r + codeRows (hCode l.hdr) * codeZ (hCode l.hdr)) ++ leBytes 2 0
      ++ b.softValues l w r (cwLen (hCode l.hdr) (hLen l.hdr) r + codeRows (hCode l.hdr) * codeZ (hCode l.hdr)))

/-- Codeword `r` has a decoder for `i` iterations of the `m` allowed. -/
def Block.cwDecodes (n r i m : Nat) (l : Lane) : Block :=
  (b.setLane n (l.putCw r { started := true, startQ := b.nowQ, allowed := i, done := false } (decide (i < m)))).when (decide (i < m))
    (fun b => b.set RXA_EVT.ITER_CUT)

theorem codewordDecodeStart_eq (s : State) (n r : Nat) : exec (.codewordDecodeStart n r) s = runCmd s (fun b =>
    match Tbl.find b.rxa.lanes n with
    | some l => match Tbl.find b.rxa.wins l.win, l.cws[r]? with
      | some w, some c =>
        let d := b.toQ (b.cwReady l w r)
        if c.started then d
        else if l.st == .ship then d.cwSent n r l w c
        else if l.st != .pay || decide (8 ≤ d.decoding) || d.earlierWaits l.p then d
        else d.cwDecodes n r (iterFit (hCode l.hdr) (hLen l.hdr) r d.nowQ l.p (d.rd RXA_DEC_CFG.MAX_ITER)) (d.rd RXA_DEC_CFG.MAX_ITER) l
      | _, _ => b
    | none => b) := rfl

theorem Block.cwSent_find (n r : Nat) (l : Lane) (w : Window) (c : Codeword) :
    Tbl.find (b.cwSent n r l w c).rxa.lanes n = some { l with cws := l.cws.set r { c with started := true } } := by
  unfold Block.cwSent
  rw [Block.cnpSend_rxa, Block.setLane_find, Lane.putCw, Bool.or_false]

theorem Block.cwDecodes_find (n r i m : Nat) (l : Lane) : Tbl.find (b.cwDecodes n r i m l).rxa.lanes n
    = some (l.putCw r { started := true, startQ := b.nowQ, allowed := i, done := false } (decide (i < m))) := by
  unfold Block.cwDecodes
  rw [Block.when_keeps (·.rxa) rfl, Block.setLane_find]

theorem codewordDecodeStart_runs (s : State) (n r : Nat) (l : Lane) (w : Window) (c : Codeword) (hl : Tbl.find s.blk.rxa.lanes n = some l)
    (hw : Tbl.find s.blk.rxa.wins l.win = some w) (hc : l.cws[r]? = some c) (waits : c.started = false) :
    let b := s.blk.start.toQ (s.blk.cwReady l w r)
    (l.st = .pay → b.decoding < 8 → b.earlierWaits l.p = false → Runs (.codewordDecodeStart n r) s (fun t =>
      ∃ l' c', Tbl.find t.rxa.lanes n = some l' ∧ l'.cws = l.cws.set r c' ∧ c'.started = true ∧ c'.startQ = b.nowQ ∧ c'.done = false
        ∧ c'.allowed = iterFit (hCode l.hdr) (hLen l.hdr) r b.nowQ l.p (s.blk.rd RXA_DEC_CFG.MAX_ITER)))
    ∧ (l.st = .ship → Runs (.codewordDecodeStart n r) s (fun t => Tbl.find t.rxa.lanes n = some { l with cws := l.cws.set r { c with started := true } })) := by
  intro b
  have ready : s.blk.start.toQ (s.blk.start.cwReady l w r) = b := congrArg s.blk.start.toQ (Block.cwReady_congr s.blk.start_regs l w r)
  have iters : b.rd RXA_DEC_CFG.MAX_ITER = s.blk.rd RXA_DEC_CFG.MAX_ITER := (Block.toQ_rd _ _ _ _).trans (Block.rd_congr s.blk.start_regs _ _)
  clear_value b
  refine ⟨fun pay free first => runs_of_runCmd (codewordDecodeStart_eq s n r) ?_, fun ship => runs_of_runCmd (codewordDecodeStart_eq s n r) ?_⟩
  all_goals
    rw [Block.start_rxa, hl]
    dsimp only
    rw [hw, hc]
    dsimp only
    rw [ready, waits, if_neg Bool.false_ne_true, Block.canon_rxa]
  · have decodes : (l.st != .pay || decide (8 ≤ b.decoding) || b.earlierWaits l.p) = false := by
      rw [pay, first, decide_eq_false (by omega)]
      rfl
    rw [decodes, pay, if_neg (by decide), if_neg (by decide), iters]
    exact ⟨_, _, b.cwDecodes_find _ _ _ _ _, rfl, rfl, rfl, rfl, rfl⟩
  · rw [if_pos (beq_iff_eq.2 ship)]
    exact b.cwSent_find n r l w c

/-! ### A codeword is done -/

/-- Codeword `r` is done after `i` iterations, its information bits `data` in frame buffer `h`. -/
def Block.cwDone (n r i data h : Nat) (l : Lane) (c : Codeword) : Block :=
  let code := hCode l.hdr
  let len := hLen l.hdr
  let a := cwStart code len r
  let n' := cwLen code len r
  let old := leNat (b.fbBytes h 0 len)
  (b.fbWrite h 0 (leBytes len (old % 2 ^ a + (data % 2 ^ n') * 2 ^ a + (old / 2 ^ (a + n')) * 2 ^ (a + n')))).setLane n
    { l with cws := l.cws.set r { c with done := true }, iter := if r + 1 = numCw code len then i else l.iter }

theorem codewordDecoded_eq (s : State) (n r iters data : Nat) : exec (.codewordDecoded n r iters data) s = runCmd s (fun b =>
    match Tbl.find b.rxa.lanes n with
    | some l => match l.cws[r]?, l.fbuf with
      | some c, some h =>
        if !c.started || c.done || c.allowed == 0 then b
        else (b.toQ (c.startQ + decodeCycles (hCode l.hdr) (hLen l.hdr) r (max 1 (min iters c.allowed)) * qDsp)).cwDone n r
          (max 1 (min iters c.allowed)) data h l c
      | _, _ => b
    | none => b) := rfl

theorem Block.cwDone_parts (n r i data h : Nat) (l : Lane) (c : Codeword) : (b.cwDone n r i data h l c).regs = b.regs
    ∧ (b.cwDone n r i data h l c).dram = b.dram
    ∧ ∃ l', Tbl.find (b.cwDone n r i data h l c).rxa.lanes n = some l' ∧ l'.cws = l.cws.set r { c with done := true } :=
  ⟨rfl, rfl, _, Block.setLane_find _ _ _, rfl⟩

theorem codewordDecoded_runs (s : State) (n r iters data h : Nat) (l : Lane) (c : Codeword) (hl : Tbl.find s.blk.rxa.lanes n = some l)
    (hc : l.cws[r]? = some c) (hf : l.fbuf = some h) (started : c.started = true) (live : c.done = false) (allowed : c.allowed ≠ 0) :
    Runs (.codewordDecoded n r iters data) s (fun t =>
      (∃ l', Tbl.find t.rxa.lanes n = some l' ∧ l'.cws = l.cws.set r { c with done := true }) ∧ RegsKept s.blk t [] ∧ DramKept s.blk t) := by
  refine runs_of_runCmd (codewordDecoded_eq s n r iters data) ?_
  rw [Block.start_rxa, hl]
  dsimp only
  rw [hc, hf]
  dsimp only
  have decodes : (!c.started || c.done || c.allowed == 0) = false := by
    rw [started, live, beq_eq_false_iff_ne.2 allowed]
    rfl
  rw [decodes, if_neg Bool.false_ne_true, Block.canon_rxa]
  generalize c.startQ + decodeCycles (hCode l.hdr) (hLen l.hdr) r (max 1 (min iters c.allowed)) * qDsp = q
  generalize max 1 (min iters c.allowed) = i
  obtain ⟨regs, dram, found⟩ := (s.blk.start.toQ q).cwDone_parts n r i data h l c
  rw [Block.toQ_regs, Block.start_regs] at regs
  exact ⟨found, RegsKept.canon (.of_regs regs), DramKept.canon (.of_dram (dram.trans (s.blk.start.toTime_dram _)))⟩

end Sys2Proof.Machine
end

section
/-! SUPPORT. The firings of a DSP_CLK cycle, and what the grant of a lane leaves of their counts (R146–R152). -/

namespace Sys2Proof.Machine

variable (b : Block)

/-! ### The order of the firings (R149) -/

theorem firings_eq (s : State) (f : Firing) (l : List Firing) : exec (firingsOf f l) s = runCmd s (fun b => b.firings (f :: l)) := rfl

theorem Block.firings_off (h : b.bit RXA_CTL.EN = false) (l : List Firing) : b.firings l = b := by
  unfold Block.firings
  rw [h]
  rfl

theorem Block.firings_single (h : b.bit RXA_CTL.EN = true) (f : Firing) : b.firings [f] = b.fire f := by
  unfold Block.firings
  rw [h]
  rfl

/-- Two firings that differ in level or stream are taken in one order. -/
theorem insertFiring_comm {f g : Firing} (h : f.level ≠ g.level ∨ f.stream ≠ g.stream) : insertFiring f [g] = insertFiring g [f] := by
  unfold insertFiring
  by_cases first : g.level < f.level ∨ g.level = f.level ∧ f.stream < g.stream
  · rw [if_pos first, if_neg (by omega)]
    rfl
  · rw [if_neg first, if_pos (by omega)]
    rfl

theorem Block.firings_comm {f g : Firing} (h : f.level ≠ g.level ∨ f.stream ≠ g.stream) : b.firings [f, g] = b.firings [g, f] := by
  unfold Block.firings
  exact congrArg (fun l : List Firing => if !b.bit RXA_CTL.EN then b else l.foldl Block.fire b) (insertFiring_comm h).symm

theorem detection_off (s : State) (f : Firing) (l : List Firing) (h : s.blk.bit RXA_CTL.EN = false) : NoEffect (firingsOf f l) s :=
  gives_of_runCmd (firings_eq s f l) (s.blk.start.firings_off h _)

theorem detection_comm (s : State) (f g : Firing) (h : f.level ≠ g.level ∨ f.stream ≠ g.stream) : exec (firingsOf f [g]) s = exec (firingsOf g [f]) s :=
  (firings_eq s f [g]).trans ((runCmd_congr (s.blk.start.firings_comm h)).trans (firings_eq s g [f]).symm)

/-! ### The counts of the detections stay (R165, R171) -/

/-- The detections of a stream that the census has counted in the present cell. -/
def Block.cenDet (x : Nat) : Nat := (Tbl.get (fun _ => CenCount.fresh) b.rxa.cenNow x).det

/-- The registers in which the grant of a lane shows. -/
def grantRegs : List Nat := [RXA_POOL_ST.all.base, RXA_WIN_ST.all.base, RXA_EVT.all.base, RXA_CNT_PREEMPT.all.base, RXA_CNT_POOLDROP.all.base,
  RXA_CNT_JOIN.all.base, RXA_CNT_LATEJOIN.all.base]

/-- From `b` to `c` no detection is counted. -/
structure DetKept (b c : Block) : Prop where
  kept : RegsKept b c grantRegs
  det : ∀ x, c.cenDet x = b.cenDet x

namespace DetKept

variable {a b c : Block}

theorem trans (h : DetKept a b) (g : DetKept b c) : DetKept a c := ⟨h.kept.trans g.kept, fun x => (g.det x).trans (h.det x)⟩

theorem of_cen {b c : Block} (kept : RegsKept b c grantRegs) (cen : c.rxa.cenNow = b.rxa.cenNow) : DetKept b c :=
  ⟨kept, fun x => congrArg (fun t => (Tbl.get (fun _ => CenCount.fresh) t x).det) cen⟩

theorem of_parts {b c : Block} (regs : c.regs = b.regs) (cen : c.rxa.cenNow = b.rxa.cenNow) : DetKept b c := of_cen (.of_regs regs) cen

theorem refl (b : Block) : DetKept b b := of_parts rfl rfl

theorem set (h : DetKept a b) (f : Fld) (ho : f.off 0 ∈ grantRegs) : DetKept a (b.set f) := h.trans (of_cen ((RegsKept.refl b _).set f 0 ho) rfl)

theorem inc (h : DetKept a b) (f : Fld) (ho : f.off 0 ∈ grantRegs) : DetKept a (b.inc f) := h.trans (of_cen ((RegsKept.refl b _).incBy f 1 0 ho) rfl)

theorem rxCounts (h : DetKept a b) : DetKept a b.rxCounts := h.trans (of_cen (b.rxCounts_kept.mono (by decide)) rfl)

theorem lanesOnly (h : DetKept a b) (g : LanesOnly b c) : DetKept a c := h.trans (of_cen (g.kept.mono (by decide)) g.cen)

theorem agcRelease (h : DetKept a b) (x : Nat) : DetKept a (b.agcRelease x) := h.lanesOnly (b.agcRelease_only x).lanesOnly.1

/-- Another count of the census changes. -/
theorem cen (h : DetKept a b) (x : Nat) {f : CenCount → CenCount} (hf : ∀ n, (f n).det = n.det) : DetKept a (b.cen x f) := by
  refine h.trans ⟨.of_regs rfl, fun y => ?_⟩
  by_cases hy : y = x
  · subst hy
    exact (congrArg CenCount.det (Tbl.get_put_same _ _ _ _)).trans (hf _)
  · exact congrArg CenCount.det (Tbl.get_put_other _ _ _ _ _ hy)

theorem agcGrant (h : DetKept a b) (x : Nat) (pw : Int) (new busy : Bool) (g : Agc) : DetKept a (b.agcGrant x pw new busy g) := by
  have lane : DetKept a (b.cen x (fun c => { c with lanes := min 255 (c.lanes + 1) })) := h.cen x fun _ => rfl
  unfold Block.agcGrant
  dsimp only
  split
  · exact lane.trans (of_parts rfl rfl)
  · split
    · refine cen ?_ x fun _ => rfl
      exact lane.trans (of_parts rfl rfl)
    · exact lane.trans (of_parts rfl rfl)

theorem winGranted (h : DetKept a b) (w : Nat) : DetKept a (b.winGranted w) := by
  unfold Block.winGranted
  split
  · exact h.trans (of_parts rfl rfl)
  · exact h

/-- A lane is found, won by capture, or none is had. -/
theorem laneFor (b : Block) (w level : Nat) : DetKept b (b.laneFor w level).2 := by
  unfold Block.laneFor
  generalize (List.range 512).filter (fun n => (Tbl.find b.rxa.lanes n).isNone) = free
  have looked : DetKept b (b.when free.isEmpty (fun b => b.set RXA_EVT.POOL_EMPTY)) := by
    cases free.isEmpty
    · exact refl b
    · exact (refl b).set _ (by decide)
  dsimp only
  generalize b.when free.isEmpty (fun b => b.set RXA_EVT.POOL_EMPTY) = d at looked ⊢
  have dropped : DetKept b ((d.inc RXA_CNT_POOLDROP.all).set RXA_EVT.POOL_DROP) := (looked.inc _ (by decide)).set _ (by decide)
  split
  · exact looked.trans (of_parts rfl rfl)
  · split
    · next n l _ =>
      split
      · exact ((looked.lanesOnly (d.laneStop_only n _)).inc _ (by decide)).set _ (by decide)
      · exact dropped
    · exact dropped

/-- A detection takes a lane or is lost. -/
theorem detectNew (b : Block) (w q : Nat) (m : Member) (pw : Int) : DetKept b (b.detectNew w q m pw) := by
  have place := laneFor b w m.level
  unfold Block.detectNew
  dsimp only
  generalize b.laneFor w m.level = r at place ⊢
  obtain ⟨n | n, d⟩ := r
  · exact place
  · have granted := place.agcGrant m.stream pw true (b.streamBusy m.stream) (b.agc m.stream)
    dsimp only
    generalize d.agcGrant m.stream pw true (b.streamBusy m.stream) (b.agc m.stream) = e at granted ⊢
    refine rxCounts (winGranted ?_ w)
    exact granted.trans (of_parts rfl rfl)

end DetKept

/-- The detection `m` joins lane `n` beside the members `ms`. -/
def Block.joinBeside (n : Nat) (l : Lane) (m : Member) (pw : Int) (ms : List Member) : Block :=
  let d := b.agcGrant m.stream pw false (b.streamBusy m.stream) (b.agc m.stream)
  let l' := { (Tbl.find d.rxa.lanes n).getD l with members := ms ++ [m] }
  match l'.best with
  | some r => d.setLane n { l' with t1 := r.t1, level := r.level }
  | none => d

/-- The weakest of the members, of equal levels the one that joined first (R150). -/
def weakestMember (ms : List Member) : Option Member :=
  ms.foldl (fun w x => match w with | some (y : Member) => if x.level < y.level then some x else some y | none => some x) none

theorem Block.detectJoin_eq (n : Nat) (l : Lane) (m : Member) (pw : Int) : b.detectJoin n l m pw =
    if l.members.length < 8 then b.joinBeside n l m pw l.members
    else match weakestMember l.members with
      | some w => if w.level + b.rd RXA_POOL_CFG.JOIN_REPL ≤ m.level then
          (b.joinBeside n l m pw (l.members.filter (fun x => x.stream != w.stream))).agcRelease w.stream
        else b.inc RXA_CNT_JOIN.all
      | none => b := rfl

namespace DetKept

theorem joinBeside (b : Block) (n : Nat) (l : Lane) (m : Member) (pw : Int) (ms : List Member) : DetKept b (b.joinBeside n l m pw ms) := by
  have granted := (refl b).agcGrant m.stream pw false (b.streamBusy m.stream) (b.agc m.stream)
  unfold Block.joinBeside
  dsimp only
  split
  · exact granted.trans (of_parts rfl rfl)
  · exact granted

/-- A detection joins a lane, replaces a member, or is discarded. -/
theorem detectJoin (b : Block) (n : Nat) (l : Lane) (m : Member) (pw : Int) : DetKept b (b.detectJoin n l m pw) := by
  rw [Block.detectJoin_eq]
  split
  · exact joinBeside b n l m pw _
  · split
    · next w _ =>
      split
      · exact (joinBeside b n l m pw _).agcRelease w.stream
      · exact (refl b).inc _ (by decide)
    · exact refl b

end DetKept

/-! ### One firing (R146–R152) -/

/-- The member that a firing makes. -/
def Block.memberOf (f : Firing) : Member :=
  { stream := f.stream, t1 := f.t1, level := f.level % 256, psnr := f.psnr % 256, rssi := b.atAntenna (f.stream / 64) f.rssi, phase := f.phase % 65536 }

/-- A detection joins a lane near it, takes a lane, or comes too late for one that has passed its acquisition (R150, R151). -/
def Block.detectionGoes (f : Firing) : Block :=
  let fits := (b.winLanes f.win).filter (fun e =>
    !(e.2.members.any (fun x => x.stream / 64 == f.stream / 64)) && within f.t1 e.2.t1 (4 * b.rd RXA_POOL_CFG.LOC_WIN) (10 ^ 9))
  match nearest f.t1 (fits.filter (fun e => e.2.st == .acq)) with
  | some (n, l) => b.detectJoin n l (b.memberOf f) f.power
  | none => if fits.isEmpty then b.detectNew f.win f.q (b.memberOf f) f.power else b.inc RXA_CNT_LATEJOIN.all

theorem DetKept.detectionGoes (b : Block) (f : Firing) : DetKept b (b.detectionGoes f) := by
  unfold Block.detectionGoes
  dsimp only
  split
  · next n l _ => exact DetKept.detectJoin b n l _ _
  · split
    · exact DetKept.detectNew b _ _ _ _
    · exact (DetKept.refl b).inc _ (by decide)

/-- A detection of the window `w` counts. -/
def Block.detectionCounted (f : Firing) (w : Window) : Block :=
  ((b.cen f.stream (fun c => { c with det := min 255 (c.det + 1) })).setWin f.win { w with dets := Tbl.insert w.dets f.stream f.t1 }).inc RXA_CNT_DET.all

/-- A symbol of the window in quanta (R147). -/
def Block.detSym (w : Window) (band : Nat) : Nat := sfOfCode w.sfc * tcQ (b.bandProfile band)

/-- The end of the preamble symbols of a firing that the detector accumulates (R147). -/
def Block.detEnd (f : Firing) (w : Window) (band : Nat) : Nat := htQ f.t1 + b.rd RXA_BAND.DET_SYMS band * b.detSym w band

/-- What a firing does once its samples have come through, `e` the end of its preamble and `sym` a symbol. -/
def Block.fireOn (f : Firing) (w : Option Window) (band ch e sym : Nat) : Block :=
  let near := match w with
    | some w => (match Tbl.find w.dets f.stream with
      | some u => decide (((f.t1.toNat : Int) - u.toNat).natAbs * qHt ≤ sym)
      | none => false)
    | none => false
  if near || !b.fires f w band ch e then b
  else
    let b := b.cen f.stream (fun c => { c with det := min 255 (c.det + 1) })
    match w with
    | some w =>
      if !w.live || !b.winCovers w f.stream || !w.holds f.t1 then b
      else ((b.setWin f.win { w with dets := Tbl.insert w.dets f.stream f.t1 }).inc RXA_CNT_DET.all).detectionGoes f
    | none => b

/-- A symbol of the window that a firing names, or of the census, in quanta. -/
def Block.firingSym (w : Option Window) (band : Nat) : Nat :=
  sfOfCode (match w with | some w => w.sfc | none => b.rd RXA_BAND.CEN_SF band) * tcQ (b.bandProfile band)

theorem Block.firingSym_some (w : Window) (band : Nat) : b.firingSym (some w) band = b.detSym w band := rfl

theorem Block.fire_eq (f : Firing) : b.fire f =
    match b.streamOf f.stream with
    | some (_, band, ch) =>
      (b.toQ (htQ f.t1 + b.rd RXA_BAND.DET_SYMS band * b.firingSym (Tbl.find b.rxa.wins f.win) band + b.rxDelay (f.stream / 64) (b.bandProfile band))).fireOn f
        (Tbl.find b.rxa.wins f.win) band ch (htQ f.t1 + b.rd RXA_BAND.DET_SYMS band * b.firingSym (Tbl.find b.rxa.wins f.win) band)
        (b.firingSym (Tbl.find b.rxa.wins f.win) band)
    | none => b := rfl

theorem Block.fire_window {f : Firing} {w : Window} {a band ch : Nat} (hs : b.streamOf f.stream = some (a, band, ch)) (hw : Tbl.find b.rxa.wins f.win = some w) :
    b.fire f = (b.toQ (b.detEnd f w band + b.rxDelay (f.stream / 64) (b.bandProfile band))).fireOn f (some w) band ch (b.detEnd f w band)
      (b.detSym w band) := by
  rw [Block.fire_eq, hs]
  dsimp only
  rw [hw, Block.firingSym_some]
  rfl

theorem Block.fireOn_below {f : Firing} (w : Window) {band : Nat} (ch e sym : Nat) (h : f.level < b.rd RXA_BAND.DET_THR band) :
    b.fireOn f (some w) band ch e sym = b := by
  refine if_pos ?_
  unfold Block.fires
  rw [decide_eq_false (Nat.not_le.2 h), Bool.false_and, Bool.false_and]
  exact Bool.or_true _

theorem Block.fires_of {f : Firing} {w : Window} {band e : Nat} (ch : Nat) (thr : b.rd RXA_BAND.DET_THR band ≤ f.level) (whole : b.erasedAt f.stream e = false)
    (seq : f.q = 0 ∨ f.q ∈ b.winSeqs w) : b.fires f (some w) band ch e = true := by
  have among : (f.q == 0 || (b.winSeqs w).contains f.q) = true := by simpa using seq
  unfold Block.fires
  rw [decide_eq_true thr, whole]
  exact among

theorem Block.fireOn_counts {f : Firing} {w : Window} {band ch e sym : Nat} (fires : b.fires f (some w) band ch e = true) (live : w.live = true)
    (covers : b.winCovers w f.stream = true) (holds : w.holds f.t1 = true) (first : Tbl.find w.dets f.stream = none) :
    b.fireOn f (some w) band ch e sym = (b.detectionCounted f w).detectionGoes f := by
  unfold Block.fireOn
  dsimp only
  rw [first, fires]
  have counted : (b.cen f.stream (fun c => { c with det := min 255 (c.det + 1) })).winCovers w f.stream = true := covers
  refine (if_neg Bool.false_ne_true).trans (if_neg ?_)
  rw [live, counted, holds]
  decide

theorem Block.detectionCounted_rd (f : Firing) (w : Window) : (b.detectionCounted f w).rd RXA_CNT_DET.all = min (b.rd RXA_CNT_DET.all + 1) (2 ^ 32 - 1) :=
  Block.rd_incBy_same ((b.cen _ _).setWin _ _) RXA_CNT_DET.all 1 0 (by decide)

theorem Block.detectionCounted_det (f : Firing) (w : Window) : (b.detectionCounted f w).cenDet f.stream = min 255 (b.cenDet f.stream + 1) :=
  congrArg CenCount.det (Tbl.get_put_same _ _ _ _)

/-- The counts after a detection. -/
theorem Block.detection_counts (f : Firing) (w : Window) :
    ((b.detectionCounted f w).detectionGoes f).rd RXA_CNT_DET.all = min (b.rd RXA_CNT_DET.all + 1) (2 ^ 32 - 1)
    ∧ ((b.detectionCounted f w).detectionGoes f).cenDet f.stream = min 255 (b.cenDet f.stream + 1) := by
  obtain ⟨kept, det⟩ := DetKept.detectionGoes (b.detectionCounted f w) f
  exact ⟨(kept.rd _ 0 (by decide)).trans (b.detectionCounted_rd f w), (det _).trans (b.detectionCounted_det f w)⟩

/-! ### The command -/

/-! Neither the time reached nor the start of a command changes what is erased, what a window covers, what it is searched for and what the census
has counted. -/

theorem Block.erasedAt_toTime (t : BitVec 64) (x q : Nat) : (b.start.toTime t).erasedAt x q = b.erasedAt x q := rfl
theorem Block.winCovers_toTime (t : BitVec 64) (w : Window) (x : Nat) : (b.start.toTime t).winCovers w x = b.winCovers w x := rfl
theorem Block.winSeqs_toTime (t : BitVec 64) (w : Window) : (b.start.toTime t).winSeqs w = b.winSeqs w := rfl
theorem Block.cenDet_toTime (t : BitVec 64) (x : Nat) : (b.start.toTime t).cenDet x = b.cenDet x := rfl
theorem Block.erasedAt_toQ (u x q : Nat) : (b.start.toQ u).erasedAt x q = b.erasedAt x q := b.erasedAt_toTime _ x q
theorem Block.winCovers_toQ (u : Nat) (w : Window) (x : Nat) : (b.start.toQ u).winCovers w x = b.winCovers w x := b.winCovers_toTime _ w x
theorem Block.winSeqs_toQ (u : Nat) (w : Window) : (b.start.toQ u).winSeqs w = b.winSeqs w := b.winSeqs_toTime _ w
theorem Block.cenDet_toQ (u x : Nat) : (b.start.toQ u).cenDet x = b.cenDet x := b.cenDet_toTime _ x
theorem Block.cenDet_canon (x : Nat) : b.canon.cenDet x = b.cenDet x := rfl

theorem Block.bandProfile_start (band : Nat) : b.start.bandProfile band = b.bandProfile band := rfl
theorem Block.rxDelay_start (port profile : Nat) : b.start.rxDelay port profile = b.rxDelay port profile := rfl
theorem Block.detSym_start (w : Window) (band : Nat) : b.start.detSym w band = b.detSym w band := rfl
theorem Block.detEnd_start (f : Firing) (w : Window) (band : Nat) : b.start.detEnd f w band = b.detEnd f w band := rfl

theorem detection_effect (s : State) {f : Firing} {w : Window} {a band ch : Nat} (en : s.blk.bit RXA_CTL.EN = true)
    (hs : s.blk.streamOf f.stream = some (a, band, ch)) (hw : Tbl.find s.blk.rxa.wins f.win = some w) :
    s.blk.start.firings [f] = (s.blk.start.toQ (s.blk.detEnd f w band + s.blk.rxDelay (f.stream / 64) (s.blk.bandProfile band))).fireOn f (some w) band ch
      (s.blk.detEnd f w band) (s.blk.detSym w band) := by
  rw [Block.firings_single s.blk.start en, Block.fire_window s.blk.start hs hw, Block.detEnd_start, Block.detSym_start, Block.rxDelay_start, Block.bandProfile_start]

theorem detection_runs (s : State) (f : Firing) (w : Window) (a band ch : Nat) (en : s.blk.bit RXA_CTL.EN = true)
    (hs : s.blk.streamOf f.stream = some (a, band, ch)) (hw : Tbl.find s.blk.rxa.wins f.win = some w) :
    let e := htQ f.t1 + s.blk.rd RXA_BAND.DET_SYMS band * (sfOfCode w.sfc * tcQ (s.blk.bandProfile band))
    (f.level < s.blk.rd RXA_BAND.DET_THR band → Gives (firingsOf f []) s (s.blk.start.toQ (e + s.blk.rxDelay (f.stream / 64) (s.blk.bandProfile band))))
    ∧ (s.blk.rd RXA_BAND.DET_THR band ≤ f.level → s.blk.erasedAt f.stream e = false → f.q = 0 ∨ f.q ∈ s.blk.winSeqs w → w.live = true →
      s.blk.winCovers w f.stream = true → w.holds f.t1 = true → Tbl.find w.dets f.stream = none →
      Runs (firingsOf f []) s (fun t => t.rd RXA_CNT_DET.all = min (s.blk.rd RXA_CNT_DET.all + 1) (2 ^ 32 - 1)
        ∧ t.cenDet f.stream = min 255 (s.blk.cenDet f.stream + 1))) := by
  intro e
  have effect := detection_effect s en hs hw
  rw [show s.blk.detEnd f w band = e from rfl] at effect
  clear_value e
  generalize e + s.blk.rxDelay (f.stream / 64) (s.blk.bandProfile band) = u at effect ⊢
  constructor
  · intro below
    rw [Block.fireOn_below _ _ _ _ _ (by rw [Block.toQ_rd]; exact below)] at effect
    exact gives_of_runCmd (firings_eq s f []) effect
  · intro thr whole seq live covers holds first
    have fires : (s.blk.start.toQ u).fires f (some w) band ch e = true :=
      Block.fires_of _ ch (by rw [Block.toQ_rd]; exact thr) (by rw [Block.erasedAt_toQ]; exact whole) (by rw [Block.winSeqs_toQ]; exact seq)
    rw [Block.fireOn_counts _ fires live (by rw [Block.winCovers_toQ]; exact covers) holds first] at effect
    obtain ⟨count, det⟩ := (s.blk.start.toQ u).detection_counts f w
    rw [Block.toQ_rd, Block.start_rd] at count
    rw [Block.cenDet_toQ] at det
    refine runs_of_effect (firings_eq s f []) effect ⟨?_, ?_⟩
    · rw [Block.canon_rd, count]
    · rw [Block.cenDet_canon, det]

/-- Settles O17, by what a lane that stops leaves, what the grant of a lane leaves of the counts of detections, and the order in which two firings
are inserted; the law of the gain, the sequence 0 and the rest of the clauses are the model's. -/
theorem receiveLanes : Obligations.ReceiveLanes :=
  ⟨rxaEnable_off, rxaEnable_on, rxaFlush_runs, fun s x pw => ⟨agcUpdate_erased s x pw, agcUpdate_held s x pw, agcUpdate_moves s x pw⟩, detection_off,
    detection_comm, detection_runs, laneSfdEnd_runs, laneHeaderEnd_runs, codewordDecodeStart_runs, codewordDecoded_runs⟩

end Sys2Proof.Machine
end

section
/-! SUPPORT. A PCIE reset (R533): what it does from every state of the invariant, and a state of no invariant in which it is not as the obligation says. -/

namespace Sys2Proof.Machine

/-! ### A PCIE reset of registers in the canonical form -/

theorem foldl_clr_pwr : ∀ (l : List Nat) (b : Block), (l.foldl (fun (b : Block) r => (b.clr PCI_H2D_CFG.EN r).clr PCI_D2H_CFG.EN r) b).pwr = b.pwr
  | [], _ => rfl
  | _ :: l, _ => foldl_clr_pwr l _

theorem Block.flr_pwr (b : Block) : b.flr.pwr = b.pwr := by
  unfold Block.flr
  rw [Block.setReg_pwr]
  unfold Block.ringsStop
  dsimp only
  rw [foldl_clr_pwr]

theorem Block.flr_fn (b : Block) : b.flr.fn = PciFn.fresh := by
  unfold Block.flr
  rw [Block.setReg_fn]

@[simp] theorem Block.inc_pwr (b : Block) (f : Fld) (n : Nat) : (b.inc f n).pwr = b.pwr := rfl
@[simp] theorem Block.inc_fn (b : Block) (f : Fld) (n : Nat) : (b.inc f n).fn = b.fn := rfl
@[simp] theorem Block.inc_dram (b : Block) (f : Fld) (n : Nat) : (b.inc f n).dram = b.dram := rfl

/-- A PCIE reset changes the registers, the PCIe function and the engine of its rings. -/
theorem Block.pcieReset_parts (b : Block) : b.pcieReset.pwr = b.pwr ∧ b.pcieReset.fn = PciFn.fresh ∧ b.pcieReset.dram = b.dram := by
  unfold Block.pcieReset
  rw [Block.inc_pwr, Block.inc_fn, Block.inc_dram, Block.setReg_pwr, Block.setReg_fn, Block.setReg_dram]
  exact ⟨b.flr_pwr, b.flr_fn, b.flr_dram⟩

theorem Block.pcieReset_stat (b : Block) : b.pcieReset.reg PCI_STAT.all.base = 0 := by
  have kept := (RegsKept.refl (b.flr.setReg PCI_STAT.all.base 0) [PWR_RST_CAUSE.all.base]).incBy PWR_RST_CAUSE.PCIE_RST 1 0 (by decide)
  exact (kept _ (by decide)).trans (b.flr.reg_setReg_same _ _)

/-- Its count goes one up: the Function Level Reset leaves the registers of the power block. -/
theorem Block.pcieReset_count {b : Block} (h : b.regsWf) : b.pcieReset.rd PWR_RST_CAUSE.PCIE_RST = min (b.rd PWR_RST_CAUSE.PCIE_RST + 1) 255 := by
  have kept : (b.flr.setReg PCI_STAT.all.base 0).rd PWR_RST_CAUSE.PCIE_RST = b.rd PWR_RST_CAUSE.PCIE_RST := by
    unfold Block.rd
    rw [Block.reg_setReg_other _ _ _ _ (by decide), Block.flr_reg h, if_pos (by decide)]
  rw [← kept]
  exact Block.rd_inc_same _ _ _ (by decide)

/-- PERST# is low. -/
def Block.perstLow (b : Block) : Block := { b with pwr := { b.pwr with perst := true } }

theorem perst_pcie_eq (s : State) : exec (.perst true) s = runCmd s (fun b =>
    if b.perstLow.bit PWR_CTL.PERST_SCOPE then b.perstLow.resetRequest rkWARM 32
    else if b.perstLow.pwr.rst.isSome then b.perstLow else b.perstLow.pcieReset) := rfl

/-- From every state of the invariant, PERST# going low with PERST_SCOPE 0 does what the obligation says of it. -/
theorem perst_pcie_runs_of_inv (s : State) (h : s.Inv) (scope : s.blk.bit PWR_CTL.PERST_SCOPE = false) (idle : s.blk.pwr.rst = none) :
    Runs (.perst true) s (fun t => t.pwr.rst = none ∧ t.pwr.perst = true ∧ t.fn = PciFn.fresh ∧ t.reg PCI_STAT.all.base = 0
      ∧ t.rd PWR_RST_CAUSE.PCIE_RST = min (s.blk.rd PWR_RST_CAUSE.PCIE_RST + 1) 255 ∧ DramKept s.blk t) := by
  let b := s.blk.start.perstLow
  have wf : b.regsWf := Block.regsWf_of_memWf (b := s.blk) h
  have pcie : ¬ b.bit PWR_CTL.PERST_SCOPE = true := ne_true_of_eq_false scope
  have free : ¬ b.pwr.rst.isSome = true := ne_true_of_eq_false (Option.isSome_eq_false_iff.2 (Option.isNone_iff_eq_none.2 idle))
  obtain ⟨pwr, fn, dram⟩ := b.pcieReset_parts
  refine runs_of_effect (perst_pcie_eq s) ((if_neg pcie).trans (if_neg free)) ⟨?_, ?_, fn, ?_, ?_, ?_⟩
  · rw [Block.canon_pwr, pwr]
    exact idle
  · rw [Block.canon_pwr, pwr]
    rfl
  · rw [Block.canon_reg, b.pcieReset_stat]
  · rw [Block.canon_rd, Block.pcieReset_count wf]
    rfl
  · exact DramKept.canon (.of_dram dram)

/-! ### Registers that are not in the canonical form -/

/-- A state with no reset in progress and PERST_SCOPE 0, in which the entry of PWR_RST_CAUSE lies behind one of the PCI block, where a read does not
come to it. -/
def hiddenRstCause : State :=
  { State.reset with blk := { Block.atReset with
      regs := [(PWR_CTL.all.base, 0), (PCI_CTL.all.base, 1), (PWR_RST_CAUSE.all.base, 0x50000)], pwr := { Block.atReset.pwr with rst := none } } }

/-- No step leads to such a state from one of the invariant. -/
theorem hiddenRstCause_not_inv : ¬ hiddenRstCause.Inv := by unfold State.Inv; decide +kernel

/-- Refutes O53: the obligation asks its clause on a PCIE reset of every state, also of one whose registers are not in the canonical form. In
`hiddenRstCause` PCIE_RST reads 0; the reset drops the entry of the PCI block before it, and then PCIE_RST reads 6, not 1. From every state of the
invariant the clause holds (`perst_pcie_runs_of_inv`). -/
theorem not_resetsAndPower : ¬ Obligations.ResetsAndPower := by
  intro h
  obtain ⟨-, -, -, -, -, -, -, -, pcie, -⟩ := h
  obtain ⟨t, next, -, -, -, -, -, count, -⟩ := pcie hiddenRstCause (by decide +kernel) rfl
  cases next
  exact absurd count (by decide +kernel)

end Sys2Proof.Machine
end

section
/-! SUPPORT. How the ports stop or cut the transmissions that are listed (R183, R194, R197, R200, R201). -/

namespace Sys2Proof.Machine

variable (b : Block)

/-- What is listed after an insertion is what was inserted or was listed. -/
theorem Tbl.mem_of_mem_insert {α : Type} {k : Nat} {v : α} {e : Nat × α} : ∀ {t : Tbl α}, e ∈ Tbl.insert t k v → e = (k, v) ∨ e ∈ t
  | [], h => .inl (List.mem_singleton.1 h)
  | (j, w) :: t, h => by
    rw [Tbl.insert] at h
    split at h
    · exact (List.mem_cons.1 h).imp id (List.mem_cons_of_mem _)
    · split at h
      · exact List.mem_cons.1 h
      · rcases List.mem_cons.1 h with rfl | h
        · exact .inr List.mem_cons_self
        · exact (mem_of_mem_insert h).imp id (List.mem_cons_of_mem _)

/-! ### A transmission on several ports -/

/-- Port `n` is one of the transmission's. -/
def Tx.hasPort (t : Tx) (n : Nat) : Bool := t.ports.any (fun p => p.port == n)

/-- Port `n` of the transmission is live. -/
def Tx.liveOn (t : Tx) (n : Nat) : Bool := t.ports.any (fun p => p.port == n && p.ended == .live)

/-- The transmission with what is live of it on the ports of a list ended. -/
def Tx.endAll (t : Tx) (l : List Nat) (e : PortEnd) : Tx :=
  { t with ports := t.ports.map (fun p => if l.contains p.port && p.ended == .live then { p with ended := e } else p) }

theorem Tx.endAll_nil (t : Tx) (e : PortEnd) : t.endAll [] e = t := by
  unfold Tx.endAll
  simp

/-- Ports that end one after the other end as one list of ports. -/
theorem Tx.endOn_endAll (t : Tx) (n : Nat) (l : List Nat) {e : PortEnd} (he : e ≠ .live) : (t.endOn n e).endAll l e = t.endAll (n :: l) e := by
  unfold Tx.endOn Tx.endAll
  rw [List.map_map]
  congr 1
  refine List.map_congr_left fun p _ => ?_
  cases live : p.ended == .live
  · simp [Function.comp, live]
  · by_cases hp : p.port = n
    · simp [Function.comp, live, hp, he]
    · simp [Function.comp, live, hp]

/-- Where nothing is live on the port nothing ends. -/
theorem Tx.endOn_of_not_live {t : Tx} {n : Nat} (h : t.liveOn n = false) (e : PortEnd) : t.endOn n e = t := by
  have same : t.ports.map (fun p => if p.port == n && p.ended == .live then { p with ended := e } else p) = t.ports.map id :=
    List.map_congr_left fun p hp => if_neg (List.any_eq_false.1 h p hp)
  unfold Tx.endOn
  rw [same, List.map_id]

/-- What is asked of the port numbers alone is as before. -/
theorem Tx.endOn_any (t : Tx) (n : Nat) (e : PortEnd) (f : Nat → Bool) : (t.endOn n e).ports.any (fun p => f p.port) = t.ports.any (fun p => f p.port) := by
  unfold Tx.endOn
  rw [List.any_map]
  congr 1
  funext p
  dsimp only [Function.comp]
  split <;> rfl

/-! ### A port that aborts what it radiates (R200, R201) -/

/-- The transmission with its ports as they stop, and ABORTED. -/
def Tx.stopped (t : Tx) (ports : List TxPort) (aborted : Bool) : Tx := { t with ports := ports, aborted := aborted }

/-- The transmission with what is live of it on port `n` stopped at `q`, to post ABORTED where the port is one of its. -/
def Tx.stopOn (t : Tx) (n q : Nat) : Tx := t.stopped (t.endOn n (.stop q)).ports (t.aborted || t.hasPort n)

/-- The same for the ports of a list. -/
def Tx.stopAll (t : Tx) (l : List Nat) (q : Nat) : Tx := t.stopped (t.endAll l (.stop q)).ports (t.aborted || t.ports.any (fun p => l.contains p.port))

theorem Tx.stopAll_nil (t : Tx) (q : Nat) : t.stopAll [] q = t := by
  have none : t.ports.any (fun p => ([] : List Nat).contains p.port) = false := List.any_eq_false.2 fun _ _ => Bool.false_ne_true
  unfold Tx.stopAll
  rw [none, Bool.or_false, Tx.endAll_nil]
  rfl

theorem Tx.stopOn_hasPort (t : Tx) (n m q : Nat) : (t.stopOn n q).hasPort m = t.hasPort m := t.endOn_any n _ (· == m)

/-- A transmission that is not of the port stays as it is. -/
theorem Tx.stopOn_of_not_hasPort {t : Tx} {n : Nat} (h : t.hasPort n = false) (q : Nat) : t.stopOn n q = t := by
  have dead : t.liveOn n = false := List.any_eq_false.2 fun p hp k => List.any_eq_false.1 h p hp (Bool.and_eq_true_iff.1 k).1
  unfold Tx.stopOn
  rw [h, Bool.or_false, Tx.endOn_of_not_live dead]
  rfl

theorem Tx.stopOn_stopOn (t : Tx) (n q : Nat) : (t.stopOn n q).stopOn n q = t.stopOn n q := by
  have ports := congrArg Tx.ports (t.endOn_endOn n (e := .stop q) PortEnd.noConfusion (.stop q))
  refine congrArg₂ t.stopped ports ?_
  rw [t.stopOn_hasPort n n q]
  exact (Bool.or_assoc _ _ _).trans (congrArg _ (Bool.or_self _))

theorem Tx.stopOn_stopAll (t : Tx) (n : Nat) (l : List Nat) (q : Nat) : (t.stopOn n q).stopAll l q = t.stopAll (n :: l) q := by
  have ports := congrArg Tx.ports (t.endOn_endAll n l (e := .stop q) PortEnd.noConfusion)
  have any : (t.hasPort n || t.ports.any (fun p => l.contains p.port)) = t.ports.any (fun p => (n :: l).contains p.port) := by
    rw [Bool.eq_iff_iff]
    simp [Tx.hasPort, and_or_left, exists_or]
  refine congrArg₂ t.stopped ports ?_
  rw [show (t.stopOn n q).ports.any (fun p => l.contains p.port) = t.ports.any (fun p => l.contains p.port) from t.endOn_any n _ l.contains, ← any]
  exact Bool.or_assoc _ _ _

theorem Tx.stopOn_endQ (t : Tx) (n q : Nat) : (t.stopOn n q).endQ = t.endQ := rfl

/-- Two transmissions have the same ports and end at the same instant. -/
def Tx.alike (t u : Tx) : Prop := u.endQ = t.endQ ∧ ∀ n, u.hasPort n = t.hasPort n

theorem Tx.alike.refl (t : Tx) : t.alike t := ⟨rfl, fun _ => rfl⟩

theorem Tx.alike.stopOn {t u : Tx} (h : t.alike u) (n q : Nat) : (t.stopOn n q).alike u := ⟨h.1, fun m => (h.2 m).trans (t.stopOn_hasPort n m q).symm⟩

/-- A listed transmission of port `n` whose radiated interval has not ended aborts. -/
def Block.abortOne (n : Nat) (b : Block) (x : Nat × Tx) : Block :=
  if b.nowQ < x.2.endQ ∧ x.2.hasPort n then
    match Tbl.find (b.portEnd x.1 n (.stop b.nowQ)).txc.txs x.1 with
    | some t => (b.portEnd x.1 n (.stop b.nowQ)).setTx x.1 { t with aborted := true }
    | none => b
  else b

theorem Block.portAbort_eq (n : Nat) : b.portAbort n = (b.txc.txs.foldl (Block.abortOne n) b).paSettle n b.nowQ := rfl

theorem Block.abortOne_of_find {n : Nat} {x : Nat × Tx} {t : Tx} (ht : Tbl.find b.txc.txs x.1 = some t) (hq : b.nowQ < x.2.endQ) (hx : x.2.hasPort n = true) :
    b.abortOne n x = (b.setTx x.1 (t.endOn n (.stop b.nowQ))).setTx x.1 { t.endOn n (.stop b.nowQ) with aborted := true } := by
  unfold Block.abortOne
  rw [if_pos ⟨hq, hx⟩, b.portEnd_of_find ht, Block.setTx_txs, Tbl.find_insert_same]

theorem Block.abortOne_of_none {n : Nat} {x : Nat × Tx} (ht : Tbl.find b.txc.txs x.1 = none) : b.abortOne n x = b := by
  have same : b.portEnd x.1 n (.stop b.nowQ) = b := by
    unfold Block.portEnd
    rw [ht]
  unfold Block.abortOne
  rw [same, ht]
  exact ite_self b

/-- What an entry can do: nothing, or to abort the transmission that its key shows. -/
theorem Block.abortOne_cases (n : Nat) (x : Nat × Tx) : b.abortOne n x = b ∨ ∃ t, Tbl.find b.txc.txs x.1 = some t ∧ b.nowQ < x.2.endQ ∧ x.2.hasPort n = true
    ∧ b.abortOne n x = (b.setTx x.1 (t.endOn n (.stop b.nowQ))).setTx x.1 { t.endOn n (.stop b.nowQ) with aborted := true } := by
  by_cases hc : b.nowQ < x.2.endQ ∧ x.2.hasPort n = true
  · obtain ⟨hq, hx⟩ := hc
    cases ht : Tbl.find b.txc.txs x.1 with
    | none => exact .inl (b.abortOne_of_none ht)
    | some t => exact .inr ⟨t, rfl, hq, hx, b.abortOne_of_find ht hq hx⟩
  · exact .inl (if_neg hc)

theorem Block.abortOne_txsOnly (n : Nat) (x : Nat × Tx) : TxsOnly b (b.abortOne n x) := by
  rcases b.abortOne_cases n x with h | ⟨t, -, -, -, h⟩ <;> rw [h]
  · exact .refl b
  · exact ⟨_, rfl⟩

theorem Block.foldl_abortOne_txsOnly (n : Nat) : ∀ (l : Tbl Tx) (b : Block), TxsOnly b (l.foldl (Block.abortOne n) b)
  | [], b => .refl b
  | x :: l, b => (b.abortOne_txsOnly n x).trans (foldl_abortOne_txsOnly n l _)

/-- Every transmission listed under the key `k` is like `t`. -/
def Block.listsAlike (b : Block) (k : Nat) (t : Tx) : Prop := ∀ z, (k, z) ∈ b.txc.txs → t.alike z

theorem Block.abortOne_listsAlike {k n : Nat} {t : Tx} (x : Nat × Tx) (h : b.listsAlike k t) : (b.abortOne n x).listsAlike k t := by
  rcases b.abortOne_cases n x with e | ⟨u, hu, -, -, e⟩ <;> rw [e]
  · exact h
  · intro z hz
    have own (hk : k = x.1) : t.alike (u.endOn n (.stop b.nowQ)) := by
      have listed := h u (hk ▸ Tbl.mem_of_find hu)
      exact ⟨listed.1, fun m => (u.endOn_any n _ (· == m)).trans (listed.2 m)⟩
    rw [Block.setTx_txs, Block.setTx_txs] at hz
    rcases Tbl.mem_of_mem_insert hz with e | hz
    · obtain ⟨hk, rfl⟩ := Prod.mk.inj e
      exact own hk
    · rcases Tbl.mem_of_mem_insert hz with e | hz
      · obtain ⟨hk, rfl⟩ := Prod.mk.inj e
        exact own hk
      · exact h z hz

theorem Block.foldl_abortOne_listsAlike {k n : Nat} {t : Tx} : ∀ (l : Tbl Tx) (b : Block), b.listsAlike k t → (l.foldl (Block.abortOne n) b).listsAlike k t
  | [], _, h => h
  | x :: l, b, h => foldl_abortOne_listsAlike l _ (b.abortOne_listsAlike x h)

/-- An entry like the transmission its key shows stops it. -/
theorem Block.abortOne_own {k n : Nat} {t y : Tx} (ht : Tbl.find b.txc.txs k = some t) (like : t.alike y) (hq : b.nowQ < t.endQ) :
    Tbl.find (b.abortOne n (k, y)).txc.txs k = some (t.stopOn n b.nowQ) := by
  cases hp : t.hasPort n with
  | true =>
    rw [b.abortOne_of_find (x := (k, y)) ht (by rw [like.1]; exact hq) (by rw [like.2, hp]), Block.setTx_txs, Tbl.find_insert_same]
    unfold Tx.stopOn
    rw [hp, Bool.or_true]
    rfl
  | false =>
    have idle : b.abortOne n (k, y) = b := if_neg (by rw [like.2, hp]; simp)
    rw [idle, ht, Tx.stopOn_of_not_hasPort hp]

theorem Block.abortOne_other {k n : Nat} (x : Nat × Tx) (hk : k ≠ x.1) : Tbl.find (b.abortOne n x).txc.txs k = Tbl.find b.txc.txs k := by
  rcases b.abortOne_cases n x with e | ⟨u, -, -, -, e⟩ <;> rw [e]
  rw [Block.setTx_txs, Block.setTx_txs, Tbl.find_insert_other _ _ _ _ hk, Tbl.find_insert_other _ _ _ _ hk]

theorem Block.abortOne_nowQ (n : Nat) (x : Nat × Tx) : (b.abortOne n x).nowQ = b.nowQ := Block.nowQ_congr (b.abortOne_txsOnly n x).clk

/-- Where all entries of a key are like the transmission it shows, it stops with the first of them, and the others change nothing. -/
theorem Block.foldl_abortOne_find {k n : Nat} {t : Tx} (l : Tbl Tx) (b : Block) (ht : Tbl.find b.txc.txs k = some t) (like : ∀ z, (k, z) ∈ l → t.alike z)
    (hq : b.nowQ < t.endQ) : Tbl.find (l.foldl (Block.abortOne n) b).txc.txs k = some (if l.any (·.1 == k) then t.stopOn n b.nowQ else t) := by
  induction l generalizing b t with
  | nil => exact ht
  | cons x l ih =>
    have q := b.abortOne_nowQ n x
    rw [List.foldl_cons, List.any_cons, ← q]
    by_cases hk : x.1 = k
    · obtain ⟨j, y⟩ := x
      cases hk
      have own := b.abortOne_own (n := n) ht (like y List.mem_cons_self) hq
      rw [ih _ own (fun z hz => (like z (List.mem_cons_of_mem _ hz)).stopOn n _) (by rw [q, Tx.stopOn_endQ]; exact hq), ← q, Tx.stopOn_stopOn, ite_self,
        beq_self_eq_true, Bool.true_or, if_pos rfl]
    · rw [ih _ ((b.abortOne_other x (Ne.symm hk)).trans ht) (fun z hz => like z (List.mem_cons_of_mem _ hz)) (by rw [q]; exact hq), beq_false_of_ne hk,
        Bool.false_or]

theorem Block.portAbort_clk (n : Nat) : (b.portAbort n).clk = b.clk := by
  rw [b.portAbort_eq, Block.paSettle_clk]
  exact (Block.foldl_abortOne_txsOnly n _ b).clk

theorem Block.portAbort_listsAlike {k : Nat} {t : Tx} (n : Nat) (h : b.listsAlike k t) : (b.portAbort n).listsAlike k t := by
  unfold Block.listsAlike
  rw [b.portAbort_eq, Block.paSettle_txs]
  exact Block.foldl_abortOne_listsAlike _ b h

theorem Block.portAbort_find {k : Nat} {t : Tx} (n : Nat) (ht : Tbl.find b.txc.txs k = some t) (like : b.listsAlike k t) (hq : b.nowQ < t.endQ) :
    Tbl.find (b.portAbort n).txc.txs k = some (t.stopOn n b.nowQ) := by
  have listed : b.txc.txs.any (·.1 == k) = true := List.any_eq_true.2 ⟨_, Tbl.mem_of_find ht, beq_self_eq_true k⟩
  rw [b.portAbort_eq, Block.paSettle_txs, Block.foldl_abortOne_find _ b ht like hq, listed, if_pos rfl]

theorem Block.foldl_portAbort_find {k : Nat} {t : Tx} (l : List Nat) (b : Block) (ht : Tbl.find b.txc.txs k = some t) (like : b.listsAlike k t)
    (hq : b.nowQ < t.endQ) : Tbl.find (l.foldl Block.portAbort b).txc.txs k = some (t.stopAll l b.nowQ) := by
  induction l generalizing b t with
  | nil => rw [Tx.stopAll_nil]; exact ht
  | cons n l ih =>
    have q : (b.portAbort n).nowQ = b.nowQ := Block.nowQ_congr (b.portAbort_clk n)
    have rest := ih (b.portAbort n) (b.portAbort_find n ht like hq) (fun z hz => (b.portAbort_listsAlike n like z hz).stopOn n _)
    rw [q, Tx.stopOn_stopAll, Tx.stopOn_endQ] at rest
    exact rest hq

/-- A flush stops every transmission whose radiated interval has not ended. -/
theorem txFlush_find (b : Block) (h : Nat) (x : Tx) (hx : Tbl.find b.txc.txs h = some x) (only : ∀ y, (h, y) ∈ b.txc.txs → y = x) (hq : b.nowQ < x.endQ) :
    Tbl.find b.txFlush.txc.txs h = some { x with
      ports := x.ports.map (fun p => if decide (p.port < 8) && p.ended == .live then { p with ended := .stop b.nowQ } else p),
      aborted := x.aborted || x.ports.any (fun p => decide (p.port < 8)) } := by
  have flushed := Block.foldl_portAbort_find (List.range 8) b hx (fun y hy => only y hy ▸ Tx.alike.refl y) hq
  have eight (n : Nat) : (List.range 8).contains n = decide (n < 8) := by simp
  unfold Tx.stopAll Tx.stopped Tx.endAll at flushed
  simp only [eight] at flushed
  unfold Block.txFlush
  exact flushed

end Sys2Proof.Machine
end

section
/-! SUPPORT. What clearing does to the gated ports, and the capture of CLR_REQ (R193, R194, R197). -/

namespace Sys2Proof.Machine

variable (b : Block)

/-! ### What stays while ports are stopped or cut -/

/-- The registers in which the pins of the ports show. -/
def gateRegs : List Nat := TXC_STAT.all.base :: (List.range 8).map TXC_PORT_ST.all.off

/-- From `b` to `c` the clock, the pins, the record of clearing and the tests stay, and the registers but for the shown pins; what has been driven out
stays driven out. -/
structure GateKept (b c : Block) : Prop where
  clk : c.clk = b.clk
  pins : c.pins = b.pins
  clr : c.txc.clr = b.txc.clr
  tested : c.txc.tested = b.txc.tested
  regs : RegsKept b c gateRegs
  out : b.out <+: c.out

namespace GateKept

variable {a b c : Block}

theorem refl (b : Block) : GateKept b b := ⟨rfl, rfl, rfl, rfl, .refl _ _, ⟨[], List.append_nil _⟩⟩

theorem trans (h : GateKept a b) (g : GateKept b c) : GateKept a c :=
  ⟨g.clk.trans h.clk, g.pins.trans h.pins, g.clr.trans h.clr, g.tested.trans h.tested, h.regs.trans g.regs, h.out.trans g.out⟩

theorem of_txsOnly (h : TxsOnly b c) : GateKept b c := by
  obtain ⟨ts, rfl⟩ := h
  exact ⟨rfl, rfl, rfl, rfl, .of_regs rfl, ⟨[], List.append_nil _⟩⟩

theorem emit (h : GateKept a b) (o : Output) : GateKept a (b.emit o) :=
  h.trans ⟨rfl, rfl, rfl, rfl, .of_regs (b.emit_regs o), ⟨[o], rfl⟩⟩

theorem foldl {α : Type} {f : Block → α → Block} : ∀ (l : List α) (b : Block), (∀ (c : Block) (x : α), x ∈ l → GateKept c (f c x)) → GateKept b (l.foldl f b)
  | [], b, _ => refl b
  | x :: l, b, h => (h b x List.mem_cons_self).trans (foldl l _ fun c y hy => h c y (List.mem_cons_of_mem _ hy))

end GateKept

theorem pinRegs_subset_gateRegs {n : Nat} (hn : n < 8) : pinRegs n ⊆ gateRegs := by
  intro o ho
  rcases List.mem_cons.1 ho with rfl | ho
  · exact List.mem_cons_self
  · rw [List.mem_singleton.1 ho]
    exact List.mem_cons_of_mem _ (List.mem_map_of_mem (List.mem_range.2 hn))

theorem Block.gapStop_pins (src q : Nat) : (b.gapStop src q).pins = b.pins := rfl

theorem Block.paFall_gateKept {n : Nat} (hn : n < 8) (q : Nat) : GateKept b (b.paFall n q) := by
  have txc : (b.paFall n q).txc = (b.blankEnd n q).txc := by
    rw [b.paFall_eq, Block.emit_txc, Block.emit_txc, Block.clr_txc, Block.wr_txc]
  have stopped : (b.blankEnd n q).txc = { b.txc with paOff := Tbl.put (fun _ => 0) b.txc.paOff n q } := Block.gapStop_txc _ _ _
  refine ⟨b.paFall_clk n q, ?_, ?_, ?_, (b.paFall_kept n q).mono (pinRegs_subset_gateRegs hn), ?_⟩
  · rw [b.paFall_eq, Block.emit_pins, Block.emit_pins, Block.clr, Block.wr_pins, Block.wr_pins]
    exact Block.gapStop_pins _ _ _
  · rw [txc, stopped]
  · rw [txc, stopped]
  · rw [b.paFall_out]
    exact ⟨_, rfl⟩

theorem Block.paSettle_gateKept {n : Nat} (hn : n < 8) (q : Nat) : GateKept b (b.paSettle n q) := by
  unfold Block.paSettle
  split
  · exact .refl b
  · exact b.paFall_gateKept hn q

theorem Block.portAbort_gateKept {n : Nat} (hn : n < 8) : GateKept b (b.portAbort n) := by
  rw [b.portAbort_eq]
  exact (GateKept.of_txsOnly (Block.foldl_abortOne_txsOnly n _ b)).trans (Block.paSettle_gateKept _ hn _)

/-- A field beside PA and ACTIVE stays. -/
theorem Block.portAbort_rd (n : Nat) (f : Fld) (m : Nat) (hs : f.off m ≠ TXC_STAT.all.base ∨ 7 < f.lo) (hl : 0 < f.lo) :
    (b.portAbort n).rd f m = b.rd f m := by
  rw [b.portAbort_eq, ← Block.rd_congr (Block.foldl_abortOne_txsOnly n b.txc.txs b).regs f m]
  unfold Block.paSettle
  split
  · rfl
  · exact Block.paFall_rd _ n _ f m hs hl

/-! ### A capture cuts what radiates on a gated port (R197) -/

/-- What a capture does to a listed transmission on the gated port `n`. -/
def Block.cutOne (n : Nat) (b : Block) (x : Nat × Tx) : Block :=
  if x.2.liveOn n then
    if x.2.startQ ≤ b.nowQ ∧ b.nowQ ≤ x.2.endQ then
      match Tbl.find (b.portEnd x.1 n (.cut b.nowQ)).txc.txs x.1 with
      | some u => (b.portEnd x.1 n (.cut b.nowQ)).setTx x.1 { u with cutAt := if u.cutAt = 0 then b.clk.htime else u.cutAt }
      | none => b
    else if x.2.startQ - b.paLead n ≤ b.nowQ ∧ b.nowQ < x.2.startQ then b.portEnd x.1 n .supp
    else b
  else b

/-- What a capture does to the gated port `n`. -/
def Block.cutPort (b : Block) (n : Nat) : Block :=
  ((b.txc.txs.foldl (Block.cutOne n) b).paSettle n (b.txc.txs.foldl (Block.cutOne n) b).nowQ).emit
    (.sampleGate n true ((b.txc.txs.foldl (Block.cutOne n) b).nowQ + 40 * qDsp))

theorem Block.clrCut_eq : b.clrCut = (maskPorts (b.rd CLR_CTL.PORTMASK)).foldl Block.cutPort b := rfl

/-- The transmission with a CUT_AT. -/
def Tx.stamped (t : Tx) (c : BitVec 64) : Tx := { t with cutAt := c }

/-- An entry under the key of a transmission ends it on the port or leaves it, and it may stamp it. -/
theorem Block.cutOne_cases {k n : Nat} {t : Tx} (y : Tx) (ht : Tbl.find b.txc.txs k = some t) :
    ∃ u c, Tbl.find (b.cutOne n (k, y)).txc.txs k = some (u.stamped c) ∧ (u = t ∨ ∃ e, u = t.endOn n e) := by
  unfold Block.cutOne
  split
  · split
    · rw [b.portEnd_of_find ht, Block.setTx_txs, Tbl.find_insert_same]
      exact ⟨_, _, Tbl.find_insert_same _ _ _, .inr ⟨_, rfl⟩⟩
    · split
      · rw [b.portEnd_of_find ht]
        exact ⟨t.endOn n .supp, t.cutAt, Tbl.find_insert_same _ _ _, .inr ⟨_, rfl⟩⟩
      · exact ⟨t, _, ht, .inl rfl⟩
  · exact ⟨t, _, ht, .inl rfl⟩

theorem Block.cutOne_ended {k n : Nat} {t : Tx} (y : Tx) (ht : Tbl.find b.txc.txs k = some t) (dead : t.liveOn n = false) :
    ∃ c, Tbl.find (b.cutOne n (k, y)).txc.txs k = some (t.stamped c) := by
  obtain ⟨u, c, hu, rfl | ⟨e, rfl⟩⟩ := b.cutOne_cases (n := n) y ht
  · exact ⟨c, hu⟩
  · exact ⟨c, Tx.endOn_of_not_live dead e ▸ hu⟩

/-- The entry of a transmission that radiates now cuts it. -/
theorem Block.cutOne_own {k n : Nat} {t : Tx} (ht : Tbl.find b.txc.txs k = some t) (hs : t.startQ ≤ b.nowQ) (he : b.nowQ ≤ t.endQ) :
    ∃ c, Tbl.find (b.cutOne n (k, t)).txc.txs k = some ((t.endOn n (.cut b.nowQ)).stamped c) := by
  cases live : t.liveOn n with
  | false =>
    rw [Tx.endOn_of_not_live live]
    exact b.cutOne_ended t ht live
  | true =>
    unfold Block.cutOne
    rw [if_pos live, if_pos ⟨hs, he⟩, b.portEnd_of_find ht, Block.setTx_txs, Tbl.find_insert_same]
    exact ⟨_, Tbl.find_insert_same _ _ _⟩

theorem Block.cutOne_txsOnly (n : Nat) (x : Nat × Tx) : TxsOnly b (b.cutOne n x) := by
  unfold Block.cutOne
  split
  · split
    · split
      · exact (b.portEnd_txsOnly _ _ _).trans ⟨_, rfl⟩
      · exact .refl b
    · split
      · exact b.portEnd_txsOnly _ _ _
      · exact .refl b
  · exact .refl b

theorem Block.foldl_cutOne_txsOnly (n : Nat) : ∀ (l : Tbl Tx) (b : Block), TxsOnly b (l.foldl (Block.cutOne n) b)
  | [], b => .refl b
  | x :: l, b => (b.cutOne_txsOnly n x).trans (foldl_cutOne_txsOnly n l _)

theorem Block.cutOne_other {k n : Nat} (x : Nat × Tx) (hk : k ≠ x.1) : Tbl.find (b.cutOne n x).txc.txs k = Tbl.find b.txc.txs k := by
  unfold Block.cutOne
  split
  · split
    · split
      · rw [Block.setTx_txs, Tbl.find_insert_other _ _ _ _ hk, b.portEnd_find_other hk]
      · rfl
    · split
      · exact b.portEnd_find_other hk _ _
      · rfl
  · rfl

/-- A transmission with nothing live on the port keeps its ports. -/
theorem Block.foldl_cutOne_ended {k n : Nat} {t : Tx} (dead : t.liveOn n = false) : ∀ (l : Tbl Tx) (b : Block) (c : BitVec 64),
    Tbl.find b.txc.txs k = some (t.stamped c) → ∃ c, Tbl.find (l.foldl (Block.cutOne n) b).txc.txs k = some (t.stamped c)
  | [], _, c, ht => ⟨c, ht⟩
  | x :: l, b, c, ht => by
    by_cases hk : k = x.1
    · obtain ⟨j, y⟩ := x
      cases hk
      obtain ⟨c', h'⟩ := b.cutOne_ended (n := n) y ht dead
      exact foldl_cutOne_ended dead l _ c' h'
    · exact foldl_cutOne_ended dead l _ c ((b.cutOne_other x hk).trans ht)

/-- The transmission that a list shows is cut by the first entry of its key; the later ones find nothing live. -/
theorem Block.foldl_cutOne_find {k n : Nat} {t : Tx} (l : Tbl Tx) (b : Block) (hl : Tbl.find l k = some t) (ht : Tbl.find b.txc.txs k = some t)
    (hs : t.startQ ≤ b.nowQ) (he : b.nowQ ≤ t.endQ) :
    ∃ c, Tbl.find (l.foldl (Block.cutOne n) b).txc.txs k = some ((t.endOn n (.cut b.nowQ)).stamped c) := by
  induction l generalizing b with
  | nil => cases hl
  | cons x l ih =>
    have q : (b.cutOne n x).nowQ = b.nowQ := Block.nowQ_congr (b.cutOne_txsOnly n x).clk
    obtain ⟨j, y⟩ := x
    rw [Tbl.find] at hl
    split at hl
    · next hj =>
      cases hl
      cases hj
      obtain ⟨c, own⟩ := b.cutOne_own (n := n) ht hs he
      exact Block.foldl_cutOne_ended (t.endOn_not_live n PortEnd.noConfusion) l _ c own
    · next hj =>
      split at hl
      · cases hl
      · have rest := ih (b.cutOne n (j, y)) hl ((b.cutOne_other (j, y) (Ne.symm hj)).trans ht)
        rw [q] at rest
        exact rest hs he

theorem Block.cutPort_gateKept {n : Nat} (hn : n < 8) : GateKept b (b.cutPort n) :=
  ((GateKept.of_txsOnly (Block.foldl_cutOne_txsOnly n _ b)).trans (Block.paSettle_gateKept _ hn _)).emit _

theorem Block.cutPort_find {k n : Nat} {t : Tx} (ht : Tbl.find b.txc.txs k = some t) (hs : t.startQ ≤ b.nowQ) (he : b.nowQ ≤ t.endQ) :
    ∃ c, Tbl.find (b.cutPort n).txc.txs k = some ((t.endOn n (.cut b.nowQ)).stamped c) := by
  unfold Block.cutPort
  rw [Block.emit_txc, Block.paSettle_txs]
  exact Block.foldl_cutOne_find _ b ht ht hs he

theorem Block.cutPort_out (n : Nat) : .sampleGate n true (b.nowQ + 40 * qDsp) ∈ (b.cutPort n).out := by
  have q : (b.txc.txs.foldl (Block.cutOne n) b).nowQ = b.nowQ := Block.nowQ_congr (Block.foldl_cutOne_txsOnly n _ b).clk
  unfold Block.cutPort
  rw [q, Block.emit_out]
  exact List.mem_append_right _ (List.mem_singleton.2 rfl)

/-! ### All gated ports -/

theorem lt_of_mem_maskPorts {m n : Nat} (h : n ∈ maskPorts m) : n < 8 := List.mem_range.1 (List.mem_filter.1 h).1

theorem mem_maskPorts {m n : Nat} (hn : n < 8) (h : bitOf m n = true) : n ∈ maskPorts m := List.mem_filter.2 ⟨List.mem_range.2 hn, h⟩

theorem maskPorts_contains (m n : Nat) : (maskPorts m).contains n = (decide (n < 8) && bitOf m n) := by
  rw [Bool.eq_iff_iff]
  simp [maskPorts]

theorem Block.foldl_cutPort_find {k : Nat} {t : Tx} (l : List Nat) (b : Block) (hl : ∀ n ∈ l, n < 8) (ht : Tbl.find b.txc.txs k = some t)
    (hs : t.startQ ≤ b.nowQ) (he : b.nowQ ≤ t.endQ) : ∃ c, Tbl.find (l.foldl Block.cutPort b).txc.txs k = some ((t.endAll l (.cut b.nowQ)).stamped c) := by
  induction l generalizing b t with
  | nil =>
    rw [Tx.endAll_nil]
    exact ⟨_, ht⟩
  | cons n l ih =>
    have q : (b.cutPort n).nowQ = b.nowQ := Block.nowQ_congr (b.cutPort_gateKept (hl n List.mem_cons_self)).clk
    obtain ⟨c, cut⟩ := b.cutPort_find (n := n) ht hs he
    have rest := ih (b.cutPort n) (fun m hm => hl m (List.mem_cons_of_mem _ hm)) cut
    rw [q] at rest
    rw [← t.endOn_endAll n l (e := .cut b.nowQ) PortEnd.noConfusion]
    exact rest hs he

theorem Block.foldl_cutPort_out (l : List Nat) (b : Block) (hl : ∀ n ∈ l, n < 8) {n : Nat} (hn : n ∈ l) :
    .sampleGate n true (b.nowQ + 40 * qDsp) ∈ (l.foldl Block.cutPort b).out := by
  induction l generalizing b with
  | nil => exact absurd hn List.not_mem_nil
  | cons m l ih =>
    have q : (b.cutPort m).nowQ = b.nowQ := Block.nowQ_congr (b.cutPort_gateKept (hl m List.mem_cons_self)).clk
    have below (j : Nat) (hj : j ∈ l) : j < 8 := hl j (List.mem_cons_of_mem _ hj)
    rcases List.mem_cons.1 hn with rfl | hn
    · exact (GateKept.foldl l _ fun c j hj => c.cutPort_gateKept (below j hj)).out.subset (b.cutPort_out n)
    · exact q ▸ ih (b.cutPort m) below hn

theorem Block.clrCut_gateKept : GateKept b b.clrCut := by
  rw [b.clrCut_eq]
  exact .foldl _ b fun c n hn => c.cutPort_gateKept (lt_of_mem_maskPorts hn)

theorem Block.clrCut_out {n : Nat} (hn : n < 8) (gated : bitOf (b.rd CLR_CTL.PORTMASK) n = true) :
    .sampleGate n true (b.nowQ + 40 * qDsp) ∈ b.clrCut.out := by
  rw [b.clrCut_eq]
  exact Block.foldl_cutPort_out _ b (fun _ => lt_of_mem_maskPorts) (mem_maskPorts hn gated)

theorem Block.clrCut_find {k : Nat} {t : Tx} (ht : Tbl.find b.txc.txs k = some t) (hs : t.startQ ≤ b.nowQ) (he : b.nowQ ≤ t.endQ) :
    ∃ y, Tbl.find b.clrCut.txc.txs k = some y ∧ y.ports = t.ports.map (fun p =>
      if decide (p.port < 8) && bitOf (b.rd CLR_CTL.PORTMASK) p.port && p.ended == .live then { p with ended := .cut b.nowQ } else p) := by
  obtain ⟨c, cut⟩ := Block.foldl_cutPort_find _ b (fun _ => lt_of_mem_maskPorts (m := b.rd CLR_CTL.PORTMASK)) ht hs he
  rw [b.clrCut_eq]
  refine ⟨_, cut, ?_⟩
  unfold Tx.stamped Tx.endAll
  simp only [maskPorts_contains]

end Sys2Proof.Machine
end

section
/-! SUPPORT. The commands of the clearing port and of the transmit chain's switches (R189, R192–R197, R201). -/

namespace Sys2Proof.Machine

variable (b : Block)

/-! ### A capture (R194) -/

/-- A pair of registers reads as it was stored. -/
theorem Block.rd64_wr64 (lo hi : Fld) {v : Nat} (n : Nat) (h : hi.off n ≠ lo.off n) (hv : v < 2 ^ 64) : (b.wr64 lo hi v n).rd64 lo hi n = v := by
  unfold Block.rd64 Block.wr64
  rw [Block.reg_setReg_same, Block.reg_setReg_other _ _ _ _ h.symm, Block.reg_setReg_same, BitVec.toNat_ofNat, BitVec.toNat_ofNat]
  omega

/-- From `b` to `c` time is accounted to clearing: CLR_TIME and the record of clearing may change. -/
structure Accrues (b c : Block) : Prop where
  clk : c.clk = b.clk
  pins : c.pins = b.pins
  out : c.out = b.out
  txs : c.txc.txs = b.txc.txs
  regs : RegsKept b c [CLR_TIME.all.base]

theorem Accrues.refl (b : Block) : Accrues b b := ⟨rfl, rfl, rfl, rfl, .refl _ _⟩

/-- The record of clearing replaced. -/
def Block.setClr (b : Block) (r : Clr) : Block := { b with txc := { b.txc with clr := r } }

theorem Accrues.setClr {b c : Block} (h : Accrues b c) (r : Clr) : Accrues b (c.setClr r) := ⟨h.clk, h.pins, h.out, h.txs, h.regs.trans (.of_regs rfl)⟩

theorem Accrues.incBy {b c : Block} (h : Accrues b c) (k : Nat) : Accrues b (c.incBy CLR_TIME.all k) :=
  ⟨h.clk, h.pins, h.out, h.txs, h.regs.incBy _ _ _ List.mem_cons_self⟩

theorem Block.clrAccrue_accrues : Accrues b b.clrAccrue := by
  unfold Block.clrAccrue
  split
  · exact .refl b
  · exact ((Accrues.refl b).setClr _).incBy _

/-- The clearing so far is accounted, and the capture is now. -/
def Block.clrTimed (b : Block) : Block :=
  let c := b.clrAccrue.when (!b.clrAccrue.bit CLR_STAT.ACTIVE) (fun b => b.setClr { b.txc.clr with accFrom := b.nowQ })
  c.setClr { c.txc.clr with capture := c.nowQ }

theorem Block.clrTimed_accrues : Accrues b b.clrTimed := by
  have started : Accrues b (b.clrAccrue.when (!b.clrAccrue.bit CLR_STAT.ACTIVE) (fun b => b.setClr { b.txc.clr with accFrom := b.nowQ })) := by
    unfold Block.when
    split
    · exact b.clrAccrue_accrues.setClr _
    · exact b.clrAccrue_accrues
  exact started.setClr _

theorem Block.clrTimed_capture : b.clrTimed.txc.clr.capture = b.nowQ := Block.nowQ_congr b.clrTimed_accrues.clk

/-- The start of clearing shows in the registers. -/
def Block.clrShown (b : Block) : Block := ((b.set CLR_EVT.CLR_START).set CLR_STAT.ACTIVE).set CLR_STAT.REQ

theorem Block.clrShown_kept : RegsKept b b.clrShown [CLR_EVT.all.base, CLR_STAT.all.base] :=
  (((RegsKept.refl b _).set CLR_EVT.CLR_START 0 (by decide)).set CLR_STAT.ACTIVE 0 (by decide)).set CLR_STAT.REQ 0 (by decide)

theorem Block.clrShown_bits : b.clrShown.bit CLR_STAT.ACTIVE = true ∧ b.clrShown.bit CLR_STAT.REQ = true ∧ b.clrShown.bit CLR_EVT.CLR_START = true := by
  have kept := ((RegsKept.refl (b.set CLR_EVT.CLR_START) [CLR_STAT.all.base]).set CLR_STAT.ACTIVE 0 (by decide)).set CLR_STAT.REQ 0 (by decide)
  refine ⟨?_, Block.bit_set_same _ _ _ (by decide) (by decide), ?_⟩
  · exact (Block.bit_set_disjoint _ _ _ _ _ (by decide)).trans (Block.bit_set_same _ _ _ (by decide) (by decide))
  · exact (kept.bit CLR_EVT.CLR_START 0 (by decide)).trans (b.bit_set_same _ _ (by decide) (by decide))

/-- The capture is counted and stamped. -/
def Block.clrStamped (b : Block) : Block := (b.inc CLR_CNT.all).wr64 CLR_LAST_LO.all CLR_LAST_HI.all b.clk.htime.toNat

theorem Block.clrStamped_kept : RegsKept (b.inc CLR_CNT.all) b.clrStamped [CLR_LAST_LO.all.base, CLR_LAST_HI.all.base] :=
  ((RegsKept.refl _ _).setReg (o := CLR_LAST_LO.all.off 0) (by decide) _).setReg (o := CLR_LAST_HI.all.off 0) (by decide) _

theorem Block.clrStamped_count : b.clrStamped.rd CLR_CNT.all = min (b.rd CLR_CNT.all + 1) (2 ^ 32 - 1) :=
  (b.clrStamped_kept.rd CLR_CNT.all 0 (by decide)).trans (b.rd_inc_same _ _ (by decide))

theorem Block.clrStamped_stamp : b.clrStamped.rd64 CLR_LAST_LO.all CLR_LAST_HI.all = b.clk.htime.toNat :=
  (b.inc CLR_CNT.all).rd64_wr64 _ _ 0 (by decide) b.clk.htime.isLt

/-- The block of a capture as the gated ports are cut. -/
def Block.clrMarked (b : Block) : Block := b.clrTimed.clrStamped.clrShown

theorem Block.clrCapture_eq : b.clrCapture = b.clrMarked.clrCut := rfl

theorem Block.clrShown_parts : b.clrShown.clk = b.clk ∧ b.clrShown.pins = b.pins ∧ b.clrShown.txc = b.txc := ⟨rfl, rfl, rfl⟩

@[simp] theorem Block.inc_clk (f : Fld) (n : Nat) : (b.inc f n).clk = b.clk := rfl
@[simp] theorem Block.inc_pins (f : Fld) (n : Nat) : (b.inc f n).pins = b.pins := rfl
@[simp] theorem Block.inc_txc (f : Fld) (n : Nat) : (b.inc f n).txc = b.txc := rfl

theorem Block.clrStamped_parts : b.clrStamped.clrShown.clk = b.clk ∧ b.clrStamped.clrShown.pins = b.pins ∧ b.clrStamped.clrShown.txc = b.txc := by
  obtain ⟨clk, pins, txc⟩ := b.clrStamped.clrShown_parts
  exact ⟨clk.trans (b.inc_clk CLR_CNT.all 0), pins.trans (b.inc_pins CLR_CNT.all 0), txc.trans (b.inc_txc CLR_CNT.all 0)⟩

theorem Block.clrMarked_nowQ : b.clrMarked.nowQ = b.nowQ := Block.nowQ_congr (b.clrTimed.clrStamped_parts.1.trans b.clrTimed_accrues.clk)

theorem Block.clrMarked_txs : b.clrMarked.txc.txs = b.txc.txs := (congrArg Txc.txs b.clrTimed.clrStamped_parts.2.2).trans b.clrTimed_accrues.txs

theorem Block.clrMarked_mask : b.clrMarked.rd CLR_CTL.PORTMASK = b.rd CLR_CTL.PORTMASK := by
  have counted := (RegsKept.refl b.clrTimed [CLR_CNT.all.base]).incBy CLR_CNT.all 1 0 (by decide)
  exact ((b.clrTimed.clrStamped.clrShown_kept.rd _ 0 (by decide)).trans (b.clrTimed.clrStamped_kept.rd _ 0 (by decide))).trans
    ((counted.rd _ 0 (by decide)).trans (b.clrTimed_accrues.regs.rd _ 0 (by decide)))

theorem Block.clrCapture_gateKept : GateKept b.clrMarked b.clrCapture := by
  rw [b.clrCapture_eq]
  exact b.clrMarked.clrCut_gateKept

theorem Block.clrCapture_pins : b.clrCapture.pins = b.pins := b.clrCapture_gateKept.pins.trans (b.clrTimed.clrStamped_parts.2.1.trans b.clrTimed_accrues.pins)

theorem Block.clrCapture_capture : b.clrCapture.txc.clr.capture = b.nowQ := by
  rw [b.clrCapture_gateKept.clr]
  exact (congrArg (·.clr.capture) b.clrTimed.clrStamped_parts.2.2).trans b.clrTimed_capture

theorem Block.clrCapture_bits : b.clrCapture.bit CLR_STAT.ACTIVE = true ∧ b.clrCapture.bit CLR_STAT.REQ = true ∧ b.clrCapture.bit CLR_EVT.CLR_START = true := by
  have kept := b.clrCapture_gateKept.regs
  rw [kept.bit CLR_STAT.ACTIVE 0 (by decide), kept.bit CLR_STAT.REQ 0 (by decide), kept.bit CLR_EVT.CLR_START 0 (by decide)]
  exact b.clrTimed.clrStamped.clrShown_bits

theorem Block.clrCapture_count : b.clrCapture.rd CLR_CNT.all = min (b.rd CLR_CNT.all + 1) (2 ^ 32 - 1) := by
  rw [b.clrCapture_gateKept.regs.rd CLR_CNT.all 0 (by decide), ← b.clrTimed_accrues.regs.rd CLR_CNT.all 0 (by decide), ← b.clrTimed.clrStamped_count]
  exact b.clrTimed.clrStamped.clrShown_kept.rd CLR_CNT.all 0 (by decide)

theorem Block.clrCapture_stamp : b.clrCapture.rd64 CLR_LAST_LO.all CLR_LAST_HI.all = b.clk.htime.toNat := by
  rw [← b.clrTimed_accrues.clk, ← b.clrTimed.clrStamped_stamp]
  unfold Block.rd64
  rw [b.clrCapture_gateKept.regs _ (by decide), b.clrCapture_gateKept.regs _ (by decide)]
  unfold Block.clrMarked
  rw [Block.clrShown_kept _ _ (by decide), Block.clrShown_kept _ _ (by decide)]

/-- The first zero sample leaves a gated port 40 DSP_CLK cycles later (R193). -/
theorem Block.clrCapture_out {n : Nat} (hn : n < 8) (gated : bitOf (b.rd CLR_CTL.PORTMASK) n = true) :
    .sampleGate n true (b.nowQ + 40 * qDsp) ∈ b.clrCapture.out := by
  rw [← b.clrMarked_nowQ, b.clrCapture_eq]
  exact b.clrMarked.clrCut_out hn (by rw [b.clrMarked_mask]; exact gated)

/-- What radiates at the capture is cut on the gated ports (R197). -/
theorem Block.clrCapture_find {k : Nat} {t : Tx} (ht : Tbl.find b.txc.txs k = some t) (hs : t.startQ ≤ b.nowQ) (he : b.nowQ ≤ t.endQ) :
    ∃ y, Tbl.find b.clrCapture.txc.txs k = some y ∧ y.ports = t.ports.map (fun p =>
      if decide (p.port < 8) && bitOf (b.rd CLR_CTL.PORTMASK) p.port && p.ended == .live then { p with ended := .cut b.nowQ } else p) := by
  rw [← b.clrMarked_nowQ] at hs he ⊢
  rw [← b.clrMarked_mask, b.clrCapture_eq]
  exact b.clrMarked.clrCut_find (by rw [b.clrMarked_txs]; exact ht) hs he

/-! ### CLR_REQ rises and falls (R193–R195, R202) -/

/-- CLR_REQ is at a level. -/
def Block.reqAt (b : Block) (v : Bool) : Block := { b with pins := { b.pins with clrReq := v } }

theorem clrReqRise_eq (s : State) : exec .clrReqRise s = runCmd s (fun b =>
    if b.pins.clrReq then b
    else if b.pwr.rst.isSome then (b.reqAt true).emit (.pin "CLR_ACK" 0 (b.reqAt true).clrAck)
    else (b.reqAt true).clrCapture.emit (.pin "CLR_ACK" 0 (b.reqAt true).clrCapture.clrAck)) := by
  change execClrReqRise s = _
  unfold execClrReqRise
  congr 1
  funext b
  split
  · rfl
  · unfold Block.reqAt
    dsimp only
    split <;> rfl

theorem clrReqRise_high (s : State) (h : s.blk.pins.clrReq = true) : NoEffect .clrReqRise s :=
  gives_of_runCmd (clrReqRise_eq s) (if_pos h)

theorem clrReqRise_held (s : State) (h : s.blk.pins.clrReq = false) (held : s.blk.pwr.rst.isSome = true) :
    Gives .clrReqRise s ((s.blk.start.reqAt true).emit (.pin "CLR_ACK" 0 (s.blk.start.reqAt true).clrAck)) :=
  gives_of_runCmd (clrReqRise_eq s) ((if_neg (ne_true_of_eq_false h)).trans (if_pos held))

theorem clrReqRise_runs (s : State) (h : s.blk.pins.clrReq = false) (free : s.blk.pwr.rst = none) : Runs .clrReqRise s (fun t =>
    t.pins = { s.blk.pins with clrReq := true } ∧ (∀ n, n < 8 → bitOf (s.blk.rd CLR_CTL.PORTMASK) n = true →
      .sampleGate n true (s.blk.nowQ + 40 * qDsp) ∈ t.out) ∧ t.bit CLR_STAT.ACTIVE = true ∧ t.bit CLR_STAT.REQ = true ∧ t.bit CLR_EVT.CLR_START = true
    ∧ t.rd CLR_CNT.all = min (s.blk.rd CLR_CNT.all + 1) (2 ^ 32 - 1) ∧ t.txc.clr.capture = s.blk.nowQ
    ∧ t.rd64 CLR_LAST_LO.all CLR_LAST_HI.all = s.blk.clk.htime.toNat
    ∧ ∀ h x, Tbl.find s.blk.txc.txs h = some x → x.startQ ≤ s.blk.nowQ → s.blk.nowQ ≤ x.endQ → ∃ y, Tbl.find t.txc.txs h = some y
      ∧ y.ports = x.ports.map (fun p => if decide (p.port < 8) && bitOf (s.blk.rd CLR_CTL.PORTMASK) p.port && p.ended == .live then
          { p with ended := .cut s.blk.nowQ } else p)) := by
  let d := s.blk.start.reqAt true
  have unheld : ¬ s.blk.start.pwr.rst.isSome = true := by rw [Block.start_pwr, free]; exact Bool.false_ne_true
  obtain ⟨active, req, event⟩ := d.clrCapture_bits
  refine runs_of_effect (b := d.clrCapture.emit (.pin "CLR_ACK" 0 d.clrCapture.clrAck)) (clrReqRise_eq s)
    ((if_neg (ne_true_of_eq_false h)).trans (if_neg unheld)) ?_
  generalize d.clrCapture.clrAck = ack
  simp only [Block.canon_pins, Block.canon_out, Block.canon_bit, Block.canon_rd, Block.canon_txc, Block.emit_pins, Block.emit_bit, Block.emit_rd, Block.emit_txc]
  refine ⟨d.clrCapture_pins, fun n hn gated => List.mem_append_left _ (d.clrCapture_out hn gated), active, req, event, d.clrCapture_count,
    d.clrCapture_capture, ?_, fun k x hx hs he => d.clrCapture_find hx hs he⟩
  unfold Block.rd64
  rw [Block.canon_reg, Block.canon_reg]
  exact d.clrCapture_stamp

theorem ackFaultCheck_eq (s : State) : exec .ackFaultCheck s = runCmd s (fun b =>
    if !b.pins.clrReq then b
    else if (b.toQ (b.txc.clr.capture + 16 * qDsp)).clrAck then b.toQ (b.txc.clr.capture + 16 * qDsp)
    else (b.toQ (b.txc.clr.capture + 16 * qDsp)).set CLR_EVT.ACK_FAULT) := rfl

/-- CLR_REQ has fallen, as the record of clearing holds. -/
def Block.reqFallen (b : Block) : Block := (b.reqAt false).setClr { b.txc.clr with fall := b.nowQ }

theorem clrReqFall_eq (s : State) : exec .clrReqFall s = runCmd s (fun b =>
    if !b.pins.clrReq then b else (b.reqFallen.clr CLR_STAT.REQ).emit (.pin "CLR_ACK" 0 false)) := rfl

theorem clrReqFall_low (s : State) (h : s.blk.pins.clrReq = false) : NoEffect .clrReqFall s ∧ NoEffect .ackFaultCheck s := by
  have low : (!s.blk.start.pins.clrReq) = true := by rw [Block.start_pins, h]; rfl
  exact ⟨gives_of_runCmd (clrReqFall_eq s) (if_pos low), gives_of_runCmd (ackFaultCheck_eq s) (if_pos low)⟩

theorem ackFaultCheck_gives (s : State) (h : s.blk.pins.clrReq = true) :
    let b := s.blk.start.toQ (s.blk.txc.clr.capture + 16 * qDsp)
    Gives .ackFaultCheck s (if b.clrAck = true then b else b.set CLR_EVT.ACK_FAULT) := by
  have high : ¬ (!s.blk.start.pins.clrReq) = true := by rw [Block.start_pins, h]; exact Bool.false_ne_true
  exact gives_of_runCmd (ackFaultCheck_eq s) (if_neg high)

theorem clrReqFall_runs (s : State) (h : s.blk.pins.clrReq = true) : Runs .clrReqFall s (fun t =>
    t.pins = { s.blk.pins with clrReq := false } ∧ t.bit CLR_STAT.REQ = false ∧ t.bit CLR_STAT.ACTIVE = s.blk.bit CLR_STAT.ACTIVE
    ∧ t.txc.clr.fall = s.blk.nowQ ∧ t.out = [.pin "CLR_ACK" 0 false] ∧ RegsKept s.blk t [CLR_STAT.all.base] ∧ t.txc.txs = s.blk.txc.txs) := by
  have high : ¬ (!s.blk.start.pins.clrReq) = true := by rw [Block.start_pins, h]; exact Bool.false_ne_true
  have fallen : RegsKept s.blk s.blk.start.reqFallen [CLR_STAT.all.base] := .of_regs rfl
  have kept := fallen.clr CLR_STAT.REQ 0 (by decide)
  have active := Block.bit_wr_disjoint s.blk.start.reqFallen CLR_STAT.REQ CLR_STAT.ACTIVE 0 0 0 (by decide)
  refine runs_of_effect (clrReqFall_eq s) (if_neg high) ?_
  simp only [Block.canon_pins, Block.canon_txc, Block.canon_out, Block.canon_bit, Block.emit_pins, Block.emit_txc, Block.emit_out, Block.emit_bit, Block.clr_txc]
  exact ⟨rfl, Block.bit_clr_same _ _ _ (by decide), active, rfl, rfl, (kept.emit _).canon, rfl⟩

/-! ### Clearing ends (R194, R195) -/

/-- When clearing ends: CLR_REQ is synchronised low, and the hold is over. -/
def Block.clrEndQ (b : Block) : Nat := max (b.txc.clr.fall + b.freeNat % 25 * qDsp) (b.txc.clr.capture + b.rd CLR_CTL.MIN_HOLD * 8 * qDsp)

/-- Clearing is over, as the registers show. -/
def Block.clrEnded (b : Block) : Block := (((b.took.toQ b.clrEndQ).clrAccrue).clr CLR_STAT.ACTIVE).set CLR_EVT.CLR_END

/-- The sample gates of the ports in PORTMASK let samples through again three CLR_CLK cycles after `q`. -/
def Block.gatesOpen (b : Block) (q : Nat) : Block :=
  (maskPorts (b.rd CLR_CTL.PORTMASK)).foldl (fun b n => b.emit (.sampleGate n false (q + 24 * qDsp))) b

theorem clearingEnd_eq (s : State) : exec .clearingEnd s = runCmd s (fun b =>
    if !b.bit CLR_STAT.ACTIVE || b.pins.clrReq then b else b.clrEnded.gatesOpen b.clrEndQ) := rfl

theorem Block.gatesOpen_eq (q : Nat) : b.gatesOpen q = { b with out := (b.gatesOpen q).out } := by
  unfold Block.gatesOpen
  generalize maskPorts (b.rd CLR_CTL.PORTMASK) = l
  induction l generalizing b with
  | nil => rfl
  | cons n l ih =>
    rw [List.foldl_cons]
    exact (ih _).trans rfl

theorem clearingEnd_req (s : State) (h : s.blk.pins.clrReq = true) : NoEffect .clearingEnd s :=
  gives_of_runCmd (clearingEnd_eq s) (if_pos (by rw [Block.start_pins, h, Bool.or_true]))

theorem clearingEnd_inactive (s : State) (h : s.blk.bit CLR_STAT.ACTIVE = false) : NoEffect .clearingEnd s :=
  gives_of_runCmd (clearingEnd_eq s) (if_pos (by rw [Block.start_bit, h]; rfl))

theorem Block.took_toQ_beat (q : Nat) : (b.took.toQ q).clk.beat = (b.toQ q).clk.beat := rfl

theorem Block.clrEnded_kept : RegsKept b b.clrEnded [CLR_STAT.all.base, CLR_EVT.all.base, CLR_TIME.all.base] := by
  have timed : RegsKept b (b.took.toQ b.clrEndQ) [CLR_STAT.all.base, CLR_EVT.all.base, CLR_TIME.all.base] := .of_regs (Block.toQ_regs _ _)
  have accrued := timed.trans ((b.took.toQ b.clrEndQ).clrAccrue_accrues.regs.mono (by decide))
  exact (accrued.clr CLR_STAT.ACTIVE 0 (by decide)).set CLR_EVT.CLR_END 0 (by decide)

theorem Block.clrEnded_bits : b.clrEnded.bit CLR_STAT.ACTIVE = false ∧ b.clrEnded.bit CLR_EVT.CLR_END = true := by
  refine ⟨?_, Block.bit_set_same _ _ _ (by decide) (by decide)⟩
  exact (Block.bit_of_rd (Block.rd_set_other _ CLR_EVT.CLR_END CLR_STAT.ACTIVE 0 0 (by decide))).trans (Block.bit_clr_same _ _ _ (by decide))

theorem Block.clrEnded_beat : b.clrEnded.clk.beat = (b.toQ b.clrEndQ).clk.beat := by
  unfold Block.clrEnded
  rw [Block.set_clk, Block.clr_clk, (Block.clrAccrue_accrues _).clk]
  exact b.took_toQ_beat _

theorem clearingEnd_runs (s : State) (h : s.blk.pins.clrReq = false) (active : s.blk.bit CLR_STAT.ACTIVE = true) : Runs .clearingEnd s (fun t =>
    t.bit CLR_STAT.ACTIVE = false ∧ t.bit CLR_EVT.CLR_END = true ∧ RegsKept s.blk t [CLR_STAT.all.base, CLR_EVT.all.base, CLR_TIME.all.base]
    ∧ t.clk.beat = (s.blk.start.toQ s.blk.clrEndQ).clk.beat) := by
  have live : ¬ (!s.blk.start.bit CLR_STAT.ACTIVE || s.blk.start.pins.clrReq) = true := by
    rw [Block.start_bit, active, Block.start_pins, h]
    exact Bool.false_ne_true
  refine runs_of_effect (clearingEnd_eq s) (if_neg live) ?_
  obtain ⟨ended, event⟩ := s.blk.start.clrEnded_bits
  rw [Block.gatesOpen_eq]
  refine ⟨?_, ?_, ?_, s.blk.start.clrEnded_beat⟩
  · rw [Block.canon_bit]
    exact ended
  · rw [Block.canon_bit]
    exact event
  · exact RegsKept.canon s.blk.start.clrEnded_kept

/-! ### The switches of the transmit chain (R189, R201) -/

theorem txcEnable_eq (s : State) (en : Bool) : exec (.txcEnable en) s = runCmd s (fun b => b.txcEnable en) := rfl

theorem txcSwitches_give (s : State) : Gives (.txcEnable true) s (s.blk.start.set TXC_CTL.EN) ∧ Gives .dwellLock s (s.blk.start.set TXC_CTL.DWELL_LOCK)
    ∧ (s.blk.bit TXC_CTL.EN = false → NoEffect (.txcEnable false) s)
    ∧ (s.blk.bit TXC_CTL.EN = true → Gives (.txcEnable false) s (s.blk.start.clr TXC_CTL.EN).txFlush)
    ∧ Gives .txcFlush s s.blk.start.txFlush := by
  refine ⟨gives_of_runCmd (txcEnable_eq s true) rfl, gives_of_runCmd (f := fun b => b.set TXC_CTL.DWELL_LOCK) rfl rfl, fun off => ?_, fun on => ?_,
    gives_of_runCmd (f := Block.txFlush) rfl rfl⟩
  · exact gives_of_runCmd (txcEnable_eq s false) (if_neg (ne_true_of_eq_false off))
  · exact gives_of_runCmd (txcEnable_eq s false) (if_pos on)

end Sys2Proof.Machine
end

section
/-! SUPPORT. The self-test of a port's gates (R199, R200), and the obligation on how the transmitter stops and clears. -/

namespace Sys2Proof.Machine

variable (b : Block)

/-! ### A port's bit of a field of eight -/

/-- Bit `n` of a field of eight bits takes a value. -/
def Block.markBit (b : Block) (f : Fld) (n : Nat) (v : Bool) : Block := b.wr f (if v then b.rd f ||| 2 ^ n else b.rd f &&& (255 ^^^ 2 ^ n))

/-- The ports' bits of the field: that of port `n` reads as written, and every other one as it was. -/
theorem Block.markBit_bit (f : Fld) {n j : Nat} (v : Bool) (hf : f.hi < 32) (hw : f.width = 8) (hj : j < 8) :
    bitOf ((b.markBit f n v).rd f) j = if j = n then v else bitOf (b.rd f) j := by
  have full : (255 : Nat).testBit j = true := by
    rw [show (255 : Nat) = 2 ^ 8 - 1 by decide, Nat.testBit_two_pow_sub_one, decide_eq_true hj]
  unfold Block.markBit bitOf
  rw [b.rd_wr_same f _ 0 hf, hw, Nat.testBit_mod_two_pow, decide_eq_true hj, Bool.true_and]
  by_cases e : j = n
  · subst e
    cases v <;> simp [Nat.testBit_or, Nat.testBit_and, Nat.testBit_xor, full]
  · have apart : (2 ^ n).testBit j = false := by rw [Nat.testBit_two_pow]; exact decide_eq_false (Ne.symm e)
    cases v <;> simp [Nat.testBit_or, Nat.testBit_and, Nat.testBit_xor, full, apart, e]

theorem Block.markBit_disjoint (f g : Fld) (n : Nat) (v : Bool) (h : f.hi < g.lo ∨ g.hi < f.lo) : (b.markBit f n v).rd g = b.rd g :=
  b.rd_wr_disjoint f g _ 0 0 h

theorem RegsKept.markBit {a b : Block} {l : List Nat} (h : RegsKept a b l) (f : Fld) (n : Nat) (v : Bool) (ho : f.off 0 ∈ l) :
    RegsKept a (b.markBit f n v) l := h.wr f _ 0 ho

theorem GateKept.markBit {a b : Block} (h : GateKept a b) (f : Fld) (n : Nat) (v : Bool) (ho : f.off 0 ∈ gateRegs) : GateKept a (b.markBit f n v) :=
  h.trans ⟨rfl, rfl, rfl, rfl, (RegsKept.refl b _).markBit f n v ho, ⟨[], List.append_nil _⟩⟩

/-! ### The steps of a test -/

/-- The test of port `n` in this superframe is recorded, and its port's bits of PA_FAIL and SMP_FAIL are written. -/
def Block.testMarked (b : Block) (n : Nat) (pa smp : Bool) : Block :=
  (({ b with txc := { b.txc with tested := Tbl.put (fun _ => 2 ^ 32) b.txc.tested n b.sf } }.markBit CLR_TEST_ST.PA_FAIL n (!pa)).markBit
    CLR_TEST_ST.SMP_FAIL n (!smp))

/-- The event of each failure is set. -/
def Block.testEvents (b : Block) (pa smp : Bool) : Block :=
  (b.when (!pa) (fun b => b.set CLR_EVT.TEST_FAIL_PA)).when (!smp) (fun b => b.set CLR_EVT.TEST_FAIL_SMP)

/-- A gate that does not force its pad lets the enable through from `q` for 32 DSP_CLK cycles. -/
def Block.testPins (b : Block) (n : Nat) (gate : Bool) (q : Nat) : Block :=
  b.when (!gate) (fun b => (b.emit (.pinAt "PA_EN" n false q)).emit (.pinAt "PA_EN" n true (q + 32 * qDsp)))

/-- A port that passes is no longer stopped; one that fails is stopped, and aborts, under FAIL_STOP. -/
def Block.testVerdict (b : Block) (n : Nat) (ok : Bool) : Block :=
  if ok then b.markBit TXC_STAT.STOPPED n false
  else if b.bit CLR_CTL.FAIL_STOP then (b.markBit TXC_STAT.STOPPED n true).portAbort n else b

/-- A test of port `n` that is done. -/
def Block.gateTested (b : Block) (n : Nat) (gate smp : Bool) : Block :=
  let pa := gate && !b.pins.padLow.getLsbD n
  (((b.testMarked n pa smp).testEvents pa smp).testPins n gate (cellOf b.clk.htime * 2 ^ 24 * qHt)).testVerdict n (pa && smp)

theorem gateSelfTest_eq (s : State) {n : Nat} (g m r : Bool) (hn : n < 8) : exec (.gateSelfTest n g m r) s = runCmd s (fun b =>
    if !b.testDue n then b else if r then b.inc CLR_TEST_ST.SKIPPED else b.gateTested n g m) := by
  have due (c : Block) : (c.rd CLR_CTL.TEST_LOG2 == 15 || !bitOf (c.rd CLR_CTL.PORTMASK) n || c.sf % 2 ^ c.rd CLR_CTL.TEST_LOG2 != 0
      || cellOf c.clk.htime % 256 == 0 || c.pins.clrReq
      || c.pinsBusy n (cellOf c.clk.htime * 2 ^ 24 * qHt) (cellOf c.clk.htime * 2 ^ 24 * qHt + 64 * qDsp)
      || Tbl.get (fun _ => 2 ^ 32) c.txc.tested n == c.sf) = !c.testDue n := by
    unfold Block.testDue
    simp only [bne, Bool.not_and, Bool.not_not]
  change execGateSelfTest n g m r s = _
  unfold execGateSelfTest
  simp only [Nat.mod_eq_of_lt hn, due]
  rfl

/-! ### What a test leaves -/

theorem Block.testMarked_kept (n : Nat) (pa smp : Bool) : RegsKept b (b.testMarked n pa smp) [CLR_TEST_ST.all.base] :=
  (RegsKept.markBit (.of_regs rfl) CLR_TEST_ST.PA_FAIL n _ List.mem_cons_self).markBit CLR_TEST_ST.SMP_FAIL n _ List.mem_cons_self

theorem Block.testMarked_tested (n : Nat) (pa smp : Bool) : Tbl.get (fun _ => 2 ^ 32) (b.testMarked n pa smp).txc.tested n = b.sf :=
  Tbl.get_put_same _ b.txc.tested n b.sf

theorem Block.testMarked_bits {n j : Nat} (pa smp : Bool) (hj : j < 8) :
    bitOf ((b.testMarked n pa smp).rd CLR_TEST_ST.PA_FAIL) j = (if j = n then !pa else bitOf (b.rd CLR_TEST_ST.PA_FAIL) j)
    ∧ bitOf ((b.testMarked n pa smp).rd CLR_TEST_ST.SMP_FAIL) j = if j = n then !smp else bitOf (b.rd CLR_TEST_ST.SMP_FAIL) j := by
  unfold Block.testMarked
  constructor
  · rw [Block.markBit_disjoint _ _ _ _ _ (by decide), Block.markBit_bit _ _ _ (by decide) rfl hj]
    rfl
  · rw [Block.markBit_bit _ _ _ (by decide) rfl hj, Block.markBit_disjoint _ _ _ _ _ (by decide)]
    rfl

theorem Block.testEvents_kept (pa smp : Bool) : RegsKept b (b.testEvents pa smp) [CLR_EVT.all.base] :=
  ((RegsKept.refl b _).when_set CLR_EVT.TEST_FAIL_PA 0 _ List.mem_cons_self).when_set CLR_EVT.TEST_FAIL_SMP 0 _ List.mem_cons_self

theorem Block.testEvents_txc (pa smp : Bool) : (b.testEvents pa smp).txc = b.txc :=
  (Block.when_keeps (·.txc) rfl _).trans (Block.when_keeps (·.txc) rfl _)

theorem Block.testEvents_bits (pa smp : Bool) : (pa = false → (b.testEvents pa smp).bit CLR_EVT.TEST_FAIL_PA = true)
    ∧ (smp = false → (b.testEvents pa smp).bit CLR_EVT.TEST_FAIL_SMP = true) := by
  unfold Block.testEvents
  constructor
  · rintro rfl
    cases smp with
    | true => exact b.bit_set_same _ _ (by decide) (by decide)
    | false => exact (Block.bit_set_disjoint _ _ _ _ _ (by decide)).trans (b.bit_set_same _ _ (by decide) (by decide))
  · rintro rfl
    exact Block.bit_set_same _ _ _ (by decide) (by decide)

theorem Block.testPins_gateKept (n : Nat) (gate : Bool) (q : Nat) : GateKept b (b.testPins n gate q) := by
  cases gate with
  | true => exact .refl b
  | false => exact ((GateKept.refl b).emit _).emit _

theorem Block.testPins_regs (n : Nat) (gate : Bool) (q : Nat) : (b.testPins n gate q).regs = b.regs := Block.when_keeps (·.regs) rfl _

theorem Block.testVerdict_gateKept {n : Nat} (hn : n < 8) (ok : Bool) : GateKept b (b.testVerdict n ok) := by
  have marked (v : Bool) : GateKept b (b.markBit TXC_STAT.STOPPED n v) := (GateKept.refl b).markBit _ _ _ List.mem_cons_self
  unfold Block.testVerdict
  split
  · exact marked false
  · split
    · exact (marked true).trans (Block.portAbort_gateKept _ hn)
    · exact .refl b

theorem Block.testVerdict_stopped {n j : Nat} (ok : Bool) (hj : j < 8) : bitOf ((b.testVerdict n ok).rd TXC_STAT.STOPPED) j =
    if j = n then (if ok then false else if b.bit CLR_CTL.FAIL_STOP then true else bitOf (b.rd TXC_STAT.STOPPED) j) else bitOf (b.rd TXC_STAT.STOPPED) j := by
  have marked (v : Bool) := b.markBit_bit TXC_STAT.STOPPED (n := n) v (by decide) rfl hj
  unfold Block.testVerdict
  split
  · exact marked false
  · split
    · rw [Block.portAbort_rd _ n TXC_STAT.STOPPED 0 (.inr (by decide)) (by decide)]
      exact marked true
    · exact (ite_self _).symm

/-! ### The command -/

theorem gateSelfTest_not_due (s : State) (n : Nat) (g m r : Bool) (hn : n < 8) (h : s.blk.testDue n = false) : NoEffect (.gateSelfTest n g m r) s :=
  gives_of_runCmd (gateSelfTest_eq s g m r hn) (if_pos (by rw [show s.blk.start.testDue n = false from h]; rfl))

theorem gateSelfTest_abandoned (s : State) (n : Nat) (g m : Bool) (hn : n < 8) (h : s.blk.testDue n = true) :
    Gives (.gateSelfTest n g m true) s (s.blk.start.inc CLR_TEST_ST.SKIPPED) :=
  gives_of_runCmd (gateSelfTest_eq s g m true hn) (if_neg (by rw [show s.blk.start.testDue n = true from h]; exact Bool.false_ne_true))

theorem gateSelfTest_runs (s : State) (n : Nat) (g m : Bool) (hn : n < 8) (h : s.blk.testDue n = true) :
    let pa := g && !s.blk.pins.padLow.getLsbD n
    Runs (.gateSelfTest n g m false) s (fun t =>
      (∀ j, j < 8 → bitOf (t.rd CLR_TEST_ST.PA_FAIL) j = if j = n then !pa else bitOf (s.blk.rd CLR_TEST_ST.PA_FAIL) j)
      ∧ (∀ j, j < 8 → bitOf (t.rd CLR_TEST_ST.SMP_FAIL) j = if j = n then !m else bitOf (s.blk.rd CLR_TEST_ST.SMP_FAIL) j)
      ∧ (pa = false → t.bit CLR_EVT.TEST_FAIL_PA = true) ∧ (m = false → t.bit CLR_EVT.TEST_FAIL_SMP = true)
      ∧ (∀ j, j < 8 → bitOf (t.rd TXC_STAT.STOPPED) j = if j = n then (if pa && m then false else if s.blk.bit CLR_CTL.FAIL_STOP then true
          else bitOf (s.blk.rd TXC_STAT.STOPPED) j) else bitOf (s.blk.rd TXC_STAT.STOPPED) j)
      ∧ Tbl.get (fun _ => 2 ^ 32) t.txc.tested n = s.blk.sf) := by
  intro pa
  have due : ¬ (!s.blk.start.testDue n) = true := by rw [show s.blk.start.testDue n = true from h]; exact Bool.false_ne_true
  let q := cellOf s.blk.clk.htime * 2 ^ 24 * qHt
  let c := s.blk.start.testMarked n pa m
  let d := (c.testEvents pa m).testPins n g q
  have marked : RegsKept s.blk c [CLR_TEST_ST.all.base] := s.blk.start.testMarked_kept n pa m
  have events : RegsKept c d [CLR_EVT.all.base] := (c.testEvents_kept pa m).trans (.of_regs ((c.testEvents pa m).testPins_regs n g q))
  have pins : GateKept (c.testEvents pa m) d := (c.testEvents pa m).testPins_gateKept n g q
  have verdict : GateKept d (d.testVerdict n (pa && m)) := d.testVerdict_gateKept hn _
  obtain ⟨paEvent, smpEvent⟩ := c.testEvents_bits pa m
  have field (f : Fld) (h1 : f.off 0 ∉ gateRegs) (h2 : f.off 0 ∉ [CLR_EVT.all.base]) : (d.testVerdict n (pa && m)).rd f = c.rd f :=
    (verdict.regs.rd f 0 h1).trans (events.rd f 0 h2)
  have event (f : Fld) (h1 : f.off 0 ∉ gateRegs) : (d.testVerdict n (pa && m)).bit f = (c.testEvents pa m).bit f :=
    (verdict.regs.bit f 0 h1).trans (pins.regs.bit f 0 h1)
  refine runs_of_effect (b := d.testVerdict n (pa && m)) (gateSelfTest_eq s g m false hn) ((if_neg due).trans rfl) ?_
  simp only [Block.canon_rd, Block.canon_bit, Block.canon_txc]
  refine ⟨fun j hj => ?_, fun j hj => ?_, fun hp => ?_, fun hm => ?_, fun j hj => ?_, ?_⟩
  · rw [field CLR_TEST_ST.PA_FAIL (by decide) (by decide)]
    exact (s.blk.start.testMarked_bits pa m hj).1
  · rw [field CLR_TEST_ST.SMP_FAIL (by decide) (by decide)]
    exact (s.blk.start.testMarked_bits pa m hj).2
  · rw [event CLR_EVT.TEST_FAIL_PA (by decide), paEvent hp]
  · rw [event CLR_EVT.TEST_FAIL_SMP (by decide), smpEvent hm]
  · rw [d.testVerdict_stopped _ hj, events.rd TXC_STAT.STOPPED 0 (by decide), marked.rd TXC_STAT.STOPPED 0 (by decide),
      events.bit CLR_CTL.FAIL_STOP 0 (by decide), marked.bit CLR_CTL.FAIL_STOP 0 (by decide)]
  · rw [verdict.tested, pins.tested, c.testEvents_txc]
    exact s.blk.start.testMarked_tested n pa m

/-- Settles O20: a flush stops a transmission port by port, a capture cuts it on each gated port, and a test writes its port's bits. -/
theorem transmitterStopsAndClears : Obligations.TransmitterStopsAndClears :=
  ⟨txcSwitches_give, txFlush_find, fun s h => ⟨clrReqRise_high s h, clearingEnd_req s h⟩, clearingEnd_inactive, clrReqFall_low, clrReqRise_held,
    clrReqRise_runs, clrReqFall_runs, clearingEnd_runs, ackFaultCheck_gives, gateSelfTest_not_due, gateSelfTest_abandoned, gateSelfTest_runs⟩

end Sys2Proof.Machine
end
